-- ==== Sys2Proof/Word.lean ====
section
/-! DEFINITION. Sys2Proof/Word.lean: the widths the manual treats as bits: a byte, a 32-bit register (00 R13) and a
256-bit digest (10 R323). -/

namespace Sys2Proof

/-- One byte of a frame, a message, a record or an image. -/
abbrev Byte := BitVec 8

/-- A BAR0 or BAR2 register (00 R13: all registers are 32 bits wide). -/
abbrev Word := BitVec 32

/-- A SHAKE256-256 value of 32 bytes (04 R142, 10 R323). -/
abbrev Digest := BitVec 256

end Sys2Proof
end

