-- ==== Sys2Proof/Syntax.lean ====
section
/-! DEFINITION. Sys2Proof/Syntax.lean: the commands the block takes, one constructor per row of spec/opcode_table.json, and
the types of their operands. The table gives a row no operands (its "fields" are empty); the operands are what the row's
rule says the event concerns: a port, a lane, a shed, a frame held, a mailbox, a register and a value (log 3). -/

namespace Sys2Proof

/-- The three levels of 01 R21. A shed is 0-7, a stall is its global number 0-127 (00 R3). -/
inductive Level where
  | yard
  | shed (s : Nat)
  | stall (g : Nat)
  deriving DecidableEq, Repr

/-- One counter of the module: the counter sets of 02 R48, 03 R106, 04 R144, 05 R177 and R178, 06 R223 and R228,
07 R260, 11 R376, 14 R459, 15 R478, 16 R511, and the counters named by index of 03 R99, frames and octets. -/
inductive CtrId where
  | lne (g p i : Nat)
  | prs (g p i : Nat)
  | otr (g p i : Nat)
  | que (port q i : Nat)
  | lkp (s i : Nat)
  | otrT (s i : Nat)
  | lft (s i : Nat)
  | xbr (s sub i : Nat)
  | cpl (i : Nat)
  | ost (s e i : Nat)
  | isl (l : Level) (i : Nat)
  | pwr (i : Nat)
  | named (s n : Nat) (octets : Bool)
  deriving DecidableEq, Repr

/-- One designated wide pair of 13 R412. -/
inductive PairId where
  | lne (g : Nat)
  | prs (g : Nat)
  | otr (g : Nat)
  | que (g : Nat)
  | lkp (s : Nat)
  | otrT (s : Nat)
  | lft (s : Nat)
  | xbr (s : Nat)
  | cpl
  | ost (s : Nat)
  | isl (l : Level)
  | pwr
  | capPc (s : Nat)
  | snapTime
  | ringBase (n : Nat)
  | ringWb (n : Nat)
  deriving DecidableEq, Repr

/-- One group of registers of which a read of the first latches the others (04 R147, 06 R224, 14 R460, 15 R479, 13 R431,
16 R512, 09 R312 and R317, 10 R344 and R348). -/
inductive LatchId where
  | flapLog (s : Nat)
  | freeLog (s : Nat)
  | mcheckLog (s : Nat)
  | xerrLog (l : Level)
  | accessLog
  | pwrLog (i : Nat)
  | mono
  | refused
  | flip
  | retireDrop (s : Nat)
  | nowSec
  | capSec (c : Nat)
  | tsqData (g : Nat)
  | troubleRec (l : Level)
  deriving DecidableEq, Repr

/-- The two heartbeat paths of 11 R353. -/
inductive Path where
  | coupler
  | mgmt
  deriving DecidableEq, Repr

/-- The two mains inlets (16 R490). -/
inductive Inlet where
  | a
  | b
  deriving DecidableEq, Repr

/-- What a frame of the coupler carries beside its bytes: nothing, the port of the partner that sends it, or the mark that the
partner generates it (11 R362, R363). -/
inductive CplSide where
  | plain
  | sendTo (port : Nat)
  | generate
  deriving DecidableEq, Repr

/-- The two straps of 19 R570. -/
inductive Strap where
  | refclk
  | gen4
  deriving DecidableEq, Repr

/-- The requesters of a domain stop, 16 R484. -/
inductive StopBy where
  | loft
  | drawbar
  | firmware
  | yardmaster
  | host
  deriving DecidableEq, Repr

/-- The part of one frame that a yard cell carries (06 R202): which frame, which of its bytes, and whether the cell holds
its yard descriptor (the frame begins there) and its last byte. -/
structure CellPart where
  frame  : Nat
  off    : Nat := 0
  bytes  : Nat
  starts : Bool
  ends   : Bool
  deriving DecidableEq, Repr

/-- One yard cell (06 R202): `stage` is its KIND, 1 or 2, or 0 of an idle cell, and `creditCells`, `creditDst` are the CREDIT field. -/
structure YardCell where
  stage       : Nat
  src         : Nat
  dst         : Nat
  int         : Nat
  seq         : BitVec 16
  parts       : List CellPart
  creditCells : Nat
  creditDst   : Nat
  deriving DecidableEq, Repr

/-- One yard cell as it arrives over a drawbar: its 500 bytes, and what its yard descriptors, which have no layout in the manual, say of
the frames in its payload (06 R202). -/
structure YardSlot where
  bytes : List Byte
  parts : List CellPart
  deriving DecidableEq, Repr

/-- What an express slot carries of one stream: the tag's stream, whether it is the stream's first and last slot, the guard result when
it has fallen due, and the bytes (06 R202, R209). -/
structure ExpressPart where
  frame : Nat
  first : Bool
  last  : Bool
  guard : Option Bool
  bytes : List Byte
  deriving DecidableEq, Repr

/-- A received frame: its bytes, FCS included, and whether it ends with an error control block (02 R42, R47; log 4). -/
structure RxBytes where
  bytes : List Byte
  err   : Bool := false
  deriving DecidableEq, Repr

/-- What FEC found in a 1 ms interval on a port: codewords corrected, codewords uncorrectable, symbols corrected (02 R41, R48). -/
structure FecCounts where
  corr    : Nat
  uncorr  : Nat
  symbols : Nat
  deriving DecidableEq, Repr

/-- The commands of the block. `port` is a port number of 00 R3, `lane` a line lane 0-1023, `g` a global stall 0-127, `s` a
shed 0-7, `h` a drawbar half 0-6, `f` the number of a frame the module holds, `m` a mailbox 0-15, `e` an Ostler engine 0-3,
`n` a ring 0-87 (of `dmaWriteRefused` also 88 + m: the command in mailbox m), `d` a power domain 0-447. -/
inductive Instr where
  | frameReceive (port : Nat) (bytes : RxBytes) (side : CplSide)
  | loftAdmission (f : Nat)
  | frameEnd (f : Nat) (errBlock : Bool)
  | frameOversize (f : Nat)
  | pauseFrameReceive (port : Nat) (bytes : List Byte)
  | pfcFrameReceive (port : Nat) (bytes : List Byte)
  | pauseExpiry (port : Nat) (cls : Option Nat)
  | guardResult (f : Nat)
  | guardRevision (f : Nat)
  | outriderStart (f : Nat)
  | lateGuard (f : Nat)
  | enqueue (f : Nat) (copy : Nat)
  | scheduleFrame (port : Nat)
  | txFrameEnd (port : Nat)
  | ctOversizeStomp (port : Nat)
  | ctUnderrun (port : Nat)
  | pauseResend (port : Nat) (cls : Option Nat)
  | lpiEnter (port : Nat)
  | pipeStepDown (g : Nat)
  | portUp (port : Nat)
  | portDown (port : Nat)
  | laneLockLoss (lane : Nat)
  | laneLockRegain (lane : Nat)
  | fecDegrade (port : Nat) (symbols : FecCounts)
  | counterSpill (c : CtrId)
  | counterHarvest (c : CtrId)
  | spillLate (c : CtrId)
  | counterLoRead (p : PairId)
  | counterSelectWrite (p : PairId) (v : Word)
  | latchRead (l : LatchId)
  | widePairLowWrite (p : PairId) (v : Word)
  | widePairHighWrite (p : PairId) (v : Word)
  | registerWrite (off : Nat) (data : List (Option Byte)) (poisoned : Bool)
  | setAliasWrite (off : Nat) (v : Word)
  | clearAliasWrite (off : Nat) (v : Word)
  | toggleAliasWrite (off : Nat) (v : Word)
  | evtSeqWrite (l : Level) (blk : Nat) (v : Word)
  | cellDec (s cell requester : Nat)
  | cellFree (s cell requester desc : Nat)
  | freeRetry (s cell : Nat)
  | loftAudit (s : Nat)
  | loftBankIdle (s : Nat)
  | loftBankStop (s bank : Nat)
  | yardCellReceive (s h : Nat) (cell : YardSlot)
  | reseqTimeout (s src : Nat)
  | drawbarCrcLimit (s h : Nat)
  | hitchClockLockLoss (s h : Nat)
  | drawbarTrainingDone (pair : Nat)
  | drawbarTrainingFail (pair : Nat)
  | halfRateEnter (s h : Nat)
  | halfRateReturn (s h : Nat)
  | drawbarHalfStopRequest (s h : Nat)
  | drawbarHalfWakeRequest (s h : Nat)
  | queueUseRecountDone (port q : Nat)
  | depthSelectWrite (g : Nat) (v : Word)
  | tableEditInsert (m : Nat)
  | tableEditChange (m : Nat)
  | tableEditDelete (m : Nat)
  | replicaWriteReceive (s : Nat)
  | replicaCompare (table : Nat)
  | learnRequestHandle (s : Nat)
  | freezeEnd (s fid : Nat) (mac : BitVec 48)
  | hitRefresh (s fid : Nat) (mac : BitVec 48) (tick : BitVec 20)
  | agingVisit (s fid : Nat) (mac : BitVec 48)
  | quarantineEnd (meter : Bool) (idx : Nat)
  | cursorExpiry (s cursor : Nat)
  | search (m : Nat)
  | next (m : Nat)
  | flushByPort (m : Nat)
  | journalRead (m : Nat)
  | aclParityRepair (s slice entry : Nat)
  | ticketGenAdvance (s : Nat)
  | ticketSweepDone (s : Nat)
  | ticketSweepLate (s : Nat)
  | ticketBlockEnd (s t : Nat)
  | refuteWindowEnd (s t : Nat)
  | ticketRead (m : Nat)
  | ticketFlush (m : Nat)
  | queueConfig (m : Nat)
  | counterRead (m : Nat)
  | captureRing (m : Nat)
  | lossMarkerWrite (r : Nat)
  | ostlerSample (s : Nat)
  | queueDepthExport (port : Nat)
  | pcOverflow (s n : Nat)
  | pcConfigWrite (s n : Nat) (thresh : Bool) (v : Word)
  | snapshotArm (v : Word)
  | snapshotTake (s : Nat)
  | precisePeriodWrite (s : Nat) (v : Word)
  | preciseCfgWrite (s : Nat) (v : Word)
  | timeUnitSet (servo force : Bool) (sec : BitVec 48) (ns : BitVec 30)
  | timeUnitStep (servo force : Bool) (off : BitVec 64)
  | timeUnitFrequency (servo force : Bool) (freq : BitVec 32)
  | servoHoldoverExit (median : BitVec 64)
  | pulseOutputArm (o : Nat) (v : Word)
  | pulseOutputFire (o : Nat)
  | captureInputEdge (c : Nat) (rising : Bool)
  | captureStampPop (c : Nat)
  | captureOvfClear (c : Nat) (v : Word)
  | tsqPop (g : Nat)
  | tsqOvfClear (g : Nat) (v : Word)
  | timePort (m : Nat)
  | timeStep (m : Nat)
  | ptpConfig (m : Nat)
  | macsecInstallTxSa (m : Nat)
  | macsecInstallRxSa (m : Nat)
  | macsecDeleteSa (m : Nat)
  | macsecSelectTxSa (m : Nat)
  | ttOpen (m : Nat)
  | ttWrite (m : Nat)
  | ttClose (m : Nat)
  | ttActivate (m : Nat)
  | ttInvalidate (m : Nat)
  | ttStatus (m : Nat)
  | verificationDone (bank : Nat)
  | shedLoadDone (s : Nat) (digest : Digest)
  | heartbeatSend (path : Path)
  | heartbeatReceive (path : Path) (bytes : List Byte)
  | pathLost (path : Path)
  | dyingGasp (path : Path)
  | syncRecordReceive (bytes : List Byte)
  | genHandoverRecord (handle : Nat) (nextSeq : BitVec 16)
  | genHandoverAck (handle : Nat)
  | genHandoverResend (handle : Nat)
  | recoveryReset (handle : Nat)
  | pairRestart (m : Nat)
  | reinsHandover (m : Nat)
  | doorbellRing (m : Nat)
  | commandTaken (m : Nat)
  | commandStart (m : Nat)
  | commandDeadline (m : Nat)
  | hostWatchdogWrite (v : Word)
  | hello (m : Nat)
  | moduleInfo (m : Nat)
  | modeChange (m : Nat)
  | firmwareUpdate (m : Nat)
  | fwWrite (m : Nat)
  | fwCommit (m : Nat)
  | fwStatus (m : Nat)
  | enrol (m : Nat)
  | quote (m : Nat)
  | challenge (m : Nat)
  | decommission (m : Nat)
  | policySet (m : Nat)
  | ringDoorbell (n : Nat) (v : Word)
  | ringEnable (n : Nat) (v : Word)
  | ringDisable (n : Nat) (v : Word)
  | ringStopDone (n : Nat)
  | injectDescriptorFetch (n : Nat) (desc : List Byte) (buf : List Byte)
  | ringModerationTimer (n : Nat)
  | dmaReadError (n : Nat)
  | dmaWriteRefused (n : Nat)
  | hostLinkUp (speed width : Nat)
  | vectorUnmask (v : Nat)
  | ostlerCommand (s e kind code : Nat) (tag : BitVec 16)
  | ostlerConditionMet (s e : Nat)
  | ostlerWaitTimeout (s e : Nat)
  | ostlerRoutineEnd (s e : Nat)
  | ostlerMachineCheck (s e kind : Nat)
  | ostlerWordRewrite (s : Nat)
  | ostlerEngineRestart (s e : Nat)
  | storeBist (s : Nat) (v : Word)
  | storeBistDone (s : Nat) (pass : Bool)
  | handshakeTimeout (near far : BitVec 12) (kind off : Nat)
  | handshakeStaleAnswer (near : BitVec 12)
  | fifoStallTimeout (near far : BitVec 12) (entries : Nat)
  | domainStopRequest (by_ : StopBy) (d : Nat)
  | domainStopDrained (d : Nat)
  | domainStopAbort (d : Nat) (wake : Option Nat)
  | domainWakeRequest (wake : Nat) (d : Nat)
  | domainWakeSettled (d : Nat)
  | wakeTableStep (d : Nat)
  | diagDomainWake (v : Word)
  | diagDomainStop (v : Word)
  | psuTelemetry (inlet : Inlet) (present : Bool) (deciVolts deciHz deciWatts : Nat)
  | psuGood (inlet : Inlet)
  | inletLowLine (inlet : Inlet)
  | inletHighLine (inlet : Inlet)
  | inletLoss (inlet : Inlet)
  | leaveRequest (op unit : Nat)
  | leaveRelease (id : Nat)
  | thermalSample (s : Nat) (temp : BitVec 12)
  | shedReturnHoldEnd (s : Nat)
  | shedRestore (v : Word)
  | troubleRecordPop (l : Level)
  | scrubPass (s : Nat)
  | scrubLate (s : Nat)
  | strapChange (strap : Strap) (level : Bool)
  | faceSensorRead (faceB : Bool) (readings : List Int)
  | cplCableChange (low : Bool)
  | laneSignalDetect (lane : Nat)
  | laneLockAcquire (lane : Nat)
  | lpiWakeEnd (port : Nat)
  | rxLpiChange (port : Nat) (lpi : Bool)
  | managementLinkChange (up : Bool)
  | mailboxBufferWrite (off : Nat) (bytes : List Byte)
  | mainsApply (inlet : Inlet)
  | drawbarSlot (s h : Nat)
  | shedStateCopyDone (s : Nat)
  | rateSwitchOverEnd (s h : Nat)
  | postedWriteLand
  | slotEpochBoundary
  | refillTick
  | wredAverageTick
  | editReplicasCommitted
  | syncRecordSend
  | timeOpTakeEffect
  | refLock
  | refLoss
  | servoHoldoverEnter
  | ppsOutEdge
  | timeNowRead
  | timetableFlip
  | drainEnd
  | shedDigestCheck
  | partnerMismatch
  | startActivation
  | leaseRenewal
  | leaseEnd
  | leaseViewEnd
  | couplerTrainingDone
  | couplerTrainingFail
  | couplerLinkDown
  | bulkResyncDone
  | notificationPost
  | notificationAck
  | hostSilent
  | quiesceDrainEnd
  | diagnosticSessionEnd
  | yardDiscoveryComplete
  | foltinWatchdog
  | foltinRestartDone
  | scheduledReset
  | firmwareImageCheck
  | patchVerify
  | hostLinkDown
  | functionLevelReset
  | perstAssert
  | holdupEnd
  | powerRestart
  | leaveGrant
  | leaveQueueTimeout
  | laneWaveEnd
  | modResetAssert
  | modResetRelease
  | resetGlitch
  | captureRecordDma
  | hostLinkWaitEnd
  | challengeLapse
  deriving DecidableEq, Repr

end Sys2Proof
end

