-- ==== Sys2Proof/Config.lean ====
section
/-! DEFINITION. Sys2Proof/Config.lean: what is fixed for a unit but not by the manual. The opaque constants have no body:
nothing in Lean can evaluate them, so a claim holds for every value of each (logs 6, 7, 8, 14, 15, 18, 19, 23). -/

namespace Sys2Proof

/-- SHAKE256-256 of a byte string, named and not defined by the manual (log 7). -/
opaque Config.shake256 : List Byte → Digest

/-- Whether an Ed448 signature (third) over a message (second) verifies under a public key (first) (log 7). -/
opaque Config.ed448Verify : List Byte → List Byte → List Byte → Bool

/-- The 114-byte Ed448 signature of a message under the private half of a public key (log 7). -/
opaque Config.ed448Sign : List Byte → List Byte → List Byte

/-- AES-256-GCM decryption under the class key of IV, additional data and ciphertext with TAG; none when TAG fails (log 7). -/
opaque Config.classDecrypt : List Byte → List Byte → List Byte → List Byte → Option (List Byte)

/-- AES-256-GCM protection of a MACsec frame: key, IV, additional data, plaintext to ciphertext and ICV (log 7). -/
opaque Config.macsecSeal : List Byte → List Byte → List Byte → List Byte → List Byte

/-- AES-256-GCM validation of a MACsec frame: key, IV, additional data, ciphertext and ICV to plaintext (log 7). -/
opaque Config.macsecOpen : List Byte → List Byte → List Byte → List Byte → Option (List Byte)

/-- Vendor Ed448 public key k of mask ROM (18 R534). -/
opaque Config.vendorKey : Nat → List Byte

/-- The baseline microcode of mask ROM: microwords, nanowords, entry table (14 R441, R452) (log 18). -/
opaque Config.romMicro : Nat → BitVec 24
opaque Config.romNano : Nat → BitVec 160
opaque Config.romEntry : Nat → BitVec 14

/-- OST_BASE.BASE, the baseline revision in ROM (14 R456) (log 19). -/
opaque Config.ostBase : Word

/-- The Ostler ALU: ALU_OP, SRC_A, SRC_B, IMM to the result (14 R444) (log 18). -/
opaque Config.alu : BitVec 8 → BitVec 64 → BitVec 64 → BitVec 48 → BitVec 64

/-- Whether the ALU carries (14 R442 TEST carry) (log 18). -/
opaque Config.aluCarry : BitVec 8 → BitVec 64 → BitVec 64 → BitVec 48 → Bool

/-- What an Ostler MEM_OP reads, by MEM_OP, MEM_SEL and address register (14 R444) (log 18). -/
opaque Config.memRead : BitVec 4 → BitVec 8 → BitVec 64 → BitVec 64

/-- The ticket hash of the masked first 32 bytes and the ingress port (05 R149), by 03 R578 (log 6). -/
opaque Config.ticketHash : List Byte → Nat → BitVec 64

/-- The home shed of a learn key (FID, MAC), by 03 R578 (log 6). -/
opaque Config.homeHash : Nat → BitVec 48 → BitVec 3

/-- HASH_A and HASH_B of a frame's hash fields, by 03 R578 (log 6). -/
opaque Config.hashA : List Byte → BitVec 32
opaque Config.hashB : List Byte → BitVec 32

/-- The DEP fold of an entry: table ID and position, by 03 R578 (log 6). -/
opaque Config.depFold : Nat → Nat → BitVec 16

/-- The bucket of a table key under way w of a hashed table (04 R119) (log 14). -/
opaque Config.bucketHash : Nat → Nat → List Byte → Nat

/-- Pseudo-random draws, by the number of the draw (log 15). -/
opaque Config.freeBits : Nat → BitVec 64

/-- What the firmware's protocol engines decide, by instance or group and instant: whether the best master clock algorithm makes an
instance grandmaster, a twin LAG group's actor, and whether a member of one is enabled (11 R360) (log 15). -/
opaque Config.bestMaster : Nat → Nat → Bool
opaque Config.lacpActor : Nat → Nat → Nat
opaque Config.lacpEnables : Nat → Nat → Nat → Bool

/-- Fresh random bytes: the management MAC, attestation keys and challenges, by the number of the draw (log 15). -/
opaque Config.freeBytes : Nat → List Byte

/-- Values the manual leaves open, by the number of the value (log 15). -/
opaque Config.freeNat : Nat → Nat

/-- SIZE of the punt descriptor the host posted in slot k of ring n (13 R425): the host's memory (log 23). -/
opaque Config.puntBufSize : Nat → Nat → Nat

/-- Whether VERSION (second) of the section with this ID (first) is known (10 R324); the manual states none (log 8). -/
opaque Config.knownVersion : Nat → Nat → Bool

/-- The outcome of checks 7 and 8 of 10 R329 on an image: none when it passes, else result, section and item. The manual
gives no byte layout of the sections (log 8). -/
opaque Config.contentCheck : List Byte → Option (Nat × Nat × Nat)

end Sys2Proof
end

