-- ==== Sys2Proof/Machine/Bits.lean ====
section
/-! DEFINITION. Sys2Proof/Machine/Bits.lean: bit fields of registers, byte orders, serial-number arithmetic and the
units of time. Registers and message fields are little-endian and frame fields big-endian (00 R10). -/

namespace Sys2Proof.Machine

/-- Bits `[hi:lo]` of a number (00 R9). -/
def bitsOf (n hi lo : Nat) : Nat := n / 2 ^ lo % 2 ^ (hi + 1 - lo)

/-- Bit `i` of a number. -/
def bitOf (n i : Nat) : Bool := n / 2 ^ i % 2 == 1

/-- Bits `[hi:lo]` of a register. -/
def fieldOf (w : Word) (hi lo : Nat) : Nat := bitsOf w.toNat hi lo

/-- A field of value `v` of width `w` placed at bit `lo`. -/
def at_ (lo w v : Nat) : Nat := v % 2 ^ w * 2 ^ lo

/-- A flag placed at bit `lo`. -/
def flag (lo : Nat) (b : Bool) : Nat := if b then 2 ^ lo else 0

/-- A register from the sum of its placed fields. -/
def reg (fields : List Nat) : Word := BitVec.ofNat 32 (fields.foldl (· + ·) 0)

/-- The mask of bits `[hi:lo]`. -/
def mask (hi lo : Nat) : Nat := (2 ^ (hi + 1 - lo) - 1) * 2 ^ lo

/-- `w` with the bits of mask `m` taken from `v`. -/
def merge (m : Nat) (w v : Word) : Word := (w &&& ~~~(BitVec.ofNat 32 m)) ||| (v &&& BitVec.ofNat 32 m)

/-- The number whose little-endian bytes are `l` (00 R10). -/
def leNat : List Byte → Nat
  | [] => 0
  | b :: l => b.toNat + 256 * leNat l

/-- The number whose network-order bytes are `l` (00 R10). -/
def beNat (l : List Byte) : Nat := l.foldl (fun a b => a * 256 + b.toNat) 0

/-- The `n` little-endian bytes of `v`. -/
def leBytes : Nat → Nat → List Byte
  | 0, _ => []
  | n + 1, v => BitVec.ofNat 8 v :: leBytes n (v / 256)

/-- The `n` network-order bytes of `v`. -/
def beBytes (n v : Nat) : List Byte := (leBytes n v).reverse

/-- `len` bytes of `l` from offset `off`, those beyond its end taken as 0. -/
def sliceOf (l : List Byte) (off len : Nat) : List Byte :=
  let t := (l.drop off).take len
  t ++ List.replicate (len - t.length) 0

/-- The little-endian field of `len` bytes at `off` of a message or record. -/
def leAt (l : List Byte) (off len : Nat) : Nat := leNat (sliceOf l off len)

/-- The network-order field of `len` bytes at `off` of a frame or record. -/
def beAt (l : List Byte) (off len : Nat) : Nat := beNat (sliceOf l off len)

/-- Whether every byte is 0 (reserved fields). -/
def allZero (l : List Byte) : Bool := l.all (· == 0)

/-- `n` bytes of 0. -/
def zeros (n : Nat) : List Byte := List.replicate n 0

/-- `l` cut or padded with 0 to `n` bytes. -/
def fit (n : Nat) (l : List Byte) : List Byte := sliceOf l 0 n

/-- Serial-number arithmetic modulo 2^w: `a` is newer than `b` when (a − b) mod 2^w lies in 1 to 2^(w−1) − 1 (00 R7). -/
def serialNewer {w : Nat} (a b : BitVec w) : Bool :=
  let d := (a - b).toNat
  0 < d && d < 2 ^ (w - 1)

/-- Microseconds, milliseconds and seconds in picoseconds, the unit of `now` (log 1). -/
def us (n : Nat) : Nat := n * 1000000
def ms (n : Nat) : Nat := n * 1000000000
def sec (n : Nat) : Nat := n * 1000000000000

/-- The difference of two instants, 0 when the first is later. -/
def since (now t : Nat) : Nat := now - t

/-- Whether `d` has passed at `now` since `t`. -/
def passed (now t d : Nat) : Bool := t + d ≤ now

/-- The global stall of a line port or lane (00 R3). -/
def stallOf (port : Nat) : Nat := port / 8

/-- The shed of a global stall (00 R3). -/
def shedOfStall (g : Nat) : Nat := g / 16

/-- The shed of a line port, recirculation port or other port; ports 1032 to 1037 belong to no shed and enter and leave
through shed 0 (13 R424 calls the host entry shed-independent; log 22). -/
def shedOfPort (p : Nat) : Nat :=
  if p < 1024 then p / 128 else if p < 1032 then p - 1024 else 0

/-- The half of shed `s` toward peer `p` (00 R3). -/
def halfToward (s p : Nat) : Nat := if p < s then p else p - 1

/-- The peer of half `h` of shed `s` (00 R3). -/
def peerOf (s h : Nat) : Nat := if h < s then h else h + 1

/-- The drawbar pair of two sheds (00 R3). -/
def pairOf (a b : Nat) : Nat :=
  let lo := min a b
  let hi := max a b
  lo * (15 - lo) / 2 + (hi - lo - 1)

/-- The 28 drawbar pairs with their sheds, in the order of their numbers. -/
def allPairs : List (Nat × Nat) :=
  (List.range 8).flatMap (fun a => ((List.range 8).filter (a < ·)).map (fun b => (a, b)))

/-- The sheds of a drawbar pair. -/
def shedsOfPair (p : Nat) : Nat × Nat := (allPairs[p]?).getD (0, 1)

/-- A port number that names a port (00 R3, R4). -/
def portValid (p : Nat) : Bool := p ≤ 1037

end Sys2Proof.Machine
end

