-- ==== Sys2Proof/Machine/Map.lean ====
section
/-! DEFINITION. Sys2Proof/Machine/Map.lean: sparse data by key, as plain data. A map holds what an unlisted key reads as
and the entries that differ; it is used for every array of registers, counters, queues and tables whose size is the
manual's and whose contents are mostly at their reset value. -/

namespace Sys2Proof.Machine

/-- Entries by key, and the value that a key without an entry reads as. -/
structure Map (κ ν : Type) where
  dflt : ν
  ents : List (κ × ν)
  deriving DecidableEq, Repr

/-- The map in which every key reads as `d`. -/
def Map.const {κ ν : Type} (d : ν) : Map κ ν := ⟨d, []⟩

/-- The value listed first for `k`. -/
def Map.look {κ ν : Type} [DecidableEq κ] (k : κ) : List (κ × ν) → Option ν
  | [] => none
  | e :: l => if e.1 = k then some e.2 else Map.look k l

/-- What `k` reads as. -/
def Map.get {κ ν : Type} [DecidableEq κ] (m : Map κ ν) (k : κ) : ν :=
  match Map.look k m.ents with
  | some v => v
  | none => m.dflt

/-- The list with `v` in the place of `k`, or added at its end. -/
def Map.put {κ ν : Type} [DecidableEq κ] (k : κ) (v : ν) : List (κ × ν) → List (κ × ν)
  | [] => [(k, v)]
  | e :: l => if e.1 = k then (k, v) :: l else e :: Map.put k v l

/-- The map in which `k` reads as `v` and every other key as before. -/
def Map.set {κ ν : Type} [DecidableEq κ] (m : Map κ ν) (k : κ) (v : ν) : Map κ ν :=
  { m with ents := Map.put k v m.ents }

/-- The map with `f` applied at `k`. -/
def Map.upd {κ ν : Type} [DecidableEq κ] (m : Map κ ν) (k : κ) (f : ν → ν) : Map κ ν :=
  m.set k (f (m.get k))

/-- The map in which every key that satisfies `p` reads as the default again. -/
def Map.dropIf {κ ν : Type} (m : Map κ ν) (p : κ → Bool) : Map κ ν :=
  { m with ents := m.ents.filter (fun e => !p e.1) }

/-- The map with `f` applied at every listed key. -/
def Map.mapEnts {κ ν : Type} (m : Map κ ν) (f : κ → ν → ν) : Map κ ν :=
  { m with ents := m.ents.map (fun e => (e.1, f e.1 e.2)) }

end Sys2Proof.Machine
end

