-- ==== Sys2Proof/Machine/Content.lean ====
section
/-! DEFINITION. Sys2Proof/Machine/Content.lean: what a timetable image says, section by section of 10 R322. The manual gives
the sections no byte layout, so the reading of an image is an opaque function (log 8); what it yields is the plain data here. -/

namespace Sys2Proof.Machine

/-- One field extractor of a parse profile (03 R91): header type, occurrence (15 the last), byte offset, width. -/
structure Extractor where
  typ   : Nat
  occ   : Nat
  off   : Nat
  width : Nat
  deriving DecidableEq, Repr

/-- One parse profile (03 R79, R80, R91, R92): limits, extractors, the fields of HASH_A and HASH_B (none: the default fields),
the programmable TPID and whether Ethernet pseudowires are enabled. -/
structure Profile where
  hdrLimit  : Nat := 16
  byteLimit : Nat := 384
  exts      : List Extractor := []
  hashA     : List Extractor := []
  hashB     : List Extractor := []
  tpid      : Option Nat := none
  pwEth     : Bool := false
  deriving DecidableEq, Repr

/-- One port sampler (08 R268). -/
structure Sampler where
  ring  : Nat
  trunc : Nat
  n     : Nat
  deriving DecidableEq, Repr

/-- The settings of one port: sections 0x01, 0x02, 0x04, 0x0D, 0x0E, 0x10, 0x11 and 0x12. `fc` is FC_MODE of 02 R73, `pfcEn`
the classes PFC runs on, `pauseTime` the quanta sent per class; `lpi` that LPI is enabled and `lpiIdleUs` its idle time (02 R60);
`confOff` is the confidentiality offset of the transmit channel, `rxChan` the replay window and offset of receive channels by SCI
with `replayWin` and `confOff` for the others (02 R65), `ptpClear` that PTP event frames leave unprotected (02 R70); policies are 0
drop, 1 punt, 2 L2 only; `pcpClass` the
traffic class of a frame by its OUTER_PCP (log 29), `colour` its colour by PCP and DEI (07 R246), `queueMap` the
class-to-queue map (07 R232). -/
structure PortCfg where
  width     : Nat := 1
  maxLen    : Nat := 1518
  fc        : Nat := 0
  pfcEn     : BitVec 8 := 0
  pauseTime : List Nat := []
  lpiCap    : Bool := false
  lpi       : Bool := false
  lpiIdleUs : Nat := 10
  macsec    : Bool := false
  validate  : Nat := 0
  confOff   : Nat := 0
  replayWin : Nat := 0
  rxChan    : List (List Byte × Nat × Nat) := []
  ptpClear  : Bool := false
  txSci     : Bool := false
  pnWarn    : Nat := 0xC000000000000000
  fecLimit  : Nat := 4096
  truncPol  : Nat := 0
  confPol   : Nat := 0
  profile   : Nat := 0
  aclClass  : Nat := 0
  portMeta  : Nat := 0
  defVid    : Nat := 0
  defPcp    : Nat := 0
  pcpClass  : List Nat := [0, 1, 2, 3, 4, 5, 6, 7]
  colour    : List Nat := []
  vrf       : Option Nat := none
  learn     : Bool := false
  staticDrop: Bool := false
  queueMap  : List Nat := [0, 1, 2, 3, 4, 5, 6, 7]
  otrEn     : Bool := false
  ctEn      : Bool := false
  redundant : Bool := false
  confirm   : Nat := 2
  refute    : Nat := 4
  hashMask  : Nat := 0xFCB0FFFF
  inAdj     : Int := 0
  egAdj     : Int := 0
  inMirror  : List Nat := []
  inSampler : Option Sampler := none
  egSampler : Option Sampler := none
  lag       : Option Nat := none
  deriving DecidableEq, Repr

/-- The settings of one FID (section 0x04); `age` in seconds. -/
structure FidCfg where
  learn   : Bool := false
  age     : Nat := 300
  missDrop: Bool := false
  flood   : Nat := 0
  vrf     : Option Nat := none
  flush   : Bool := false
  deriving DecidableEq, Repr

/-- AGE_TICKS of a FID: its age time in aging ticks of 2^24 ns, rounded up (04 R131). -/
def FidCfg.ageTick (k : FidCfg) : Nat := (k.age * 1000000000 + 2 ^ 24 - 1) / 2 ^ 24

/-- One (port, class) pair of section 0x0F; `alpha` is the exponent of ALPHA plus 7, so 0 is 1/128 and 10 is 8 (06 R194). -/
structure LoftPair where
  min      : Nat := 0
  headroom : Nat := 0
  alpha    : Nat := 7
  xoff     : Nat := 0
  xon      : Nat := 0
  deriving DecidableEq, Repr

/-- One scheduler node: queue, group or port level (07 R257). -/
structure Node where
  group    : Nat := 0
  prio     : Nat := 0
  weight   : Nat := 1
  classSet : Nat := 0
  qlimit   : Nat := 0
  wred     : Option Nat := none
  lossless : Bool := false
  rate     : Nat := 0
  burst    : Nat := 64
  overhead : Int := 20
  shape    : Bool := false
  deriving DecidableEq, Repr

/-- ACL slices, key profiles and selection table (section 0x03; 03 R94, R95). -/
structure AclCfg where
  slice  : Map Nat (Option Nat) := .const none
  keys   : Map Nat (List Nat) := .const []
  select : Map (Nat × Nat × Nat) (Option Nat) := .const none
  deriving DecidableEq, Repr

/-- Section 0x12: pairing and redundancy (11 R352, R353, R356, R361); `shared` the shared IP addresses of R360, each of 4 or 16 bytes (log 77). -/
structure PairCfg where
  enabled : Bool := false
  role    : Nat := 0
  prio    : Nat := 0
  leaseMs : Nat := 50
  renewMs : Nat := 10
  alone   : Bool := false
  twinLag : List Nat := []
  redun   : List Nat := []
  shared  : List (List Byte) := []
  deriving DecidableEq, Repr

/-- A timetable's contents. `rates` are the lane rate codes of 02 R71 by stall; `ports` every configured port by number;
`records` the table records of sections 0x03 to 0x0E by table ID of 12 R396, in order; `nodes` by port, level and node;
`fullPolicy` of L2 is 0 reject, 1 evict oldest, 2 evict random (04 R121); `exports` the interval in microseconds and ring of a
stall's queue depth export; `srcReason` the punt code assigned to a source (13 R426). -/
structure TtContent where
  rates     : Map Nat Nat := .const 0
  ports     : List (Nat × PortCfg) := []
  profiles  : Map Nat Profile := .const {}
  vxlan2    : Option Nat := none
  geneve2   : Option Nat := none
  opts      : List (Nat × Nat) := []
  acl       : AclCfg := {}
  fidMap    : Map Nat Nat := .const 0
  fids      : List (Nat × FidCfg) := []
  vrfPunt   : Map Nat Bool := .const false
  fullPolicy: Nat := 0
  holdUs    : Nat := 1000
  flapS     : Nat := 10
  records   : List (Nat × List Byte) := []
  nodes     : List ((Nat × Nat × Nat) × Node) := []
  qlimit    : Nat := 0
  loft      : List ((Nat × Nat) × LoftPair) := []
  exports   : Map Nat (Option (Nat × Nat)) := .const none
  blockMs   : Nat := 1000
  reseq     : Nat := 4
  srcReason : Map Nat (Option Nat) := .const none
  gmAlone   : Bool := false
  pair      : PairCfg := {}
  deriving DecidableEq, Repr, Inhabited

/-- What the sections of an image say; the manual gives them no byte layout (log 8). -/
opaque Config.ttContent : List Byte → TtContent

/-- The settings of a port, if the timetable defines it. -/
def TtContent.port (c : TtContent) (p : Nat) : Option PortCfg := (c.ports.find? (fun e => e.1 == p)).map (·.2)

/-- The settings of a FID, if section 0x04 holds any. -/
def TtContent.fid? (c : TtContent) (f : Nat) : Option FidCfg := (c.fids.find? (fun e => e.1 == f)).map (·.2)

/-- The settings of a FID, or the defaults. -/
def TtContent.fid (c : TtContent) (f : Nat) : FidCfg := (c.fid? f).getD {}

/-- The default of a scheduler node (07 R233, R239): QLIMIT has no default in the manual and comes with the image. -/
def Node.dflt (qlimit level node : Nat) : Node :=
  { qlimit := qlimit
    classSet := if level ≠ 0 then 0 else if node < 12 then 2 ^ (node % 8) else 3 * 4 ^ (node - 12) }

/-- A scheduler node as the timetable sets it. -/
def TtContent.node (c : TtContent) (port level node : Nat) : Node :=
  match c.nodes.find? (fun e => e.1 == (port, level, node)) with
  | some e => e.2
  | none => Node.dflt c.qlimit level node

/-- The Loft settings of a pair (06 R194). -/
def TtContent.loftPair (c : TtContent) (port cls : Nat) : LoftPair :=
  match c.loft.find? (fun e => e.1 == (port, cls)) with
  | some e => e.2
  | none => {}

end Sys2Proof.Machine
end

