-- ==== Sys2Proof/Machine/State.lean ====
section
/-! DEFINITION. Sys2Proof/Machine/State.lean: everything the manual gives the module, as plain data, with the value of each
field at reset as its default (log 21). Times are picoseconds since power-on (log 1). -/

namespace Sys2Proof.Machine

/-- Why a step stops with a fault. No rule of the manual stops the block: errors are event bits, trouble records and reply
statuses, which are effects. -/
inductive Fault where
  /-- Raised by no command: a place for a fault of the block as a whole. Safe. -/
  | none_
  deriving DecidableEq, Repr

/-- Why a step is refused. -/
inductive Refusal where
  /-- Raised by the dispatcher alone, for a command whose meaning is not written. Safe. -/
  | notModelled (mnemonic : String)
  deriving DecidableEq, Repr

/-! ### Modes (01 R25, R26, R32) -/

/-- The six modes of 01 R25. -/
inductive Mode where
  | cold
  | harnessing
  | standalone
  | paired
  | quiesced
  | diagnostic
  deriving DecidableEq, Repr

/-- The module's mode. `powered` is false while the module is unpowered and has no mode (19 R557); `drainEnd` is the end of
the quiesce drain (01 R29); `resetAt` a scheduled reset (18 R538, R543); `bootFailed` that no image passed (18 R535);
`discard` the yard discard count for quiesce; `admit` that frames are admitted (01 R29); `retained` what a reset leaves in
progress toward TARGET for the restarted firmware. -/
structure ModeSt where
  powered    : Bool := true
  mode       : Mode := .cold
  target     : Mode := .cold
  cause      : Nat := 0
  drainEnd   : Option Nat := none
  discard    : Nat := 0
  bootFailed : Bool := false
  resetAt    : Option Nat := none
  resetCause : Nat := 0
  modeMbx    : Option Nat := none
  deriving DecidableEq, Repr

/-! ### Events, counters, outputs -/

/-- One RSQ event register (13 R415): the latest sequence, and per event bit the sequence of its latest occurrence; `was` the latest
sequence before the cycle `cyc` of the last event (00 R19). -/
structure EvtReg where
  seq  : BitVec 16 := 0
  was  : BitVec 16 := 0
  cyc  : Nat := 0
  bits : Map Nat (Option (BitVec 16)) := .const none
  deriving DecidableEq, Repr

/-- One record of a trouble log (17 R529); `time` in nanoseconds. -/
structure TRec where
  seq    : BitVec 16
  sev    : Nat
  code   : Nat
  time   : Nat
  detail : Word
  deriving DecidableEq, Repr

/-- An event that reaches a trouble log, and when. -/
structure TEvt where
  code   : Nat
  sev    : Nat
  addr   : Nat
  detail : Word
  time   : Nat
  deriving DecidableEq, Repr

/-- What a trouble log holds (17 R523, R524). `recs` are the records not yet popped, oldest first; `notices` the
codes and word addresses of Notices recorded, with their times. -/
structure TStore where
  seq     : BitVec 16 := 0
  sticky  : Map Nat (Option (BitVec 16 × Nat)) := .const none
  recs    : List TRec := []
  notices : List (Nat × Nat × Nat) := []
  lost    : BitVec 16 := 0
  merged  : BitVec 16 := 0
  deriving DecidableEq, Repr

/-- The trouble log of one level (17 R523, R524, R528): what it holds, its interrupt settings, the rotating pointer over sources, and
of the cycle `cyc` of its last events those events in their order and what it held before them. -/
structure TLog extends TStore where
  irqAll  : Bool := false
  minSev  : Nat := 1
  ptr     : Nat := 0
  cyc     : Nat := 0
  came    : List TEvt := []
  before  : TStore := {}
  deriving DecidableEq, Repr

/-- One 36-bit accumulator and its 64-bit harvest word (02 R49, R50); `spilled` from the spill to its harvest, `late` once
SPILL_LATE was raised for it; `fresh` what it counted in cycle `cyc`, which a write of that cycle leaves standing (00 R18). -/
structure Counter where
  acc     : Nat := 0
  hw      : BitVec 64 := 0
  spilled : Bool := false
  late    : Bool := false
  cyc     : Nat := 0
  fresh   : Nat := 0
  deriving DecidableEq, Repr

/-- One wide pair (13 R412): its selector register, the held low half, the latched high half. -/
structure PairSt where
  sel   : Word := 0
  held  : Option Word := none
  latch : Option Word := none
  deriving DecidableEq, Repr

/-- What the block sends out (log 17). -/
inductive Out where
  | frame (port : Nat) (bytes : List Byte) (stomped : Bool)
  | coupler (side : CplSide) (bytes : List Byte) (stomped : Bool)
  | macCtl (port : Nat) (bytes : List Byte)
  | yard (s h : Nat) (cell : YardSlot) (lanes : List (List (List Bool)))
  | express (s h : Nat) (parts : List ExpressPart) (lanes : List (List (List Bool)))
  | heartbeat (path : Path) (bytes : List Byte)
  | gasp (path : Path) (reason : Nat)
  | sync (bytes : List Byte)
  | handover (handle next : Nat)
  | handoverAck (handle : Nat)
  | lagDecision (group actor : Nat) (members : List Nat)
  | answer (port : Nat) (request : List Byte)
  | ask (request : List Byte)
  | dma (addr : Nat) (bytes : List Byte)
  | punt (ring slot : Nat) (bytes : List Byte)
  | msix (vector : Nat)
  | pulse (output : Nat) (level : Bool)
  | pps (level : Bool)
  | aer
  | perm (port : Nat)
  deriving DecidableEq, Repr

/-! ### Power (16) -/

/-- The four states of a domain (16 R482). -/
inductive DomSt where
  | stop
  | run
  | waking
  | stopping
  deriving DecidableEq, Repr

/-- One power domain: its state and since when; while stopping, who asked; the wake source it wakes by once it and its parents may
(16 R483, R486); `fired` the latest wake source that fired for it and in which cycle; the stops recorded by firmware (09 R295) and
the STOPPED indication. -/
structure Dom where
  st      : DomSt := .stop
  since   : Nat := 0
  by_     : Option StopBy := none
  wakeAft : Option Nat := none
  fired   : Option (Nat × Nat) := none
  stops   : List (Nat × Nat) := []
  stopped : Bool := false
  deriving DecidableEq, Repr

/-- One inlet and its PSU (16 R490, R504; 19 R553, R556): telemetry, state and the instants since which it has been in or
out of a range. -/
structure InletSt where
  present  : Bool := false
  dV       : Nat := 0
  dHz      : Nat := 0
  dW       : Nat := 0
  good     : Bool := false
  lowLine  : Bool := false
  goodAt   : Nat := 0
  outSince : Option Nat := none
  below180 : Option Nat := none
  above185 : Option Nat := none
  deriving DecidableEq, Repr

/-- One active grant of leave (16 R492); `left` is the estimate not yet realised, in 0.1 W; `mbx` the Daxdy command it
belongs to. -/
structure Grant where
  id   : Nat
  op   : Nat
  unit : Nat
  left : Nat
  mbx  : Option Nat
  deriving DecidableEq, Repr

/-- One queued request for leave (16 R493). -/
structure LeaveReq where
  id   : Nat
  op   : Nat
  unit : Nat
  at_  : Nat
  mbx  : Option Nat
  deriving DecidableEq, Repr

/-- One entry of the power log (16 R512). -/
structure PwrLogEnt where
  domain  : Nat := 0
  reason  : Nat := 0
  kind    : Nat := 0
  refuser : Nat := 0
  op      : Nat := 0
  timeMs  : Nat := 0
  deriving DecidableEq, Repr

/-- The die temperature of one shed (16 R498, R510). -/
structure Therm where
  state : Nat := 0
  temp  : BitVec 12 := 0
  deriving DecidableEq, Repr

/-- A stop or wake that waits for the step limit (16 R487). -/
structure DomWait where
  d    : Nat
  wake : Bool
  src  : Nat
  by_  : Option StopBy
  deriving DecidableEq, Repr

/-- The Yardmaster and the power domains. `fwAt` is when firmware was verified and `wAt` when the shed-wake stage began
(16 R488). `steps` are the current steps of the last 10 us with their sizes in 0.1 W; `wave`
the training wave in progress with its start; `waves` the waves still to be asked for, `risen` those that a risen B brings back (16
R496); `stage` of 16 R499; `round` the round of drawbar training (16 R501). `askPtr` is the rotating pointer over requesters of leave,
`asked` the requests of the cycle `askedAt` that have had their turn (16 R493). -/
structure Pwr where
  doms      : Map Nat Dom := .const {}
  a         : InletSt := {}
  b         : InletSt := {}
  grants    : List Grant := []
  queue     : List LeaveReq := []
  nextId    : Nat := 0
  holdup    : Option Nat := none
  shedding  : Bool := false
  draw      : Nat := 0
  stage     : Nat := 1
  frozenMs  : Option Nat := none
  stageAt   : Nat := 0
  fwAt      : Nat := 0
  wAt       : Nat := 0
  domSel    : Word := 0
  therm     : Map Nat Therm := .const {}
  log       : Map Nat PwrLogEnt := .const {}
  logCount  : BitVec 16 := 0
  logNewest : Nat := 0
  diagDom   : Nat := 0
  diagBusy  : Bool := false
  steps     : List (Nat × Nat) := []
  waits     : List DomWait := []
  asked     : List (Nat × Nat) := []
  askedAt   : Nat := 0
  askPtr    : Nat := 0
  wave      : Option (Nat × Nat) := none
  waves     : List Nat := []
  risen     : List Nat := []
  round     : Nat := 0
  outsOff   : Option Nat := none
  deriving DecidableEq, Repr

/-! ### Islands (15) -/

/-- The crossing error log of one level (15 R479). -/
structure XErr where
  kind  : Nat := 0
  near  : BitVec 12 := 0
  far   : BitVec 12 := 0
  count : BitVec 16 := 0
  deriving DecidableEq, Repr

/-- The islands: the selector (15 R477), the error logs, and the requests that timed out while their far island was stopped,
by near and far island (15 R470, R472). `blocked` are the FIFOs, by writing and reading island, that are written no more till the read
side wakes (15 R476). -/
structure Isl where
  sel   : Word := 0
  xerr  : Map Level XErr := .const {}
  stale : List (BitVec 12 × BitVec 12) := []
  blocked : List (BitVec 12 × BitVec 12) := []
  deriving DecidableEq, Repr

/-! ### Host bus (13) -/

/-- The latest logged access (13 R431). -/
structure AccessLog where
  kind  : Nat := 0
  be    : Nat := 0
  count : BitVec 16 := 0
  bar   : Nat := 0
  off   : Nat := 0
  deriving DecidableEq, Repr

/-- One DMA ring (13 R420 to R423, R434 to R436). `hostIdx` is the index the host advances and `modIdx` the module's;
`unsig` and `unsigAt` the entries not yet signalled and since when; `stopping` since when the ring is stopping. -/
structure Ring where
  enable   : Bool := false
  typ      : Nat := 0
  sizeLog2 : Nat := 0
  hostPort : Nat := 0
  idle     : Bool := true
  error    : Nat := 0
  base     : Nat := 0
  wb       : Nat := 0
  hostIdx  : Nat := 0
  modIdx   : Nat := 0
  modCount : Nat := 0
  modTime  : Nat := 0
  drop     : Word := 0
  unsig    : Nat := 0
  unsigAt  : Option Nat := none
  stopping : Option Nat := none
  deriving DecidableEq, Repr

/-- The PCI Express function and the rings. `vec` maps a source to the vector it was given, none for its own number. -/
structure HostSt where
  up         : Bool := false
  speed      : Nat := 0
  width      : Nat := 0
  degraded   : Bool := false
  downCount  : BitVec 16 := 0
  access     : AccessLog := {}
  unmapped   : Word := 0
  puntMap    : Map Nat (BitVec 8) := .const 0
  vec        : Map Nat (Option Nat) := .const none
  vecMasked  : Map Nat Bool := .const true
  funcMask   : Bool := false
  vecPending : Map Nat Bool := .const false
  rings      : Map Nat Ring := .const {}
  deriving DecidableEq, Repr

/-! ### The Foltin and Daxdy (12) -/

/-- MBX_COMPLETION.STATE (12 R404). -/
inductive MbxState where
  | idle
  | taken
  | running
  | done
  | extended
  deriving DecidableEq, Repr

/-- One mailbox (12 R381 to R383, R388, R404). `req` is the firmware's copy of the request, `order` the place in the order
taken, `due` the next deadline, `quiet` that the reply is discarded (12 R393), `leave` the leave requests of the command
not yet granted, `phase` how far a command of several steps has come, `rung` when its doorbell was rung. -/
structure Mailbox where
  st      : MbxState := .idle
  seq     : Word := 0
  status  : Nat := 0
  ring    : Bool := false
  req     : List Byte := []
  order   : Nat := 0
  due     : Nat := 0
  quiet   : Bool := false
  stored  : Option (Word × Nat × List Byte) := none
  leave   : List Nat := []
  began   : Bool := false
  phase   : Nat := 0
  doneN   : Nat := 0
  extended: Bool := false
  rung    : Nat := 0
  deriving DecidableEq, Repr

/-- One notification (12 R391, R392); `detail` its 16 bytes, `time` in nanoseconds. -/
structure Notif where
  kind   : Nat
  level  : Nat
  sev    : Nat
  source : Nat
  time   : Nat
  detail : List Byte
  deriving DecidableEq, Repr

/-- One PTP instance (12 R402). -/
structure PtpInst where
  enable   : Bool := false
  steers   : Bool := false
  gmCap    : Bool := false
  domain   : Nat := 0
  profile  : Nat := 0
  prio1    : Nat := 0
  prio2    : Nat := 0
  clkClass : Nat := 0
  deriving DecidableEq, Repr

/-- PTP settings of one line port (12 R402). -/
structure PtpPort where
  mode     : Nat := 0
  oneStep  : Bool := false
  instNo   : Nat := 0
  logSync  : Int := 0
  inAdj    : Int := 0
  egAdj    : Int := 0
  deriving DecidableEq, Repr

/-- The Foltin firmware, its mailboxes and session (12). `restartAt` is the start of a restart in progress (12 R379);
`wdogFrom` the start of the host watchdog's count (12 R394). -/
structure Dax where
  up        : Bool := false
  restartAt : Option Nat := none
  restarts  : BitVec 8 := 0
  boxes     : Map Nat Mailbox := .const {}
  taken     : Nat := 0
  boxPtr    : Nat := 0
  version   : Option (Nat × Nat) := none
  session   : Nat := 0
  sessions  : Nat := 0
  wdogMs    : Nat := 0
  wdogFrom  : Option Nat := none
  notifs    : List Notif := []
  posted    : Bool := false
  postedLost: Nat := 0
  notifSeq  : Word := 0
  notifLost : Nat := 0
  ptp       : Map Nat PtpInst := .const {}
  ptpPorts  : Map Nat (Option PtpPort) := .const none
  deriving DecidableEq, Repr

/-! ### Security (18) -/

/-- The states of a firmware slot (18 R532). -/
inductive SlotSt where
  | empty
  | writing
  | valid
  | trial
  | committed
  | invalid
  deriving DecidableEq, Repr

/-- One firmware slot: its state, the TRIED flag and the next offset an open write expects. -/
structure Slot where
  st    : SlotSt := .empty
  tried : Bool := false
  next  : Nat := 0
  deriving DecidableEq, Repr

/-- The owner's enrolment (18 R539). -/
structure Enrol where
  auth   : List Byte
  ttKey  : Option (List Byte)
  policy : Nat
  pub    : List Byte
  deriving DecidableEq, Repr

/-- Boot ROM, fuses and the security engine (18). `toTry` are the slots the boot ROM has still to try at this start;
`checkFrom` since when it checks one; `check` a FIRMWARE_UPDATE check in progress. -/
structure Sec where
  slots     : Map Nat Slot := .const {}
  runSlot   : Nat := 0
  running   : Bool := false
  trial     : Bool := false
  fallback  : Bool := false
  result    : Map Nat Nat := .const 0xF
  boots     : BitVec 16 := 0
  minSvn    : Word := 0
  fuses     : BitVec 4 := 0
  fwVersion : Word := 0
  svn       : Word := 0
  fwDigest  : Digest := 0
  minPatch  : Word := 0
  patchOff  : Nat := 0
  patchLen  : Nat := 0
  patchDig  : Digest := 0
  patchRev  : Option Word := none
  toTry     : List Nat := []
  enrol     : Option Enrol := none
  challenge : Option (List Byte × Nat) := none
  deriving DecidableEq, Repr

/-! ### Ostlers (14) -/

/-- One command of an engine's queue: kind of 14 R439 (rank 0 highest), code, tag. -/
structure OstCmd where
  kind : Nat
  code : Nat
  tag  : BitVec 16
  deriving DecidableEq, Repr

/-- A routine in progress: its command, how often it was abandoned in a row, its wait-timeouts, its roll-forward address
once past COMMIT, and whether it is a held run (14 R447 to R449). -/
structure OstRun where
  cmd      : OstCmd
  abandons : Nat := 0
  timeouts : Nat := 0
  roll     : Option (BitVec 14) := none
  held     : Bool := false
  args     : List (BitVec 64) := []
  deriving DecidableEq, Repr

/-- The engine states of 14 R458. -/
inductive EngSt where
  | issuing
  | waiting
  | idle
  | restarting
  deriving DecidableEq, Repr

/-- One Ostler engine (14 R441, R458). `suspended` are abandoned routines that restart once the interrupting one ends;
`results` the posted results, newest first, with whether each failed; `met` that the condition it waits on has been met, `outside` the
commands that a full queue keeps with their senders. -/
structure Engine where
  queue     : List OstCmd := []
  st        : EngSt := .idle
  halted    : Bool := false
  atomic    : Bool := false
  cond      : Nat := 0
  condFrom  : Nat := 0
  uaddr     : BitVec 14 := 0
  run       : Option OstRun := none
  suspended : List OstRun := []
  regs      : Map Nat (BitVec 64) := .const 0
  stack     : List (BitVec 14) := []
  zero      : Bool := false
  carry     : Bool := false
  neg       : Bool := false
  hold      : Nat := 0
  results   : List (BitVec 16 × Bool) := []
  met       : Bool := false
  outside   : List OstCmd := []
  deriving DecidableEq, Repr

/-- The latest machine check (14 R460). -/
structure MLog where
  engine    : Nat := 0
  kind      : Nat := 0
  rewritten : Bool := false
  count     : BitVec 12 := 0
  uaddr     : BitVec 14 := 0
  naddr     : BitVec 11 := 0
  entry     : BitVec 14 := 0
  deriving DecidableEq, Repr

/-- The Ostler group of one shed (14): the stores as loaded (over the baseline of ROM), `bad` the words with bad parity
(true for a nanoword), the wait limits a patch lowered in units of 10 ns, the patch's outcome. -/
structure Ost where
  engines  : Map Nat Engine := .const {}
  micro    : Map Nat (Option (BitVec 24)) := .const none
  nano     : Map Nat (Option (BitVec 160)) := .const none
  entry    : Map Nat (Option (BitVec 14)) := .const none
  limits   : Map Nat (Option Nat) := .const none
  bad      : List (Bool × Nat) := []
  patched  : Bool := false
  result   : Nat := 0
  loaded   : Bool := false
  revision : Word := 0
  mchecks  : List Nat := []
  mlog     : MLog := {}
  bistFrom : Option Nat := none
  bistRes  : Nat := 0
  deriving DecidableEq, Repr

/-- One decoded record of the microcode patch (14 R452), kept in Foltin SRAM. -/
structure PatchRec where
  typ   : Nat
  start : Nat
  words : List Nat
  deriving DecidableEq, Repr

/-- What the firmware keeps of the patch after PATCH_VERIFY (14 R453, R454). -/
structure Patch where
  result   : Nat := 8
  verified : Bool := false
  revision : Word := 0
  recs     : List PatchRec := []
  deriving DecidableEq, Repr

/-! ### Trouble: quiesced sheds and scrub (17) -/

/-- TRB_SHED_STATE (17 R531). -/
inductive ShedSt where
  | forwarding
  | quiesced
  | returning
  | held
  deriving DecidableEq, Repr

/-- One shed's standing (17 R526, R527) and its scrub (17 R520). `step` is the step of the return in progress, `round` its
round of drawbar training, `loads` how often it has loaded the bank; `thermal`
that the last Fatal had a thermal cause; `fatals` the times of its Fatal events. -/
structure ShedTrb where
  st        : ShedSt := .forwarding
  fatals    : List Nat := []
  since     : Nat := 0
  step      : Nat := 0
  round     : Nat := 0
  loads     : Nat := 0
  thermal   : Bool := false
  scrubRun  : Option Nat := none
  scrubLast : Option Nat := none
  scrubDue  : Nat := 0
  scrubLate : Bool := false
  deriving DecidableEq, Repr

/-! ### Exterior (19) -/

/-- The pins and faces (19 R569 to R576). `resetSince` is when MOD_RESET# last changed, `inReset` that a reset is
recognised and held; `sampled` that the straps were sampled at this start. -/
structure Ext where
  resetPin   : Bool := true
  inReset    : Bool := false
  glitches   : BitVec 16 := 0
  sampled    : Bool := false
  gen4       : Bool := true
  refclk     : Bool := true
  liveGen4   : Bool := true
  liveRefclk : Bool := true
  perst      : Bool := true
  cable      : Bool := false
  faceT      : Nat × Nat := (0, 0)
  faceB      : Nat × Nat := (0, 0)
  mgmtLink   : Bool := false
  deriving DecidableEq, Repr

/-! ### The pair (11) -/

/-- One heartbeat path (11 R353, R354): `lastRx` the arrival of the last valid heartbeat, `up` that the path is not lost. -/
structure PathSt where
  lastRx : Option Nat := none
  up     : Bool := false
  rxSeq  : Option Word := none
  txSeq  : Word := 0
  txLast : Option Nat := none
  deriving DecidableEq, Repr

/-- The partner as its latest valid heartbeat shows it (11 R353). -/
structure Partner where
  mode        : Nat := 0
  minor       : Nat := 0
  dying       : Bool := false
  holder      : Bool := false
  activating  : Bool := false
  role        : Nat := 0
  quiet       : Bool := false
  leaseNum    : Word := 0
  renewSeq    : Word := 0
  prio        : Nat := 0
  ttSeq       : Word := 0
  journal     : Word := 0
  syncSeq     : Word := 0
  syncAck     : Word := 0
  ttDigest    : Digest := 0
  editDigest  : Digest := 0
  learnDigest : Digest := 0
  keyDigest   : Digest := 0
  deriving DecidableEq, Repr

/-- Generation of one stream handle (11 R363, R364): the next sequence number, whether this module gave the handle a number
while not Paired, the highest sequence seen in the partner's copies, whether this module keeps generating it until the partner acknowledges, and when its handover
record was last sent. -/
structure GenSt where
  next       : BitVec 16 := 0
  soloUsed   : Bool := false
  partnerMax : Option (BitVec 16) := none
  keeps      : Bool := false
  sentAt     : Option Nat := none
  deriving DecidableEq, Repr

/-- One recovery context (11 R365, R366). -/
structure RecCtx where
  seq      : BitVec 16 := 0
  hist     : BitVec 64 := 0
  takeAny  : Bool := true
  lastPass : Option Nat := none
  deriving DecidableEq, Repr

/-- The coupler block and the pairing logic (11). `consec` counts valid coupler heartbeats of a compatible partner in a row;
`sent` are the renewals sent with their instants; `ownEnd` and `viewEnd` the lease ends of R357; `ownLease` that
the latest lease known since pairing is this module's own; `stewardFrom` the moment of R361; `refusal` why the partner is
refused (1 version, 2 role); `unacked` the sync records sent and not acknowledged, `unsent` those to be sent; `resyncOut` that
this module sends a bulk resync, `resyncIn` that it awaits one, with the keys seen in it; `recPtr` and `genPtr` the rotating pointers of each
shed's recovery contexts and generators over source sheds (R363, R366); `twins` the actor and the enabled members of each twin LAG group (R360). -/
structure Cpl where
  link        : Bool := false
  fails       : Nat := 0
  stayDown    : Bool := false
  training    : Bool := false
  paths       : Map Path PathSt := .const {}
  consec      : Nat := 0
  negMinor    : Option Nat := none
  partner     : Option Partner := none
  partnerDying: Bool := false
  leaseNum    : Word := 0
  holder      : Bool := false
  renewSeq    : Word := 0
  sent        : List (Word × Nat) := []
  ownEnd      : Nat := 0
  rxRenew     : Word := 0
  viewEnd     : Option Nat := none
  stopRenew   : Bool := false
  everPaired  : Bool := false
  stewardFrom : Option Nat := none
  renewDue    : Nat := 0
  ownLease    : Bool := false
  refusal     : Nat := 0
  resyncOut   : Bool := false
  resyncIn    : Bool := false
  resyncSeen  : List (List Byte) := []
  syncSeq     : Word := 0
  syncAck     : Word := 0
  unacked     : List (Word × List Byte) := []
  unsent      : List (List Byte) := []
  lastL2      : Option Nat := none
  keyDiffs    : Nat := 0
  editRaised  : Bool := false
  learnRaised : Bool := false
  mismatch    : Option Nat := none
  mmRaised    : Bool := false
  gens        : Map Nat GenSt := .const {}
  recs        : Map Nat RecCtx := .const {}
  recPtr      : Map Nat Nat := .const 0
  genPtr      : Map Nat Nat := .const 0
  twins       : Map Nat (Nat × List Nat) := .const (0, [])
  deriving DecidableEq, Repr

/-! ### Timetables (10) -/

/-- The states of a bank (10 R326). -/
inductive BankSt where
  | empty
  | writing
  | verifying
  | valid
  | active
  | retiring
  | invalid
  deriving DecidableEq, Repr

/-- One timetable bank (10 R326, R328): LENGTH of the image, the next offset a write expects, and what verification
established; `mac` is the image's BASE_MAC (10 R325). -/
structure Bank where
  st         : BankSt := .empty
  len        : Nat := 0
  next       : Nat := 0
  since      : Nat := 0
  seq        : Word := 0
  digest     : Digest := 0
  sigChecked : Bool := false
  mac        : BitVec 48 := 0
  content    : Option TtContent := none
  deriving DecidableEq, Repr

/-- An activation in progress (10 R333): the bank, the Daxdy command or none at start, whether the sheds load it, how often each shed has loaded, the
sheds confirmed, and the flip instant T in nanoseconds once announced. -/
structure Activation where
  bank  : Nat
  mbx   : Option Nat
  loading : Bool := false
  loads : Map Nat Nat := .const 0
  okAt  : Map Nat Bool := .const false
  flipT : Option Nat := none
  deriving DecidableEq, Repr

/-- One shed's part of a timetable (10 R348). -/
structure ShedTt where
  digest     : Digest := 0
  loaded     : Bool := false
  epoch      : BitVec 2 := 0
  retireDrop : BitVec 64 := 0
  deriving DecidableEq, Repr

/-- Timetables (10 R326 to R348). `lastActive` is what the flash records; `retireT` the flip after which a bank drains;
`startVerify` the banks being verified at start, `startDone` that this start's verification has ended. -/
structure TtSt where
  banks        : Map Nat Bank := .const {}
  active       : Option Nat := none
  lastActive   : Option Nat := none
  epoch        : BitVec 2 := 0
  oldEpoch     : BitVec 2 := 0
  act          : Option Activation := none
  flipNs       : BitVec 64 := 0
  retireT      : Option Nat := none
  drainTimeout : Bool := false
  drainUs      : Nat := 0
  verifyLog    : Word := 0
  sheds        : Map Nat ShedTt := .const {}
  startVerify  : List Nat := []
  startDone    : Bool := false
  digestAt     : Option Nat := none
  mgmtMac      : BitVec 48 := 0
  deriving DecidableEq, Repr


/-! ### Line ports (02) -/

/-- One line lane: its partner's signal, block lock and FEC alignment, since when it has been as it is. -/
structure LaneSt where
  signal : Bool := false
  lock   : Bool := false
  since  : Nat := 0
  deriving DecidableEq, Repr

/-- A received pause of one class, or of the port (02 R55): the end of its last quantum, and one that waits for the end of
the frame in transmission (arrival and quanta). -/
structure PauseSt where
  until_ : Option Nat := none
  wait   : Option (Nat × Nat) := none
  deriving DecidableEq, Repr

/-- A frame in transmission on a port: frame (none for a MAC control frame), copy (none for an outrider), first byte, egress length, bytes as they leave, and
the instant its last byte enters egress encode. -/
structure TxNow where
  f      : Option Nat
  copy   : Option Nat
  start  : Nat
  e      : Nat
  bytes  : List Byte
  end_   : Nat
  stomp  : Bool := false
  queue  : Nat := 0
  deriving DecidableEq, Repr

/-- One port's line side (02). Class 8 stands for the whole port. `ctl` are the MAC control frames that wait for the next frame
boundary (class and whether it stops), `sentAt` when each pause asked for was last sent, `asked` the classes asked to stop,
`gapTill` the end of the minimum gap after the latest frame. -/
structure PortSt where
  up      : Bool := false
  txLpi   : Bool := false
  rxLpi   : Bool := false
  lpiWake : Option Nat := none
  idleAt  : Nat := 0
  gapTill : Nat := 0
  paused  : Map Nat PauseSt := .const {}
  ctl     : List (Option Nat × Bool) := []
  asked   : Map Nat Bool := .const false
  sentAt  : Map Nat Nat := .const 0
  tx      : Option TxNow := none
  fecAt   : Option Nat := none
  lastIn  : Option Nat := none
  deriving DecidableEq, Repr

/-- One stall's clock scaling (02 R61, R72). -/
structure StallClk where
  one      : Bool := false
  steps    : BitVec 16 := 0
  pin      : Bool := false
  busyTill : Nat := 0
  arrivals : List Nat := []
  deriving DecidableEq, Repr

/-- One transmit SA (02 R65, R69; 12 R403): `nextPn` the next packet number, none once exhausted. -/
structure TxSa where
  sci    : List Byte
  ssci   : List Byte
  salt   : List Byte
  key    : List Byte
  nextPn : Option Nat
  warned : Bool := false
  deriving DecidableEq, Repr

/-- One receive channel with its SAs by AN: key, SSCI, salt, lowest PN accepted. -/
structure RxSa where
  ssci  : List Byte
  salt  : List Byte
  key   : List Byte
  low   : Nat
  deriving DecidableEq, Repr

/-- One receive secure channel of a port, with its replay window and its confidentiality offset (02 R65). -/
structure RxSc where
  port : Nat
  sci  : List Byte
  win  : Nat := 0
  off  : Nat := 0
  sas  : Map Nat (Option RxSa) := .const none
  deriving DecidableEq, Repr

/-- The line side of the module. `idle` are the lane groups held electrically idle: all of them at power-on, until a wave trains
them (01 R25, R29 to R31, 02 R36, 16 R502); `otrPtr` the rotating pointer of each egress port's outrider arbiter (05 R164);
`flagged` is PRS_LAST_FLAGGED by stall and `lastStomp` OTR_LAST_STOMP. -/
structure Line where
  lanes     : Map Nat LaneSt := .const {}
  idle      : Map Nat Bool := .const true
  otrPtr    : Map Nat Nat := .const 0
  ports     : Map Nat PortSt := .const {}
  clks      : Map Nat StallClk := .const {}
  txSa      : Map (Nat × Nat) (Option TxSa) := .const none
  txAn      : Map Nat Nat := .const 0
  rxSc      : List RxSc := []
  flagged   : Map Nat Word := .const 0
  lastStomp : Map Nat Word := .const 0
  deriving DecidableEq, Repr

/-! ### Frames (01 R23, 03, 05, 06, 07) -/

/-- One recorded header (03 R90). -/
structure HdrEnt where
  typ   : Nat
  layer : Nat
  inst  : Nat
  off   : Nat
  len   : Nat
  deriving DecidableEq, Repr

/-- The action snapshot of a frame: what the editor does to it (03 R99, R102; 04 R124). `decap` the bytes removed ahead of the
inner header, `encap` the tunnel encapsulation record, `nhVid` the VID a next hop writes, `tpid` the programmable TPID of the frame's parse
profile. -/
structure Acts where
  cls      : Nat := 0
  queue    : Option Nat := none
  colour   : Nat := 0
  da       : Option Nat := none
  sa       : Option Nat := none
  vid      : Option Nat := none
  pcp      : Option Nat := none
  dei      : Option Nat := none
  dscp     : Option Nat := none
  ecn      : Option Nat := none
  ttl      : Option (Option Nat) := none
  popTags  : Nat := 0
  pushTags : List Byte := []
  popLab   : Nat := 0
  pushLab  : List Byte := []
  decap    : Option Nat := none
  decapIp  : Bool := false
  rtag     : Option (BitVec 16) := none
  encap    : Option (List Byte) := none
  underlay : Option (List Byte × List Byte × Option Nat) := none
  hashA    : BitVec 32 := 0
  nhVid    : Option Nat := none
  tpid     : Option Nat := none
  deriving DecidableEq, Repr

/-- What a frame comes to (03 R100): dropped with the capture drop cause, punted with source and reason, or forwarded. -/
inductive Dispo where
  | drop (cause : Nat)
  | punt (source reason : Nat)
  | ports (l : List Nat)
  deriving DecidableEq, Repr

/-- A verdict on the ticket (05 R174). -/
inductive Verdict where
  | noTicket
  | confirm
  | refute
  | late
  deriving DecidableEq, Repr

/-- What a copy of a frame is for (06 R190). -/
inductive CopyKind where
  | unicast
  | multicast
  | mirror (session : Nat)
  | mirrorRing (session : Nat)
  | punt (source reason : Nat)
  | sample (egress : Bool)
  | stream (shed : Nat)
  deriving DecidableEq, Repr

/-- Where a copy stands: ready to be enqueued at its egress, held for its original (08 R267), in its queue, in transmission, or
done. -/
inductive CopySt where
  | ready
  | held
  | queued
  | sending
  | done
  deriving DecidableEq, Repr

/-- One copy of a frame's copy list. `e` is the egress length, `trunc` the bytes kept (0: all), `hdr` the encapsulation of a
mirror and the underlay it takes, as they stood at the commit (03 R102), `orig` the copy an egress-point mirror waits for, `marked` that WRED marked it, `ct` that it is sent cut-through, `stored` that the cut-through test failed; the stamps are those of 08 R269 in picoseconds. -/
structure Copy where
  kind   : CopyKind
  port   : Nat
  queue  : Nat
  cls    : Nat
  st     : CopySt := .ready
  e      : Nat := 0
  trunc  : Nat := 0
  hdr    : Option (List Byte × List Byte × List Byte × Option Nat) := none
  onDrop : Bool := false
  egr    : Bool := false
  marked : Bool := false
  ct     : Bool := false
  stored : Bool := false
  enqAt  : Option Nat := none
  txAt   : Option Nat := none
  depth  : Nat := 0
  side   : CplSide := .plain
  orig   : Option Nat := none
  deriving DecidableEq, Repr

/-- What the guard found (05 R174). `prs` are the PRS counters the frame has counted in, `setDei` and `metDrop` what its meters
made of it (07 R249). -/
structure Guard where
  at_     : Nat
  acts    : Acts
  dispo   : Dispo
  verdict : Verdict
  trunc   : Bool
  reason  : Nat
  fid     : Nat
  vrf     : Nat
  vid     : Nat
  flags   : Nat
  nextHop : Option Nat
  mcast   : Bool := false
  revised : Bool := false
  prs     : List Nat := []
  setDei  : Bool := false
  metDrop : Bool := false
  deriving DecidableEq, Repr

/-- How an outrider stands. -/
inductive OtrSt where
  | running
  | confirmed
  | stomped (late : Bool)
  | lost
  deriving DecidableEq, Repr

/-- An outrider (05 R160 to R173): ticket, the prediction it started on (port, queue, class and recipe), L, first byte at egress,
express capacity held, bytes that express slots have carried (06 R209). -/
structure Otr where
  tkt    : Nat
  port   : Nat
  queue  : Nat
  cls    : Nat
  acts   : Acts
  len    : Nat
  start  : Nat
  gbps   : Nat
  across : Option (Nat × Nat)
  st     : OtrSt := .running
  carried : Nat := 0
  deriving DecidableEq, Repr

/-- Where a frame's cells are in one shed (06 R189 to R194). `pool` 0 MIN, 1 shared, 2 headroom, 3 Loft credit of a source shed;
`unwritten` are the reserved cells above those addressed; `got` the bytes released here, `whole` that the last is; `doneAt`
when its descriptor was freed; `heads` the extra cells of its mirror copies' new heads, by copy (06 R219). -/
structure Held where
  desc      : Nat
  cells     : List Nat
  unwritten : Nat := 0
  pool      : Nat
  port      : Nat
  cls       : Nat
  src       : Nat := 0
  got       : Nat := 0
  whole     : Bool := false
  bad       : Bool := false
  doneAt    : Option Nat := none
  heads     : List (Nat × Nat) := []
  deriving DecidableEq, Repr

/-- A mirror session that takes a frame: its number, its record, and the encapsulation with its underlay, as the frame's lookup found
them (03 R102; 04 R114). -/
structure MirRec where
  n   : Nat
  dat : List Byte
  hdr : Option (List Byte × List Byte × List Byte × Option Nat)
  deriving DecidableEq, Repr

/-- The resolution of a frame that waits for its recovery context, as its shed's replica stood at its guard result (04 R114, 11
R365): `known` that its last byte had arrived, `ctr` the counters that its stream record names by outcome, `ctx` the outcome once
the context has decided (0 pass, 1 duplicate, 2 rogue). -/
structure Kept where
  known    : Bool
  acts     : Acts
  dispo    : Dispo
  mcast    : Bool
  prs      : List Nat
  lkp      : List Nat
  counters : List Nat
  meters   : List Nat
  sessions : List MirRec
  aclCopy  : List (Nat × Nat)
  punts    : List (Nat × Nat)
  learn    : List (Nat × BitVec 48)
  hitL2    : List (Nat × BitVec 48)
  static_  : Bool
  parity   : Option (Nat × Nat)
  fid      : Nat
  vrf      : Nat
  nextHop  : Option Nat
  pop      : Bool
  handle   : Nat
  seq      : BitVec 16
  ctr      : Option Nat
  ctx      : Option Nat := none
  deriving DecidableEq, Repr

/-- One frame inside the module. `bytes` are all its bytes, those not yet arrived included (log 4); `arr` the instant its first
byte left PCS decode; `admAt` when the frame's first pass was admitted (04 R125); `carryT`, `carryC` PARSE_TRUNC and LEN_CONFLICT carried from earlier passes (03 R87); `err` that it ends
with an error control block (02 R47); `pn` the channel, AN and packet number it uses up when it ends good (02 R65); `rxDue` that
its receive counters wait for its outrider's guard result (05 R167); `ctSeen`, `stSeen` that it has counted in OTR_CT and
OTR_STORED (05 R177); `kept` what it resolved to while it waits for its recovery context; `counted` that the precise sampler has seen it pass byte
64 (08 R274). -/
structure Frame where
  port    : Nat
  bytes   : List Byte
  arr     : Nat
  epoch   : BitVec 2
  pass    : Nat := 0
  carryT  : Bool := false
  carryC  : Bool := false
  tkt     : Option Nat := none
  refused : Bool := false
  bank    : Option Nat := none
  admitted: Bool := false
  admAt   : Option Nat := none
  bad     : Bool := false
  ended   : Bool := false
  good    : Bool := false
  cut     : Option Nat := none
  guard   : Option Guard := none
  otr     : Option Otr := none
  skipped : Bool := false
  skip    : Option Nat := none
  copies  : List Copy := []
  meters  : List (Nat × Nat × Nat) := []
  sample  : Bool := false
  inject  : Option (Nat × Nat × Nat) := none
  learnKeys: List (Nat × BitVec 48) := []
  learned : Bool := false
  gen     : Bool := false
  recov   : Option Nat := none
  decided : Bool := false
  oneStep : Bool := false
  tsReq   : Option Nat := none
  stamp   : Int := 0
  tktAt   : Option Nat := none
  direct  : Bool := false
  side    : CplSide := .plain
  wire    : Option (List Byte) := none
  sec     : Nat := 0
  rtagPop : Bool := false
  err     : Bool := false
  pn      : Option (List Byte × Nat × Nat) := none
  rxDue   : Bool := false
  ctSeen  : Bool := false
  stSeen  : Bool := false
  kept    : Option Kept := none
  counted : Bool := false
  deriving DecidableEq, Repr

/-! ### Tables (04) -/

/-- One table entry: position, key and record (04 R119, R139). -/
structure Ent where
  pos : Nat
  key : List Byte
  dat : List Byte
  deriving DecidableEq, Repr

/-- What the home shed keeps of an L2 entry (04 R128 to R132); `synced` that a sync record of the partner made it (11 R368). -/
structure L2Meta where
  portTime : Nat := 0
  hit      : BitVec 20 := 0
  moves    : List Nat := []
  frozenAt : Option Nat := none
  synced   : Bool := false
  deriving DecidableEq, Repr

/-- One edit in the shed-wide order (04 R113): KIND of the journal, table, operation, key, the record after it (before a delete), the sheds
that have applied it, the Daxdy command it belongs to. -/
structure Edit where
  kind  : Nat
  tab   : Nat
  op    : Nat
  key   : List Byte
  dat   : List Byte
  at_   : Nat
  begin_: Nat
  done  : List Nat
  mbx   : Option Nat
  only  : Option Nat := none
  deriving DecidableEq, Repr

/-- A learn request (04 R128): the DEST it asks for; `came` when it reached its home shed; `sync` that it came from the partner, `del` that it is a delete (11 R368). -/
structure Learn where
  src  : Nat
  dest : Nat
  fid  : Nat
  mac  : BitVec 48
  time : Nat
  came : Nat := 0
  sync : Bool := false
  del  : Bool := false
  deriving DecidableEq, Repr

/-- One cursor of NEXT (04 R139). -/
structure Cursor where
  handle : Nat
  shed   : Nat
  tab    : Nat
  pos    : Nat
  catchUp: List (List Byte) := []
  rewound: Bool := false
  lastAt : Nat
  deriving DecidableEq, Repr

/-- An index in quarantine (04 R125): a meter or a counter, since when, and the epoch tag whose frames may hold it. -/
structure Quar where
  meter : Bool
  idx   : Nat
  at_   : Nat
  deriving DecidableEq, Repr

/-- The forwarding tables. `ents` is the replica of shed and table, `old` the tables of the RETIRING bank (04 R115), `meta_` the
home's view of an L2 key, `hint` a shed's, `edits` in the shed-wide order, oldest first, `asked` the keys a
shed has asked to learn and when, `learnPtr` of a home shed's rotating pointer over source sheds (04 R127) the cycle of the latest
request, where it stood in that cycle and where it stands after, `journal` oldest first with `jNext`, the index
the host has read up to without a gap and the spans it has read beyond, `aclBad` the ACL entries (shed, slice, entry) whose parity is bad
and `aclHit` those of them that a frame has hit (03 R98). -/
structure Tbl where
  ents     : Map (Nat × Nat) (List Ent) := .const []
  old      : Map Nat (List Ent) := .const []
  meta_    : Map (Nat × BitVec 48) L2Meta := .const {}
  hint     : Map (Nat × Nat × BitVec 48) (BitVec 20) := .const 0
  edits    : List Edit := []
  learns   : Map Nat (List Learn) := .const []
  learnPtr : Map Nat (Nat × Nat × Nat) := .const (0, 0, 0)
  asked    : Map (Nat × Nat × BitVec 48) (Option Nat) := .const none
  pend     : List (Nat × Nat × BitVec 48 × BitVec 20) := []
  freezes  : Map Nat Nat := .const 0
  cursors  : Map Nat (List Cursor) := .const []
  nextCur  : Nat := 1
  quar     : List Quar := []
  journal  : List (List Byte) := []
  jNext    : Nat := 0
  jRead    : Nat := 0
  jSeen    : List (Nat × Nat) := []
  editDig  : Digest := 0
  flapLog  : Map Nat (List Word) := .const [0, 0, 0]
  aclBad   : List (Nat × Nat × Nat) := []
  aclHit   : List (Nat × Nat × Nat) := []
  aclLog   : Map Nat Word := .const 0
  deriving DecidableEq, Repr

/-! ### Tickets (05) -/

/-- One ticket (05 R152); `windowAt` the opening of its refute window, `blockAt` of its block. -/
structure Tkt where
  sig     : BitVec 40
  port    : Nat
  egress  : Nat
  elig    : Bool := false
  blocked : Bool := false
  queue   : Nat
  cls     : Nat
  gen     : BitVec 8
  streak  : Nat := 0
  refutes : Nat := 0
  epoch   : BitVec 2
  minLen  : Nat
  acts    : Acts
  lastUse : BitVec 20
  dep     : BitVec 16
  nextHop : Option Nat
  windowAt: Option Nat := none
  blockAt : Nat := 0
  deriving DecidableEq, Repr

/-- One shed's ticket cache (05 R149, R158). `genAt` the last advance, `genDue` that one is pending, `sweepAt` since when stale
tickets are swept, `late` that a sweep is overdue, `clears` the ELIGIBLE clears still to land. -/
structure TktCache where
  ways    : Map Nat (Option Tkt) := .const none
  gen     : BitVec 8 := 0
  genAt   : Option Nat := none
  genDue  : Bool := false
  sweepAt : Option Nat := none
  late    : Bool := false
  bad     : List Nat := []
  express : Map Nat Nat := .const 0
  deriving DecidableEq, Repr

/-! ### The Loft and the yard (06) -/

/-- One cell's count and owner (06 R190). -/
structure CellSt where
  count : Nat := 0
  owner : Nat := 0
  deriving DecidableEq, Repr

/-- Use of one (port, class) pair's pools (06 R194). -/
structure PairUse where
  min    : Nat := 0
  shared : Nat := 0
  head   : Nat := 0
  xoff   : Bool := false
  deriving DecidableEq, Repr

/-- One release of a cell: a FREE or a DEC, its requester, and the descriptor a FREE names (06 R190). -/
structure Release where
  free : Bool
  cell : Nat
  req  : Nat
  desc : Nat
  deriving DecidableEq, Repr

/-- One shed's Loft. `noAlloc` is the bank it no longer allocates from, `lowAt` since when occupancy is low; `relPtr` the rotating
pointer over requesters of releases, `relDone` the releases of this cycle that it put ahead of their commands (06 R192). -/
structure Loft where
  cells    : Map Nat CellSt := .const {}
  held     : Map Nat (Option Held) := .const none
  uses     : Map (Nat × Nat) PairUse := .const {}
  peak     : Nat := 0
  warnLow  : Bool := true
  warnHigh : Bool := true
  noAlloc  : Option Nat := none
  lowAt    : Option Nat := none
  log0     : Word := 0
  log1     : Word := 0
  retry    : List (Nat × Nat × Nat) := []
  auditAt  : Nat := 0
  relPtr   : Nat := 0
  relDone  : List Release := []
  deriving DecidableEq, Repr

/-- STATE of XBR_DRAWBAR (06 R226). -/
inductive HalfSt where
  | stopped
  | training
  | full
  | halfRate
  | outOfService
  | waking
  deriving DecidableEq, Repr

/-- One data hitch lane of a direction: its scrambler, the bit it sent last and how often in a row, the bits stuffed in this superframe
(06 R213). -/
structure LaneTx where
  scr     : BitVec 58 := 0
  last    : Bool := false
  run     : Nat := 0
  stuffed : Nat := 0
  deriving DecidableEq, Repr

/-- One drawbar half (06 R203 to R216): `crcTimes` the cells that failed CRC of late, `ptr2` that stage two is next, `switchAt` a
rate switch-over in progress, `lightAt` since when it runs at full rate without an express stream, `wantFull` an express
request refused at half rate, `sent` the payload sent of late, `otrPtr` the express arbiter's rotating pointer over ingress ports
(05 R164), `peer` the shed at its other end, 0 until its first training, `cal` that its lanes' calibration is saved (06 R214), `lanes`
its data lanes, none before training, `frameNo` the superframe they are in. -/
structure Half where
  st       : HalfSt := .stopped
  crcErr   : BitVec 16 := 0
  crcTimes : List Nat := []
  express  : Nat := 0
  ptr2     : Bool := false
  switchAt : Option Nat := none
  lightAt  : Option Nat := none
  wantFull : Bool := false
  fails    : Nat := 0
  gaveUp   : Bool := false
  sent     : List (Nat × Nat) := []
  lastSlot : Option Nat := none
  otrPtr   : Nat := 0
  peer     : Nat := 0
  cal      : Bool := false
  lanes    : List LaneTx := []
  frameNo  : Nat := 0
  deriving DecidableEq, Repr

/-- One resequencer (06 R210, R211): the next number, the cells held, since when its timer runs, the numbers declared lost. -/
structure Reseq where
  next   : BitVec 16 := 0
  cells  : List YardCell := []
  timer  : Option Nat := none
  lost   : List (BitVec 16) := []
  deriving DecidableEq, Repr

/-- One yard stream that waits to be packed (06 R202, R206): its frame and copy, the bytes packed so far, whether its Loft credit is
taken. -/
structure Strm where
  f      : Nat
  c      : Nat
  packed : Nat := 0
  paid   : Bool := false
  deriving DecidableEq, Repr

/-- One Loft cell that asks to cross a shed crossbar: the `idx`th of a copy, requested from cycle `from_` on (06 R199, R200). -/
structure XReq where
  f     : Nat
  copy  : Nat
  idx   : Nat
  from_ : Nat
  deriving DecidableEq, Repr

/-- One shed crossbar (06 R198 to R200): virtual output queues by input and output, a grant pointer for each output, an accept pointer for
each input, and the ports of which a request stayed unmatched in the last cycle. -/
structure Xbar where
  voq    : Map (Nat × Nat) (List XReq) := .const []
  grant  : Map Nat Nat := .const 0
  accept : Map Nat Nat := .const 0
  missed : List Nat := []
  deriving DecidableEq, Repr

/-- The mesh. `xbars` the shed crossbars; `retrain` the pairs that wait for a place among those of their sheds in training (06 R214); `seqs` next sequence by source and destination; `streams` the yard streams by source and destination; `s1` stage-one
cells by source and intermediate (the source itself: cells that stay local); `s2` stage-two cells by shed and destination;
`flight` the cells sent and not yet released, by source and destination; `credit` relay credits by source, intermediate,
destination; `owed` credits to be returned by shed and peer (destination, cells); `localC` local credits; `lcredit` Loft credits by
source and destination; `unusable` and `pairsOut` the sheds and pairs left out since the last slot-epoch boundary. -/
structure Mesh where
  halves  : Map (Nat × Nat) Half := .const {}
  seqs    : Map (Nat × Nat) (BitVec 16) := .const 0
  streams : Map (Nat × Nat) (List Strm) := .const []
  s1      : Map (Nat × Nat) (List YardCell) := .const []
  s2      : Map (Nat × Nat) (List YardCell) := .const []
  flight  : Map (Nat × Nat) (List YardCell) := .const []
  credit  : Map (Nat × Nat × Nat) Nat := .const 96
  owed    : Map (Nat × Nat) (List (Nat × Nat)) := .const []
  localC  : Map (Nat × Nat) Nat := .const 8
  lcredit : Map (Nat × Nat) Nat := .const 2048
  reseq   : Map (Nat × Nat) Reseq := .const {}
  reseqLog: Map Nat Word := .const 0
  unusable: List Nat := []
  pairsOut: List Nat := []
  xbars   : Map Nat Xbar := .const {}
  retrain : List Nat := []
  deriving DecidableEq, Repr

/-! ### Queues, shapers, meters (07) -/

/-- One entry of a queue. -/
structure QEnt where
  f    : Nat
  copy : Nat
  e    : Nat
  at_  : Nat
  deriving DecidableEq, Repr

/-- One queue. The WRED average is num / 2^den, exactly (07 R251); `recount` since when its use is recounted (07 R253); `fresh` the
largest delay of cycle `cyc`, which a write of that cycle leaves standing (00 R18). -/
structure QueSt where
  ents    : List QEnt := []
  peak    : Nat := 0
  last    : Nat := 0
  max     : Nat := 0
  avgNum  : Nat := 0
  avgDen  : Nat := 0
  recount : Option Nat := none
  cyc     : Nat := 0
  fresh   : Nat := 0
  deriving DecidableEq, Repr

/-- A shaper's signed count in millibits and its node's deficit in bytes (07 R239, R242). -/
structure Shaper where
  tok  : Int := 0
  def_ : Int := 0
  deriving DecidableEq, Repr

/-- Objects whose residue modulo 7 no longer matches their value (07 R253). -/
inductive ResObj where
  | meter (shed idx : Nat)
  | shaper (port level node : Nat)
  | deficit (port level node : Nat)
  | use (port q : Nat)
  | avg (port q : Nat)
  deriving DecidableEq, Repr

/-- One word of an array with SECDED ECC (17 R518): a Loft cell of a shed, a frame's descriptor there, an entry of a table's replica, the
shadow of an ACL entry, a counter's harvest word, Foltin SRAM, a word of queue, scheduler or meter state, a record of a trouble log, a yard cell
in relay memory, the `n`th record of the yard capture buffer since reset. -/
inductive EccWord where
  | loft (s cell : Nat)
  | desc (s f : Nat)
  | replica (s tab : Nat) (key : List Byte)
  | shadow (s slice entry : Nat)
  | harvest (c : CtrId)
  | sram
  | queue (o : ResObj)
  | trouble (l : Level) (seq : BitVec 16)
  | relay (s dst src : Nat) (seq : BitVec 16)
  | capture (n : Nat)
  deriving DecidableEq, Repr

/-- One error that stands in an array (17 R518): `at_` the word's number in its array, `double` that two bits are wrong, `seen` the cycle in
which a read last recorded it. -/
structure EccErr where
  word   : EccWord
  at_    : Nat := 0
  double : Bool := false
  seen   : Option Nat := none
  deriving DecidableEq, Repr

/-- A unit whose arithmetic carries a residue, other than the objects of ResObj (17 R516): a counter's harvest add, a frame's length and
checksum updates in its editor, a resequencer, the ALU of an Ostler engine. -/
inductive ResUnit where
  | harvest (c : CtrId)
  | edit (f : Nat)
  | reseq (s src : Nat)
  | alu (s e : Nat)
  deriving DecidableEq, Repr

/-- An operation of a unit whose check will fail once: `at_` its object's number, `again` that the repeat fails as well (17 R517). -/
structure ResErr where
  unit_ : ResUnit
  at_   : Nat := 0
  again : Bool := false
  deriving DecidableEq, Repr

/-- The two buckets of a meter, in millibits (07 R245). -/
structure MeterSt where
  c : Int
  e : Int
  deriving DecidableEq, Repr

/-- The queues. `nodes` are the settings edited since the activation, none as the timetable has them; `ptr` the round pointer by
port, arbiter (0-3 a group, 4 the port) and PRIO; `sel` and `snap` of QUE_DEPTH_SEL by stall; `pipePtr` the rotating pointer of each
shed's meter unit over its 32 lookup pipes (R248). -/
structure Que where
  qs      : Map (Nat × Nat) QueSt := .const {}
  nodes   : Map (Nat × Nat × Nat) (Option Node) := .const none
  shapers : Map (Nat × Nat × Nat) Shaper := .const {}
  ptr     : Map (Nat × Nat × Nat) Nat := .const 0
  meters  : Map (Nat × Nat) (Option MeterSt) := .const none
  resBad  : List ResObj := []
  resLog  : Map Nat Word := .const 0
  sel     : Map Nat Word := .const 0
  snap    : Map Nat (Nat × Nat × Nat × Nat) := .const (0, 0, 0, 0)
  refill  : Option Nat := none
  pipePtr : Map Nat Nat := .const 0
  avgAt   : Option Nat := none
  deriving DecidableEq, Repr

/-! ### Capture and performance counters (08) -/

/-- One capture ring: enabled, FORMAT, DROPPED, the next SEQ, the records lost since the last written with the first one's
SEQ, bytes written and not yet consumed. -/
structure CapRing where
  enable  : Bool := false
  format  : Nat := 0
  dropped : BitVec 24 := 0
  seq     : Word := 0
  lost    : Nat := 0
  first   : Word := 0
  deriving DecidableEq, Repr

/-- One performance counter (08 R277, R279); `above` whether the occupancy was above THRESH in the last cycle, none in the cycle of a
change; `fresh` what it counted in cycle `cyc` (00 R18). -/
structure PerfCtr where
  cfg   : Word := 0
  thr   : Word := 0
  val   : BitVec 48 := 0
  ovf   : Bool := false
  above : Option Bool := none
  cyc   : Nat := 0
  fresh : Nat := 0
  deriving DecidableEq, Repr

/-- One shed's capture block (08 R274 to R291); `ptr` the sampler's rotating pointer over the lookup pipes (R274). -/
structure ShedCap where
  pcs      : Map Nat PerfCtr := .const {}
  sel      : Word := 0
  snap     : Map Nat (BitVec 48) := .const 0
  snapDone : Bool := true
  precise  : Word := 0
  period   : Word := 0
  left     : Nat := 0
  skip     : Word := 0
  inFlight : Option Nat := none
  ptr      : Nat := 0
  ostCfg   : Word := 0
  ostAt    : Option Nat := none
  cycles   : BitVec 64 := 0
  deriving DecidableEq, Repr

/-- The capture blocks; `buf` are the records in the yard capture buffer that wait for DMA, oldest first, with their ring; `bufNo`
counts the records that have left it. -/
structure Cap where
  rings    : Map Nat CapRing := .const {}
  sheds    : Map Nat ShedCap := .const {}
  buf      : List (Nat × List Byte) := []
  dmaAt    : Nat := 0
  bufNo    : Nat := 0
  snapTime : BitVec 64 := 0
  armed    : Option Nat := none
  taken    : Bool := false
  samples  : Map (Nat × Nat) Nat := .const 0
  exportAt : Map Nat Nat := .const 0
  deriving DecidableEq, Repr

/-! ### Time (09) -/

/-- The time of day in units of 2^−16 ns since 0 s, as the unit holds it: 48-bit seconds, nanoseconds, fraction. -/
structure Tod where
  sec  : BitVec 48 := 0
  ns   : BitVec 30 := 0
  frac : BitVec 16 := 0
  deriving DecidableEq, Repr

/-- An operation of the time unit accepted and not yet in effect (09 R303). -/
inductive TimeOp where
  | set (sec : BitVec 48) (ns : BitVec 30)
  | step (off : BitVec 64)
  | freq (f : BitVec 32)
  deriving DecidableEq, Repr

/-- A request for an operation of the time unit (09 R303): whether the servo asks, FORCE, when it was accepted, and the Daxdy command
it belongs to. -/
structure TimeReq where
  op    : TimeOp
  servo : Bool
  force : Bool
  at_   : Nat
  mbx   : Option Nat := none
  deriving DecidableEq, Repr

/-- One pulse output (09 R308, R318); `next` the time of its next edge in 2^−16 ns, `high` when its pulse ends. -/
structure Pulse where
  cfg    : Word := 0
  startNs: Word := 0
  secLo  : Word := 0
  secHi  : Word := 0
  period : Word := 0
  armed  : Bool := false
  invalid: Bool := false
  next   : Option Int := none
  high   : Option Nat := none
  deriving DecidableEq, Repr

/-- One capture input (09 R311, R318); `lostAt` the cycle in which it last lost a stamp. -/
structure CapIn where
  en     : Bool := false
  edge   : Nat := 1
  ovf    : Bool := false
  fifo   : List (Nat × Nat × Nat × Bool) := []
  lastAt : Option Nat := none
  lostAt : Option Nat := none
  deriving DecidableEq, Repr

/-- One entry of a return queue (09 R301, R319). -/
structure TsEnt where
  id   : Nat
  port : Nat
  ns   : Nat
  sec  : Nat
  deriving DecidableEq, Repr

/-- One stall's return queue; `lostAt` the cycle in which it last lost an entry. -/
structure Tsq where
  cfg   : Word := 0
  ents  : List TsEnt := []
  lost  : BitVec 16 := 0
  ovf   : Bool := false
  lostAt: Option Nat := none
  deriving DecidableEq, Repr

/-- The time unit and the timing I/O. The unit reads `base` at `at_` and advances from there with the frequency adjustment
`freq` (2^−8 ppb). `servo` is TIM_STATUS.SERVO, `args` TIM_OP_ARG0-2; `op` is the operation accepted and not yet in effect, `queue`
those that wait, `ptr` the rotating pointer: whether the servo's goes first (R303); `posted` the PW write in flight: its offset, its data and since when; `hist` the spans of servo lock, newest first
(from, to, frequency); `ppsOut` when the PPS pulse in progress ends. -/
structure Tim where
  base    : Tod := {}
  at_     : Nat := 0
  isSet   : Bool := false
  refLock : Bool := false
  servo   : Nat := 0
  freq    : BitVec 32 := 0
  source  : Nat := 0
  ppsMs   : Nat := 100
  jump    : Nat := 1000
  args    : Word × Word × Word := (0, 0, 0)
  result  : Nat := 0
  op      : Option TimeReq := none
  queue   : List TimeReq := []
  ptr     : Bool := false
  hist    : List (Nat × Nat × BitVec 32) := []
  posted  : Option (Nat × Word × Nat) := none
  refused : BitVec 64 := 0
  outs    : Map Nat Pulse := .const {}
  ppsOut  : Option Nat := none
  ins     : Map Nat CapIn := .const {}
  tsqs    : Map Nat Tsq := .const {}
  deriving DecidableEq, Repr


/-! ### The whole -/

/-- The module but for its addressed buffers and the command queue. `now` is the time since power-on in picoseconds, `free`
numbers the free values (log 15), `rdata` is the completion data of the last read command (log 17), `out` what was sent,
newest first, `ecc` the errors that stand in arrays with ECC, `resid` the operations whose residue check will fail (log 61). -/
structure Mod where
  now    : Nat := 0
  free   : Nat := 0
  rdata  : Word := 0
  out    : List (Nat × Out) := []
  mode   : ModeSt := {}
  evts   : Map (Level × Nat) EvtReg := .const {}
  logs   : Map Level TLog := .const {}
  spills : Map Nat (BitVec 8) := .const 0
  ctrs   : Map CtrId Counter := .const {}
  pairs  : Map PairId PairSt := .const {}
  latch  : Map LatchId (List Word) := .const []
  pwr    : Pwr := {}
  isl    : Isl := {}
  host   : HostSt := {}
  dax    : Dax := {}
  sec    : Sec := {}
  patch  : Patch := {}
  ost    : Map Nat Ost := .const {}
  trb    : Map Nat ShedTrb := .const {}
  ext    : Ext := {}
  cpl    : Cpl := {}
  tt     : TtSt := {}
  line   : Line := {}
  frames : Map Nat (Option Frame) := .const none
  nextF  : Nat := 0
  tbl    : Tbl := {}
  tkt    : Map Nat TktCache := .const {}
  loft   : Map Nat Loft := .const {}
  mesh   : Mesh := {}
  que    : Que := {}
  cap    : Cap := {}
  tim    : Tim := {}
  ecc    : List EccErr := []
  resid  : List ResErr := []
  deriving DecidableEq, Repr

/-- The state of the block: the module, its addressed buffers as one canonical memory, and the commands that wait, first in,
first out. -/
structure State where
  mod     : Mod
  mem     : List Host.Cell
  pending : List Instr
  deriving DecidableEq, Repr

/-- The module right after power-on: Cold, every field at the value the manual states for reset or, where it states none, at
the value log 21 and the logs it names give. -/
def State.reset : State := { mod := {}, mem := [], pending := [] }

end Sys2Proof.Machine
end

