-- ==== Sys2Proof/Machine/Flags.lean ====
section
/-! DEFINITION. Sys2Proof/Machine/Flags.lean: the event bits of every event register with their severities (17 R515, R521,
R522), and where each event register stands in BAR0. -/

namespace Sys2Proof.Machine

/-- One event: its block of 17 R521 (0 the log's own, 31 MOD_EVT, which has no log block), its bit, its severity of 17 R515
(0 Notice, 1 Fault, 2 Machine check, 3 Fatal, 7 None). -/
structure Evt where
  blk : Nat
  bit : Nat
  sev : Nat
  deriving DecidableEq, Repr

/-- The rank of a severity: None lowest, Fatal highest. -/
def sevRank (sev : Nat) : Nat := if sev = 7 then 0 else sev + 1

/- Block 0, 17 R522. -/
def evEccCorr : Evt := ⟨0, 0, 0⟩
def evEccUncorr (sev : Nat) : Evt := ⟨0, 1, sev⟩
def evResidueCorr : Evt := ⟨0, 2, 0⟩
def evResidue : Evt := ⟨0, 3, 1⟩
def evTcamScrub : Evt := ⟨0, 4, 0⟩
def evScrubLate : Evt := ⟨0, 5, 0⟩
def evQuiesced : Evt := ⟨0, 6, 7⟩
def evReturned : Evt := ⟨0, 7, 7⟩
def evReturnFail : Evt := ⟨0, 8, 3⟩
def evReturnHeld : Evt := ⟨0, 9, 7⟩
def evShedThermCrit : Evt := ⟨0, 11, 3⟩
/- LNE_EVT, 02 R76. -/
def evLinkUp : Evt := ⟨1, 0, 7⟩
def evLinkDown : Evt := ⟨1, 1, 7⟩
def evLaneLoss : Evt := ⟨1, 2, 7⟩
def evFecDegrade : Evt := ⟨1, 4, 7⟩
def evPnWarn : Evt := ⟨1, 5, 7⟩
def evPnExhaust : Evt := ⟨1, 6, 7⟩
def evSpillLate : Evt := ⟨1, 7, 1⟩
/- OTR_EVT, 05 R183. -/
def evLateGuard : Evt := ⟨2, 1, 7⟩
def evTicketBlocked : Evt := ⟨2, 2, 7⟩
/- QUE_EVT, 07 R261. -/
def evOversizeStomp : Evt := ⟨3, 1, 7⟩
def evQueResidue : Evt := ⟨3, 2, 1⟩
/- TIM_EVT of the yard and of a stall, 09 R320. -/
def evJumpRefused : Evt := ⟨4, 1, 7⟩
def evRefLoss : Evt := ⟨4, 2, 7⟩
def evHoldover : Evt := ⟨4, 3, 7⟩
def evPulseMissed : Evt := ⟨4, 4, 7⟩
def evTsqOvf : Evt := ⟨4, 1, 7⟩
/- ISL_EVT, 15 R480. -/
def evXerr : Evt := ⟨5, 1, 1⟩
def evResyncDiscard : Evt := ⟨5, 2, 7⟩
/- LKP_EVT, 03 R110. -/
def evAclParity : Evt := ⟨6, 1, 1⟩
/- LKP_TBL_EVT, 04 R148. -/
def evTableFull : Evt := ⟨7, 0, 7⟩
def evEvict : Evt := ⟨7, 1, 7⟩
def evFlap : Evt := ⟨7, 2, 7⟩
def evLearnDrop : Evt := ⟨7, 3, 7⟩
def evCursorRewound : Evt := ⟨7, 4, 7⟩
def evJournalWrap : Evt := ⟨7, 5, 7⟩
def evReplicaDiverge : Evt := ⟨7, 6, 1⟩
/- OTR_SHED_EVT, 05 R187. -/
def evSweepLate : Evt := ⟨8, 1, 1⟩
def evTicketParity : Evt := ⟨8, 2, 0⟩
/- LFT_EVT, 06 R225. -/
def evWarnLow : Evt := ⟨9, 1, 7⟩
def evWarnHigh : Evt := ⟨9, 2, 7⟩
def evFreeReject : Evt := ⟨9, 3, 1⟩
def evHeadroomDrop : Evt := ⟨9, 4, 1⟩
/- XBR_EVT, 06 R230. -/
def evDrawbarDown : Evt := ⟨10, 1, 1⟩
def evReseqLoss : Evt := ⟨10, 2, 1⟩
def evReseqWindow : Evt := ⟨10, 3, 1⟩
/- QUE_SHED_EVT, 07 R263. -/
def evMeterResidue : Evt := ⟨11, 1, 1⟩
/- CAP_SHED_EVT, 08 R291. -/
def evPcOvf : Evt := ⟨12, 1, 7⟩
def evPreciseSkip : Evt := ⟨12, 2, 7⟩
/- OST_EVT, 14 R462. -/
def evMcheckRepeat : Evt := ⟨13, 1, 3⟩
def evPatchFail : Evt := ⟨13, 2, 1⟩
def evMcheck : Evt := ⟨13, 3, 2⟩
def evWaitTimeout : Evt := ⟨13, 4, 1⟩
def evHeldRun : Evt := ⟨13, 5, 7⟩
/- CAP_RING_EVT, 08 R288: bit r is OVFr. -/
def evRingOvf (r : Nat) : Evt := ⟨14, r, 7⟩
/- CAP_EVT, 08 R288. -/
def evSnapLate : Evt := ⟨15, 1, 7⟩
/- TTB_EVT, 10 R347. -/
def evVerified : Evt := ⟨16, 1, 7⟩
def evActivated : Evt := ⟨16, 2, 7⟩
def evActivateFail : Evt := ⟨16, 3, 7⟩
def evDrainTimeout : Evt := ⟨16, 4, 7⟩
def evShedDiverge : Evt := ⟨16, 5, 1⟩
def evPartnerMismatch : Evt := ⟨16, 6, 7⟩
def evSeqUnordered : Evt := ⟨16, 7, 7⟩
def evNoneValid : Evt := ⟨16, 8, 7⟩
/- CPL_EVT, 11 R377. -/
def evPaired : Evt := ⟨17, 1, 7⟩
def evPartnerLost : Evt := ⟨17, 2, 7⟩
def evPartnerDying : Evt := ⟨17, 3, 7⟩
def evVersionRefused : Evt := ⟨17, 4, 7⟩
def evRoleClash : Evt := ⟨17, 5, 1⟩
def evPathLost : Evt := ⟨17, 6, 7⟩
def evReinsTaken : Evt := ⟨17, 7, 7⟩
def evReinsLost : Evt := ⟨17, 8, 7⟩
def evEditMismatch : Evt := ⟨17, 9, 7⟩
def evLearnMismatch : Evt := ⟨17, 10, 7⟩
def evSyncGap : Evt := ⟨17, 11, 7⟩
def evReinsClash : Evt := ⟨17, 12, 1⟩
/- MBX_EVT, 12 R406. -/
def evDoorbellBusy : Evt := ⟨18, 1, 7⟩
def evBufferWrite : Evt := ⟨18, 2, 7⟩
def evNotifyLost : Evt := ⟨18, 3, 7⟩
def evHostSilent : Evt := ⟨18, 4, 7⟩
def evFoltinRestart : Evt := ⟨18, 5, 2⟩
/- HST_EVT, 13 R437. -/
def evAccessDrop : Evt := ⟨19, 1, 7⟩
def evLinkDegraded : Evt := ⟨19, 2, 7⟩
def evRingError : Evt := ⟨19, 3, 1⟩
def evPuntDrop : Evt := ⟨19, 4, 7⟩
/- PWR_EVT, 16 R514. -/
def evStopRefused : Evt := ⟨20, 1, 7⟩
def evLeaveRefused : Evt := ⟨20, 2, 7⟩
def evHoldup : Evt := ⟨20, 3, 7⟩
def evInletChange : Evt := ⟨20, 4, 7⟩
def evShedding : Evt := ⟨20, 5, 1⟩
def evThermWarn : Evt := ⟨20, 6, 7⟩
def evThermHold : Evt := ⟨20, 7, 7⟩
def evThermCrit : Evt := ⟨20, 8, 7⟩
/- MOD_EVT, 19 R577. -/
def evCplCable : Evt := ⟨31, 1, 7⟩
def evResetGlitch : Evt := ⟨31, 2, 7⟩
def evStrapChange : Evt := ⟨31, 3, 7⟩
def evFaceCold : Evt := ⟨31, 4, 7⟩
def evFaceHot : Evt := ⟨31, 5, 7⟩

/-- The page of an event register within its level's window (13, the chapters of the blocks). -/
def evtPage (l : Level) (blk : Nat) : Nat :=
  match l, blk with
  | .stall _, 1 => 0x0000
  | .stall _, 2 => 0x8000
  | .stall _, 3 => 0xC000
  | .stall _, 4 => 0x10000
  | .stall _, 5 => 0x14000
  | .stall _, _ => 0x18000
  | .shed _, 5 => 0xA0000
  | .shed _, 6 => 0x20000
  | .shed _, 7 => 0x20000
  | .shed _, 8 => 0x30000
  | .shed _, 9 => 0x40000
  | .shed _, 10 => 0x50000
  | .shed _, 11 => 0x60000
  | .shed _, 12 => 0x70000
  | .shed _, 13 => 0x90000
  | .shed _, _ => 0xB0000
  | .yard, 4 => 0x80000
  | .yard, 5 => 0xD0000
  | .yard, 14 => 0x70000
  | .yard, 15 => 0x70000
  | .yard, 16 => 0x90000
  | .yard, 17 => 0xA0000
  | .yard, 18 => 0xB0000
  | .yard, 19 => 0xC0000
  | .yard, 20 => 0xE0000
  | .yard, 31 => 0x110000
  | .yard, _ => 0xF0000

/-- The offset of an event register within its page; block 0 stands for TRB_STATUS. -/
def evtInPage (l : Level) (blk : Nat) : Nat :=
  match l, blk with
  | .stall _, 1 => 0x200
  | .shed _, 6 => 0x200
  | .shed _, 7 => 0x600
  | .shed _, 8 => 0x200
  | .shed _, 11 => 0x200
  | .yard, 14 => 0x200
  | .yard, 15 => 0x204
  | .yard, 19 => 0xF00
  | _, 0 => 0x000
  | _, _ => 0x300

/-- The start of a level's window in BAR0 (00 R13). -/
def levelBase (l : Level) : Nat :=
  match l with
  | .yard => 0
  | .shed s => 0x1000000 + s * 0x1000000
  | .stall g => 0x1000000 + shedOfStall g * 0x1000000 + 0x800000 + g % 16 * 0x40000

/-- The BAR0 offset of an event register. -/
def evtOffset (l : Level) (blk : Nat) : Nat := levelBase l + evtPage l blk + evtInPage l blk

/-- The code of the level in an EVENT notification (12 R392). -/
def levelCode : Level → Nat
  | .yard => 0
  | .shed _ => 1
  | .stall _ => 2

/-- SOURCE of an EVENT notification: `[10:8]` shed, `[3:0]` stall (12 R392). -/
def levelSource : Level → Nat
  | .yard => 0
  | .shed s => at_ 8 3 s
  | .stall g => at_ 8 3 (shedOfStall g) + at_ 0 4 g

/-- The interrupt source of a level's trouble log (13 R418). -/
def levelIrq : Level → Nat
  | .yard => 104
  | .shed s => 105 + s
  | .stall g => 113 + g

end Sys2Proof.Machine
end

