-- ==== Sys2Proof/Machine/Memory.lean ====
section
/-! DEFINITION. Sys2Proof/Machine/Memory.lean: the addressed buffers of the block as one memory in canonical form. It holds
the 16 mailbox message buffers at their BAR2 offsets (12 R380), the images of timetable banks A and B (10 R326) and the two
firmware slots (18 R532). The bases of the last four are the model's own; an unlisted address reads 0x00 (log 10). -/

namespace Sys2Proof.Machine

/-- Base of the message buffer of mailbox `m` (12 R380). -/
def mbxBase (m : Nat) : Nat := m * 0x1000

/-- Base of the image of bank 0 (A) or 1 (B). -/
def bankBase (b : Nat) : Nat := 0x20000000 * (b + 1)

/-- Base of the image of firmware slot 0 or 1. -/
def slotBase (k : Nat) : Nat := 0x80000000 + 0x1000000 * k

/-- Addresses strictly rising above `lo`, and no entry equal to the 0x00 an unlisted address reads as. -/
def Memory.wfFrom (lo : Nat) : List Host.Cell → Bool
  | [] => true
  | c :: l => decide (lo ≤ c.1) && c.2 != 0#8 && Memory.wfFrom (c.1 + 1) l

/-- The canonical form of the memory. -/
def Memory.wf (l : List Host.Cell) : Bool := Memory.wfFrom 0 l

/-- The byte at address `a`. -/
def Memory.read (l : List Host.Cell) (a : Nat) : Byte :=
  match l with
  | [] => 0#8
  | c :: t => if c.1 = a then c.2 else Memory.read t a

/-- The memory with byte `v` at address `a`: a byte of 0x00 removes the entry. -/
def Memory.write (l : List Host.Cell) (a : Nat) (v : Byte) : List Host.Cell :=
  match l with
  | [] => if v = 0#8 then [] else [(a, v)]
  | c :: t =>
    if a < c.1 then (if v = 0#8 then c :: t else (a, v) :: c :: t)
    else if c.1 = a then (if v = 0#8 then t else (a, v) :: t)
    else c :: Memory.write t a v

/-- The bytes `vs` stored from address `a` up. -/
def Memory.writes (l : List Host.Cell) (a : Nat) : List Byte → List Host.Cell
  | [] => l
  | v :: vs => Memory.writes (Memory.write l a v) (a + 1) vs

/-- The `n` bytes from address `a` up. -/
def Memory.reads (l : List Host.Cell) (a n : Nat) : List Byte := (List.range n).map (fun i => Memory.read l (a + i))

/-- The memory with every address from `lo` below `hi` reading 0x00. -/
def Memory.erase (l : List Host.Cell) (lo hi : Nat) : List Host.Cell := l.filter (fun c => c.1 < lo || hi ≤ c.1)

end Sys2Proof.Machine
end

