-- ==== Sys2Proof/WellFormed.lean ====
section
/-! DEFINITION. Sys2Proof/WellFormed.lean: which commands name something the module has: ports, lanes, stalls, sheds, drawbar
halves, mailboxes, rings, domains and the rest within their ranges (00 R3 to R5). An ill-formed command names nothing, and has no
effect (log 3). -/

namespace Sys2Proof

/-- A port (00 R3, R4). -/
def wfPort (p : Nat) : Bool := decide (p ≤ 1037)

/-- A traffic class, or the whole port. -/
def wfCls (c : Option Nat) : Bool :=
  match c with
  | some k => decide (k < 8)
  | none => true

/-- A shed. -/
def wfShed (s : Nat) : Bool := decide (s < 8)

/-- A drawbar half of a shed. -/
def wfHalf (s h : Nat) : Bool := decide (s < 8) && decide (h < 7)

/-- A stall. -/
def wfStall (g : Nat) : Bool := decide (g < 128)

/-- A level (01 R21). -/
def wfLevel (l : Level) : Bool :=
  match l with
  | .yard => true
  | .shed s => wfShed s
  | .stall g => wfStall g

/-- The number of islands of a kind (15 R463). -/
def islandCount (kind : Nat) : Nat :=
  match kind with
  | 0 => 1 | 1 => 1 | 2 => 1 | 3 => 1 | 4 => 1 | 5 => 2 | 6 => 8 | 7 => 96 | 8 => 8 | 9 => 56 | 10 => 128 | 11 => 128
  | 12 => 128 | _ => 0

/-- Whether a number names an island. -/
def islandValid (i : Nat) : Bool := i < 4096 && decide (i % 256 < islandCount (i / 256))

/-- The blocks of a level that have an event register (17 R521); 0, its trouble log, is not among them. -/
def evtBlocks : Level → List Nat
  | .stall _ => [1, 2, 3, 4, 5]
  | .shed _ => [5, 6, 7, 8, 9, 10, 11, 12, 13]
  | .yard => [4, 5, 14, 15, 16, 17, 18, 19, 20, 31]

/-- A BAR0 offset of a whole register in view `v` of its page (00 R14). -/
def wfAlias (v off : Nat) : Bool := decide (off < 0x10000000) && decide (off % 4 = 0) && decide (off % 0x4000 / 0x1000 = v)

/-- A mailbox that takes commands (12 R381). -/
def wfBox (m : Nat) : Bool := decide (m < 15)

/-- A Loft cell of a shed (06 R188). -/
def wfCell (s c : Nat) : Bool := wfShed s && decide (c < 196608)

/-- A ticket of a shed (05 R149). -/
def wfTkt (s t : Nat) : Bool := wfShed s && decide (t < 32768)

/-- An Ostler engine of a shed (14 R438). -/
def wfEngine (s e : Nat) : Bool := wfShed s && decide (e < 4)

/-- A table key's FID (04 R126). -/
def wfFid (s fid : Nat) : Bool := wfShed s && decide (fid < 16384)

/-- A counter (02 R48, 03 R106, 04 R144, 05 R177, R178, 06 R223, R228, 07 R260, 11 R376, 14 R459, 15 R478, 16 R511). -/
def wfCtr (c : CtrId) : Bool :=
  match c with
  | .lne g p i => wfStall g && decide (p < 8) && decide (i < 128)
  | .prs g p i => wfStall g && decide (p < 8) && decide (i < 32)
  | .otr g p i => wfStall g && decide (p < 8) && decide (i < 16)
  | .que port q i => wfPort port && decide (q < 16) && decide (i < 10)
  | .lkp s i => wfShed s && decide (i < 32)
  | .otrT s i => wfShed s && decide (i < 8)
  | .lft s i => wfShed s && decide (i < 8)
  | .xbr s sub i => wfShed s && decide (sub < 8) && decide (i < 16)
  | .cpl i => decide (i < 16)
  | .ost s e i => wfEngine s e && decide (i < 16)
  | .isl l i => wfLevel l && decide (i < 8)
  | .pwr i => decide (i < 8)
  | .named s n _ => wfShed s && decide (n < 1048576)

/-- A wide pair (13 R412). -/
def wfPair (p : PairId) : Bool :=
  match p with
  | .lne g => wfStall g
  | .prs g => wfStall g
  | .otr g => wfStall g
  | .que g => wfStall g
  | .lkp s => wfShed s
  | .otrT s => wfShed s
  | .lft s => wfShed s
  | .xbr s => wfShed s
  | .cpl => true
  | .ost s => wfShed s
  | .isl l => wfLevel l
  | .pwr => true
  | .capPc s => wfShed s
  | .snapTime => true
  | .ringBase n => decide (n < 88)
  | .ringWb n => decide (n < 88)

/-- A latch group (04 R147 and those named at `LatchId`). -/
def wfLatch (l : LatchId) : Bool :=
  match l with
  | .flapLog s => wfShed s
  | .freeLog s => wfShed s
  | .mcheckLog s => wfShed s
  | .xerrLog l => wfLevel l
  | .accessLog => true
  | .pwrLog i => decide (i < 16)
  | .mono => true
  | .refused => true
  | .flip => true
  | .retireDrop s => wfShed s
  | .nowSec => true
  | .capSec c => decide (c < 5)
  | .tsqData g => wfStall g
  | .troubleRec l => wfLevel l

/-- A yard cell: 500 bytes, with parts of at most its 484 bytes of payload (06 R202). -/
def wfYardCell (c : YardSlot) : Bool :=
  decide (c.bytes.length = 500) && decide ((c.parts.map (·.bytes)).foldl (· + ·) 0 ≤ 484)

/-- A frame's bytes: at least one. -/
def wfBytes (l : List Byte) : Bool := decide (0 < l.length)

/-- A wake source of 16 R486. -/
def wfWake (w : Nat) : Bool := decide (1 ≤ w) && decide (w ≤ 6)

/-- An operation of 16 R492 and its unit: a wave, a pair, a half, a shed, or 0 of the yard. -/
def wfLeave (op u : Nat) : Bool :=
  decide (1 ≤ op) && decide (op ≤ 10) &&
    decide (u < (if op = 2 then 16 else if op = 3 then 28 else if op = 4 then 56 else if op = 9 ∨ op = 10 then 1 else 8))

/-- The command names something the module has. -/
def Instr.wf (c : Instr) : Bool :=
  match c with
  | .frameReceive p l _ => wfPort p && wfBytes l.bytes
  | .pauseFrameReceive p l => decide (p < 1024) && wfBytes l
  | .pfcFrameReceive p l => decide (p < 1024) && wfBytes l
  | .pauseExpiry p c => wfPort p && wfCls c
  | .pauseResend p c => decide (p < 1024) && wfCls c
  | .scheduleFrame p => wfPort p
  | .txFrameEnd p => wfPort p
  | .ctOversizeStomp p => wfPort p
  | .ctUnderrun p => wfPort p
  | .lpiEnter p => decide (p < 1024)
  | .lpiWakeEnd p => decide (p < 1024)
  | .rxLpiChange p _ => decide (p < 1024)
  | .pipeStepDown g => wfStall g
  | .portUp p => decide (p < 1024)
  | .portDown p => decide (p < 1024)
  | .laneLockLoss l => decide (l < 1024)
  | .laneLockRegain l => decide (l < 1024)
  | .laneSignalDetect l => decide (l < 1024)
  | .laneLockAcquire l => decide (l < 1024)
  | .fecDegrade p _ => decide (p < 1024)
  | .counterSpill c => wfCtr c
  | .counterHarvest c => wfCtr c
  | .spillLate c => wfCtr c
  | .counterLoRead p => wfPair p
  | .counterSelectWrite p _ => wfPair p
  | .latchRead l => wfLatch l
  | .widePairLowWrite p _ => wfPair p
  | .widePairHighWrite p _ => wfPair p
  | .evtSeqWrite l b _ => wfLevel l && (b == 0 || (evtBlocks l).contains b)
  | .registerWrite off d _ => decide (off + d.length ≤ 0x10000000) && decide (d.length ≤ 512)
  | .setAliasWrite off _ => wfAlias 1 off
  | .clearAliasWrite off _ => wfAlias 2 off
  | .toggleAliasWrite off _ => wfAlias 3 off
  | .handshakeTimeout n f k off => islandValid n.toNat && islandValid f.toNat && decide (k < 3) && decide (off < 0x10000000)
  | .handshakeStaleAnswer n => islandValid n.toNat
  | .fifoStallTimeout n f _ => islandValid n.toNat && islandValid f.toNat
  | .cellDec s c _ => wfCell s c
  | .cellFree s c _ _ => wfCell s c
  | .freeRetry s c => wfCell s c
  | .loftAudit s => wfShed s
  | .loftBankIdle s => wfShed s
  | .loftBankStop s b => wfShed s && decide (b < 12)
  | .yardCellReceive s h c => wfHalf s h && wfYardCell c
  | .reseqTimeout s r => wfShed s && wfShed r
  | .drawbarCrcLimit s h => wfHalf s h
  | .hitchClockLockLoss s h => wfHalf s h
  | .drawbarTrainingDone p => decide (p < 28)
  | .drawbarTrainingFail p => decide (p < 28)
  | .halfRateEnter s h => wfHalf s h
  | .halfRateReturn s h => wfHalf s h
  | .drawbarHalfStopRequest s h => wfHalf s h
  | .drawbarHalfWakeRequest s h => wfHalf s h
  | .rateSwitchOverEnd s h => wfHalf s h
  | .drawbarSlot s h => wfHalf s h
  | .queueUseRecountDone p q => wfPort p && decide (q < 16)
  | .depthSelectWrite g _ => wfStall g
  | .tableEditInsert m => wfBox m
  | .tableEditChange m => wfBox m
  | .tableEditDelete m => wfBox m
  | .replicaWriteReceive s => wfShed s
  | .learnRequestHandle s => wfShed s
  | .freezeEnd s f _ => wfFid s f
  | .hitRefresh s f _ _ => wfFid s f
  | .agingVisit s f _ => wfFid s f
  | .cursorExpiry s _ => wfShed s
  | .search m => wfBox m
  | .next m => wfBox m
  | .flushByPort m => wfBox m
  | .journalRead m => wfBox m
  | .aclParityRepair s sl e => wfShed s && decide (sl < 16) && decide (e < 4096)
  | .ticketGenAdvance s => wfShed s
  | .ticketSweepDone s => wfShed s
  | .ticketSweepLate s => wfShed s
  | .ticketBlockEnd s t => wfTkt s t
  | .refuteWindowEnd s t => wfTkt s t
  | .ticketRead m => wfBox m
  | .ticketFlush m => wfBox m
  | .queueConfig m => wfBox m
  | .counterRead m => wfBox m
  | .captureRing m => wfBox m
  | .lossMarkerWrite r => decide (r < 16)
  | .ostlerSample s => wfShed s
  | .queueDepthExport p => decide (p < 1024)
  | .pcOverflow s n => wfShed s && decide (n < 16)
  | .pcConfigWrite s n _ _ => wfShed s && decide (n < 16)
  | .snapshotTake s => wfShed s
  | .precisePeriodWrite s _ => wfShed s
  | .preciseCfgWrite s _ => wfShed s
  | .pulseOutputArm o _ => decide (o < 8)
  | .pulseOutputFire o => decide (o < 8)
  | .captureInputEdge c _ => decide (c < 5)
  | .captureStampPop c => decide (c < 5)
  | .captureOvfClear c _ => decide (c < 5)
  | .tsqPop g => wfStall g
  | .tsqOvfClear g _ => wfStall g
  | .timePort m => wfBox m
  | .timeStep m => wfBox m
  | .ptpConfig m => wfBox m
  | .macsecInstallTxSa m => wfBox m
  | .macsecInstallRxSa m => wfBox m
  | .macsecDeleteSa m => wfBox m
  | .macsecSelectTxSa m => wfBox m
  | .ttOpen m => wfBox m
  | .ttWrite m => wfBox m
  | .ttClose m => wfBox m
  | .ttActivate m => wfBox m
  | .ttInvalidate m => wfBox m
  | .ttStatus m => wfBox m
  | .verificationDone b => decide (b < 2)
  | .shedLoadDone s _ => wfShed s
  | .pairRestart m => wfBox m
  | .reinsHandover m => wfBox m
  | .doorbellRing m => decide (m < 16)
  | .commandTaken m => wfBox m
  | .commandStart m => wfBox m
  | .commandDeadline m => wfBox m
  | .hello m => wfBox m
  | .moduleInfo m => wfBox m
  | .modeChange m => wfBox m
  | .firmwareUpdate m => wfBox m
  | .fwWrite m => wfBox m
  | .fwCommit m => wfBox m
  | .fwStatus m => wfBox m
  | .enrol m => wfBox m
  | .quote m => wfBox m
  | .challenge m => wfBox m
  | .decommission m => wfBox m
  | .policySet m => wfBox m
  | .ringDoorbell n _ => decide (n < 88)
  | .ringEnable n _ => decide (n < 88)
  | .ringDisable n _ => decide (n < 88)
  | .ringStopDone n => decide (n < 88)
  | .injectDescriptorFetch n d _ => decide (n < 64) && decide (d.length = 32)
  | .ringModerationTimer n => decide (n < 88)
  | .dmaReadError n => decide (n < 88)
  | .dmaWriteRefused n => decide (n < 103)
  | .hostLinkUp sp w => decide (1 ≤ sp) && decide (sp ≤ 5) && [1, 2, 4, 8, 16].contains w
  | .vectorUnmask v => decide (v < 2048)
  | .ostlerCommand s e _ _ _ => wfEngine s e
  | .ostlerConditionMet s e => wfEngine s e
  | .ostlerWaitTimeout s e => wfEngine s e
  | .ostlerRoutineEnd s e => wfEngine s e
  | .ostlerMachineCheck s e k => wfEngine s e && decide (k < 5)
  | .ostlerWordRewrite s => wfShed s
  | .ostlerEngineRestart s e => wfEngine s e
  | .storeBist s _ => wfShed s
  | .storeBistDone s _ => wfShed s
  | .domainStopRequest _ d => decide (d < 448)
  | .domainStopDrained d => decide (d < 448)
  | .domainStopAbort d w => decide (d < 448) && (match w with
      | some k => wfWake k
      | none => true)
  | .domainWakeRequest w d => wfWake w && decide (d < 448)
  | .domainWakeSettled d => decide (d < 448)
  | .wakeTableStep d => decide (d < 448)
  | .thermalSample s _ => wfShed s
  | .leaveRequest op u => wfLeave op u
  | .faceSensorRead b l => decide (l.length = if b then 2 else 4)
  | .replicaCompare t => decide (1 ≤ t) && decide (t ≤ 16)
  | .shedReturnHoldEnd s => wfShed s
  | .troubleRecordPop l => wfLevel l
  | .scrubPass s => wfShed s
  | .scrubLate s => wfShed s
  | .mailboxBufferWrite off l => decide (off < 0x10000) && decide (l.length ≤ 0xF80)
  | .shedStateCopyDone s => wfShed s
  | .loftAdmission _ | .frameEnd _ _ | .frameOversize _ | .guardResult _ | .guardRevision _ | .outriderStart _ | .lateGuard _
  | .enqueue _ _ | .postedWriteLand
  | .slotEpochBoundary | .refillTick | .wredAverageTick | .editReplicasCommitted | .syncRecordSend
  | .quarantineEnd _ _ | .snapshotArm _ | .timeUnitSet _ _ _ _ | .timeUnitStep _ _ _ | .timeUnitFrequency _ _ _
  | .timeOpTakeEffect | .refLock | .refLoss | .servoHoldoverEnter | .servoHoldoverExit _ | .ppsOutEdge | .timeNowRead
  | .timetableFlip | .drainEnd | .shedDigestCheck | .partnerMismatch | .startActivation | .heartbeatSend _ | .heartbeatReceive _ _
  | .pathLost _ | .leaseRenewal | .leaseEnd | .leaseViewEnd | .dyingGasp _ | .couplerTrainingDone | .couplerTrainingFail
  | .couplerLinkDown | .syncRecordReceive _ | .bulkResyncDone | .genHandoverRecord _ _ | .genHandoverAck _
  | .genHandoverResend _ | .recoveryReset _ | .notificationPost | .notificationAck | .hostSilent | .hostWatchdogWrite _
  | .quiesceDrainEnd | .diagnosticSessionEnd | .yardDiscoveryComplete | .foltinWatchdog | .foltinRestartDone | .scheduledReset
  | .firmwareImageCheck | .patchVerify | .hostLinkDown | .functionLevelReset | .perstAssert
  | .diagDomainWake _ | .diagDomainStop _ | .psuTelemetry _ _ _ _ _
  | .psuGood _ | .inletLowLine _ | .inletHighLine _ | .inletLoss _ | .holdupEnd | .powerRestart | .leaveGrant
  | .leaveRelease _ | .leaveQueueTimeout | .laneWaveEnd | .shedRestore _ | .modResetAssert | .modResetRelease | .resetGlitch
  | .strapChange _ _ | .cplCableChange _ | .managementLinkChange _ | .mainsApply _ | .captureRecordDma
  | .hostLinkWaitEnd | .challengeLapse => true

/-- The commands that are accesses of the host through BAR0, BAR2 or BAR4, or a configuration access of it. -/
def Instr.byHost : Instr → Bool
  | .counterLoRead _ | .counterSelectWrite _ _ | .latchRead _ | .widePairLowWrite _ _ | .widePairHighWrite _ _
  | .registerWrite _ _ _ | .setAliasWrite _ _ | .clearAliasWrite _ _ | .toggleAliasWrite _ _ | .evtSeqWrite _ _ _
  | .depthSelectWrite _ _ | .pcConfigWrite _ _ _ _ | .snapshotArm _ | .precisePeriodWrite _ _ | .preciseCfgWrite _ _
  | .captureStampPop _ | .captureOvfClear _ _ | .tsqPop _ | .tsqOvfClear _ _ | .timeNowRead | .doorbellRing _
  | .notificationAck | .hostWatchdogWrite _ | .ringDoorbell _ _ | .ringEnable _ _ | .ringDisable _ _ | .functionLevelReset
  | .vectorUnmask _ | .storeBist _ _ | .diagDomainWake _ | .diagDomainStop _ | .shedRestore _ | .troubleRecordPop _
  | .mailboxBufferWrite _ _ => true
  | _ => false

end Sys2Proof
end

