-- ==== Sys2Proof/Machine/Ops.lean ====
section
/-! DEFINITION. Sys2Proof/Machine/Ops.lean: the operations every family uses: sending something out, signalling an interrupt
source, raising an event with its trouble record and notification, counting, logging an access, free values, completing a
Daxdy command. -/

namespace Sys2Proof.Machine

/-- The outcome of a command whose effect is on the module alone. -/
def onMod (f : Mod → Mod) (s : State) : Host.Outcome State Fault Refusal := .next { s with mod := f s.mod }

/-- The outcome of a command whose effect may also write the addressed buffers. The queue stays. -/
def onAll (f : Mod × List Host.Cell → Mod × List Host.Cell) (s : State) : Host.Outcome State Fault Refusal :=
  .next { s with mod := (f (s.mod, s.mem)).1, mem := (f (s.mod, s.mem)).2 }

/-- Whether a command arrives: it is well-formed (log 3), and the host's accesses need the host link (01 R32, 13 R409). -/
def arrives (c : Instr) (x : Mod) : Bool := c.wf && (!c.byHost || x.host.up)

/-- A command's outcome: its effect on the module, none when it does not arrive. -/
def cmd (c : Instr) (f : Mod → Mod) (s : State) : Host.Outcome State Fault Refusal :=
  onMod (fun x => if arrives c x then f x else x) s

/-- The same for a command that may also write the addressed buffers. -/
def cmdAll (c : Instr) (f : Mod × List Host.Cell → Mod × List Host.Cell) (s : State) : Host.Outcome State Fault Refusal :=
  onAll (fun y => if arrives c y.1 then f y else y) s

/-- The effect `f` where the event is due, and none where it is not (log 2). -/
def due (ok : Bool) (f : Mod → Mod) (x : Mod) : Mod := if ok then f x else x

/-- The monotonic counter in nanoseconds (09 R294). -/
def Mod.mono (x : Mod) : BitVec 64 := BitVec.ofNat 64 (x.now / 1000)

/-- The cycle of 0.625 ns that an instant lies in. -/
def Mod.cyc (x : Mod) : Nat := x.now / 625

/-- Something leaves the block (log 17). -/
def emit (o : Out) (x : Mod) : Mod := { x with out := (x.now, o) :: x.out }

/-! ### Interrupts (13 R417, R418) -/

/-- The vector of an interrupt source. -/
def vecOf (x : Mod) (src : Nat) : Nat := (x.host.vec.get src).getD src

/-- A source signals: its vector is sent, or kept pending while masked. Nothing is sent while the link is down. -/
def signal (src : Nat) (x : Mod) : Mod :=
  let v := vecOf x src
  if !x.host.up then x
  else if x.host.vecMasked.get v || x.host.funcMask then
    { x with host := { x.host with vecPending := x.host.vecPending.set v true } }
  else emit (.msix v) x

/-! ### Event registers and trouble logs -/

/-- The event bits of a register as they read. -/
def evtBits (r : EvtReg) : Nat := ((List.range 16).map (fun i => flag i (r.bits.get i).isSome)).foldl (· + ·) 0

/-- The register after one more event on a bit (13 R415). -/
def EvtReg.hit (r : EvtReg) (bit cyc : Nat) : EvtReg :=
  { seq := r.seq + 1, bits := r.bits.set bit (some (r.seq + 1)), cyc := cyc, was := if r.cyc = cyc then r.was else r.seq }

/-- The latest sequence that the host could have read in a cycle: one of the cycle itself is later than any (00 R19). -/
def EvtReg.readable (r : EvtReg) (cyc : Nat) : BitVec 16 := if r.cyc = cyc then r.was else r.seq

/-- The register after a write of `v` to EVT_SEQ: the events at or before `v` are cleared (13 R415). -/
def EvtReg.clear (r : EvtReg) (v : BitVec 16) : EvtReg :=
  { r with bits := r.bits.mapEnts (fun _ e =>
      match e with
      | some s => if (v - s).toNat < 2 ^ 15 then none else some s
      | none => none) }

/-- Whether a record repeats a Notice recorded within the last 1 ms (17 R524). An event without a word address is told by its
code alone (log 24). -/
def TLog.repeats (l : TLog) (now code addr : Nat) : Bool :=
  l.notices.any (fun n => n.1 == code && n.2.1 == addr && now < n.2.2 + ms 1)

/-- The log with a record added: the oldest is overwritten when 64 are unread, but a Machine check or Fatal record never by
one of lower severity (17 R524). -/
def TLog.push (l : TLog) (r : TRec) : TLog :=
  if l.recs.length < 64 then { l with recs := l.recs ++ [r] }
  else
    match l.recs with
    | [] => { l with recs := [r] }
    | o :: t =>
      if 3 ≤ sevRank o.sev && sevRank r.sev < sevRank o.sev then { l with lost := l.lost + 1 }
      else { l with recs := t ++ [r], lost := l.lost + 1 }

/-- The log after an event (17 R523, R524). -/
def TLog.enter (l : TLog) (now code sev addr : Nat) (detail : Word) : TLog :=
  let q := l.seq + 1
  let l1 := { l with seq := q, sticky := l.sticky.set code (some (q, sev)) }
  if sev = 0 && l.repeats now code addr then { l1 with merged := l1.merged + 1 }
  else
    let l2 := if sev = 0 then { l1 with notices := (code, addr, now) :: l1.notices } else l1
    l2.push { seq := q, sev := sev, code := code, time := now / 1000, detail := detail }

/-- The log after a write of `v` to TRB_STATUS.EVT_SEQ (17 R523). -/
def TStore.clear (l : TStore) (v : BitVec 16) : TStore :=
  { l with sticky := l.sticky.mapEnts (fun _ e =>
      match e with
      | some (s, sev) => if (v - s).toNat < 2 ^ 15 then none else some (s, sev)
      | none => none) }

/-- Whether a log has taken events in a cycle. -/
def TLog.busyIn (l : TLog) (cyc : Nat) : Bool := l.cyc == cyc && l.came != []

/-- The events of one cycle enter one after another, upon what the log held before them. -/
def TLog.replay (l : TLog) : TLog :=
  l.came.foldl (fun a e => a.enter e.time e.code e.sev e.addr e.detail) { l with toTStore := l.before }

/-- An event reaches the log: the events of one cycle take their sequences in the order of the rotating pointer over sources, the
event registers, which then moves past the first (17 R523). -/
def TLog.take (l : TLog) (cyc : Nat) (e : TEvt) : TLog :=
  let key (k : TEvt) : Nat := (k.code / 16 + 32 - l.ptr) % 32
  if l.busyIn cyc then
    ({ l with came := l.came.takeWhile (fun k => key k ≤ key e) ++ e :: l.came.dropWhile (fun k => key k ≤ key e) }).replay
  else
    let ptr := match l.came with
      | first :: _ :: _ => (first.code / 16 + 1) % 32
      | _ => l.ptr
    ({ l with ptr := ptr, cyc := cyc, came := [e], before := l.toTStore }).enter e.time e.code e.sev e.addr e.detail

/-- A change of what the log holds; one in the cycle of an event comes before the event (17 R524, 00 R19). -/
def TLog.change (l : TLog) (cyc : Nat) (f : TStore → TStore) : TLog :=
  if l.busyIn cyc then ({ l with before := f l.before }).replay else { l with toTStore := f l.toTStore }

/-- What a read or a write in a cycle meets: an event of that cycle comes after it. -/
def TLog.met (l : TLog) (cyc : Nat) : TStore := if l.busyIn cyc then l.before else l.toTStore

/-- Whether a log's interrupt settings select a record (17 R525). -/
def TLog.selects (l : TLog) (sev : Nat) : Bool :=
  l.irqAll || (sev != 7 && l.minSev < 4 && l.minSev ≤ sev)

/-- Whether an event writes a record, or repeats a Notice (17 R524). -/
def TLog.writes (l : TLog) (now code sev addr : Nat) : Bool := !(sev = 0 && l.repeats now code addr)

/-- A record whose word in the store cannot be read is discarded and counted (17 R518). -/
def TStore.discard (l : TStore) (seq : BitVec 16) : TStore := { l with recs := l.recs.filter (fun r => r.seq != seq), lost := l.lost + 1 }

/-- The event enters the trouble log of its level, which signals when its settings select it (17 R523, R525). -/
def logEvent (l : Level) (code sev addr : Nat) (detail : Word) (x : Mod) : Mod :=
  let t := x.logs.get l
  let x1 := { x with logs := x.logs.set l (t.take x.cyc { code := code, sev := sev, addr := addr, detail := detail, time := x.now }) }
  if t.writes x.now code sev addr && t.selects sev then signal (levelIrq l) x1 else x1

/-- The event sets its bit in the event register of its block and enters the trouble log; no notification. -/
def raiseQuiet (l : Level) (e : Evt) (detail : Option Word) (addr : Nat) (x : Mod) : Mod :=
  let r := if e.blk = 0 then x.evts.get (l, e.blk) else (x.evts.get (l, e.blk)).hit e.bit x.cyc
  let x1 := if e.blk = 0 then x else { x with evts := x.evts.set (l, e.blk) r }
  if e.blk = 31 then x1
  else logEvent l (16 * e.blk + e.bit) e.sev addr (detail.getD (BitVec.ofNat 32 (evtBits r))) x1

/-- A notification is queued, or lost and counted when 1,024 wait (12 R391). -/
def notify (n : Notif) (x : Mod) : Mod :=
  if x.dax.notifs.length < 1024 then { x with dax := { x.dax with notifs := x.dax.notifs ++ [n] } }
  else raiseQuiet .yard evNotifyLost none 0 { x with dax := { x.dax with notifLost := x.dax.notifLost + 1 } }

/-- The trouble notification of an event (12 R392). -/
def troubleNote (l : Level) (e : Evt) (x : Mod) : Notif :=
  { kind := 4, level := levelCode l, sev := if e.sev = 7 then 0xFF else e.sev, source := levelSource l,
    time := x.now / 1000, detail := fit 16 (leBytes 4 (evtOffset l e.blk) ++ [BitVec.ofNat 8 e.bit]) }

/-- An event is raised: register, trouble log, interrupt, and the trouble notification of every record of severity Fault or
above (17 R523 to R525) and of every MOD_EVT event (19 R577). -/
def raiseWith (l : Level) (e : Evt) (detail : Option Word) (addr : Nat) (x : Mod) : Mod :=
  let x1 := raiseQuiet l e detail addr x
  if e.blk = 31 || (e.sev != 7 && 1 ≤ e.sev) then notify (troubleNote l e x) x1 else x1

/-- An event without a detail of its own. -/
def raise (l : Level) (e : Evt) (x : Mod) : Mod := raiseWith l e none 0 x

/-- A lock violation of a block: the detail is the BAR0 offset (00 R16, 17 R529). -/
def raiseLock (l : Level) (blk bit off : Nat) (x : Mod) : Mod :=
  raiseWith l ⟨blk, bit, 7⟩ (some (BitVec.ofNat 32 off)) 0 x

/-! ### Counters (02 R49 to R51) -/

/-- The accumulator takes `n` more; it holds at 2^36 − 1 (02 R50). -/
def Counter.add (c : Counter) (n : Nat) : Counter := { c with acc := min (c.acc + n) (2 ^ 36 - 1) }

/-- The host-visible value, modulo 2^64 (02 R51). -/
def Counter.value (c : Counter) : BitVec 64 := c.hw + BitVec.ofNat 64 c.acc

/-- What an object has taken in cycle `cyc`, `n` more: what it took in an earlier cycle is past. -/
def freshSum (cyc was n fresh : Nat) : Nat := if was = cyc then fresh + n else n

/-- What an object has taken in the present cycle. -/
def freshIn (cyc was fresh : Nat) : Nat := if was = cyc then fresh else 0

/-- The counter takes `n` more in cycle `cyc`. -/
def Counter.addIn (cyc n : Nat) (c : Counter) : Counter := { c.add n with cyc := cyc, fresh := freshSum cyc c.cyc n c.fresh }

/-- The counter as a host write of cycle `cyc` leaves it: what it counted in that cycle comes after the write (00 R18, 02 R53). -/
def Counter.written (cyc : Nat) (v : BitVec 64) (c : Counter) : Counter :=
  { hw := v, acc := min (freshIn cyc c.cyc c.fresh) (2 ^ 36 - 1), cyc := c.cyc, fresh := c.fresh }

/-- Counts `n`. -/
def count (c : CtrId) (n : Nat) (x : Mod) : Mod := { x with ctrs := x.ctrs.upd c (Counter.addIn x.cyc n) }

/-- Counts one. -/
def tally (c : CtrId) (x : Mod) : Mod := count c 1 x

/-! ### The access log (13 R431) -/

/-- A BAR0 or BAR2 access is logged, and ACCESS_DROP is raised. -/
def logAccess (kind be bar off : Nat) (x : Mod) : Mod :=
  raise .yard evAccessDrop { x with host := { x.host with access :=
    { kind := kind, be := be, count := x.host.access.count + 1, bar := bar, off := off } } }

/-! ### Free values (log 15) -/

/-- The next draw of `w` free bits, and the module with the draw taken. -/
def drawBits (w : Nat) (x : Mod) : BitVec w × Mod :=
  ((Config.freeBits x.free).setWidth w, { x with free := x.free + 1 })

/-- The next draw of `n` free bytes. -/
def drawBytes (n : Nat) (x : Mod) : List Byte × Mod :=
  (fit n (Config.freeBytes x.free), { x with free := x.free + 1 })

/-- The next free number. -/
def drawNat (x : Mod) : Nat × Mod := (Config.freeNat x.free, { x with free := x.free + 1 })

/-! ### Mailboxes (12) -/

/-- Changes one mailbox. -/
def setBox (m : Nat) (f : Mailbox → Mailbox) (x : Mod) : Mod :=
  { x with dax := { x.dax with boxes := x.dax.boxes.upd m f } }

/-- The opcode of the taken request (12 R384). -/
def Mailbox.opcode (b : Mailbox) : Nat := leAt b.req 2 2

/-- SEQ of the taken request (12 R384). -/
def Mailbox.reqSeq (b : Mailbox) : Word := BitVec.ofNat 32 (leAt b.req 4 4)

/-- LENGTH of the taken request (12 R384). -/
def Mailbox.len (b : Mailbox) : Nat := leAt b.req 8 2

/-- The body of the taken request. -/
def Mailbox.body (b : Mailbox) : List Byte := sliceOf b.req 16 b.len

/-- Whether the session's version is `a`.`b` or above (12 R387). -/
def versionAtLeast (x : Mod) (a b : Nat) : Bool := x.dax.version.any (fun v => a < v.1 || (v.1 == a && b ≤ v.2))

/-- Whether a command is in progress: taken and not yet done. -/
def Mailbox.busy (b : Mailbox) : Bool :=
  match b.st with
  | .taken => true
  | .running => true
  | .extended => true
  | _ => false

/-- The 16-byte header of a reply (12 R384). -/
def replyHeader (version : Option (Nat × Nat)) (opcode : Nat) (seq : Word) (len status deadline : Nat) : List Byte :=
  let v := version.getD (0, 0)
  [BitVec.ofNat 8 v.2, BitVec.ofNat 8 v.1] ++ leBytes 2 opcode ++ leBytes 4 seq.toNat ++ leBytes 2 len
    ++ [1, BitVec.ofNat 8 status] ++ leBytes 4 deadline

/-- STATUS codes of 12 R385. -/
def stOk : Nat := 0
def stInvalid : Nat := 1
def stWrongMode : Nat := 2
def stBusy : Nat := 3
def stExtended : Nat := 4
def stUnknown : Nat := 5
def stVersion : Nat := 6
def stLeave : Nat := 7
def stDenied : Nat := 8
def stAbandoned : Nat := 9

/-- The command of mailbox `m` ends: the reply is written, STATE becomes DONE and the vector is signalled (12 R381), the SEQ
and reply are kept for a repeat (12 R383); a reply that a host reset discarded leaves the completion word IDLE (12 R393). -/
def complete (m status : Nat) (body : List Byte) (y : Mod × List Host.Cell) : Mod × List Host.Cell :=
  let x := y.1
  let b := x.dax.boxes.get m
  if b.quiet then (setBox m (fun b => { ring := b.ring, status := b.status }) x, y.2)
  else
    let bytes := replyHeader x.dax.version b.opcode b.reqSeq body.length status 0 ++ body
    let b' : Mailbox := { st := .done, seq := b.reqSeq, status := status, ring := false,
                          stored := if x.dax.version.isSome then some (b.reqSeq, status, bytes) else none }
    (signal m (setBox m (fun _ => b') x), Memory.writes y.2 (mbxBase m) bytes)

/-- The command of mailbox `m` ends with a status and no body. -/
def fail (m status : Nat) (y : Mod × List Host.Cell) : Mod × List Host.Cell := complete m status [] y

/-- Runs `f` on the body of the command of mailbox `m` when it is RUNNING or EXTENDED with the opcode `op` and has not begun
(12 R381); otherwise nothing happens (log 2). -/
def onCommand (m op : Nat) (f : Mailbox → Mod × List Host.Cell → Mod × List Host.Cell) (y : Mod × List Host.Cell) :
    Mod × List Host.Cell :=
  let b := y.1.dax.boxes.get m
  if (b.st == .running || b.st == .extended) && b.opcode == op && !b.began then f b y else y

/-- The mailbox whose command satisfies `p`, if any. -/
def findBox (p : Nat → Mailbox → Bool) (x : Mod) : Option Nat :=
  (List.range 15).find? (fun m => p m (x.dax.boxes.get m))

/-- Whether the module forwards: Standalone or Paired, and admission has not stopped (01 R25, R29). -/
def forwarding (x : Mod) : Bool := (x.mode.mode == .standalone || x.mode.mode == .paired) && x.mode.drainEnd.isNone

/-- The mailbox whose activation request is held until the drain of the last one ends (10 R333). -/
def heldActivation (x : Mod) : Option Nat := findBox (fun _ b => b.began && b.busy && b.opcode == 0x0023 && b.phase == 0x300) x

/-- Whether an activation is in progress, or a request is held for one. -/
def activationOn (x : Mod) : Bool := x.tt.act.isSome || (heldActivation x).isSome

end Sys2Proof.Machine
end

