-- ==== Sys2Proof/Machine/Ecc.lean ====
section
/-! DEFINITION. Sys2Proof/Machine/Ecc.lean: arrays with SECDED ECC: what a read and a write of a word do (17 R518), and units
with residues (17 R516, R517). No row makes an error; the state holds those that stand (log 61). -/

namespace Sys2Proof.Machine

/-- The level whose registers a port's line counters stand at. -/
def portLevel (p : Nat) : Level :=
  if p < 1024 then .stall (stallOf p) else if p < 1032 then .shed (p - 1024) else .yard

/-- The order of a word's array in the table of R518, which TRB_REC3 names it by (17 R529). -/
def EccWord.array : EccWord → Nat
  | .loft _ _ => 0
  | .desc _ _ => 1
  | .replica _ _ _ => 2
  | .shadow _ _ _ => 2
  | .harvest _ => 3
  | .relay _ _ _ _ => 4
  | .capture _ => 4
  | .sram => 5
  | .queue _ => 6
  | .trouble _ _ => 7

/-- The severity of an uncorrectable error: a Machine check in Foltin SRAM, a Notice in a trouble log's store, else a Fault. -/
def EccWord.sev : EccWord → Nat
  | .sram => 2
  | .trouble _ _ => 0
  | _ => 1

/-- The level that holds a residue object. -/
def ResObj.level : ResObj → Level
  | .meter s _ => .shed s
  | .shaper p _ _ => portLevel p
  | .deficit p _ _ => portLevel p
  | .use p _ => portLevel p
  | .avg p _ => portLevel p

/-- The level that holds a counter. -/
def ctrLevel : CtrId → Level
  | .lne g _ _ => .stall g
  | .prs g _ _ => .stall g
  | .otr g _ _ => .stall g
  | .que p _ _ => portLevel p
  | .lkp s _ => .shed s
  | .otrT s _ => .shed s
  | .lft s _ => .shed s
  | .xbr s _ _ => .shed s
  | .ost s _ _ => .shed s
  | .named s _ _ => .shed s
  | .isl l _ => l
  | .cpl _ => .yard
  | .pwr _ => .yard

/-- The level whose trouble log records a word's errors. -/
def EccWord.level : EccWord → Level
  | .loft s _ => .shed s
  | .desc s _ => .shed s
  | .replica s _ _ => .shed s
  | .shadow s _ _ => .shed s
  | .harvest c => ctrLevel c
  | .sram => .yard
  | .queue o => o.level
  | .trouble l _ => l
  | .relay s _ _ _ => .shed s
  | .capture _ => .yard

/-- DETAIL of an error: its array and its word. -/
def EccErr.detail (e : EccErr) : Word := reg [Machine.at_ 28 4 e.word.array, Machine.at_ 0 28 e.at_]

/-- A read meets one error: a single-bit error is corrected in place, ECC_CORR; a double-bit error stands until its word is written, and
several reads of one cycle record it once, ECC_UNCORR. -/
def eccMeet (e : EccErr) (x : Mod) : Mod :=
  if !e.double then
    raiseWith e.word.level evEccCorr (some e.detail) e.at_ { x with ecc := x.ecc.filter (· != e) }
  else if e.seen = some x.cyc then x
  else
    raiseWith e.word.level (evEccUncorr e.word.sev) (some e.detail) e.at_
      { x with ecc := x.ecc.map (fun k => if k = e then { k with seen := some x.cyc } else k) }

/-- A read of some words: whether it met an uncorrectable error. -/
def eccRead (w : EccWord → Bool) (x : Mod) : Bool × Mod :=
  let l := x.ecc.filter (fun e => w e.word)
  (l.any (·.double), l.foldl (fun a e => eccMeet e a) x)

/-- A write of some words: what stood wrong in them is gone, and a write-back of the same cycle is discarded. -/
def eccWrite (w : EccWord → Bool) (x : Mod) : Mod := { x with ecc := x.ecc.filter (fun e => !w e.word) }

/-- A read of some words whose uncorrectable error `repair` writes right. -/
def eccRepair (w : EccWord → Bool) (repair : Mod → Mod) (x : Mod) : Mod :=
  let y := eccRead w x
  if y.1 then eccWrite w (repair y.2) else y.2

/-- A read of a harvest word: with an uncorrectable error it is 0, and the accumulator is kept. -/
def readHarvest (c : CtrId) (x : Mod) : Mod :=
  eccRepair (fun w => decide (w = .harvest c)) (fun x => { x with ctrs := x.ctrs.upd c (fun k => { k with hw := 0 }) }) x


/-! ### Residues (17 R516, R517) -/

/-- The order of a unit in R516, which TRB_REC3 names it by, and the level that holds it; an edit's is the level of its frame's `port`. -/
def ResUnit.place (port : Nat) : ResUnit → Nat × Level
  | .harvest c => (0, ctrLevel c)
  | .edit _ => (2, portLevel port)
  | .reseq s _ => (3, .shed s)
  | .alu s _ => (4, .shed s)

/-- A unit's operation is checked; one that fails is repeated in the next cycle: where the repeat passes its result stands, RESIDUE_CORR,
else RESIDUE, and the operation is lost, which the first component says. -/
def residue (u : ResUnit) (port : Nat) (x : Mod) : Bool × Mod :=
  match x.resid.find? (fun e => e.unit_ == u) with
  | none => (false, x)
  | some e =>
    let p := u.place port
    (e.again, raiseWith p.2 (if e.again then evResidue else evResidueCorr) (some (reg [Machine.at_ 28 4 p.1, Machine.at_ 0 28 e.at_])) e.at_
      { x with resid := x.resid.filter (· != e) })

end Sys2Proof.Machine
end

