-- ==== Sys2Proof/Machine/PowerOps.lean ====
section
/-! DEFINITION. Sys2Proof/Machine/PowerOps.lean: the power domains, the budget and leave (16). -/

namespace Sys2Proof.Machine

/-! ### Domains -/

/-- The full-load figure of a domain in 0.1 W (16 R481). 0xFFFF is the always-on domain (00 R5). -/
def fullLoad (d : Nat) : Nat :=
  if d < 128 then 84 else if d < 256 then 25 else if d < 352 then 15 else if d < 408 then 32
  else if d < 416 then 240 else if d < 424 then 60
  else if d = 424 then 80 else if d < 432 then 10 else if d = 432 then 30 else if d = 433 then 10
  else if d = 434 then 60 else if d = 435 then 30 else if d = 436 then 10 else if d = 437 then 20
  else if d = 438 then 10 else if d = 439 then 5 else if d = 440 then 5 else if d = 441 then 10
  else if d = 442 then 10 else if d = 443 then 4 else if d = 444 then 4 else if d = 445 then 5
  else if d = 446 then 5 else if d = 447 then 40 else if d = 0xFFFF then 8 else 0

/-- The shed a domain belongs to, if any (00 R5). -/
def domShed (d : Nat) : Option Nat :=
  if d < 128 then some (d / 16) else if d < 256 then some ((d - 128) / 16) else if d < 352 then some ((d - 256) / 12)
  else if d < 408 then some ((d - 352) / 7) else if d < 416 then some (d - 408) else if d < 424 then some (d - 416)
  else none

/-- The parent of a domain (16 R483). -/
def domParent (d : Nat) : Option Nat :=
  if d < 128 then some (128 + d) else if d < 256 then some (408 + (d - 128) / 16)
  else if d < 352 then some (408 + (d - 256) / 12) else if d < 408 then some (408 + (d - 352) / 7)
  else if d < 416 then some 447 else if d < 424 then some (408 + (d - 416))
  else if 425 ≤ d && d < 448 then some 424 else none

/-- The state of a domain; the always-on domain always runs. -/
def domSt (x : Mod) (d : Nat) : DomSt := if d = 0xFFFF then .run else (x.pwr.doms.get d).st

/-- Whether a domain is in RUN. -/
def domRuns (x : Mod) (d : Nat) : Bool := domSt x d == .run

/-- The domains whose parent is `d`. -/
def domChildren (d : Nat) : List Nat := (List.range 448).filter (fun k => domParent k == some d)

/-- Changes one domain. -/
def setDom (d : Nat) (f : Dom → Dom) (x : Mod) : Mod := { x with pwr := { x.pwr with doms := x.pwr.doms.upd d f } }

/-- Shed `s` works: it has not been quiesced, or has rejoined the others on its return (01 R31, R33; 17 R526). -/
def shedWorks (x : Mod) (s : Nat) : Bool :=
  (x.trb.get s).st == .forwarding || ((x.trb.get s).st == .returning && decide (6 ≤ (x.trb.get s).step))

/-- The contents of the ACTIVE bank. -/
def activeCfg (x : Mod) : Option TtContent :=
  match x.tt.active with
  | some b => (x.tt.banks.get b).content
  | none => none

/-- The line ports the active configuration defines, with their settings. -/
def cfgPorts (x : Mod) : List (Nat × PortCfg) :=
  match activeCfg x with
  | some c => c.ports
  | none => []

/-- Whether global stall `g` has a configured port. -/
def stallConfigured (x : Mod) (g : Nat) : Bool := (cfgPorts x).any (fun p => stallOf p.1 == g)

/-- Whether a domain is stopped or on its way there. -/
def domIdle (x : Mod) (d : Nat) : Bool := domSt x d == .stop || domSt x d == .stopping

/-- Whether another drawbar half of the shed of half `d` is stopped: at most one of the seven may be (01 R33, 06 R216). -/
def otherHalfIdle (x : Mod) (d : Nat) : Bool :=
  let s := (d - 352) / 7
  (List.range 7).any (fun h => 352 + 7 * s + h != d && domIdle x (352 + 7 * s + h))

/-- Whether the current mode requires a domain to run, as a stop asked for by `by_` meets it (01 R33). Loft banks may stop
when the Loft has emptied them, and one drawbar half of a shed when the drawbar logic asks; one that is stopped so is not required
(DEDUCED, log 46). A running store BIST names its shed. -/
def modeRequires (x : Mod) (d : Nat) (by_ : Option StopBy) : Bool :=
  let shedPart := 256 ≤ d && d < 424
  let works := match domShed d with
    | some s => shedWorks x s
    | none => true
  match x.mode.mode with
  | .cold => d == 0xFFFF
  | .harnessing => domRuns x d
  | .standalone | .paired =>
    if d < 128 then stallConfigured x d else if d < 256 then stallConfigured x (d - 128)
    else if d < 352 then works && by_ != some .loft && (by_.isSome || !domIdle x d)
    else if d < 408 then works && (otherHalfIdle x d || by_ != some .drawbar && (by_.isSome || !domIdle x d))
    else if shedPart then works else true
  | .quiesced =>
    if d < 256 then false else if 352 ≤ d && d < 408 then false else if shedPart then works else true
  | .diagnostic =>
    match domShed d with
    | some s => (408 ≤ d && d < 424) && (x.ost.get s).bistFrom.isSome
    | none => d == 0xFFFF

/-! ### The budget (16 R490, R491) -/

/-- The available DC power of an inlet in 0.1 W. -/
def inletAvail (i : InletSt) : Nat := if !i.good then 0 else if i.lowLine then 12500 else 21000

/-- The budget B in 0.1 W. -/
def budget (x : Mod) : Nat := min 21000 (inletAvail x.pwr.a + inletAvail x.pwr.b)

/-- CAPPED: one inlet good and at low line. -/
def capped (x : Mod) : Bool :=
  (x.pwr.a.good != x.pwr.b.good) && ((x.pwr.a.good && x.pwr.a.lowLine) || (x.pwr.b.good && x.pwr.b.lowLine))

/-- Whether a domain's full-load figure counts in C. -/
def domDraws (x : Mod) (d : Nat) : Bool := domSt x d != .stop

/-- C without the active grants, in 0.1 W. -/
def committedRun (x : Mod) : Nat :=
  ((List.range 448).filter (domDraws x)).foldl (fun a d => a + fullLoad d) (fullLoad 0xFFFF)

/-- The committed power C in 0.1 W. -/
def committed (x : Mod) : Nat := x.pwr.grants.foldl (fun a g => a + g.left) (committedRun x)

/-- Whether a current step of `w` may begin now: the steps of the last 10 us stay within 150 W (16 R491). -/
def stepFits (x : Mod) (w : Nat) : Bool :=
  (x.pwr.steps.filter (fun e => x.now < e.1 + us 10)).foldl (fun a e => a + e.2) w ≤ 1500

/-- A current step begins. -/
def takeStep (w : Nat) (x : Mod) : Mod :=
  { x with pwr := { x.pwr with steps := (x.now, w) :: x.pwr.steps.filter (fun e => x.now < e.1 + us 10) } }

/-! ### The power log (16 R497, R512) -/

/-- Milliseconds of the monotonic counter. -/
def nowMs (x : Mod) : Nat := x.now / ms 1

/-- An entry is written to the log ring, the newest over the oldest. -/
def pwrLog (domain reason kind refuser op : Nat) (x : Mod) : Mod :=
  let i := if x.pwr.logCount = 0 && x.pwr.log.ents = [] then 0 else (x.pwr.logNewest + 1) % 16
  { x with pwr := { x.pwr with
      log := x.pwr.log.set i { domain := domain, reason := reason, kind := kind, refuser := refuser, op := op,
                               timeMs := nowMs x % 65536 },
      logCount := x.pwr.logCount + 1, logNewest := i } }

/-- A stop is refused: counted, logged, STOP_REFUSED raised. -/
def refuseStop (d reason refuser : Nat) (x : Mod) : Mod :=
  raise .yard evStopRefused (pwrLog d reason 0 refuser 0xFF (tally (.pwr 1) x))

/-- A stop is aborted: counted, logged, STOP_REFUSED raised. -/
def logAbort (d reason refuser : Nat) (x : Mod) : Mod :=
  raise .yard evStopRefused (pwrLog d reason 1 refuser 0xFF (tally (.pwr 2) x))

/-! ### Leave (16 R492, R493) -/

/-- Estimate of an operation in 0.1 W. -/
def leaveEst (op : Nat) : Nat :=
  match op with
  | 1 => 1104 | 2 => 672 | 3 => 80 | 4 => 32 | 5 => 120 | 6 => 40 | 7 => 200 | 8 => 30 | 9 => 20 | 10 => 60 | _ => 0

/-- Step of an operation in 0.1 W. -/
def leaveStep (op : Nat) : Nat := if op = 1 then 240 else leaveEst op

/-- The sheds an operation concerns: the shed of its unit, both sheds of a pair, the shed of a half; none for the others. -/
def leaveSheds (op unit : Nat) : List Nat :=
  match op with
  | 1 => [unit] | 3 => [(shedsOfPair unit).1, (shedsOfPair unit).2] | 4 => [unit / 7]
  | 5 => [unit] | 6 => [unit] | 7 => [unit] | 8 => [unit] | _ => []

/-- The lowest domain an operation concerns (16 R497; log 25). -/
def leaveDomain (op unit : Nat) : Nat :=
  match op with
  | 1 => 128 + 16 * unit
  | 2 => unit
  | 3 => 352 + 7 * (shedsOfPair unit).1 + halfToward (shedsOfPair unit).1 (shedsOfPair unit).2
  | 4 => 352 + unit
  | 5 => 408 + unit | 6 => 408 + unit | 7 => 256 + 12 * unit | 8 => 408 + unit
  | 9 => 443
  | _ => 0xFFFE

/-- What the Yardmaster decides when leave is requested. -/
inductive Leave where
  | granted (id : Nat)
  | queued (id : Nat)
  | refused (reason : Nat)
  deriving DecidableEq, Repr

/-- The decision of 16 R493, in its order. -/
def decideLeave (x : Mod) (op unit : Nat) : Leave :=
  if x.pwr.holdup.isSome then .refused 0x12
  else if 32 ≤ x.pwr.queue.length then .refused 0x13
  else if op ≠ 1 && (leaveSheds op unit).any (fun s => 2 ≤ (x.pwr.therm.get s).state) then .refused 0x15
  else if x.pwr.queue.isEmpty && decide (committed x + leaveEst op ≤ budget x) && stepFits x (leaveStep op) then
    .granted x.pwr.nextId
  else if committedRun x + leaveEst op ≤ budget x then .queued x.pwr.nextId
  else if capped x then .refused 0x16 else .refused 0x10

/-- The leave-refused notification (12 R392). -/
def leaveNote (op unit reason opcode : Nat) (x : Mod) : Notif :=
  { kind := 6, level := 0, sev := 0xFF, source := 0, time := x.now / 1000,
    detail := fit 16 (leBytes 2 (leaveDomain op unit) ++ [BitVec.ofNat 8 reason, 0] ++ leBytes 2 opcode) }

/-- A refused leave: counted, logged, LEAVE_REFUSED raised, and notified when it belongs to a Daxdy command (16 R497). -/
def refuseLeave (op unit reason : Nat) (mbx : Option Nat) (x : Mod) : Mod :=
  let x1 := raise .yard evLeaveRefused (pwrLog (leaveDomain op unit) reason 2 0 op (tally (.pwr 6) x))
  match mbx with
  | some m => notify (leaveNote op unit reason (x.dax.boxes.get m).opcode x) x1
  | none => x1

/-- A grant begins: it enters C and its step begins. -/
def addGrant (id op unit : Nat) (mbx : Option Nat) (x : Mod) : Mod :=
  takeStep (leaveStep op) (tally (.pwr 4)
    { x with pwr := { x.pwr with grants := x.pwr.grants ++ [{ id := id, op := op, unit := unit, left := leaveEst op, mbx := mbx }] } })

/-- Leave is asked for: the decision and the module after it. -/
def askLeave (op unit : Nat) (mbx : Option Nat) (x : Mod) : Leave × Mod :=
  match decideLeave x op unit with
  | .granted id => (.granted id, addGrant id op unit mbx { x with pwr := { x.pwr with nextId := x.pwr.nextId + 1 } })
  | .queued id => (.queued id, tally (.pwr 5) { x with pwr := { x.pwr with
      nextId := x.pwr.nextId + 1
      queue := x.pwr.queue ++ [{ id := id, op := op, unit := unit, at_ := x.now, mbx := mbx }] } })
  | .refused r => (.refused r, refuseLeave op unit r mbx x)

/-- Whether a grant of an operation on a unit is active. -/
def hasGrant (x : Mod) (op unit : Nat) : Bool := x.pwr.grants.any (fun g => g.op == op && g.unit == unit)

/-- The grants of an operation on a unit are released (16 R493). -/
def releaseGrant (op unit : Nat) (x : Mod) : Mod :=
  { x with pwr := { x.pwr with grants := x.pwr.grants.filter (fun g => !(g.op == op && g.unit == unit)) } }

/-- Whether a grant covers the wake of a domain: shed wake its shed's domains, a wave its lane groups, half wake its half. -/
def grantCovers (g : Grant) (d : Nat) : Bool :=
  match g.op with
  | 1 => domShed d == some g.unit && 128 ≤ d
  | 2 => d < 128 && d % 16 == g.unit
  | 4 => d == 352 + g.unit
  | _ => false

/-- The full-load figure leaves the grant that the wake realises (16 R491). -/
def realise (d : Nat) : List Grant → List Grant
  | [] => []
  | g :: t => if grantCovers g d then { g with left := g.left - fullLoad d } :: t else g :: realise d t

/-! ### Waking and stopping (16 R483 to R488) -/

/-- How long a domain may take to settle, in picoseconds (16 R488). -/
def settleTime (d : Nat) : Nat :=
  if d < 128 then ms 450 else if d < 256 then us 20 else if d < 352 then us 2 else if d < 408 then us 40
  else if d < 416 then ms 1 else if d < 424 then us 100 else if d = 424 then ms 10 else us 50

/-- A stopped domain begins to wake; its step begins and a grant that covers it is realised. -/
def beginWake (d : Nat) (x : Mod) : Mod :=
  let x1 := setDom d (fun o => { o with st := .waking, since := x.now, by_ := none, wakeAft := none }) x
  takeStep (fullLoad d) { x1 with pwr := { x1.pwr with grants := realise d x1.pwr.grants } }

/-- A stopped domain whose parent runs begins to wake, or waits for the step limit (16 R487). -/
def wakeOrWait (src d : Nat) (x : Mod) : Mod :=
  if stepFits x (fullLoad d) then beginWake d x
  else { x with pwr := { x.pwr with waits := x.pwr.waits ++ [{ d := d, wake := true, src := src, by_ := none }] } }

/-- A wake source fires before the clocks of a stopping domain stop: the stop is aborted with reason 0x02 and the source as
refuser. The Yardmaster's own stops skip it; the domain then wakes after the stop (16 R486, R495). -/
def wakeAborts (src d : Nat) (x : Mod) : Mod :=
  if (x.pwr.doms.get d).by_ = some .yardmaster then setDom d (fun o => { o with wakeAft := some src }) x
  else logAbort d 0x02 src (setDom d (fun o => { o with st := .run, since := x.now, by_ := none, wakeAft := none }) x)

/-- A wake is asked for, its parents first, `n` levels up: in WAKING or RUN nothing changes, and in STOPPING the stop is aborted
(16 R483, R486, R487). A domain whose parent has still to settle wakes when it has. -/
def askWakeUp : Nat → Nat → Nat → Mod → Mod
  | 0, _, _, x => x
  | n + 1, src, d, x =>
    match domSt x d with
    | .run => x
    | .waking => x
    | .stopping => wakeAborts src d x
    | .stop =>
      match domParent d with
      | none => wakeOrWait src d x
      | some p =>
        if domRuns x p then wakeOrWait src d x
        else
          let y := askWakeUp n src p (setDom d (fun o => { o with wakeAft := some src }) x)
          if domRuns y p then wakeOrWait src d y else y

/-- A wake is asked for; the longest chain of parents is lane group, pipeline, shed core, 447, 424. -/
def askWake (src d : Nat) (x : Mod) : Mod := askWakeUp 5 src d x

/-- A domain enters STOP: its stop begins a step, is counted and recorded (16 R485, R511; 09 R295). -/
def enterStop (d : Nat) (x : Mod) : Mod :=
  setDom d (fun o => { o with
    st := .stop, since := x.now, by_ := none, stops := ((x.now, x.now) :: o.stops).take 256 }) (tally (.pwr 0) x)

/-- An accepted stop begins: STOPPING (16 R485). -/
def beginStop (by_ : StopBy) (d : Nat) (x : Mod) : Mod :=
  takeStep (fullLoad d) (setDom d (fun o => { o with st := .stopping, since := x.now, by_ := some by_, wakeAft := none }) x)

end Sys2Proof.Machine
end

