-- ==== Sys2Proof/Machine/Foltin.lean ====
section
/-! DEFINITION. Sys2Proof/Machine/Foltin.lean: the firmware's mailboxes, session, notifications and watchdogs (12 R378 to
R394), HELLO and MODULE_INFO. -/

namespace Sys2Proof.Machine

/-! ### Modes -/

/-- The code of a mode (01 R25). -/
def Mode.code : Mode → Nat
  | .cold => 0
  | .harnessing => 1
  | .standalone => 2
  | .paired => 3
  | .quiesced => 4
  | .diagnostic => 5

/-- The mode notification (12 R392). -/
def modeNote (old new cause : Nat) (x : Mod) : Notif :=
  { kind := 3, level := 0, sev := 0xFF, source := 0, time := x.now / 1000,
    detail := fit 16 [BitVec.ofNat 8 old, BitVec.ofNat 8 new, BitVec.ofNat 8 cause] }

/-- The module enters a mode with a CAUSE (01 R26, R32); the firmware sends a mode notification once it runs. -/
def enterMode (m : Mode) (cause : Nat) (x : Mod) : Mod :=
  let x1 := { x with mode := { x.mode with mode := m, target := m, cause := cause } }
  if x.dax.up then notify (modeNote x.mode.mode.code m.code cause x) x1 else x1

/-- A transition is in progress (01 R28, R32). -/
def inTransition (x : Mod) : Bool := x.mode.mode != x.mode.target

/-! ### Opcodes and classes (12 R387, R388, R390, 18 R545) -/

/-- Whether an opcode is defined in a Daxdy version. -/
def opcodeIn (v : Nat × Nat) (op : Nat) : Bool :=
  let atLeast (a b : Nat) : Bool := a < v.1 || (v.1 == a && b ≤ v.2)
  match op with
  | 0x0001 | 0x0002 | 0x0003 | 0x0010 | 0x0011 | 0x0012 | 0x0013 | 0x0017 => true
  | 0x0020 | 0x0021 | 0x0022 | 0x0023 | 0x0024 | 0x0025 | 0x0040 | 0x0041 | 0x0042 | 0x0050 => true
  | 0x0070 | 0x0071 | 0x0072 | 0x0073 | 0x0074 | 0x0075 | 0x0076 | 0x0077 | 0x0078 => true
  | 0x0014 | 0x0030 => atLeast 2 4
  | 0x0015 | 0x0016 | 0x0060 | 0x0061 => atLeast 3 0
  | 0x0018 => atLeast 3 1
  | _ => false

/-- The class of an opcode: 0 A, 1 B, 2 C. -/
def opcodeClass (op : Nat) : Nat :=
  match op with
  | 0x0003 | 0x0013 | 0x0016 | 0x0060 => 1
  | 0x0023 | 0x0070 => 2
  | _ => 0

/-- The deadline of a class in milliseconds (12 R388). -/
def classMs (c : Nat) : Nat := if c = 0 then 10 else if c = 1 then 2000 else 30000

/-! ### Rings, taking and starting -/

/-- Every ring starts the host watchdog's count again and re-arms it (12 R394). -/
def ringWatchdog (x : Mod) : Mod :=
  if x.dax.wdogMs = 0 then x else { x with dax := { x.dax with wdogFrom := some x.now } }

/-- STATE as the host sees it: a command whose reply is discarded shows IDLE (12 R393; log 26). -/
def Mailbox.shown (b : Mailbox) : MbxState := if b.quiet then .idle else b.st

/-- A ring on mailbox 0 to 14 makes a request pending, joins a pending ring, or raises DOORBELL_BUSY (12 R381). -/
def doorbell (m : Nat) (x : Mod) : Mod :=
  let x1 := ringWatchdog x
  match (x.dax.boxes.get m).shown with
  | .taken | .running | .extended => raise .yard evDoorbellBusy x1
  | _ => setBox m (fun b => { b with ring := true, rung := if b.ring then b.rung else x.now }) x1

/-- A ring on mailbox 15 acknowledges the notification shown, or is ignored (12 R391). -/
def ackNotif (x : Mod) : Mod :=
  let x1 := ringWatchdog x
  if x.dax.posted then
    setBox 15 (fun b => { b with st := .idle }) { x1 with dax := { x1.dax with
      posted := false
      postedLost := 0
      notifLost := x1.dax.notifLost - x1.dax.postedLost
      notifs := if x1.dax.postedLost = 0 then x1.dax.notifs.drop 1 else x1.dax.notifs } }
  else x1

/-- The firmware takes a pending request: a SEQ equal to the stored one is answered with the stored reply, any other is a new
command, TAKEN (12 R381 to R383, R388). -/
def takeOne (m : Nat) (y : Mod × List Host.Cell) : Mod × List Host.Cell :=
  let x := y.1
  let req := Memory.reads y.2 (mbxBase m) 3968
  let seq := BitVec.ofNat 32 (leAt req 4 4)
  match (x.dax.boxes.get m).stored.filter (fun k => k.1 == seq) with
  | some (_, st, bytes) =>
    (signal m (setBox m (fun b => { b with ring := false, st := .done, seq := seq, status := st }) x),
      Memory.writes y.2 (mbxBase m) bytes)
  | none =>
    (setBox m (fun b => { st := .taken, seq := seq, req := req, order := x.dax.taken, stored := b.stored,
                          due := x.now + ms (classMs (opcodeClass (leAt req 2 2))) })
      { x with dax := { x.dax with taken := x.dax.taken + 1 } }, y.2)

/-- The mailboxes whose pending rings came in the cycle of mailbox `m`'s, in the order of the rotating pointer (12 R382). -/
def ringsWith (x : Mod) (m : Nat) : List Nat :=
  ((List.range 15).map (fun i => (x.dax.boxPtr + i) % 15)).filter (fun k =>
    let b := x.dax.boxes.get k
    b.ring && !b.busy && b.rung / 625 == (x.dax.boxes.get m).rung / 625)

/-- COMMAND_TAKEN: rings of one cycle are taken together in the pointer's order, and it moves past the first (12 R382). -/
def takeCommand (m : Nat) (y : Mod × List Host.Cell) : Mod × List Host.Cell :=
  let b := y.1.dax.boxes.get m
  if !(y.1.dax.up && b.ring && !b.busy) then y
  else
    match ringsWith y.1 m with
    | first :: second :: rest =>
      let y1 := (first :: second :: rest).foldl (fun z k => takeOne k z) y
      ({ y1.1 with dax := { y1.1.dax with boxPtr := (first + 1) % 15 } }, y1.2)
    | _ => takeOne m y

/-- Whether the other commands let a taken one begin: class B commands run in the order taken, two at a time (12 R389). -/
def mayStart (x : Mod) (m : Nat) : Bool :=
  let b := x.dax.boxes.get m
  if opcodeClass b.opcode ≠ 1 then true
  else
    let others := ((List.range 15).filter (· != m)).map x.dax.boxes.get
    let isB := others.filter (fun o => o.busy && opcodeClass o.opcode == 1)
    decide ((isB.filter (fun o => o.st != .taken)).length < 2) &&
      !(isB.any (fun o => o.st == .taken && o.order < b.order))

/-- Whether a class C command runs on another mailbox (12 R389, 18 R544). -/
def classCRuns (x : Mod) (m : Nat) : Bool :=
  ((List.range 15).filter (· != m)).any (fun k =>
    let o := x.dax.boxes.get k
    o.busy && o.st != .taken && opcodeClass o.opcode == 2)

/-- A Foltin thread begins a taken command: the header is checked (12 R384 to R389), and STATE becomes RUNNING. -/
def startCommand (m : Nat) (y : Mod × List Host.Cell) : Mod × List Host.Cell :=
  let x := y.1
  let b := x.dax.boxes.get m
  let op := b.opcode
  let v := (leAt b.req 1 1, leAt b.req 0 1)
  if !(x.dax.up && b.st == .taken && mayStart x m) then y
  else if op ≠ 1 && x.dax.version != some v then fail m stVersion y
  else if !opcodeIn (x.dax.version.getD (3, 2)) op then fail m stUnknown y
  else if 3952 < b.len || leAt b.req 10 1 ≠ 0 || leAt b.req 11 1 ≠ 0 || leAt b.req 12 4 ≠ 0 then fail m stInvalid y
  else if opcodeClass op = 2 && classCRuns x m then fail m stBusy y
  else (setBox m (fun b => { b with st := .running }) x, y.2)

/-- A deadline passes before a command ends: a BUSY_EXTENDED reply with the firmware's estimate, a free value of at most the
class deadline. A command that ends at the instant of its deadline is in time, so the deadline has passed after it (12 R388). -/
def deadline (m : Nat) (y : Mod × List Host.Cell) : Mod × List Host.Cell :=
  let x := y.1
  let b := x.dax.boxes.get m
  if !(x.dax.up && b.busy && decide (b.due < x.now)) then y
  else
    let d := drawNat x
    let est := d.1 % (classMs (opcodeClass b.opcode) + 1)
    let due := x.now + ms est
    if b.quiet then (setBox m (fun b => { b with due := due }) d.2, y.2)
    else
      (signal m (setBox m (fun b => { b with st := .extended, status := stExtended, due := due, extended := true }) d.2),
        Memory.writes y.2 (mbxBase m) (replyHeader x.dax.version b.opcode b.reqSeq 0 stExtended est))

/-- A host write to a message buffer is stored, or ignored with BUFFER_WRITE while the command is taken (12 R381). -/
def bufferWrite (off : Nat) (bytes : List Byte) (y : Mod × List Host.Cell) : Mod × List Host.Cell :=
  let m := off / 0x1000
  match (y.1.dax.boxes.get m).shown with
  | .taken | .running => (raise .yard evBufferWrite y.1, y.2)
  | _ => (y.1, Memory.writes y.2 off (bytes.take (0xF80 - off % 0x1000)))

/-! ### Notifications (12 R391, R392) -/

/-- A notification as bytes: header with FLAGS[1], then the 32-byte EVENT body. -/
def notifBytes (x : Mod) (seq : Word) (n : Notif) : List Byte :=
  let v := x.dax.version.getD (0, 0)
  [BitVec.ofNat 8 v.2, BitVec.ofNat 8 v.1] ++ leBytes 2 0x8001 ++ leBytes 4 seq.toNat ++ leBytes 2 32 ++ [2, 0] ++ zeros 4
    ++ leBytes 2 n.kind ++ [BitVec.ofNat 8 n.level, BitVec.ofNat 8 n.sev] ++ leBytes 2 n.source ++ zeros 2
    ++ leBytes 8 n.time ++ fit 16 n.detail

/-- The LOST notification that goes ahead of the next one. -/
def lostNote (x : Mod) : Notif :=
  { kind := 8, level := 0, sev := 0xFF, source := 0, time := x.now / 1000, detail := fit 16 (leBytes 4 x.dax.notifLost) }

/-- Writes a notification into mailbox 15 and signals it. -/
def showNotif (n : Notif) (x : Mod) (mem : List Host.Cell) : Mod × List Host.Cell :=
  let seq := x.dax.notifSeq + 1
  (signal 15 (setBox 15 (fun b => { b with st := .done, seq := seq, status := 0 })
      { x with dax := { x.dax with posted := true, notifSeq := seq } }),
    Memory.writes mem (mbxBase 15) (notifBytes x seq n))

/-- The next notification is written to mailbox 15 once a session is open; it stays in the queue until it is acknowledged, so
that it survives a host reset (12 R391; log 26). -/
def postNotif (y : Mod × List Host.Cell) : Mod × List Host.Cell :=
  let x := y.1
  if !x.dax.up || x.dax.posted || x.dax.version.isNone then y
  else if 0 < x.dax.notifLost then
    showNotif (lostNote x) { x with dax := { x.dax with postedLost := x.dax.notifLost } } y.2
  else
    match x.dax.notifs with
    | [] => y
    | n :: _ => showNotif n x y.2

/-! ### Host watchdog (12 R394) -/

/-- Whether a ring lands in this instant: it counts as arrived before the expiry. -/
def ringComes (l : List Instr) : Bool :=
  l.any (fun c => match c with
    | .doorbellRing _ => true
    | .notificationAck => true
    | _ => false)

/-- WDOG_MS pass without a ring: HOST_SILENT and its notification; the watchdog re-arms at the next ring. -/
def hostSilentNow (x : Mod) : Mod :=
  match x.dax.wdogFrom with
  | some t =>
    if x.dax.wdogMs ≠ 0 && passed x.now t (ms x.dax.wdogMs) then
      notify { kind := 7, level := 0, sev := 0xFF, source := 0, time := x.now / 1000, detail := zeros 16 }
        (raise .yard evHostSilent { x with dax := { x.dax with wdogFrom := none } })
    else x
  | none => x

/-- A write of WDOG_MS starts, restarts or stops the count; a value above 60,000 is taken as 60,000. -/
def writeWdog (v : Word) (x : Mod) : Mod :=
  let n := min (fieldOf v 31 16) 60000
  let from' := if n = 0 then none else if n = x.dax.wdogMs then x.dax.wdogFrom else some x.now
  { x with dax := { x.dax with wdogMs := n, wdogFrom := from' } }

/-! ### Sessions -/

/-- The stored SEQ and reply of every mailbox are cleared (12 R383). -/
def clearStored (x : Mod) : Mod :=
  { x with dax := { x.dax with boxes := x.dax.boxes.mapEnts (fun _ b => { b with stored := none }) } }

/-- A host reset or link down as the mailboxes see it: taken commands run on and their replies are discarded, the completion
words return to IDLE, the session ends (12 R393). Mailbox 15 shows its notification again in the next session (log 26). -/
def hostGone (x : Mod) : Mod :=
  { x with dax := { x.dax with
      boxes := x.dax.boxes.mapEnts (fun m b =>
        if m ≠ 15 && b.busy then { b with quiet := true, stored := none, ring := false } else {})
      posted := false
      postedLost := 0
      version := none
      session := 0 } }

/-- The version HELLO negotiates from HOST_MAX and HOST_MIN_MAJOR (12 R386). -/
def negotiate (h j n : Nat) : Option (Nat × Nat) :=
  if 3 ≤ h && n ≤ 3 then some (3, if 3 < h then 2 else min j 2)
  else if h = 2 && n ≤ 2 then some (2, min j 6)
  else none

/-- The body of a HELLO reply. -/
def helloReply (v : Nat × Nat) (session : Nat) : List Byte :=
  [BitVec.ofNat 8 v.2, BitVec.ofNat 8 v.1] ++ leBytes 2 0x0302 ++ leBytes 2 0x0200 ++ zeros 2 ++ leBytes 4 session

/-- The session number after `n`: +1, never 0. -/
def nextSession (n : Nat) : Nat := if (n + 1) % 2 ^ 32 = 0 then 1 else (n + 1) % 2 ^ 32

/-- The commands of other mailboxes end ABANDONED without a reply: they run on and are discarded (12 R386, R393). -/
def abandonOthers (m : Nat) (x : Mod) : Mod :=
  { x with dax := { x.dax with boxes := x.dax.boxes.mapEnts (fun k b =>
      if k ≠ m && k ≠ 15 && b.busy then { b with quiet := true, status := stAbandoned } else b) } }

/-- HELLO (12 R386). -/
def helloCmd (m : Nat) (b : Mailbox) (y : Mod × List Host.Cell) : Mod × List Host.Cell :=
  let x := y.1
  let q := b.body
  let others := (List.range 15).any (fun k => k != m && (x.dax.boxes.get k).busy && !(x.dax.boxes.get k).quiet)
  if b.len ≠ 8 || leAt q 3 1 / 2 ≠ 0 || leAt q 4 4 ≠ 0 then fail m stInvalid y
  else
    match negotiate (leAt q 1 1) (leAt q 0 1) (leAt q 2 1) with
    | none => complete m stVersion (helloReply (0, 0) 0) y
    | some v =>
      if others && leAt q 3 1 = 0 then fail m stBusy y
      else
        let n := nextSession x.dax.sessions
        let x1 := clearStored (abandonOthers m { x with dax := { x.dax with
          version := some v, session := n, sessions := n } })
        let y1 := complete m stOk (helloReply v n) (x1, y.2)
        (setBox m (fun b => { b with stored := none }) y1.1, y1.2)

/-- The body of a MODULE_INFO reply (12 R400). -/
def moduleInfoBody (x : Mod) : List Byte :=
  leBytes 4 x.sec.fwVersion.toNat ++ leBytes 2 0x0302 ++ leBytes 2 0x0200 ++ leBytes 2 0x0401
    ++ [0xC0, 0x06, BitVec.ofNat 8 (((List.range 8).map (fun s => flag s (forwarding x && shedWorks x s))).foldl (· + ·) 0),
        BitVec.ofNat 8 x.mode.mode.code] ++ zeros 2

/-- MODULE_INFO (12 R400). -/
def moduleInfoCmd (m : Nat) (b : Mailbox) (y : Mod × List Host.Cell) : Mod × List Host.Cell :=
  if b.len ≠ 0 then fail m stInvalid y else complete m stOk (moduleInfoBody y.1) y

/-! ### The commands -/

/-- DOORBELL_RING. -/
def execDoorbellRing (m : Nat) (st : State) : Host.Outcome State Fault Refusal :=
  cmd (.doorbellRing m) (fun x => if m = 15 then ackNotif x else doorbell m x) st

/-- COMMAND_TAKEN. -/
def execCommandTaken (m : Nat) (st : State) : Host.Outcome State Fault Refusal :=
  cmdAll (.commandTaken m) (takeCommand m) st

/-- COMMAND_START. -/
def execCommandStart (m : Nat) (st : State) : Host.Outcome State Fault Refusal :=
  cmdAll (.commandStart m) (startCommand m) st

/-- COMMAND_DEADLINE. -/
def execCommandDeadline (m : Nat) (st : State) : Host.Outcome State Fault Refusal :=
  cmdAll (.commandDeadline m) (deadline m) st

/-- NOTIFICATION_POST. -/
def execNotificationPost (st : State) : Host.Outcome State Fault Refusal :=
  cmdAll (.notificationPost) (postNotif) st

/-- NOTIFICATION_ACK. -/
def execNotificationAck (st : State) : Host.Outcome State Fault Refusal :=
  cmd (.notificationAck) (ackNotif) st

/-- HOST_SILENT. -/
def execHostSilent (st : State) : Host.Outcome State Fault Refusal :=
  cmd (.hostSilent) (fun x => if ringComes st.pending then x else hostSilentNow x) st

/-- HOST_WATCHDOG_WRITE. -/
def execHostWatchdogWrite (v : Word) (st : State) : Host.Outcome State Fault Refusal :=
  cmd (.hostWatchdogWrite v) (writeWdog v) st

/-- HELLO. -/
def execHello (m : Nat) (st : State) : Host.Outcome State Fault Refusal :=
  cmdAll (.hello m) (onCommand m 0x0001 (helloCmd m)) st

/-- MODULE_INFO. -/
def execModuleInfo (m : Nat) (st : State) : Host.Outcome State Fault Refusal :=
  cmdAll (.moduleInfo m) (onCommand m 0x0002 (moduleInfoCmd m)) st

/-- MAILBOX_BUFFER_WRITE. -/
def execMailboxBufferWrite (off : Nat) (bytes : List Byte) (st : State) : Host.Outcome State Fault Refusal :=
  cmdAll (.mailboxBufferWrite off bytes) (bufferWrite off bytes) st

end Sys2Proof.Machine
end

