-- ==== Sys2Proof/Machine/TtBank.lean ====
section
/-! DEFINITION. Sys2Proof/Machine/TtBank.lean: the timetable banks: open, write, close, invalidation and status (10 R326
to R331, R341). -/

namespace Sys2Proof.Machine

/-- Result codes of 10 R342. -/
def ttOk : Nat := 0x00
def ttLength : Nat := 0x01
def ttFormat : Nat := 0x02
def ttDigest : Nat := 0x03
def ttSignature : Nat := 0x04
def ttUnsigned : Nat := 0x05
def ttStale : Nat := 0x06
def ttSection : Nat := 0x07
def ttSectionVersion : Nat := 0x08
def ttContentBad : Nat := 0x09
def ttCapacity : Nat := 0x0A
def ttMac : Nat := 0x0B
def ttIncomplete : Nat := 0x0C
def ttAborted : Nat := 0x0D
def ttBankActive : Nat := 0x10
def ttBankBusy : Nat := 0x11
def ttNotValid : Nat := 0x12
def ttMismatch : Nat := 0x13
def ttShedDigest : Nat := 0x14

/-- The code of a bank state (10 R326). -/
def BankSt.code : BankSt → Nat
  | .empty => 0
  | .writing => 1
  | .verifying => 2
  | .valid => 3
  | .invalid => 4
  | .active => 5
  | .retiring => 6

/-- Changes one bank. -/
def setBank (b : Nat) (f : Bank → Bank) (x : Mod) : Mod := { x with tt := { x.tt with banks := x.tt.banks.upd b f } }

/-- Whether a bank is named by an activation in progress or held (10 R328, R331). -/
def activating (x : Mod) (b : Nat) : Bool :=
  x.tt.act.any (fun a => a.bank == b) || (heldActivation x).any (fun m => leAt (x.dax.boxes.get m).body 0 1 == b)

/-- The timetable notification (12 R392). -/
def ttNote (x : Mod) : Notif :=
  { kind := 2, level := 0, sev := 0xFF, source := 0, time := x.now / 1000,
    detail := fit 16 (leBytes 4 x.tt.verifyLog.toNat ++ leBytes 2 (evtBits (x.evts.get (.yard, 16)))) }

/-- An outcome of verification is reported: VERIFIED, TTB_VERIFY_LOG, notification (10 R329, R346). -/
def reportBank (b result secId item : Nat) (x : Mod) : Mod :=
  let x1 := raise .yard evVerified { x with tt := { x.tt with
    verifyLog := reg [flag 31 (b == 1), at_ 24 7 result, at_ 16 8 secId, min item 0xFFFF] } }
  notify (ttNote x1) x1

/-- A bank left WRITING or VERIFYING enters INVALID with ABORTED, reported (10 R327, 12 R379). -/
def abortBank (b : Nat) (x : Mod) : Mod :=
  match (x.tt.banks.get b).st with
  | .writing | .verifying => reportBank b ttAborted 0 0 (setBank b (fun k => { k with st := .invalid, content := none }) x)
  | _ => x

/-- A reply that carries RESULT alone. -/
def ttReply (m result : Nat) (y : Mod × List Host.Cell) : Mod × List Host.Cell :=
  complete m stOk [BitVec.ofNat 8 result] y

/-- The bytes of a bank are discarded. -/
def eraseBank (b : Nat) (mem : List Host.Cell) : List Host.Cell := Memory.erase mem (bankBase b) (bankBase (b + 1))

/-- TT_OPEN (10 R328, R341). -/
def ttOpenCmd (m : Nat) (b : Mailbox) (y : Mod × List Host.Cell) : Mod × List Host.Cell :=
  let x := y.1
  let q := b.body
  let k := leAt q 0 1
  let len := leAt q 8 8
  if b.len ≠ 16 || 1 < k || leAt q 1 7 ≠ 0 || len < 0x500 || 0x20000000 < len then fail m stInvalid y
  else
    match (x.tt.banks.get k).st with
    | .active => ttReply m ttBankActive y
    | .retiring | .verifying => ttReply m ttBankBusy y
    | _ =>
      if activating x k || (x.tt.banks.get (1 - k)).st == .writing then ttReply m ttBankBusy y
      else
        ttReply m ttOk (setBank k (fun _ => { st := .writing, len := len, next := 0, since := x.now }) x, eraseBank k y.2)

/-- TT_WRITE (10 R328, R341). -/
def ttWriteCmd (m : Nat) (b : Mailbox) (y : Mod × List Host.Cell) : Mod × List Host.Cell :=
  let x := y.1
  let q := b.body
  let k := leAt q 0 1
  let size := leAt q 2 2
  let off := leAt q 4 4
  let data := sliceOf q 8 size
  let bank := x.tt.banks.get k
  if 1 < k || leAt q 1 1 ≠ 0 || size < 8 || 3584 < size || b.len ≠ 8 + size || bank.st != .writing then fail m stInvalid y
  else if bank.len < off + size || (size % 8 ≠ 0 && off + size ≠ bank.len) then fail m stInvalid y
  else if off = bank.next then
    ttReply m ttOk (setBank k (fun o => { o with next := o.next + size }) x, Memory.writes y.2 (bankBase k + off) data)
  else if off < bank.next && off + size ≤ bank.next && Memory.reads y.2 (bankBase k + off) size == data then ttReply m ttOk y
  else fail m stInvalid y

/-- TT_CLOSE (10 R329, R341). -/
def ttCloseCmd (m : Nat) (b : Mailbox) (y : Mod × List Host.Cell) : Mod × List Host.Cell :=
  let x := y.1
  let k := leAt b.body 0 1
  let bank := x.tt.banks.get k
  if b.len ≠ 1 || 1 < k || bank.st != .writing then fail m stInvalid y
  else if bank.next < bank.len then
    ttReply m ttOk (reportBank k ttIncomplete 0 0 (setBank k (fun o => { o with st := .invalid }) x), y.2)
  else ttReply m ttOk (setBank k (fun o => { o with st := .verifying, since := x.now }) x, y.2)

/-- TT_INVALIDATE (10 R331, R341). -/
def ttInvalidateCmd (m : Nat) (b : Mailbox) (y : Mod × List Host.Cell) : Mod × List Host.Cell :=
  let x := y.1
  let k := leAt b.body 0 1
  if b.len ≠ 1 || 1 < k then fail m stInvalid y
  else
    match (x.tt.banks.get k).st with
    | .active => ttReply m ttBankActive y
    | .retiring | .verifying => ttReply m ttBankBusy y
    | .empty => ttReply m ttOk y
    | _ =>
      if activating x k then ttReply m ttBankBusy y
      else ttReply m ttOk (setBank k (fun _ => { st := .invalid }) x, eraseBank k y.2)

/-- SEQUENCE of a bank as TTB_SEQ shows it: 0 for a bank EMPTY or INVALID (10 R344). -/
def bankSeq (x : Mod) (b : Nat) : Word :=
  match (x.tt.banks.get b).st with
  | .empty | .invalid => 0
  | _ => (x.tt.banks.get b).seq

/-- DIGEST of a bank, 0 likewise. -/
def bankDigest (x : Mod) (b : Nat) : Digest :=
  match (x.tt.banks.get b).st with
  | .empty | .invalid => 0
  | _ => (x.tt.banks.get b).digest

/-- The 32 bytes of a digest, byte 0 lowest (10 R344). -/
def digestBytes (d : Digest) : List Byte := leBytes 32 d.toNat

/-- The digest whose bytes are given. -/
def digestOf (l : List Byte) : Digest := BitVec.ofNat 256 (leNat (fit 32 l))

/-- Whether a RETIRING bank is resident. -/
def draining (x : Mod) : Bool :=
  (x.tt.banks.get 0).st == .retiring || (x.tt.banks.get 1).st == .retiring

/-- TT_STATUS (10 R341). -/
def ttStatusCmd (m : Nat) (b : Mailbox) (y : Mod × List Host.Cell) : Mod × List Host.Cell :=
  let x := y.1
  let act := match x.tt.active with
    | some k => BitVec.ofNat 8 k
    | none => 0xFF
  if b.len ≠ 0 then fail m stInvalid y
  else complete m stOk ([BitVec.ofNat 8 ttOk, act,
      BitVec.ofNat 8 (x.tt.epoch.toNat + flag 2 (draining x)),
      BitVec.ofNat 8 ((x.tt.banks.get 0).st.code + 16 * (x.tt.banks.get 1).st.code)]
    ++ leBytes 4 (bankSeq x 0).toNat ++ leBytes 4 (bankSeq x 1).toNat
    ++ digestBytes (bankDigest x 0) ++ digestBytes (bankDigest x 1) ++ leBytes 4 x.tt.verifyLog.toNat) y

/-! ### The commands -/

/-- TT_OPEN. -/
def execTtOpen (m : Nat) (st : State) : Host.Outcome State Fault Refusal :=
  cmdAll (.ttOpen m) (onCommand m 0x0020 (ttOpenCmd m)) st

/-- TT_WRITE. -/
def execTtWrite (m : Nat) (st : State) : Host.Outcome State Fault Refusal :=
  cmdAll (.ttWrite m) (onCommand m 0x0021 (ttWriteCmd m)) st

/-- TT_CLOSE. -/
def execTtClose (m : Nat) (st : State) : Host.Outcome State Fault Refusal :=
  cmdAll (.ttClose m) (onCommand m 0x0022 (ttCloseCmd m)) st

/-- TT_INVALIDATE. -/
def execTtInvalidate (m : Nat) (st : State) : Host.Outcome State Fault Refusal :=
  cmdAll (.ttInvalidate m) (onCommand m 0x0024 (ttInvalidateCmd m)) st

/-- TT_STATUS. -/
def execTtStatus (m : Nat) (st : State) : Host.Outcome State Fault Refusal :=
  cmdAll (.ttStatus m) (onCommand m 0x0025 (ttStatusCmd m)) st

end Sys2Proof.Machine
end

