-- ==== Sys2Proof/Machine/Security.lean ====
section
/-! DEFINITION. Sys2Proof/Machine/Security.lean: firmware slots, the boot ROM's check, microcode patch verification,
enrolment, quotes and authorised messages (18, 14 R452 and R453). -/

namespace Sys2Proof.Machine

/-- Result codes of 18 R545. -/
def secOk : Nat := 0x00
def secFormat : Nat := 0x01
def secIncomplete : Nat := 0x02
def secDigest : Nat := 0x03
def secRevoked : Nat := 0x04
def secSignature : Nat := 0x05
def secRollback : Nat := 0x06
def secRunningSlot : Nat := 0x07
def secNotEnrolled : Nat := 0x08
def secEnrolled : Nat := 0x09
def secChallenge : Nat := 0x0A
def secAuth : Nat := 0x0B

/-- The code of a slot state (18 R532). -/
def SlotSt.code : SlotSt → Nat
  | .empty => 0
  | .writing => 1
  | .valid => 2
  | .trial => 3
  | .committed => 4
  | .invalid => 5

/-- STATUS that goes with a result: DENIED for 0x07 to 0x0B. -/
def secStatus (r : Nat) : Nat := if 7 ≤ r && r ≤ 0x0B then stDenied else stOk

/-- A reply of a security message: RESULT, and what follows it at 0x04. -/
def secReply (m r : Nat) (rest : List Byte) (y : Mod × List Host.Cell) : Mod × List Host.Cell :=
  complete m (secStatus r) (if rest = [] then [BitVec.ofNat 8 r] else [BitVec.ofNat 8 r, 0, 0, 0] ++ rest) y

/-- Changes one slot. -/
def setSlot (k : Nat) (f : Slot → Slot) (x : Mod) : Mod := { x with sec := { x.sec with slots := x.sec.slots.upd k f } }

/-- The 256-byte header of a slot's image (18 R533). -/
def fwHeader (mem : List Host.Cell) (k : Nat) : List Byte := Memory.reads mem (slotBase k) 256

/-- LENGTH of a header. -/
def fwLen (h : List Byte) : Nat := leAt h 0x10 4

/-- SVN of a header. -/
def fwSvn (h : List Byte) : Nat := leAt h 0x0C 4

/-- Check 1 of 18 R535. -/
def fwFormatOk (h : List Byte) : Bool :=
  sliceOf h 0 4 == [0x59, 0x46, 0x57, 0x49] && leAt h 4 2 == 1 && decide (leAt h 6 1 ≤ 3) && decide (leAt h 7 1 ≤ 15)
    && decide (0x1000 ≤ fwLen h) && decide (fwLen h ≤ 0x600000) && allZero (sliceOf h 0xB2 78)

/-- The checks of 18 R535 in their order; an image of which fewer than LENGTH bytes are stored is INCOMPLETE. -/
def fwCheck (x : Mod) (mem : List Host.Cell) (k : Nat) : Nat :=
  let h := fwHeader mem k
  let key := leAt h 6 1
  let slot := x.sec.slots.get k
  if slot.st == .empty then secIncomplete
  else if !fwFormatOk h then secFormat
  else if slot.st == .writing && slot.next < fwLen h then secIncomplete
  else if Config.shake256 (sliceOf h 0 0x20 ++ Memory.reads mem (slotBase k + 0x100) (fwLen h - 0x100))
      ≠ digestOf (sliceOf h 0x20 32) then secDigest
  else if x.sec.fuses.getLsbD key then secRevoked
  else if !Config.ed448Verify (Config.vendorKey key) (sliceOf h 0x20 32) (sliceOf h 0x40 114) then secSignature
  else if fwSvn h < x.sec.minSvn.toNat then secRollback
  else secOk

/-- FW_WRITE (18 R545, as 10 R328 with the slot in place of the bank). -/
def fwWriteCmd (m : Nat) (b : Mailbox) (y : Mod × List Host.Cell) : Mod × List Host.Cell :=
  let x := y.1
  let q := b.body
  let k := leAt q 0 1
  let opening := leAt q 1 1 = 1
  let size := leAt q 2 2
  let off := leAt q 4 4
  let data := sliceOf q 8 size
  if 1 < k || 1 < leAt q 1 1 || b.len ≠ 8 + size || 3584 < size || (size < 8 && !opening) || 0x600000 < off + size then
    fail m stInvalid y
  else if x.sec.running && x.sec.runSlot = k then secReply m secRunningSlot [] y
  else if classCRuns x m then fail m stBusy y
  else
    let slot : Slot := if opening then { st := .writing } else x.sec.slots.get k
    let mem := if opening then Memory.erase y.2 (slotBase k) (slotBase k + 0x1000000) else y.2
    let known := 256 ≤ slot.next
    if slot.st != .writing then fail m stInvalid y
    else if size % 8 ≠ 0 && !(known && off + size = fwLen (fwHeader mem k)) then fail m stInvalid y
    else if off = slot.next then
      secReply m secOk [] (setSlot k (fun _ => { slot with next := off + size }) x, Memory.writes mem (slotBase k + off) data)
    else if off + size ≤ slot.next && Memory.reads mem (slotBase k + off) size == data then
      secReply m secOk [] (setSlot k (fun _ => slot) x, mem)
    else fail m stInvalid y

/-- FIRMWARE_UPDATE (18 R538): the check of the slot, TRIAL on success, and a reset 100 ms after the reply when asked. -/
def firmwareUpdateCmd (m : Nat) (b : Mailbox) (y : Mod × List Host.Cell) : Mod × List Host.Cell :=
  let x := y.1
  let q := b.body
  let k := leAt q 0 1
  if b.len ≠ 2 || 1 < k || 1 < leAt q 1 1 then fail m stInvalid y
  else if x.sec.running && x.sec.runSlot = k then secReply m secRunningSlot (leBytes 4 0) y
  else
    let r := fwCheck x y.2 k
    if r = secOk then
      let x1 := setSlot k (fun o => { o with st := .trial, tried := false }) x
      let x2 := if leAt q 1 1 = 1 then
          { x1 with mode := { x1.mode with resetAt := some (x.now + ms 100), resetCause := 7 } } else x1
      secReply m secOk (leBytes 4 (fwSvn (fwHeader y.2 k))) (x2, y.2)
    else
      secReply m r (leBytes 4 0)
        (setSlot k (fun o => { o with st := if o.st == .committed then .committed else .invalid }) x, y.2)

/-- MIN_SVN rises to the committed image's SVN and the fuses named in REVOKE are blown, but never the signing key's
(18 R538). -/
def commitActions (mem : List Host.Cell) (k : Nat) (x : Mod) : Mod :=
  let h := fwHeader mem k
  let blow := (BitVec.ofNat 4 (leAt h 7 1)) &&& ~~~(BitVec.ofNat 4 (2 ^ leAt h 6 1))
  { x with sec := { x.sec with
      minSvn := if x.sec.minSvn.toNat < fwSvn h then BitVec.ofNat 32 (fwSvn h) else x.sec.minSvn
      fuses := x.sec.fuses ||| blow } }

/-- FW_COMMIT (18 R538, R545). -/
def fwCommitCmd (m : Nat) (b : Mailbox) (y : Mod × List Host.Cell) : Mod × List Host.Cell :=
  let x := y.1
  let k := x.sec.runSlot
  if b.len ≠ 0 then fail m stInvalid y
  else if !x.sec.trial then secReply m secOk [] y
  else
    let x1 := setSlot k (fun o => { o with st := .committed, tried := false }) x
    let x2 := setSlot (1 - k) (fun o => { o with st := if o.st == .committed then .valid else o.st }) x1
    secReply m secOk [] (commitActions y.2 k { x2 with sec := { x2.sec with trial := false } }, y.2)

/-- SEC_BOOT (18 R546). -/
def secBoot (x : Mod) : Word :=
  reg [at_ 28 4 (x.sec.result.get 0), at_ 24 4 (x.sec.result.get 1), at_ 20 4 (x.sec.slots.get 0).st.code,
       at_ 16 4 (x.sec.slots.get 1).st.code, x.sec.boots.toNat]

/-- SEC_STATUS (18 R546). -/
def secStatusReg (x : Mod) : Word :=
  reg [flag 31 x.sec.enrol.isSome,
       flag 30 (match x.sec.enrol with | some e => e.policy == 1 | none => false),
       flag 29 (match x.sec.enrol with | some e => e.ttKey.isSome | none => false),
       flag 28 x.sec.trial, at_ 27 1 x.sec.runSlot, flag 26 x.sec.fallback, x.sec.fuses.toNat]

/-- FW_STATUS (18 R545). -/
def fwStatusCmd (m : Nat) (b : Mailbox) (y : Mod × List Host.Cell) : Mod × List Host.Cell :=
  if b.len ≠ 0 then fail m stInvalid y else secReply m secOk (leBytes 4 (secBoot y.1).toNat) y

/-- ENROL (18 R539). -/
def enrolCmd (m : Nat) (b : Mailbox) (y : Mod × List Host.Cell) : Mod × List Host.Cell :=
  let x := y.1
  let q := b.body
  if b.len ≠ 118 || 1 < leAt q 0 1 || 1 < leAt q 1 1 || leAt q 2 2 ≠ 0 then fail m stInvalid y
  else if x.sec.enrol.isSome then secReply m secEnrolled [] y
  else
    let d := drawBytes 57 x
    let e : Enrol := { auth := sliceOf q 4 57, ttKey := if leAt q 1 1 = 1 then some (sliceOf q 61 57) else none,
                       policy := leAt q 0 1, pub := d.1 }
    secReply m secOk d.1 ({ d.2 with sec := { d.2.sec with enrol := some e } }, y.2)

/-- The SHAKE256-256 of a key, or 0 without one. -/
def keyPrint (k : Option (List Byte)) : Digest :=
  match k with
  | some b => Config.shake256 b
  | none => 0

/-- Bytes 0x000 to 0x127 of the measurement report (18 R541). -/
def quoteHead (x : Mod) (e : Enrol) (nonce : List Byte) : List Byte :=
  let act := match x.tt.active with
    | some k => some (x.tt.banks.get k)
    | none => none
  leBytes 2 1 ++ zeros 2 ++ leBytes 4 x.sec.fwVersion.toNat ++ leBytes 4 x.sec.svn.toNat ++ leBytes 4 x.sec.minSvn.toNat
    ++ [BitVec.ofNat 8 (x.sec.runSlot + flag 1 x.sec.trial), BitVec.ofNat 8 x.sec.fuses.toNat, BitVec.ofNat 8 e.policy,
        BitVec.ofNat 8 x.mode.mode.code]
    ++ leBytes 4 (x.sec.patchRev.getD Config.ostBase).toNat
    ++ leBytes 4 (match act with | some k => k.seq.toNat | none => 0)
    ++ leBytes 4 x.dax.session ++ leBytes 8 x.mono.toNat ++ nonce ++ digestBytes x.sec.fwDigest ++ digestBytes x.sec.patchDig
    ++ digestBytes (match act with | some k => k.digest | none => 0)
    ++ digestBytes (keyPrint e.ttKey) ++ digestBytes (Config.shake256 e.auth) ++ fit 57 e.pub ++ zeros 7

/-- The report with its signature (18 R541). -/
def quoteReport (x : Mod) (e : Enrol) (nonce : List Byte) : List Byte :=
  let h := quoteHead x e nonce
  h ++ fit 114 (Config.ed448Sign e.pub (digestBytes (Config.shake256 h))) ++ zeros 6

/-- QUOTE (18 R541, R544). -/
def quoteCmd (m : Nat) (b : Mailbox) (y : Mod × List Host.Cell) : Mod × List Host.Cell :=
  if b.len ≠ 32 then fail m stInvalid y
  else
    match y.1.sec.enrol with
    | none => secReply m secNotEnrolled [] y
    | some e => secReply m secOk (quoteReport y.1 e b.body) y

/-- CHALLENGE (18 R542). -/
def challengeCmd (m : Nat) (b : Mailbox) (y : Mod × List Host.Cell) : Mod × List Host.Cell :=
  if b.len ≠ 0 then fail m stInvalid y
  else
    let d := drawBytes 32 y.1
    secReply m secOk d.1 ({ d.2 with sec := { d.2.sec with challenge := some (d.1, d.2.now) } }, y.2)

/-- The challenge in force: it lapses 60 s after it is issued (18 R542). -/
def currentChallenge (x : Mod) : Option (List Byte) :=
  match x.sec.challenge with
  | some (c, t) => if passed x.now t (sec 60) then none else some c
  | none => none

/-- The authorisation of a message: its failure, or none (18 R542). BODY is the body before the signature (log 27). -/
def authorise (x : Mod) (e : Enrol) (opcode : Nat) (body sig : List Byte) : Option Nat :=
  match currentChallenge x with
  | none => some secChallenge
  | some c =>
    if Config.ed448Verify e.auth (digestBytes (Config.shake256 (c ++ leBytes 2 opcode ++ body))) sig then none else some secAuth

/-- The challenge is consumed. -/
def useChallenge (x : Mod) : Mod := { x with sec := { x.sec with challenge := none } }

/-- DECOMMISSION (18 R543, R544). -/
def decommissionCmd (m : Nat) (b : Mailbox) (y : Mod × List Host.Cell) : Mod × List Host.Cell :=
  let x := y.1
  if b.len ≠ 114 then fail m stInvalid y
  else if x.mode.mode != .quiesced then fail m stWrongMode y
  else if classCRuns x m then fail m stBusy y
  else
    match x.sec.enrol with
    | none => secReply m secNotEnrolled [] y
    | some e =>
      match authorise x e 0x0077 [] b.body with
      | some r => secReply m r [] (useChallenge x, y.2)
      | none =>
        let x1 := useChallenge x
        let x2 := { x1 with
          sec := { x1.sec with enrol := none }
          tt := { x1.tt with banks := .const {}, active := none, lastActive := none }
          mode := { x1.mode with resetAt := some (x.now + ms 100), resetCause := 1 } }
        secReply m secOk [] (x2, eraseBank 0 (eraseBank 1 y.2))

/-- POLICY_SET (18 R542). -/
def policySetCmd (m : Nat) (b : Mailbox) (y : Mod × List Host.Cell) : Mod × List Host.Cell :=
  let x := y.1
  let q := b.body
  if b.len ≠ 116 || 1 < leAt q 0 1 || leAt q 1 1 ≠ 0 then fail m stInvalid y
  else
    match x.sec.enrol with
    | none => secReply m secNotEnrolled [] y
    | some e =>
      match authorise x e 0x0078 (sliceOf q 0 2) (sliceOf q 2 114) with
      | some r => secReply m r [] (useChallenge x, y.2)
      | none =>
        let x1 := useChallenge x
        secReply m secOk [] ({ x1 with sec := { x1.sec with enrol := some { e with policy := leAt q 0 1 } } }, y.2)

/-- A challenge lapses (18 R542). -/
def challengeLapses (x : Mod) : Mod :=
  match x.sec.challenge with
  | some (_, t) => if passed x.now t (sec 60) then useChallenge x else x
  | none => x

/-! ### The boot ROM (18 R534, R535) -/

/-- The slots in the order the boot ROM tries them: TRIAL not yet tried, COMMITTED, VALID. -/
def bootOrder (x : Mod) : List Nat :=
  let is (st : SlotSt) (k : Nat) : Bool := (x.sec.slots.get k).st == st
  ([0, 1].filter (fun k => is .trial k && !(x.sec.slots.get k).tried)) ++ [0, 1].filter (is .committed)
    ++ [0, 1].filter (is .valid)

/-- A start begins: the boot ROM's order, a TRIAL already tried back to VALID, an open write INVALID, BOOTS counted. -/
def beginBoot (x : Mod) : Mod :=
  let f : Slot → Slot := fun o =>
    match o.st with
    | .writing => { o with st := .invalid }
    | .trial => if o.tried then { o with st := .valid, tried := false } else o
    | _ => o
  { x with sec := { x.sec with
      toTry := bootOrder x
      slots := (x.sec.slots.set 0 (f (x.sec.slots.get 0))).set 1 (f (x.sec.slots.get 1))
      running := false
      trial := false
      fallback := false
      result := .const 0xF
      boots := x.sec.boots + 1 } }

/-- The image in slot `k` starts: what its header says becomes the running image's. -/
def runImage (mem : List Host.Cell) (k : Nat) (x : Mod) : Mod :=
  let h := fwHeader mem k
  { x with
    sec := { x.sec with
      running := true
      runSlot := k
      toTry := []
      trial := (x.sec.slots.get k).st == .trial
      fwVersion := BitVec.ofNat 32 (leAt h 8 4)
      svn := BitVec.ofNat 32 (fwSvn h)
      fwDigest := digestOf (sliceOf h 0x20 32)
      minPatch := BitVec.ofNat 32 (leAt h 0x14 4)
      patchOff := leAt h 0x18 4
      patchLen := leAt h 0x1C 4
      patchDig := 0
      patchRev := none }
    dax := { x.dax with up := true } }

/-- At each start firmware repeats the last two actions of a commit for the COMMITTED slot (18 R538). -/
def repeatCommit (mem : List Host.Cell) (x : Mod) : Mod :=
  [0, 1].foldl (fun a k => if (a.sec.slots.get k).st == .committed then commitActions mem k a else a) x

/-! ### The microcode patch (14 R452, R453) -/

/-- Cuts a decrypted record list into its records; none when one is malformed. `n` bounds the records. -/
def patchRecs : Nat → List Byte → Option (List PatchRec)
  | 0, _ => some []
  | n + 1, l =>
    let typ := leAt l 0 1
    let cnt := leAt l 2 2
    let start := leAt l 4 2
    let w := if typ = 0 then 4 else if typ = 1 then 20 else if typ = 2 then 2 else 4
    let data := sliceOf l 8 (cnt * w)
    let total := 8 + (cnt * w + 7) / 8 * 8
    if l.length < total || 3 < typ || leAt l 1 1 ≠ 0 || leAt l 6 2 ≠ 0 then none
    else
      match patchRecs n (l.drop total) with
      | none => none
      | some t => some ({ typ := typ, start := start, words := (List.range cnt).map (fun i => leAt data (i * w) w) } :: t)

/-- The size of the store or table a record type fills. -/
def patchLimit (typ : Nat) : Nat := if typ = 0 then 16384 else if typ = 1 then 2048 else if typ = 2 then 256 else 32

/-- Whether records lie within their stores and do not overlap, a microword's bits [31:24] are 0, and no wait limit is raised
(14 R445, R452, R453). -/
def patchRecsOk (limit : Nat → Option Nat) (l : List PatchRec) : Bool :=
  l.all (fun r => decide (r.start + r.words.length ≤ patchLimit r.typ)
    && (r.typ != 0 || r.words.all (fun v => decide (v < 2 ^ 24)))
    && (r.typ != 3 || (r.words.zip (List.range r.words.length)).all (fun e =>
          match limit (r.start + e.2) with
          | some m => decide (e.1 ≤ m)
          | none => true)))
  && ((List.range l.length).all (fun i => (List.range l.length).all (fun j =>
      match l[i]?, l[j]? with
      | some a, some b => i == j || a.typ != b.typ ||
          decide (a.start + a.words.length ≤ b.start) || decide (b.start + b.words.length ≤ a.start)
      | _, _ => true)))

/-- Wait limits of 14 R445 in units of 10 ns. -/
def waitLimit (cond : Nat) : Option Nat :=
  match cond with
  | 1 | 2 | 3 => some 100
  | 4 => some 1000
  | 5 => some 2000
  | 6 => some 10000
  | 9 => some 1000
  | _ => none

/-- Word `i` of a store of type `typ` after the patch over the baseline. -/
def patchedWord (recs : List PatchRec) (typ i base : Nat) : Nat :=
  recs.foldl (fun a r =>
    if r.typ = typ && r.start ≤ i && i < r.start + r.words.length then (r.words[i - r.start]?).getD a else a) base

/-- The bytes of the patched stores, micro store then nano store (14 R452). -/
def storeBytes (recs : List PatchRec) : List Byte :=
  ((List.range 16384).flatMap (fun i => leBytes 3 (patchedWord recs 0 i (Config.romMicro i).toNat)))
    ++ ((List.range 2048).flatMap (fun i => leBytes 20 (patchedWord recs 1 i (Config.romNano i).toNat)))

/-- The outcome of the patch image `p` under 14 R453: code, revision, STORE_DIGEST and records. -/
def patchCheck (x : Mod) (p : List Byte) : Nat × Word × Digest × List PatchRec :=
  let bad (c : Nat) : Nat × Word × Digest × List PatchRec := (c, 0, 0, [])
  let fmt := leAt p 4 2
  let len := leAt p 0x10 4
  let aad := p.take 0x20 ++ zeros 16 ++ (p.drop 0x30).take 0x50
  let sigOk := (List.range 4).any (fun k => !x.sec.fuses.getLsbD k &&
    Config.ed448Verify (Config.vendorKey k) (digestBytes (Config.shake256 (p.take 0x80 ++ p.drop 0x100))) (sliceOf p 0x80 114))
  if p = [] then bad 8
  else if sliceOf p 0 4 ≠ [0x59, 0x4F, 0x50, 0x43] || !(fmt == 2 || fmt == 3) || len < 0x200 || 0x100000 < len
      || len ≠ p.length || leAt p 6 2 < 1 || 4096 < leAt p 6 2 || !allZero (sliceOf p 0x50 48) || !allZero (sliceOf p 0xF2 14)
      then bad 1
  else if !sigOk then bad 2
  else if BitVec.ofNat 32 (leAt p 0x0C 4) ≠ Config.ostBase then bad 3
  else
    match Config.classDecrypt (sliceOf p 0x14 12) aad (p.drop 0x100) (sliceOf p 0x20 16) with
    | none => bad 4
    | some plain =>
      match patchRecs (leAt p 6 2) plain with
      | none => bad 5
      | some recs =>
        if !patchRecsOk waitLimit recs || (fmt == 2 && recs.any (fun r => r.typ == 3)) then bad 5
        else if leAt p 8 4 < x.sec.minPatch.toNat then bad 6
        else if fmt == 3 && Config.shake256 (storeBytes recs) ≠ digestOf (sliceOf p 0x30 32) then bad 7
        else (0, BitVec.ofNat 32 (leAt p 8 4), if fmt == 3 then digestOf (sliceOf p 0x30 32) else 0, recs)

/-- The patch image that the running image's header names, or nothing (18 R533, R537). -/
def patchImage (x : Mod) (mem : List Host.Cell) : List Byte :=
  if x.sec.patchOff = 0 then []
  else Memory.reads mem (slotBase x.sec.runSlot + 0x100 + x.sec.patchOff) x.sec.patchLen

/-- PATCH_VERIFY: in Harnessing the patch is decrypted and checked; on a failure the sheds keep the baseline and PATCH_FAIL
is raised in each (14 R453, R454). -/
def patchVerifyNow (mem : List Host.Cell) (x : Mod) : Mod :=
  if !(x.mode.mode == .harnessing && x.dax.up && x.pwr.stage == 5) then x
  else
    let c := patchCheck x (patchImage x mem)
    let x1 := { x with
      patch := { result := c.1, verified := c.1 == 0, revision := c.2.1, recs := c.2.2.2 }
      sec := { x.sec with
        patchRev := if c.1 = 0 then some c.2.1 else none
        patchDig := if c.1 = 0 then c.2.2.1 else 0 }
      ost := (List.range 8).foldl (fun o s => o.upd s (fun e => { e with result := c.1 })) x.ost
      pwr := { x.pwr with stage := 6, stageAt := x.now, wAt := x.now } }
    if c.1 = 0 || c.1 = 8 then x1
    else (List.range 8).foldl (fun a s => raise (.shed s) evPatchFail a) x1

/-- Whether every security command of class A taken before mailbox `m`'s has ended: they are applied in the order they are taken
(18 R544). -/
def secTurn (x : Mod) (m : Nat) : Bool :=
  (List.range 15).all (fun k =>
    let o := x.dax.boxes.get k
    k == m || !o.busy || o.opcode < 0x0071 || 0x0078 < o.opcode || decide ((x.dax.boxes.get m).order < o.order))

/-- What a security command of class A does, in its turn. -/
def onSecurity (m op : Nat) (f : Mailbox → Mod × List Host.Cell → Mod × List Host.Cell) (y : Mod × List Host.Cell) :
    Mod × List Host.Cell := if secTurn y.1 m then onCommand m op f y else y

/-! ### The commands -/

/-- FIRMWARE_UPDATE. -/
def execFirmwareUpdate (m : Nat) (st : State) : Host.Outcome State Fault Refusal :=
  cmdAll (.firmwareUpdate m) (onCommand m 0x0070 (firmwareUpdateCmd m)) st

/-- FW_WRITE. -/
def execFwWrite (m : Nat) (st : State) : Host.Outcome State Fault Refusal :=
  cmdAll (.fwWrite m) (onSecurity m 0x0071 (fwWriteCmd m)) st

/-- FW_COMMIT. -/
def execFwCommit (m : Nat) (st : State) : Host.Outcome State Fault Refusal :=
  cmdAll (.fwCommit m) (onSecurity m 0x0072 (fwCommitCmd m)) st

/-- FW_STATUS. -/
def execFwStatus (m : Nat) (st : State) : Host.Outcome State Fault Refusal :=
  cmdAll (.fwStatus m) (onSecurity m 0x0073 (fwStatusCmd m)) st

/-- ENROL. -/
def execEnrol (m : Nat) (st : State) : Host.Outcome State Fault Refusal :=
  cmdAll (.enrol m) (onSecurity m 0x0074 (enrolCmd m)) st

/-- QUOTE. -/
def execQuote (m : Nat) (st : State) : Host.Outcome State Fault Refusal :=
  cmdAll (.quote m) (onSecurity m 0x0075 (quoteCmd m)) st

/-- CHALLENGE. -/
def execChallenge (m : Nat) (st : State) : Host.Outcome State Fault Refusal :=
  cmdAll (.challenge m) (onSecurity m 0x0076 (challengeCmd m)) st

/-- DECOMMISSION. -/
def execDecommission (m : Nat) (st : State) : Host.Outcome State Fault Refusal :=
  cmdAll (.decommission m) (onSecurity m 0x0077 (decommissionCmd m)) st

/-- POLICY_SET. -/
def execPolicySet (m : Nat) (st : State) : Host.Outcome State Fault Refusal :=
  cmdAll (.policySet m) (onSecurity m 0x0078 (policySetCmd m)) st

/-- CHALLENGE_LAPSE. -/
def execChallengeLapse (st : State) : Host.Outcome State Fault Refusal :=
  cmd (.challengeLapse) (challengeLapses) st

end Sys2Proof.Machine
end

