-- ==== Sys2Proof/Machine/Ostler.lean ====
section
/-! DEFINITION. Sys2Proof/Machine/Ostler.lean: the Ostler engines: queues, dispatch, abandonment, waits, machine checks,
stores, and the issue of one microword (14). -/

namespace Sys2Proof.Machine

/-- Changes the Ostler group of shed `s`. -/
def setOst (s : Nat) (f : Ost → Ost) (x : Mod) : Mod := { x with ost := x.ost.upd s f }

/-- Engine `e` of shed `s`. -/
def engine (x : Mod) (s e : Nat) : Engine := (x.ost.get s).engines.get e

/-- Changes engine `e` of shed `s`. -/
def setEng (s e : Nat) (f : Engine → Engine) (x : Mod) : Mod :=
  setOst s (fun o => { o with engines := o.engines.upd e f }) x

/-- The number of kinds each engine serves (14 R439). -/
def engineKinds (e : Nat) : Nat := if e = 0 then 2 else if e = 3 then 4 else 1

/-- The microword at an address, the patched word or the baseline's (14 R441, R454). -/
def microAt (o : Ost) (a : BitVec 14) : BitVec 24 := (o.micro.get a.toNat).getD (Config.romMicro a.toNat)

/-- The nanoword at an address. -/
def nanoAt (o : Ost) (a : Nat) : BitVec 160 := (o.nano.get a).getD (Config.romNano a)

/-- The entry address of a command code. -/
def entryAt (o : Ost) (code : Nat) : BitVec 14 := (o.entry.get code).getD (Config.romEntry code)

/-- The wait limit of a condition in picoseconds, lowered by a patch where it is (14 R445). -/
def condLimit (o : Ost) (cond : Nat) : Option Nat :=
  match o.limits.get cond with
  | some n => some (n * 10000)
  | none => (waitLimit cond).map (· * 10000)

/-- The command taken next: the highest kind, in arrival order within a kind (14 R439). -/
def nextCmd (l : List OstCmd) : Option OstCmd :=
  l.foldl (fun a c =>
    match a with
    | none => some c
    | some b => if c.kind < b.kind then some c else some b) none

/-- The queue without the first occurrence of a command. -/
def dropCmd (c : OstCmd) : List OstCmd → List OstCmd
  | [] => []
  | d :: t => if d = c then t else d :: dropCmd c t

/-- An engine takes a command from its queue; one that waits outside for room enters it (14 R440). -/
def Engine.take (c : OstCmd) (g : Engine) : Engine :=
  { g with queue := dropCmd c g.queue ++ g.outside.take 1, outside := g.outside.drop 1 }

/-- Registers 0 to 7, which hold the command's arguments. -/
def Engine.args (g : Engine) : List (BitVec 64) := (List.range 8).map g.regs.get

/-- Registers 8 to 63 and the call stack are cleared (14 R447). -/
def Engine.scrub (g : Engine) : Engine :=
  { g with regs := g.regs.dropIf (fun r => decide (8 ≤ r)), stack := [], cond := 0, atomic := false, hold := 0, met := false }

/-- A run begins at its entry in the restarting state, or issuing when new, with its arguments in registers 0 to 7; a 17th run in a row is
held (14 R447, R448). -/
def startRun (s e : Nat) (r : OstRun) (fresh : Bool) (x : Mod) : Mod :=
  let held := 16 ≤ r.abandons
  let x1 := setEng s e (fun g => { g with
    st := if fresh then .issuing else .restarting
    run := some { r with roll := none, held := held }
    uaddr := entryAt (x.ost.get s) r.cmd.code
    regs := (List.range 8).foldl (fun m i => m.set i (r.args.getD i 0)) g.regs
    atomic := held, cond := 0, hold := 0, met := false }) x
  if held then raise (.shed s) evHeldRun (tally (.ost s e 3) x1) else x1

/-- The first run of a command. What its arguments are the manual does not say: free values (log 18). -/
def newRun (s e : Nat) (c : OstCmd) (x : Mod) : Mod :=
  let d := drawBytes 64 x
  startRun s e { cmd := c, args := (List.range 8).map (fun i => BitVec.ofNat 64 (leAt d.1 (8 * i) 8)) } true (setEng s e (·.take c) d.2)

/-- DISPATCH: a suspended routine restarts, else the next command begins, else the engine waits on condition 0x08 (14 R443,
R447). -/
def dispatch (s e : Nat) (x : Mod) : Mod :=
  let g := engine x s e
  match g.suspended with
  | r :: t => startRun s e r false (setEng s e (fun g => { g with suspended := t }) x)
  | [] =>
    match nextCmd g.queue with
    | some c => newRun s e c x
    | none => setEng s e (fun g => { g with run := none, st := .idle, cond := 8, atomic := false, hold := 0, met := false }) x

/-- Whether the engine samples interrupts now: before COMMIT and in no held run, and inside an ATOMIC region only where a microword has
ended (14 R446, R448). -/
def Engine.open_ (g : Engine) : Bool :=
  (!g.atomic || (g.hold == 0 && g.st != .waiting && !g.met)) && (match g.run with
    | some r => r.roll.isNone && !r.held
    | none => true)

/-- A higher kind is waiting for an engine that may be interrupted (14 R440). -/
def interruptWaits (e : Nat) (g : Engine) : Bool :=
  (e == 0 || e == 3) && (match g.run, nextCmd g.queue with
    | some r, some c => decide (c.kind < r.cmd.kind)
    | _, _ => false)

/-- The running routine is abandoned for an interrupt: suspended, counted, and the interrupting command begins. -/
def interruptRun (s e : Nat) (x : Mod) : Mod :=
  let g := engine x s e
  match g.run, nextCmd g.queue with
  | some r, some c =>
    newRun s e c (tally (.ost s e 1) (setEng s e (fun g =>
      { g.scrub with suspended := { r with abandons := r.abandons + 1, args := g.args } :: g.suspended }) x))
  | _, _ => x

/-- A command reaches an engine's queue of 255 entries; it starts an idle engine or interrupts a lower kind (14 R438 to R440,
R446). One that finds the queue full waits outside. -/
def acceptCmd (s e : Nat) (c : OstCmd) (x : Mod) : Mod :=
  let g := engine x s e
  if engineKinds e ≤ c.kind then x
  else if 255 ≤ g.queue.length then setEng s e (fun g => { g with outside := g.outside ++ [c] }) x
  else
    let x1 := setEng s e (fun g => { g with queue := g.queue ++ [c] }) x
    let g1 := engine x1 s e
    if g.halted || !(x.ost.get s).loaded then x1
    else if g.run.isNone then dispatch s e x1
    else if g.open_ && interruptWaits e g1 then interruptRun s e x1
    else x1

/-- A fault is sampled: before COMMIT the routine is abandoned and restarts from its entry, after it at the roll-forward
address without running COMMIT again (14 R447). -/
def faultRun (s e : Nat) (x : Mod) : Mod :=
  match (engine x s e).run with
  | none => x
  | some r =>
    match r.roll with
    | some a => tally (.ost s e 2) (setEng s e (fun g => { g with st := .restarting, uaddr := a, cond := 0, hold := 0, met := false }) x)
    | none => startRun s e { r with abandons := r.abandons + 1, args := (engine x s e).args } false (tally (.ost s e 1) (setEng s e Engine.scrub x))

/-- A routine reaches END: its result is posted and the next command is dispatched (14 R443). -/
def endRun (s e : Nat) (failed : Bool) (x : Mod) : Mod :=
  match (engine x s e).run with
  | none => x
  | some r =>
    let x1 := setEng s e (fun g => { g with results := (r.cmd.tag, failed) :: g.results, run := none, atomic := false }) x
    dispatch s e (if failed then x1 else tally (.ost s e 0) x1)

/-- Whether the engine waits on a condition. -/
def Engine.waits (g : Engine) : Bool := !g.halted && g.st == .waiting && g.cond != 0

/-- A wait-timeout: a Fault, counted; the fourth for one command ends it as failed, its run abandoned where it has not passed COMMIT (14 R445,
R447, R449). -/
def waitExpires (s e : Nat) (x : Mod) : Mod :=
  match (engine x s e).run with
  | none => x
  | some r =>
    let n := r.timeouts + 1
    let x1 := raise (.shed s) evWaitTimeout (tally (.ost s e 4)
      (setEng s e (fun g => { g with run := some { r with timeouts := n } }) x))
    if 4 ≤ n then endRun s e true (if r.roll.isNone then tally (.ost s e 1) (setEng s e Engine.scrub x1) else x1) else faultRun s e x1

/-- Whether the condition of the engine is met in this instant: it then counts as met before its limit expires (14 R445). -/
def metComes (s e : Nat) (l : List Instr) : Bool := l.contains (.ostlerConditionMet s e)

/-- Whether the wait limit of the engine's condition has passed. -/
def waitDue (x : Mod) (s e : Nat) : Bool :=
  let g := engine x s e
  g.waits && (match condLimit (x.ost.get s) g.cond with
    | some t => passed x.now g.condFrom t
    | none => false)

/-! ### Machine checks (14 R450, R451) -/

/-- NADDR of the microword an engine stands at. -/
def naddrOf (w : BitVec 24) : Nat := if bitsOf w.toNat 23 22 = 0 then bitsOf w.toNat 21 11 else 0

/-- An engine halts with a machine check: logged, counted, MCHECK raised; for a parity error the word is marked. KIND as in
14 R460. -/
def machineCheck (s e kind : Nat) (x : Mod) : Mod :=
  let o := x.ost.get s
  let g := engine x s e
  let n := naddrOf (microAt o g.uaddr)
  let log : MLog := { engine := e, kind := kind, rewritten := false, count := o.mlog.count + 1, uaddr := g.uaddr,
                      naddr := BitVec.ofNat 11 n,
                      entry := match g.run with
                        | some r => entryAt o r.cmd.code
                        | none => 0 }
  let bad := if kind = 0 then (false, g.uaddr.toNat) :: o.bad else if kind = 1 then (true, n) :: o.bad else o.bad
  let x1 := setOst s (fun o => { o with
    mlog := log
    bad := bad
    mchecks := (x.now :: o.mchecks).filter (fun t => x.now < t + sec 1)
    engines := o.engines.upd e (fun g => { g with halted := true }) }) x
  raise (.shed s) evMcheck (tally (.ost s e 5) x1)

/-- Whether the latest machine check was the third within 1 s (14 R451). -/
def mcheckRepeats (x : Mod) (s : Nat) : Bool :=
  3 ≤ ((x.ost.get s).mchecks.filter (fun t => x.now < t + sec 1)).length

/-- The faulty words are rewritten from the Foltin's copy; the log shows it where its check was of parity (14 R450, R460). -/
def rewriteWord (s : Nat) (x : Mod) : Mod :=
  if (x.ost.get s).bad = [] then x
  else setOst s (fun o => { o with bad := [], mlog := { o.mlog with rewritten := o.mlog.rewritten || decide (o.mlog.kind < 2) } }) x

/-- An engine goes on: its routine as for a fault, or with DISPATCH. -/
def resumeEngine (s e : Nat) (x : Mod) : Mod :=
  let x1 := setEng s e (fun g => { g with halted := false }) x
  if (engine x s e).run.isSome then faultRun s e x1 else dispatch s e x1

/-- A halted engine is restarted (14 R450). -/
def restartEngine (s e : Nat) (x : Mod) : Mod :=
  if !(engine x s e).halted || (x.ost.get s).bistFrom.isSome then x else resumeEngine s e x

/-! ### Loading the stores (14 R454) and the store BIST (14 R455, R461) -/

/-- The words of the patch records of one type, by index. -/
def recWords (recs : List PatchRec) (typ : Nat) : List (Nat × Nat) :=
  (recs.filter (fun r => r.typ == typ)).flatMap (fun r => (List.range r.words.length).zip r.words |>.map
    (fun e => (r.start + e.1, e.2)))

/-- The stores of shed `s` are loaded: the baseline, then the patch records; its engines may issue, and go on as after a halt. -/
def loadStores (s : Nat) (x : Mod) : Mod :=
  let recs := if x.patch.verified then x.patch.recs else []
  (List.range 4).foldl (fun a e => resumeEngine s e a) <| setOst s (fun o => { o with
    micro := (recWords recs 0).foldl (fun m e => m.set e.1 (some (BitVec.ofNat 24 e.2))) (.const none)
    nano := (recWords recs 1).foldl (fun m e => m.set e.1 (some (BitVec.ofNat 160 e.2))) (.const none)
    entry := (recWords recs 2).foldl (fun m e => m.set e.1 (some (BitVec.ofNat 14 e.2))) (.const none)
    limits := (recWords recs 3).foldl (fun m e => m.set e.1 (some e.2)) (.const none)
    bad := []
    patched := x.patch.verified
    result := x.patch.result
    revision := if x.patch.verified then x.patch.revision else Config.ostBase
    loaded := true }) x

/-- The stores of a shed lose their contents (16 R482). -/
def loseStores (s : Nat) (x : Mod) : Mod :=
  setOst s (fun o => { o with micro := .const none, nano := .const none, entry := .const none, limits := .const none,
                              bad := [], loaded := false, patched := false, revision := 0,
                              engines := .const {}, mchecks := [] }) x

/-- BAR0 offset of OST_DIAG_CTL of shed `s`. -/
def ostDiagOff (s : Nat) : Nat := levelBase (.shed s) + 0x90000 + 0x280

/-- A write to OST_DIAG_CTL: outside Diagnostic it is dropped and logged; RUN starts the march test, which halts the shed's
engines; it is ignored while BUSY (13 R407, 14 R455, R461). -/
def startBist (s : Nat) (v : Word) (x : Mod) : Mod :=
  if x.mode.mode != .diagnostic then logAccess 5 0xF 0 (ostDiagOff s) x
  else if !v.getLsbD 0 || (x.ost.get s).bistFrom.isSome then x
  else setOst s (fun o => { o with
      bistFrom := some x.now
      engines := (List.range 4).foldl (fun m e => m.upd e (fun g => { g with halted := true })) o.engines }) x

/-- The march test ends and reports; the stores are loaded again. -/
def endBist (s : Nat) (pass : Bool) (x : Mod) : Mod :=
  match (x.ost.get s).bistFrom with
  | none => x
  | some _ => loadStores s (setOst s (fun o => { o with bistFrom := none, bistRes := if pass then 1 else 2 }) x)

/-! ### One microword (14 R442 to R446) -/

/-- Whether a nanoword is legal. -/
def nanoLegal (n : BitVec 160) : Bool :=
  decide (bitsOf n.toNat 133 130 < 8) && decide (bitsOf n.toNat 121 118 < 5) && decide (bitsOf n.toNat 117 116 < 3)

/-- A nanoword runs: the ALU result or what a memory operation reads is merged into DST, the flags are set, and the word
holds the issue stage for CYCLES. -/
def runNano (s e : Nat) (arg : Nat) (n : BitVec 160) (x : Mod) : Mod :=
  let g := engine x s e
  let a := if arg ≠ 0 then arg else bitsOf n.toNat 151 146
  let op := BitVec.ofNat 8 (bitsOf n.toNat 159 152)
  let va := g.regs.get a
  let vb := g.regs.get (bitsOf n.toNat 145 140)
  let imm := BitVec.ofNat 48 (bitsOf n.toNat 111 64)
  let mop := bitsOf n.toNat 133 130
  let res := if mop = 1 || mop = 4 || mop = 7 then
      Config.memRead (BitVec.ofNat 4 mop) (BitVec.ofNat 8 (bitsOf n.toNat 129 122)) va else Config.alu op va vb imm
  let m := BitVec.ofNat 64 (bitsOf n.toNat 63 0)
  setEng s e (fun g => { g with
    regs := g.regs.upd (bitsOf n.toNat 139 134) (fun o => (o &&& ~~~m) ||| (res &&& m))
    zero := res == 0
    carry := Config.aluCarry op va vb imm
    neg := res.getLsbD 63
    hold := bitsOf n.toNat 115 112
    st := .issuing, cond := 0, met := false, uaddr := g.uaddr + 1 }) x

/-- An OPERATE word whose condition holds runs its nanoword, nanoword 0 doing nothing; where a word that has its result checked fails the
residue check twice the routine is abandoned as a fault (14 R442, R444; 17 R517). -/
def operate (s e : Nat) (w : BitVec 24) (x : Mod) : Mod :=
  let n := nanoAt (x.ost.get s) (bitsOf w.toNat 21 11)
  if bitsOf w.toNat 21 11 = 0 then setEng s e (fun g => { g with st := .issuing, cond := 0, met := false, uaddr := g.uaddr + 1 }) x
  else if !nanoLegal n then machineCheck s e 2 x
  else
    let y := if bitsOf n.toNat 117 116 = 0 then (false, x) else residue (.alu s e) 0 x
    if y.1 then faultRun s e y.2 else runNano s e (bitsOf w.toNat 5 0) n y.2

/-- A BRANCH word whose TEST reads `t`. -/
def branch (s e : Nat) (w : BitVec 24) (t : Bool) (x : Mod) : Mod :=
  let g := engine x s e
  let target := BitVec.ofNat 14 (bitsOf w.toNat 13 0)
  let kind := bitsOf w.toNat 17 16
  let jump (a : BitVec 14) (st : List (BitVec 14)) : Mod := setEng s e (fun g => { g with uaddr := a, stack := st }) x
  if (kind = 0 && t) || (kind = 1 && !t) then jump target g.stack
  else if kind = 2 && t then
    (if 4 ≤ g.stack.length then machineCheck s e 3 x else jump target ((g.uaddr + 1) :: g.stack))
  else if kind = 3 && t then
    (match g.stack with
     | [] => machineCheck s e 4 x
     | a :: st => jump a st)
  else jump (g.uaddr + 1) g.stack

/-- A CONTROL word. -/
def control (s e : Nat) (w : BitVec 24) (x : Mod) : Mod :=
  let g := engine x s e
  let op := bitsOf w.toNat 21 18
  let target := BitVec.ofNat 14 (bitsOf w.toNat 13 0)
  let past := match g.run with
    | some r => r.roll.isSome
    | none => false
  if op = 0 then
    (if past then machineCheck s e 2 x
     else setEng s e (fun g => { g with atomic := true, uaddr := g.uaddr + 1,
                                        run := g.run.map (fun r => { r with roll := some target }) }) x)
  else if target ≠ 0 then machineCheck s e 2 x
  else if op = 1 then setEng s e (fun g => { g with atomic := true, uaddr := g.uaddr + 1 }) x
  else if op = 2 then setEng s e (fun g => { g with atomic := past, uaddr := g.uaddr + 1 }) x
  else if op = 3 then endRun s e false x
  else dispatch s e x

/-- One microword of a running routine is issued. The tests of table state read a free bit (log 18). -/
def issueWord (s e : Nat) (x : Mod) : Mod :=
  let o := x.ost.get s
  let g := engine x s e
  let w := microAt o g.uaddr
  let form := bitsOf w.toNat 23 22
  let cond := bitsOf w.toNat 10 6
  let test := bitsOf w.toNat 21 18
  if o.bad.contains (false, g.uaddr.toNat) then machineCheck s e 0 x
  else if form = 0 then
    (if 10 ≤ cond then machineCheck s e 2 x
     else if o.bad.contains (true, bitsOf w.toNat 21 11) then machineCheck s e 1 x
     else if cond ≠ 0 && !g.met then setEng s e (fun g => { g with st := .waiting, cond := cond, condFrom := x.now }) x
     else operate s e w x)
  else if form = 1 then
    (if 10 ≤ test || bitsOf w.toNat 15 14 ≠ 0 then machineCheck s e 2 x
     else if test = 0 then branch s e w true x
     else if test = 1 then branch s e w g.zero x
     else if test = 2 then branch s e w g.carry x
     else if test = 3 then branch s e w g.neg x
     else let d := drawBits 1 x; branch s e w (d.1 == 1) d.2)
  else if form = 2 then
    (if 5 ≤ test || bitsOf w.toNat 17 14 ≠ 0 then machineCheck s e 2 x else control s e w x)
  else machineCheck s e 2 x

/-- One cycle of 0.625 ns of an engine: it issues at most one microword, and samples interrupts where it may. A restarting engine has
spent its cycle and issues (14 R438, R446, R447). -/
def engineCycle (s e : Nat) (x : Mod) : Mod :=
  let g := engine x s e
  if g.halted || !(x.ost.get s).loaded || g.run.isNone then x
  else if g.open_ && interruptWaits e g then interruptRun s e x
  else if 0 < g.hold then setEng s e (fun g => { g with hold := g.hold - 1 }) x
  else if g.st == .issuing || g.st == .restarting then issueWord s e (setEng s e (fun g => { g with st := .issuing }) x)
  else x

/-- A condition is met: the waiting OPERATE word runs its nanoword in the cycle after (14 R445). -/
def condMet (s e : Nat) (x : Mod) : Mod :=
  if (engine x s e).waits then setEng s e (fun g => { g with st := .issuing, cond := 0, met := true }) x else x

/-! ### The commands -/

/-- OSTLER_COMMAND. -/
def execOstlerCommand (s e kind code : Nat) (tag : BitVec 16) (st : State) : Host.Outcome State Fault Refusal :=
  cmd (.ostlerCommand s e kind code tag) (acceptCmd s e { kind := kind, code := code, tag := tag }) st

/-- OSTLER_CONDITION_MET. -/
def execOstlerConditionMet (s e : Nat) (st : State) : Host.Outcome State Fault Refusal :=
  cmd (.ostlerConditionMet s e) (condMet s e) st

/-- OSTLER_WAIT_TIMEOUT. -/
def execOstlerWaitTimeout (s e : Nat) (st : State) : Host.Outcome State Fault Refusal :=
  cmd (.ostlerWaitTimeout s e) (fun x => if waitDue x s e && !metComes s e st.pending then waitExpires s e x else x) st

/-- OSTLER_ROUTINE_END. -/
def execOstlerRoutineEnd (s e : Nat) (st : State) : Host.Outcome State Fault Refusal :=
  cmd (.ostlerRoutineEnd s e) (fun x => if (engine x s e).halted then x else endRun s e false x) st

/-- OSTLER_WORD_REWRITE. -/
def execOstlerWordRewrite (s : Nat) (st : State) : Host.Outcome State Fault Refusal :=
  cmd (.ostlerWordRewrite s) (rewriteWord s) st

/-- OSTLER_ENGINE_RESTART. -/
def execOstlerEngineRestart (s e : Nat) (st : State) : Host.Outcome State Fault Refusal :=
  cmd (.ostlerEngineRestart s e) (restartEngine s e) st

/-- STORE_BIST_DONE. -/
def execStoreBistDone (s : Nat) (pass : Bool) (st : State) : Host.Outcome State Fault Refusal :=
  cmd (.storeBistDone s pass) (endBist s pass) st

end Sys2Proof.Machine
end

