-- ==== Sys2Proof/Machine/Islands.lean ====
section
/-! DEFINITION. Sys2Proof/Machine/Islands.lean: clock islands, handshake and FIFO timeouts, and resynchronisation at a wake
(15). -/

namespace Sys2Proof.Machine

/-- The power domain of an island (15 R464). -/
def islandDomain (i : Nat) : Nat :=
  let n := i % 256
  match i / 256 with
  | 0 => 0xFFFF | 1 => 424 | 2 => 434 | 3 => 441 | 4 => 438 | 5 => 443 + n | 6 => 408 + n | 7 => 256 + n | 8 => 416 + n
  | 9 => 352 + n | 10 => 128 + n | 11 => 128 + n | _ => n

/-- The level of an island (15 R464, 01 R21). -/
def islandLevel (i : Nat) : Level :=
  let n := i % 256
  match i / 256 with
  | 6 => .shed n | 7 => .shed (n / 12) | 8 => .shed n | 9 => .shed (n / 7) | 10 => .stall n | 11 => .stall n | 12 => .stall n
  | _ => .yard

/-- The islands of a domain. -/
def domIslands (d : Nat) : List Nat :=
  if d < 128 then [0xC00 + d] else if d < 256 then [0xA00 + (d - 128), 0xB00 + (d - 128)]
  else if d < 352 then [0x700 + (d - 256)] else if d < 408 then [0x900 + (d - 352)] else if d < 416 then [0x600 + (d - 408)]
  else if d < 424 then [0x800 + (d - 416)] else if d = 424 then [0x100] else if d = 434 then [0x200]
  else if d = 441 then [0x300] else if d = 438 then [0x400] else if d = 443 then [0x500] else if d = 444 then [0x501] else []

/-- A crossing error of a level: logged and raised (15 R471, R479). -/
def crossingError (l : Level) (kind : Nat) (near far : BitVec 12) (x : Mod) : Mod :=
  raise l evXerr { x with isl := { x.isl with xerr := x.isl.xerr.upd l (fun e =>
    { kind := kind, near := near, far := far, count := e.count + 1 }) } }

/-- The posted write in flight to the register of a BAR0 offset is lost and BUSY returns to 0 (13 R413). -/
def dropPosted (off : Nat) (x : Mod) : Mod :=
  match x.tim.posted with
  | some (o, _, _) => if off = 0x80000 + o then { x with tim := { x.tim with posted := none } } else x
  | none => x

/-- A handshake times out after 1,024 near cycles: counted, logged, raised; a host read returns 0 and is logged with KIND 6,
a posted write is lost (15 R470, R471, 13 R410). -/
def handshakeTimesOut (near far : BitVec 12) (kind off : Nat) (x : Mod) : Mod :=
  let l := islandLevel near.toNat
  let x1 := crossingError l kind near far (tally (.isl l 0) { x with isl := { x.isl with stale := (near, far) :: x.isl.stale } })
  if kind = 0 then logAccess 6 0xF 0 off { x1 with rdata := 0 }
  else if kind = 1 then dropPosted off x1 else x1

/-- Whether the answer to an island's request arrives at this very instant: arrival wins the tie (15 R470). -/
def answerComes (st : State) (near : BitVec 12) : Bool :=
  !st.mod.isl.stale.any (fun e => e.1 == near) && st.pending.contains (.handshakeStaleAnswer near)

/-- An answer that arrives after its request timed out is discarded and counted: of several, the oldest request's comes first
(15 R470). -/
def staleAnswer (near : BitVec 12) (x : Mod) : Mod :=
  if x.isl.stale.any (fun e => e.1 == near) then
    tally (.isl (islandLevel near.toNat) 4)
      { x with isl := { x.isl with stale := (x.isl.stale.reverse.eraseP (fun e => e.1 == near)).reverse } }
  else x

/-- A FIFO whose read pointer has not moved for 1,024 write cycles: its entries are discarded and counted, the crossing error
has KIND 3, and nothing more is written till the read side wakes (15 R475, R476). -/
def fifoStalls (near far : BitVec 12) (n : Nat) (x : Mod) : Mod :=
  let l := islandLevel near.toNat
  let x1 := crossingError l 3 near far (tally (.isl l 0) { x with isl := { x.isl with blocked := (near, far) :: x.isl.blocked } })
  if n = 0 then x1 else raise l evResyncDiscard (count (.isl l 2) n x1)

/-- The islands of a woken domain resynchronise: counted, requests left pending from before the wake are discarded, and the FIFOs
that they read are written again (15 R472, R475, R476). -/
def resyncDomain (d : Nat) (x : Mod) : Mod :=
  let far := domIslands d
  (domIslands d).foldl (fun a i => tally (.isl (islandLevel i) 1) a)
    { x with isl := { x.isl with stale := x.isl.stale.filter (fun e => !far.contains e.2.toNat)
                                 blocked := x.isl.blocked.filter (fun e => !far.contains e.2.toNat) } }

/-! ### The commands -/

/-- HANDSHAKE_TIMEOUT. -/
def execHandshakeTimeout (near far : BitVec 12) (kind off : Nat) (st : State) : Host.Outcome State Fault Refusal :=
  cmd (.handshakeTimeout near far kind off) (fun x => if answerComes st near then x else handshakeTimesOut near far kind off x) st

/-- HANDSHAKE_STALE_ANSWER. -/
def execHandshakeStaleAnswer (near : BitVec 12) (st : State) : Host.Outcome State Fault Refusal :=
  cmd (.handshakeStaleAnswer near) (staleAnswer near) st

end Sys2Proof.Machine
end

