-- ==== Sys2Proof/Machine/Ring.lean ====
section
/-! DEFINITION. Sys2Proof/Machine/Ring.lean: the host link, the DMA rings and MSI-X (13 R408 to R436). -/

namespace Sys2Proof.Machine

/-- Changes ring `n`. -/
def setRing (n : Nat) (f : Ring → Ring) (x : Mod) : Mod :=
  { x with host := { x.host with rings := x.host.rings.upd n f } }

/-- TYPE of ring `n`: set for rings 0 to 63, fixed for the others (13 R434). -/
def ringType (n : Nat) (r : Ring) : Nat := if n < 64 then r.typ else if n < 80 then 2 else 3

/-- SIZE of a ring, in entries or bytes. -/
def ringSize (r : Ring) : Nat := 2 ^ r.sizeLog2

/-- (a − b) modulo 2^32 of two ring indices. -/
def idxDiff (a b : Nat) : Nat := (a + 2 ^ 32 - b % 2 ^ 32) % 2 ^ 32

/-- The BAR0 offset of ring `n`'s registers (13). -/
def ringOff (n : Nat) : Nat := (if n < 64 then 0xC4000 else 0xC8000) + n % 64 * 0x40

/-- The module's index is written to the write-back address and the ring's source signals (13 R421). A write-back address of
0 disables the write-back (13 R436). -/
def writeBack (n : Nat) (x : Mod) : Mod :=
  let r := x.host.rings.get n
  if r.wb = 0 then x else emit (.dma r.wb (leBytes 4 r.modIdx)) x

/-- The ring signals: write-back, MSI-X, and nothing left unsignalled (13 R421, R422). -/
def ringSignal (n : Nat) (x : Mod) : Mod :=
  signal (16 + n) (writeBack n (setRing n (fun r => { r with unsig := 0, unsigAt := none }) x))

/-- `k` entries (or bytes of a capture ring) of one completion: the module's index moves, and the moderation point is
observed (13 R420, R422). -/
def ringAdvance (n k : Nat) (x : Mod) : Mod :=
  let x1 := setRing n (fun r => { r with modIdx := (r.modIdx + k) % 2 ^ 32, unsig := r.unsig + 1,
                                         unsigAt := some (r.unsigAt.getD x.now) }) x
  let r := x1.host.rings.get n
  if r.modCount ≤ r.unsig || r.modTime = 0 then ringSignal n x1 else x1

/-- HST_DB (13 R420): the host's index moves, or the write is ignored and logged. A stopped ring takes no doorbell
(log 28). -/
def ringBell (n : Nat) (v : Word) (x : Mod) : Mod :=
  let r := x.host.rings.get n
  if !r.enable then x
  else if 2 ^ 31 ≤ idxDiff v.toNat r.hostIdx || ringSize r < idxDiff v.toNat r.modIdx && idxDiff v.toNat r.modIdx < 2 ^ 31 then
    logAccess 7 0xF 1 (0x10000 + n * 0x1000) x
  else setRing n (fun r => { r with hostIdx := v.toNat }) x

/-- The set-up fields of HST_RING_CFG, as a write of `v` leaves them. -/
def ringCfgSet (n : Nat) (v : Word) (r : Ring) : Ring :=
  { r with typ := if n < 64 then fieldOf v 29 28 else r.typ, sizeLog2 := fieldOf v 27 23,
           hostPort := if n < 64 then fieldOf v 22 21 else r.hostPort }

/-- Whether a ring's configuration is valid (13 R423, R434). -/
def ringCfgValid (n : Nat) (r : Ring) : Bool :=
  let t := ringType n r
  (n ≥ 64 || r.typ ≤ 1) && r.base % 4096 == 0 &&
    (if t = 2 then 16 ≤ r.sizeLog2 && r.sizeLog2 ≤ 30 else 6 ≤ r.sizeLog2 && r.sizeLog2 ≤ 16)

/-- A write that would change the set-up fields of an enabled ring is a lock violation (13 R423, R437). -/
def ringLock (n : Nat) (v : Word) (x : Mod) : Mod :=
  let r := x.host.rings.get n
  if ringCfgSet n v r = r then x else raiseLock .yard 19 0 (ringOff n) x

/-- Setting ENABLE (13 R423): the ring starts with both indices 0, or ERROR 1. -/
def ringStart (n : Nat) (v : Word) (x : Mod) : Mod :=
  let r := x.host.rings.get n
  if r.enable then ringLock n v x
  else
    let r1 := ringCfgSet n v r
    if ringCfgValid n r1 then
      setRing n (fun _ => { r1 with enable := true, idle := false, error := 0, hostIdx := 0, modIdx := 0, drop := 0,
                                    unsig := 0, unsigAt := none, stopping := none }) x
    else setRing n (fun _ => { r1 with error := 1 }) x

/-- Clearing ENABLE: the ring stops at an entry boundary (13 R423). -/
def ringStop (n : Nat) (v : Word) (x : Mod) : Mod :=
  let r := x.host.rings.get n
  if r.enable then setRing n (fun r => { r with enable := false, stopping := some x.now }) (ringLock n v x)
  else setRing n (ringCfgSet n v) x

/-- The ring has stopped: its index is written back once and IDLE reads 1 (13 R423). -/
def ringStopped (n : Nat) (x : Mod) : Mod :=
  match (x.host.rings.get n).stopping with
  | some _ => writeBack n (setRing n (fun r => { r with stopping := none, idle := true }) x)
  | none => x

/-- TIME us after the first unsignalled entry (13 R422). -/
def ringTimer (n : Nat) (x : Mod) : Mod :=
  let r := x.host.rings.get n
  match r.unsigAt with
  | some t => if r.enable && passed x.now t (us r.modTime) then ringSignal n x else x
  | none => x

/-- A DMA error stops the ring (13 R429). -/
def ringFails (n err : Nat) (x : Mod) : Mod :=
  if (x.host.rings.get n).enable then
    signal (16 + n) (raise .yard evRingError
      (setRing n (fun r => { r with enable := false, idle := true, error := err, stopping := none }) x))
  else x

/-- A DMA write is refused: the ring stops, or, where it was that of the JOURNAL_READ or COUNTER_READ in mailbox `n` − 88, the command ends
INVALID_ARGUMENT and no ring stops (13 R429, 12 R401; log 80). -/
def writeRefused (n : Nat) (y : Mod × List Host.Cell) : Mod × List Host.Cell :=
  let b := y.1.dax.boxes.get (n - 88)
  if n < 88 then (ringFails n 3 y.1, y.2)
  else if (b.st == .running || b.st == .extended) && !b.began && (b.opcode == 0x0014 || b.opcode == 0x0018) then
    fail (n - 88) stInvalid y
  else y

/-- A DMA read fails: an inject descriptor that was being read completes with STATUS 4 (13 R424), and the ring stops. -/
def readFails (n : Nat) (x : Mod) : Mod :=
  let r := x.host.rings.get n
  ringFails n 2 (if r.enable && ringType n r = 0 && r.hostIdx ≠ r.modIdx then
    emit (.dma (r.base + r.modIdx % ringSize r * 32 + 0x10) [4]) x else x)

/-- An MSI-X vector is unmasked; a pending one is sent once (13 R417). -/
def unmask (v : Nat) (x : Mod) : Mod :=
  let x1 := { x with host := { x.host with vecMasked := x.host.vecMasked.set v false } }
  if x.host.vecPending.get v && !x.host.funcMask && x.host.up then
    emit (.msix v) { x1 with host := { x1.host with vecPending := x1.host.vecPending.set v false } }
  else x1

/-! ### The link (13 R408, R409, R428) -/

/-- The values latched by a read and the held halves of wide pairs are discarded (13 R412, R428). -/
def dropLatches (x : Mod) : Mod :=
  { x with pairs := x.pairs.mapEnts (fun _ p => { p with held := none, latch := none }), latch := .const [] }

/-- Every ring stops with ERROR 4 (13 R428; a ring that is not enabled has nothing to stop, log 28). -/
def ringsDown (x : Mod) : Mod :=
  { x with host := { x.host with rings := x.host.rings.mapEnts (fun _ r =>
      if r.enable || r.stopping.isSome then { r with enable := false, idle := true, error := 4, stopping := none } else r) } }

/-- What a link down, a Function Level Reset and a PERST# assertion have in common (13 R428, 12 R393). -/
def hostReset (x : Mod) : Mod := hostGone (dropLatches (ringsDown x))

/-- The host link goes down. -/
def linkDown (x : Mod) : Mod :=
  if !x.host.up then x
  else
    let x1 := hostReset x
    { x1 with host := { x1.host with up := false, speed := 0, width := 0, degraded := false,
                                     downCount := x1.host.downCount + 1 } }

/-- The link trains at a speed code of 13 R430 and a width; STRAP_GEN4 caps it at 16 GT/s (19 R562, R570). It trains once
the strap is sampled and domain 434 runs (13 R409). -/
def linkUp (speed width : Nat) (x : Mod) : Mod :=
  if x.host.up || !domRuns x 434 || !x.ext.sampled || x.mode.mode == .cold || (!x.ext.gen4 && 4 < speed) then x
  else
    let deg := speed < 4 || width < 8
    let x1 := { x with
      ext := { x.ext with perst := true }
      host := { x.host with up := true, speed := speed, width := width, degraded := deg }
      pwr := { x.pwr with stage := if x.pwr.stage = 4 then 5 else x.pwr.stage
                          stageAt := if x.pwr.stage = 4 then x.now else x.pwr.stageAt } }
    if deg then raise .yard evLinkDegraded x1 else x1

/-! ### The commands -/

/-- RING_DOORBELL. -/
def execRingDoorbell (n : Nat) (v : Word) (st : State) : Host.Outcome State Fault Refusal :=
  cmd (.ringDoorbell n v) (ringBell n v) st

/-- RING_ENABLE. -/
def execRingEnable (n : Nat) (v : Word) (st : State) : Host.Outcome State Fault Refusal :=
  cmd (.ringEnable n v) (ringStart n v) st

/-- RING_DISABLE. -/
def execRingDisable (n : Nat) (v : Word) (st : State) : Host.Outcome State Fault Refusal :=
  cmd (.ringDisable n v) (ringStop n v) st

/-- RING_STOP_DONE. -/
def execRingStopDone (n : Nat) (st : State) : Host.Outcome State Fault Refusal :=
  cmd (.ringStopDone n) (ringStopped n) st

/-- RING_MODERATION_TIMER. -/
def execRingModerationTimer (n : Nat) (st : State) : Host.Outcome State Fault Refusal :=
  cmd (.ringModerationTimer n) (ringTimer n) st

/-- DMA_READ_ERROR. -/
def execDmaReadError (n : Nat) (st : State) : Host.Outcome State Fault Refusal :=
  cmd (.dmaReadError n) (readFails n) st

/-- DMA_WRITE_REFUSED. -/
def execDmaWriteRefused (n : Nat) (st : State) : Host.Outcome State Fault Refusal :=
  cmdAll (.dmaWriteRefused n) (writeRefused n) st

/-- HOST_LINK_UP. -/
def execHostLinkUp (speed width : Nat) (st : State) : Host.Outcome State Fault Refusal :=
  cmd (.hostLinkUp speed width) (linkUp speed width) st

/-- HOST_LINK_DOWN. -/
def execHostLinkDown (st : State) : Host.Outcome State Fault Refusal :=
  cmd (.hostLinkDown) (linkDown) st

/-- VECTOR_UNMASK. -/
def execVectorUnmask (v : Nat) (st : State) : Host.Outcome State Fault Refusal :=
  cmd (.vectorUnmask v) (unmask v) st

end Sys2Proof.Machine
end

