-- ==== Sys2Proof/Machine/PlaneOps.lean ====
section
/-! DEFINITION. Sys2Proof/Machine/PlaneOps.lean: what the data-plane families share: which settings govern a port or a frame,
speeds and byte times, and changing one port, frame, copy, queue, cell. -/

namespace Sys2Proof.Machine

/-! ### Settings -/

/-- The contents of a bank that governs frames, ACTIVE or RETIRING (10 R326). -/
def bankCfg (x : Mod) (b : Option Nat) : Option TtContent :=
  match b with
  | none => none
  | some b =>
    match (x.tt.banks.get b).st with
    | .active | .retiring => (x.tt.banks.get b).content
    | _ => none

/-- The contents that govern a frame (01 R24). -/
def frameCfg (x : Mod) (f : Frame) : TtContent := (bankCfg x f.bank).getD {}

/-- The ACTIVE contents, or an empty timetable. -/
def actCfg (x : Mod) : TtContent := (activeCfg x).getD {}

/-- The settings of a port under a timetable. Ports 1024 to 1037 exist whatever the breakouts are (00 R3). -/
def TtContent.cfg (c : TtContent) (p : Nat) : PortCfg :=
  match c.port p with
  | some k => k
  | none => if p < 1024 then {} else { maxLen := 12288 }

/-- The ACTIVE settings of a port. -/
def portCfg (x : Mod) (p : Nat) : PortCfg := (actCfg x).cfg p

/-- Whether the ACTIVE timetable defines a port. -/
def portDefined (x : Mod) (p : Nat) : Bool :=
  if p < 1024 then ((actCfg x).port p).isSome else portValid p

/-- Data per lane in Gb/s by lane rate code (02 R34, R71). -/
def laneGbps (code : Nat) : Nat := if code = 1 then 50 else if code = 2 then 100 else if code = 3 then 200 else 0

/-- A port's speed in Gb/s (02 R34; 750 for port 1036, 11 R349; 1 for port 1037, 19 R564). The recirculation and host ports have
no speed in the manual and pass a frame at once: 0 (log 30). -/
def portGbps (c : TtContent) (p : Nat) : Nat :=
  if p < 1024 then laneGbps (c.rates.get (stallOf p)) * (c.cfg p).width
  else if p = 1036 then 750 else if p = 1037 then 1 else 0

/-- How long `n` bytes take at a speed, in picoseconds, rounded up. -/
def bytesTime (gbps n : Nat) : Nat := if gbps = 0 then 0 else (n * 8000 + gbps - 1) / gbps

/-- How many bytes pass in `t` picoseconds. -/
def bytesIn (gbps t : Nat) : Nat := gbps * t / 8000

/-- Whether one speed exceeds another; a port without a speed is never the limit. -/
def fasterThan (a b : Nat) : Bool := a != 0 && b != 0 && decide (b < a)

/-- The LNE counter `i` of a port (02 R48). -/
def lneCtr (p i : Nat) : CtrId := .lne (stallOf p) (p % 8) i

/-- The PRS counter `i` of a port (03 R106). -/
def prsCtr (p i : Nat) : CtrId := .prs (stallOf p) (p % 8) i

/-- The OTR counter `i` of a port (05 R177). -/
def otrCtr (p i : Nat) : CtrId := .otr (stallOf p) (p % 8) i

/-- Counts on a line port's counters; ports 1024 to 1037 have no line counters. -/
def countPort (mk : Nat → Nat → CtrId) (p i n : Nat) (x : Mod) : Mod := if p < 1024 then count (mk p i) n x else x

/-! ### Port events (02 R76) -/

/-- LNE_EVT [15:0] of a stall: SPILL_COUNT and the event bits. -/
def lneEvtLow (x : Mod) (g : Nat) : Nat := 256 * (x.spills.get g).toNat + evtBits (x.evts.get (.stall g, 1))

/-- The port-event notification, which names the port and shows LNE_EVT [15:0] (12 R392). -/
def portNote (p : Nat) (x : Mod) : Notif :=
  { kind := 1, level := 2, sev := 0xFF, source := levelSource (.stall (stallOf p)), time := x.now / 1000,
    detail := fit 16 (leBytes 2 p ++ leBytes 2 (lneEvtLow x (stallOf p))) }

/-- An LNE event of a port: the event, and the notification that names the port (02 R76). -/
def portEvent (p : Nat) (e : Evt) (x : Mod) : Mod :=
  let x1 := raise (.stall (stallOf p)) e x
  notify (portNote p x1) x1

/-! ### Changing one piece -/

/-- Changes one port's line side. -/
def setPort (p : Nat) (f : PortSt → PortSt) (x : Mod) : Mod :=
  { x with line := { x.line with ports := x.line.ports.upd p f } }

/-- One port's line side. -/
def portSt (x : Mod) (p : Nat) : PortSt := x.line.ports.get p

/-- Whether a port is up: a line port by 02 R39, the coupler port in Paired with its link (11 R350,
R364), the management port with its
link (19 R564), the recirculation ports with their shed, the host ports always. -/
def portUpNow (x : Mod) (p : Nat) : Bool :=
  if p < 1024 then (portSt x p).up
  else if p < 1032 then shedWorks x (p - 1024)
  else if p = 1036 then x.cpl.link && x.mode.mode == .paired else if p = 1037 then x.ext.mgmtLink else true

/-- Changes one lane. -/
def setLane (l : Nat) (f : LaneSt → LaneSt) (x : Mod) : Mod :=
  { x with line := { x.line with lanes := x.line.lanes.upd l f } }

/-- One stall's clock scaling. -/
def setClk (g : Nat) (f : StallClk → StallClk) (x : Mod) : Mod :=
  { x with line := { x.line with clks := x.line.clks.upd g f } }

/-- The frame numbered `f`, if the module holds it. -/
def frame? (x : Mod) (f : Nat) : Option Frame := x.frames.get f

/-- Puts a frame back. -/
def putFrame (f : Nat) (fr : Frame) (x : Mod) : Mod := { x with frames := x.frames.set f (some fr) }

/-- Changes a frame that is held. -/
def setFrame (f : Nat) (g : Frame → Frame) (x : Mod) : Mod :=
  { x with frames := x.frames.upd f (Option.map g) }

/-- The frame is forgotten. -/
def dropFrame (f : Nat) (x : Mod) : Mod := { x with frames := x.frames.dropIf (fun k => decide (k = f)) }

/-- A new frame and its number. -/
def newFrame (fr : Frame) (x : Mod) : Mod :=
  { x with frames := x.frames.set x.nextF (some fr), nextF := x.nextF + 1 }

/-- Copy `c` of a frame. -/
def Frame.copy? (fr : Frame) (c : Nat) : Option Copy := fr.copies[c]?

/-- Changes copy `c` of a frame. -/
def Frame.setCopy (fr : Frame) (c : Nat) (g : Copy → Copy) : Frame :=
  { fr with copies := (List.range fr.copies.length).zip fr.copies |>.map (fun e => if e.1 = c then g e.2 else e.2) }

/-- Changes one copy. -/
def setCopy (f c : Nat) (g : Copy → Copy) (x : Mod) : Mod := setFrame f (fun fr => fr.setCopy c g) x

/-- The numbers of the frames held, with the frames. -/
def heldFrames (x : Mod) : List (Nat × Frame) :=
  x.frames.ents.filterMap (fun e => e.2.map (fun fr => (e.1, fr)))

/-- Changes the timetable state. -/
def setTt (f : TtSt → TtSt) (x : Mod) : Mod := { x with tt := f x.tt }

/-- Changes one shed's part of the timetable. -/
def setShedTt (s : Nat) (f : ShedTt → ShedTt) (x : Mod) : Mod := setTt (fun t => { t with sheds := t.sheds.upd s f }) x

/-- Whether a frame's tag has retired: its bank is not ACTIVE, and none is RETIRING (10 R337). -/
def tagRetired (x : Mod) (fr : Frame) : Bool := fr.bank != x.tt.active && x.tt.retireT.isNone

/-- Changes one queue. -/
def setQue (p q : Nat) (g : QueSt → QueSt) (x : Mod) : Mod :=
  { x with que := { x.que with qs := x.que.qs.upd (p, q) g } }

/-- Changes the Loft of a shed. -/
def setLoft (s : Nat) (g : Loft → Loft) (x : Mod) : Mod := { x with loft := x.loft.upd s g }

/-- Changes the ticket cache of a shed. -/
def setTkt (s : Nat) (g : TktCache → TktCache) (x : Mod) : Mod := { x with tkt := x.tkt.upd s g }

/-- Changes a drawbar half. -/
def setHalf (s h : Nat) (g : Half → Half) (x : Mod) : Mod :=
  { x with mesh := { x.mesh with halves := x.mesh.halves.upd (s, h) g } }

/-- Changes the capture block of a shed. -/
def setCap (s : Nat) (g : ShedCap → ShedCap) (x : Mod) : Mod :=
  { x with cap := { x.cap with sheds := x.cap.sheds.upd s g } }

/-- The current aging tick, bits [43:24] of the monotonic counter (04 R131, R146). -/
def ageTick (x : Mod) : BitVec 20 := BitVec.ofNat 20 (x.now / 1000 / 2 ^ 24)

/-! ### Frames on the wire -/

/-- The destination type of a frame: 0 unicast, 1 multicast, 2 broadcast (02 R48). -/
def daType (bytes : List Byte) : Nat :=
  if beAt bytes 0 6 = 2 ^ 48 - 1 then 2 else if bitOf (beAt bytes 0 1) 0 then 1 else 0

/-- The size bin of a length (02 R48). -/
def sizeBin (n : Nat) : Nat :=
  if n ≤ 64 then 0 else if n ≤ 127 then 1 else if n ≤ 255 then 2 else if n ≤ 511 then 3 else if n ≤ 1023 then 4
  else if n ≤ 1518 then 5 else if n ≤ 2047 then 6 else if n ≤ 4095 then 7 else if n ≤ 8191 then 8 else 9

/-- One byte through the IEEE 802.3 CRC-32 (log 5). -/
def crcByte (crc : BitVec 32) (b : Byte) : BitVec 32 :=
  (List.range 8).foldl (fun c _ => if c.getLsbD 0 then (c >>> 1) ^^^ 0xEDB88320#32 else c >>> 1) (crc ^^^ b.setWidth 32)

/-- The FCS of a frame's bytes in the order it is sent (log 5). -/
def fcsOf (bytes : List Byte) : List Byte := leBytes 4 (~~~(bytes.foldl crcByte 0xFFFFFFFF#32)).toNat

/-- The stomped FCS: the first two bytes sent inverted (02 R46, 05 R171). -/
def stompFcs (bytes : List Byte) : List Byte :=
  match fcsOf bytes with
  | [a, b, c, d] => [~~~a, ~~~b, c, d]
  | l => l

/-- A frame without its FCS. -/
def noFcs (bytes : List Byte) : List Byte := bytes.take (bytes.length - 4)

/-- The last four bytes of a frame. -/
def tailFcs (bytes : List Byte) : List Byte := bytes.drop (bytes.length - 4)

end Sys2Proof.Machine
end

