-- ==== Sys2Proof/Machine/Parse.lean ====
section
/-! DEFINITION. Sys2Proof/Machine/Parse.lean: the parser, the header vector, the metadata, the frame class, the parse horizon
and the ACL keys (03 R77 to R95). -/

namespace Sys2Proof.Machine

/-- What the parser found in one pass of a frame. `reason` is 0 without a conflict; `stopTyp`, `stopOff` the header at which it
stopped because of one of the flags; `badSum` the IPV4 headers whose checksum is bad. -/
structure PRes where
  hdrs     : List HdrEnt := []
  pseudo   : List (Nat × HdrEnt) := []
  trunc    : Bool := false
  reason   : Nat := 0
  stopTyp  : Nat := 0
  stopOff  : Nat := 0
  unknown  : Bool := false
  nonFirst : Bool := false
  options  : Bool := false
  badSum   : List Nat := []
  genSeen  : Bool := false
  deriving DecidableEq, Repr

/-- What the parser works under: the timetable, the profile, whether the port runs MACsec, the bytes of the frame and, once
its last byte has arrived, its length (03 R82). -/
structure PCtx where
  cfg    : TtContent
  prof   : Profile
  macsec : Bool
  bytes  : List Byte
  len    : Option Nat

/-- Where the walk stands: layer, the enclosing IP payload's end and version, the enclosing UDP payload's end. -/
structure PPos where
  layer : Nat := 0
  v6    : Bool := false
  ipEnd : Option Nat := none
  l4End : Option Nat := none
  deriving DecidableEq, Repr

/-- What follows a header. -/
inductive PNext where
  | hdr (code off : Nat) (pos : PPos)
  | payload
  | unknown
  | fragment

/-- One more layer, saturating at 3 (03 R79). -/
def PPos.up (p : PPos) : PPos := { p with layer := min 3 (p.layer + 1) }

/-- Bytes of the frame at an offset, network order. -/
def PCtx.at_ (c : PCtx) (off n : Nat) : Nat := beAt c.bytes off n

/-- The header that a type field names (03 R78). -/
def etherNext (c : PCtx) (ty off : Nat) (pos : PPos) : PNext :=
  let p : PPos := { pos with v6 := false, ipEnd := none, l4End := none }
  if ty = 0x8100 then .hdr 0x02 off p
  else if ty = 0x88A8 || c.prof.tpid = some ty then .hdr 0x03 off p
  else if ty = 0xF1C1 then .hdr 0x04 off p
  else if ty = 0x88E5 then (if c.macsec then .unknown else .hdr 0x05 off p)
  else if ty = 0x8847 || ty = 0x8848 then .hdr 0x06 off p
  else if ty = 0x0806 then .hdr 0x07 off p
  else if ty = 0x88F7 then .hdr 0x08 off p
  else if ty = 0x0800 then .hdr 0x09 off p
  else if ty = 0x86DD then .hdr 0x0A off p
  else .unknown

/-- The header that an IP protocol or next header field names (03 R78). -/
def protoNext (c : PCtx) (proto off : Nat) (pos : PPos) : PNext :=
  let inner : PPos := { pos.up with ipEnd := none, l4End := none }
  if proto = 4 then .hdr 0x09 off inner
  else if proto = 41 then .hdr 0x0A off inner
  else if proto = 51 then .hdr 0x10 off pos
  else if proto = 50 then .hdr 0x11 off pos
  else if proto = 6 then .hdr 0x13 off pos
  else if proto = 17 then .hdr 0x14 off pos
  else if proto = 47 then (if c.at_ (off + 1) 1 % 8 = 0 then .hdr 0x17 off pos else .unknown)
  else if !pos.v6 && proto = 1 then .hdr 0x12 off pos
  else if pos.v6 && proto = 58 then .hdr 0x12 off pos
  else if pos.v6 && proto = 0 then .hdr 0x0B off pos
  else if pos.v6 && proto = 43 then .hdr (if c.at_ (off + 2) 1 = 4 then 0x0D else 0x0C) off pos
  else if pos.v6 && proto = 44 then .hdr 0x0E off pos
  else if pos.v6 && proto = 60 then .hdr 0x0F off pos
  else .unknown

/-- The header that a GRE or GENEVE protocol type names (03 R78, R79), one layer up. -/
def tunnelNext (gre : Bool) (ty off : Nat) (pos : PPos) : PNext :=
  let p : PPos := { pos.up with v6 := false, ipEnd := none, l4End := none }
  if ty = 0x6558 then .hdr 0x01 off p
  else if ty = 0x0800 then .hdr 0x09 off p
  else if ty = 0x86DD then .hdr 0x0A off p
  else if gre && ty = 0x8847 then .hdr 0x06 off p
  else .unknown

/-- The fixed bytes of a header that hold its length and next fields. -/
def hdrMin (code : Nat) : Nat :=
  if code = 0x01 then 14 else if code = 0x02 || code = 0x03 || code = 0x06 || code = 0x17 then 4
  else if code = 0x04 || code = 0x05 then 6 else if code = 0x07 then 28 else if code = 0x08 then 34
  else if code = 0x09 || code = 0x13 then 20 else if code = 0x0A then 40 else 8

/-- The length of a header (03 R78). -/
def hdrLen (c : PCtx) (code off : Nat) : Nat :=
  let b (i : Nat) : Nat := c.at_ (off + i) 1
  if code = 0x05 then (if bitOf (b 0) 5 then 14 else 6)
  else if code = 0x09 then (if b 0 % 16 < 5 then 20 else b 0 % 16 * 4)
  else if code = 0x0B || code = 0x0C || code = 0x0D || code = 0x0F then (b 1 + 1) * 8
  else if code = 0x10 then (b 1 + 2) * 4
  else if code = 0x13 then (if b 12 / 16 < 5 then 20 else b 12 / 16 * 4)
  else if code = 0x16 then 8 + b 0 % 64 * 4
  else if code = 0x17 then 4 + (if bitOf (b 0) 7 then 4 else 0) + (if bitOf (b 0) 5 then 4 else 0)
    + (if bitOf (b 0) 4 then 4 else 0)
  else hdrMin code

/-- Whether `n` passes an end that is known. -/
def beyond (n : Nat) (e : Option Nat) : Bool :=
  match e with
  | some k => decide (k < n)
  | none => false

/-- The end of what is remaining at any header: the frame's bytes without its FCS, once its length is known (03 R82). -/
def PCtx.end_ (c : PCtx) : Option Nat := c.len.map (· - 4)

/-- Whether an option of a GENEVE header ends beyond the payload; `n` bounds the walk. -/
def optsBeyond (c : PCtx) : Nat → Nat → Nat → Option Nat → Bool
  | 0, _, _, _ => false
  | n + 1, off, stop, e =>
    if stop ≤ off then false
    else
      let l := 4 + c.at_ (off + 3) 1 % 32 * 4
      beyond (off + l) e || optsBeyond c n (off + l) stop e

/-- The conflict of a header, or 0 (03 R82); `first` that no GENEVE header stands before it, whose options alone are walked (03
R79). Conditions on the frame's length wait for its last byte. DESIGN CHOICE (log 62): where one header meets several conditions
the manual gives no order; 0x8 is recorded before 0x4, 0x2, 0x3 and 0x5 before 0x1, and 0x2 before 0x3. -/
def hdrConflict (c : PCtx) (first : Bool) (code off : Nat) (pos : PPos) : Nat :=
  let b (i : Nat) : Nat := c.at_ (off + i) 1
  let len := hdrLen c code off
  let rem (n : Nat) : Bool := beyond (off + n) c.end_
  let l4 := match pos.l4End with
    | some e => some e
    | none => pos.ipEnd
  if code = 0x09 then
    (if b 0 % 16 < 5 || c.at_ (off + 2) 2 < b 0 % 16 * 4 then 2 else if rem (c.at_ (off + 2) 2) then 3 else 0)
  else if code = 0x0A then (if rem (c.at_ (off + 4) 2 + 40) then 4 else 0)
  else if code = 0x0D && (b 4 < b 3 || (b 1 + 1) * 8 < (b 4 + 1) * 16 + 8) then 8
  else if code = 0x0B || code = 0x0C || code = 0x0D || code = 0x0E || code = 0x0F then
    (if beyond (off + len) pos.ipEnd then 4 else 0)
  else if code = 0x10 then (if beyond (off + len) pos.ipEnd then 9 else 0)
  else if code = 0x13 then (if b 12 / 16 < 5 || beyond (off + len) pos.ipEnd then 6 else 0)
  else if code = 0x14 then
    (if c.at_ (off + 4) 2 < 8 || beyond (off + c.at_ (off + 4) 2) pos.ipEnd then 5 else 0)
  else if code = 0x16 || code = 0x17 then
    (if beyond (off + len) l4 || (code == 0x16 && first && optsBeyond c 64 (off + 8) (off + len) l4) then 7 else 0)
  else 0

/-- What follows a recorded header (03 R78, R79). -/
def hdrNext (c : PCtx) (code off : Nat) (pos : PPos) : PNext :=
  let e := off + hdrLen c code off
  let b (i : Nat) : Nat := c.at_ (off + i) 1
  let w (i : Nat) : Nat := c.at_ (off + i) 2
  let v6 : PPos := { pos with v6 := true }
  if code = 0x01 then etherNext c (w 12) e pos
  else if code = 0x02 || code = 0x03 then etherNext c (w 2) e pos
  else if code = 0x04 then etherNext c (w 4) e pos
  else if code = 0x06 then
    (if !bitOf (b 2) 0 then .hdr 0x06 e pos
     else
       let n := c.at_ e 1 / 16
       let p : PPos := { pos with v6 := false, ipEnd := none, l4End := none }
       if n = 4 then .hdr 0x09 e p else if n = 6 then .hdr 0x0A e p
       else if n = 0 && c.prof.pwEth then .hdr 0x01 (e + 4) p else .unknown)
  else if code = 0x09 then
    (if w 6 % 8192 ≠ 0 then .fragment
     else protoNext c (b 9) e { pos with v6 := false, ipEnd := some (off + w 2), l4End := none })
  else if code = 0x0A then protoNext c (b 6) e { v6 with ipEnd := some (off + 40 + w 4), l4End := none }
  else if code = 0x0B || code = 0x0C || code = 0x0D || code = 0x0F || code = 0x10 then protoNext c (b 0) e pos
  else if code = 0x0E then (if w 2 / 8 ≠ 0 then .fragment else protoNext c (b 0) e pos)
  else if code = 0x14 then
    let d := w 2
    let p : PPos := { pos with l4End := some (off + w 4) }
    (if d = 4789 || c.cfg.vxlan2 = some d then .hdr 0x15 e p
     else if d = 6081 || c.cfg.geneve2 = some d then .hdr 0x16 e p
     else if d = 319 || d = 320 then .hdr 0x08 e p else .payload)
  else if code = 0x15 then .hdr 0x01 e { pos.up with v6 := false, ipEnd := none, l4End := none }
  else if code = 0x16 then tunnelNext false (w 2) e pos
  else if code = 0x17 then tunnelNext true (w 2) e pos
  else .payload

/-- The options that end within the first GENEVE header and match a selector (03 R79, R80). -/
def geneveOpts (c : PCtx) (layer : Nat) : Nat → Nat → Nat → List (Nat × HdrEnt)
  | 0, _, _ => []
  | n + 1, off, stop =>
    if stop < off + 4 then []
    else
      let l := 4 + c.at_ (off + 3) 1 % 32 * 4
      let hit := (List.range (min 3 c.cfg.opts.length)).filter (fun k =>
        decide (off + l ≤ stop) && c.cfg.opts[k]? == some (c.at_ off 2, c.at_ (off + 2) 1))
      hit.map (fun k => (17 + k, { typ := 0x19, layer := layer, inst := 0, off := off, len := l }))
        ++ geneveOpts c layer n (off + l) stop

/-- The first entry of each slot, with INSTANCE the number of the entries before it (03 R79, R90). -/
def firstSlots (l : List (Nat × HdrEnt)) : List (Nat × HdrEnt) :=
  l.foldl (fun a e => if a.any (fun o => o.1 == e.1) then a else a ++ [(e.1, { e.2 with inst := a.length })]) []

/-- The pseudo-headers that lie inside a recorded header (03 R80). -/
def pseudoOf (c : PCtx) (r : PRes) (code off : Nat) (layer : Nat) : List (Nat × HdrEnt) :=
  if code = 0x0D && !(r.hdrs.any (fun h => h.typ == 0x0D)) && decide (24 + 16 * c.at_ (off + 3) 1 ≤ hdrLen c code off) then
    [(16, { typ := 0x18, layer := layer, inst := 0, off := off + 8 + 16 * c.at_ (off + 3) 1, len := 16 })]
  else if code = 0x16 && !r.genSeen then firstSlots (geneveOpts c layer 64 (off + 8) (off + hdrLen c code off))
  else []

/-- The ones' complement sum of 16-bit words. -/
def onesSum (l : List Byte) : Nat :=
  let s := ((List.range ((l.length + 1) / 2)).map (fun i => beAt l (2 * i) 2)).foldl (· + ·) 0
  let a := s % 65536 + s / 65536
  a % 65536 + a / 65536

/-- A header is recorded. -/
def PRes.add (c : PCtx) (r : PRes) (code off len layer : Nat) : PRes :=
  let inst := min 15 (r.hdrs.filter (fun h => h.typ == code)).length
  { r with
    pseudo := r.pseudo ++ pseudoOf c r code off layer
    hdrs := r.hdrs ++ [{ typ := code, layer := layer, inst := inst, off := off, len := len }]
    genSeen := r.genSeen || code == 0x16
    options := r.options || (code == 0x09 && decide (20 < len))
    badSum := if code = 0x09 && onesSum (sliceOf c.bytes off len) ≠ 0xFFFF then r.badSum ++ [off] else r.badSum }

/-- The walk of the fixed logic (03 R77 to R83); `n` bounds the headers. A header that would end past the frame's last byte is
not recorded: reason 0x1. -/
def parseWalk (c : PCtx) : Nat → Nat → Nat → PPos → PRes → PRes
  | 0, _, _, _, r => r
  | n + 1, code, off, pos, r =>
    let stop : PRes := { r with stopTyp := code, stopOff := off }
    if c.prof.hdrLimit ≤ r.hdrs.length then { stop with trunc := true }
    else if beyond (off + hdrMin code) c.len then { stop with reason := 1 }
    else if c.prof.byteLimit < off + hdrMin code then { stop with trunc := true }
    else
      let len := hdrLen c code off
      let k := hdrConflict c (!r.genSeen) code off pos
      let fits := !beyond (off + len) c.len && decide (off + len ≤ c.prof.byteLimit)
      if k ≠ 0 then
        (if fits then { (r.add c code off len pos.layer) with stopTyp := code, stopOff := off, reason := k }
         else { stop with reason := k })
      else if beyond (off + len) c.len then { stop with reason := 1 }
      else if c.prof.byteLimit < off + len then { stop with trunc := true }
      else
        let r1 := r.add c code off len pos.layer
        match hdrNext c code off pos with
        | .hdr k o p => parseWalk c n k o p r1
        | .payload => r1
        | .unknown => { r1 with unknown := true }
        | .fragment => { r1 with nonFirst := true }

/-- One pass of the parser. -/
def parse (c : PCtx) : PRes := parseWalk c 20 0x01 0 {} {}

/-! ### Looking at the header vector -/

/-- The first recorded header of a type. -/
def PRes.first (r : PRes) (typ : Nat) : Option HdrEnt := r.hdrs.find? (fun h => h.typ == typ)

/-- The header or pseudo-header that an extractor's TYPE and occurrence name (03 R91). -/
def PRes.pick (r : PRes) (typ occ : Nat) : Option HdrEnt :=
  let l := r.hdrs.filter (fun h => h.typ == typ) ++ (r.pseudo.map (·.2)).filter (fun h => h.typ == typ)
  if occ = 15 then l.getLast? else l[occ]?

/-- The tags ahead of the first header that is not a tag, as (TPID offset, TCI). -/
def tagsOf (c : PCtx) (r : PRes) : List (Nat × Nat) :=
  ((r.hdrs.drop 1).takeWhile (fun h => h.typ == 0x02 || h.typ == 0x03)).map (fun h => (h.off - 2, c.at_ h.off 2))

/-- An extractor's value, none when its valid bit reads 0 (03 R91). -/
def extract (c : PCtx) (r : PRes) (e : Extractor) : Option Nat :=
  match r.pick e.typ e.occ with
  | none => none
  | some h =>
    let a := h.off + e.off
    if c.prof.byteLimit < a + e.width || beyond (a + e.width) c.len || c.bytes.length < a + e.width then none
    else some (c.at_ a e.width)

/-- The parse horizon in bytes (03 R88). -/
def horizon (c : PCtx) (r : PRes) : Nat :=
  let h := match r.hdrs.getLast? with
    | some h => h.off + h.len
    | none => 0
  c.prof.exts.foldl (fun m e =>
    match r.pick e.typ e.occ with
    | none => m
    | some k =>
      let a := k.off + e.off + e.width
      if c.prof.byteLimit < a then m else max m (min a c.bytes.length)) h

/-- The guard latency of a frame at a speed (03 R88): 18 ns, or 11.75 ns after the horizon. -/
def guardTime (gbps hor : Nat) : Nat :=
  let t := bytesTime gbps hor
  if t ≤ 6250 then 18000 else t + 11750

/-- The frame class (03 R93). -/
def frameClass (r : PRes) (trunc conflict : Bool) : Nat :=
  let has (t : Nat) : Bool := r.hdrs.any (fun h => h.typ == t)
  if trunc || conflict then 11
  else if has 0x05 then 10
  else if has 0x08 then 8
  else if r.hdrs.any (fun h => decide (1 ≤ h.layer)) then
    match r.hdrs.find? (fun h => h.layer == 1 && (h.typ == 0x09 || h.typ == 0x0A)) with
    | some h => if h.typ = 0x09 then 5 else 6
    | none => 7
  else if has 0x06 then 4
  else
    match r.hdrs.find? (fun h => h.layer == 0 && (h.typ == 0x09 || h.typ == 0x0A)) with
    | some h => if h.typ = 0x09 then 2 else 3
    | none => if has 0x07 then 1 else 0

/-! ### Hashes (03 R92, R578) -/

/-- The default fields of HASH_A, or none without an IP header at layer 0. -/
def hashFieldsIp (c : PCtx) (r : PRes) : Option (List Byte) :=
  match r.hdrs.find? (fun h => h.layer == 0 && (h.typ == 0x09 || h.typ == 0x0A)) with
  | none => none
  | some h =>
    let addrs := if h.typ = 0x09 then sliceOf c.bytes (h.off + 12) 8 ++ sliceOf c.bytes (h.off + 9) 1
      else sliceOf c.bytes (h.off + 8) 32 ++ sliceOf c.bytes (h.off + 6) 1
    let ports := match r.hdrs.find? (fun k => k.layer == 0 && (k.typ == 0x13 || k.typ == 0x14)) with
      | some k => if r.nonFirst then [] else sliceOf c.bytes k.off 4
      | none => []
    some (addrs ++ ports)

/-- The fields of a frame with no IP header at layer 0. -/
def hashFieldsL2 (c : PCtx) (r : PRes) (vid : Nat) : List Byte :=
  let n := (tagsOf c r).length
  sliceOf c.bytes 0 12 ++ beBytes 2 vid ++ sliceOf c.bytes (12 + 4 * n) 2

/-- The bytes named by a list of extractors. -/
def namedFields (c : PCtx) (r : PRes) (l : List Extractor) : List Byte :=
  l.flatMap (fun e => beBytes e.width ((extract c r e).getD 0))

/-- HASH_A. -/
def hashAOf (c : PCtx) (r : PRes) (vid : Nat) : BitVec 32 :=
  if c.prof.hashA ≠ [] then Config.hashA (namedFields c r c.prof.hashA)
  else
    match hashFieldsIp c r with
    | some l => Config.hashA l
    | none => Config.hashA (hashFieldsL2 c r vid)

/-- HASH_B. -/
def hashBOf (c : PCtx) (r : PRes) (vid : Nat) : BitVec 32 :=
  if c.prof.hashB ≠ [] then Config.hashB (namedFields c r c.prof.hashB)
  else
    match hashFieldsIp c r with
    | some l => Config.hashB (sliceOf c.bytes 0 12 ++ l)
    | none => Config.hashB (hashFieldsL2 c r vid)

/-! ### The whole vector (03 R89 to R92) -/

/-- Everything the guard knows of one pass: the parse, the flags with those carried, the metadata. -/
structure HVec where
  c      : PCtx
  r      : PRes
  trunc  : Bool
  conf   : Bool
  port   : Nat
  epoch  : Nat
  pass   : Nat
  pcfg   : PortCfg
  vid    : Nat
  pcp    : Nat
  dei    : Nat
  inner  : Nat × Nat
  fclass : Nat
  hashA  : BitVec 32
  hashB  : BitVec 32
  hor    : Nat

/-- The header vector of a frame; `known` whether its last byte has arrived. -/
def vectorOf (cfg : TtContent) (f : Frame) (known : Bool) : HVec :=
  let k := cfg.cfg f.port
  let c : PCtx := { cfg := cfg, prof := cfg.profiles.get k.profile, macsec := k.macsec, bytes := f.bytes,
                    len := if known then some f.bytes.length else none }
  let r := parse c
  let tags := tagsOf c r
  let tci := match tags with
    | t :: _ => some t.2
    | [] => none
  let vid := match tci with
    | some t => if t % 4096 = 0 then k.defVid else t % 4096
    | none => k.defVid
  let pcp := match tci with
    | some t => if t % 4096 = 0 then k.defPcp else t / 8192
    | none => k.defPcp
  let inner := match tags with
    | _ :: t :: _ => (t.2 / 8192, t.2 % 4096)
    | _ => (0, 0)
  let tr := r.trunc || f.carryT
  let cf := r.reason != 0 || f.carryC
  { c := c, r := r, trunc := tr, conf := cf, port := f.port, epoch := f.epoch.toNat, pass := f.pass, pcfg := k, vid := vid,
    pcp := pcp, dei := match tci with
      | some t => t / 4096 % 2
      | none => 0
    inner := inner, fclass := frameClass r tr cf, hashA := hashAOf c r vid, hashB := hashBOf c r vid, hor := horizon c r }

/-- Whether a frame is flagged. -/
def HVec.flagged (v : HVec) : Bool := v.trunc || v.conf

/-- Container Mn (03 R92). -/
def HVec.meta_ (v : HVec) (n : Nat) : Nat :=
  let valid (base : Nat) : Nat := ((List.range 32).map (fun i =>
    match v.c.prof.exts[base + i]? with
    | some e => flag i (extract v.c v.r e).isSome
    | none => 0)).foldl (· + ·) 0
  if n = 0 then at_ 16 11 v.port + at_ 14 2 v.epoch + at_ 8 4 v.fclass + at_ 4 4 v.pcfg.profile + at_ 0 2 v.pcfg.aclClass
  else if n = 1 then at_ 16 16 v.pcfg.portMeta + flag 15 v.trunc + flag 14 v.conf + flag 13 v.r.unknown + flag 12 v.r.nonFirst
    + flag 11 v.r.options + flag 10 (v.r.first 0x04).isSome + flag 9 (v.r.badSum != []) + at_ 7 2 (daType v.c.bytes)
    + at_ 5 2 (min 3 (tagsOf v.c v.r).length) + at_ 0 5 v.r.hdrs.length
  else if n = 2 then at_ 29 3 v.pcp + at_ 16 12 v.vid + at_ 12 3 v.inner.1 + at_ 0 12 v.inner.2
  else if n = 3 then at_ 16 9 v.hor + at_ 0 3 v.pass
  else if n = 4 then v.hashA.toNat
  else if n = 5 then v.hashB.toNat
  else if n = 14 then valid 0
  else if n = 15 then valid 32
  else 0

/-- A header-start entry as a word (03 R90). -/
def HdrEnt.word (h : HdrEnt) (pseudo : Bool) : Nat :=
  at_ 26 6 h.typ + at_ 24 2 h.layer + at_ 20 4 h.inst + at_ 11 9 h.off + at_ 2 9 h.len + flag 1 pseudo + 1

/-- Entry Hn. -/
def HVec.hdr (v : HVec) (n : Nat) : Nat :=
  if n < 16 then
    match v.r.hdrs[n]? with
    | some h => h.word false
    | none => 0
  else
    match v.r.pseudo.find? (fun e => e.1 == n) with
    | some e => e.2.word true
    | none => 0

/-- A 16-bit chunk by its selector code (03 R95). -/
def HVec.chunk (v : HVec) (code : Nat) : Nat :=
  let w := if code < 0x80 then
      (match v.c.prof.exts[code / 2]? with
       | some e => (extract v.c v.r e).getD 0
       | none => 0)
    else if code < 0xA0 then v.meta_ ((code - 0x80) / 2)
    else if code < 0xC8 then v.hdr ((code - 0xA0) / 2) else 0
  w / 65536 ^ (code % 2) % 65536

/-- The 640-bit key of a key profile (03 R95). -/
def HVec.key (v : HVec) (sels : List Nat) : BitVec 640 :=
  BitVec.ofNat 640 (((List.range 40).map (fun k => v.chunk (sels.getD k 0xFF) * 65536 ^ k)).foldl (· + ·) 0)

/-! ### Lengths and policies -/

/-- The declared length (05 R162): of a layer-0 IP header. -/
def HVec.declared (v : HVec) : Option Nat :=
  match v.r.hdrs.find? (fun h => h.layer == 0 && (h.typ == 0x09 || h.typ == 0x0A)) with
  | none => none
  | some h =>
    let n := if h.typ = 0x09 then h.off + v.c.at_ (h.off + 2) 2 + 4 else h.off + 40 + v.c.at_ (h.off + 4) 2 + 4
    some (max 64 n)

/-- The policy of a flagged frame: 0 drop, 1 punt, 2 L2 only; the stronger of two (03 R84). -/
def HVec.policy (v : HVec) : Nat :=
  if v.trunc && v.conf then min v.pcfg.truncPol v.pcfg.confPol else if v.trunc then v.pcfg.truncPol else v.pcfg.confPol

/-- PRS_LAST_FLAGGED (03 R107). -/
def HVec.lastFlagged (v : HVec) : Word :=
  reg [at_ 29 3 (v.port % 8), flag 28 v.trunc, flag 27 v.conf, at_ 23 4 v.r.reason, at_ 17 6 v.r.stopTyp,
       at_ 8 9 v.r.stopOff, at_ 3 5 v.r.hdrs.length]

end Sys2Proof.Machine
end

