-- ==== Sys2Proof/Machine/Forward.lean ====
section
/-! DEFINITION. Sys2Proof/Machine/Forward.lean: table records and keys, and the forwarding lookup (04 R111, R117, R118; 12 R396
to R399). -/

namespace Sys2Proof.Machine

/-! ### Tables -/

/-- The fixed entry size of a table; a group record (0x06) varies (12 R396). -/
def entSize (tab : Nat) : Nat :=
  match tab with
  | 1 => 32 | 2 => 16 | 3 => 24 | 4 => 32 | 5 => 36 | 7 => 16 | 8 => 32 | 9 => 64 | 0x0A => 144 | 0x0B => 32 | 0x0C => 48
  | 0x0D => 16 | 0x0E => 32 | 0x0F => 200 | 0x10 => 48 | _ => 0

/-- The key fields of a record (12 R396). -/
def keyOf (tab : Nat) (r : List Byte) : List Byte :=
  match tab with
  | 1 => sliceOf r 0 8
  | 2 => sliceOf r 0 5 ++ sliceOf r 6 2
  | 3 => sliceOf r 0 9 ++ sliceOf r 10 2
  | 4 => sliceOf r 0 18
  | 5 => sliceOf r 0 4
  | 6 => sliceOf r 0 4
  | 7 => sliceOf r 0 1
  | 8 => sliceOf r 0 24
  | 9 => sliceOf r 0 4
  | 0x0A => sliceOf r 0 2
  | 0x0B => sliceOf r 0 4
  | 0x0C => sliceOf r 0 1
  | 0x0D => sliceOf r 0 2
  | 0x0E => sliceOf r 4 14
  | 0x0F => sliceOf r 0 1 ++ sliceOf r 2 2
  | _ => sliceOf r 0 2

/-- The tables as one shed sees them for one epoch. -/
abbrev View := Nat → List Ent

/-- The view of shed `s` on the tables of a bank: the replica for the ACTIVE bank, the kept tables for a RETIRING one (04 R114,
R115). -/
def viewOf (x : Mod) (s : Nat) (bank : Option Nat) : View :=
  fun t => if bank = x.tt.active then x.tbl.ents.get (s, t) else x.tbl.old.get t

/-- The entry with a key. -/
def View.find (v : View) (tab : Nat) (key : List Byte) : Option Ent := (v tab).find? (fun e => e.key == key)

/-- The entry with an index as key of `n` bytes. -/
def View.index (v : View) (tab n i : Nat) : Option Ent := v.find tab (leBytes n i)

/-- The key of an L2 entry. -/
def l2Key (fid : Nat) (mac : Nat) : List Byte := beBytes 6 mac ++ leBytes 2 fid

/-- The L2 search. -/
def View.l2 (v : View) (fid mac : Nat) : Option Ent := v.find 1 (l2Key fid mac)

/-- Whether a MAC address is a router MAC for a VID; without a VID only any-VID entries match (04 R117, 12 R398). -/
def View.router (v : View) (vid : Option Nat) (mac : Nat) : Bool :=
  (v 7).any (fun e => bitOf (leAt e.dat 1 1) 0 && beAt e.dat 4 6 == mac &&
    (bitOf (leAt e.dat 1 1) 1 || vid == some (leAt e.dat 2 2 % 4096)))

/-- The longer prefix of two route entries; the offset of LENGTH in a record is `o`. -/
def longer (o : Nat) (a : Option Ent) (b : Ent) : Option Ent :=
  match a with
  | none => some b
  | some e => if leAt e.dat o 1 < leAt b.dat o 1 then some b else some e

/-- The longest match of an IPv4 address in a VRF (04 R117, R122). -/
def View.lpm4 (v : View) (vrf addr : Nat) : Option Ent :=
  ((v 2).filter (fun e => leAt e.dat 6 2 % 4096 == vrf &&
    beAt e.dat 0 4 / 2 ^ (32 - leAt e.dat 4 1) == addr / 2 ^ (32 - leAt e.dat 4 1))).foldl (longer 4) none

/-- The longest match of the upper 64 bits of an IPv6 address in a VRF. -/
def View.lpm6 (v : View) (vrf hi : Nat) : Option Ent :=
  ((v 3).filter (fun e => leAt e.dat 0x0A 2 % 4096 == vrf &&
    beAt e.dat 0 8 / 2 ^ (64 - leAt e.dat 8 1) == hi / 2 ^ (64 - leAt e.dat 8 1))).foldl (longer 8) none

/-- The IPv6 host search. -/
def View.host6 (v : View) (vrf : Nat) (addr : List Byte) : Option Ent := v.find 4 (addr ++ leBytes 2 vrf)

/-! ### The lookup -/

/-- What the lookup comes to. -/
inductive FDest where
  | drop
  | punt (source : Nat)
  | port (p : Nat)
  | mcast (g : Nat) (flood : Bool)
  deriving DecidableEq, Repr

/-- The forwarding result (04 R117): destination, FID and VRF, the IP header it was routed on, the next hop, named counters, L2
and next-hop punt copies by source of 13 R427, the rewrites, the deciding entry, the LKP counters of misses, the source keys (FID,
MAC) that step 1 searches for each Ethernet header looked up. -/
structure Fwd where
  dest     : FDest := .drop
  fid      : Nat := 0
  vrf      : Nat := 0
  ip       : Option HdrEnt := none
  nextHop  : Option Nat := none
  counters : List Nat := []
  copies   : List Nat := []
  decap    : Option Nat := none
  da       : Option Nat := none
  sa       : Option Nat := none
  vid      : Option Nat := none
  decTtl   : Bool := false
  encap    : Option (List Byte) := none
  underlay : Option (List Byte × List Byte × Option Nat) := none
  decider  : Option (Nat × Nat) := none
  misses   : List Nat := []
  toRouter : Bool := false
  sources  : List (Nat × BitVec 48) := []
  deriving DecidableEq, Repr

/-- A COUNTER field: index and valid bit. -/
def ctrField (dat : List Byte) (off : Nat) : List Nat :=
  let w := leAt dat off 4
  if bitOf w 31 then [bitsOf w 19 0] else []

/-- Member (h × n) >> 32 of a group record (04 R118). -/
def member (dat : List Byte) (h : Nat) : Option Nat :=
  let n := leAt dat 6 2
  if n = 0 then none else some (leAt dat (8 + 4 * (h * n / 2 ^ 32)) 4)

/-- A LAG group to one port (04 R118). DESIGN CHOICE (log 63): the record's KIND is not looked at, so a DEST of kind 1 that names
an ECMP group takes that group's member as a port. -/
def lagPort (v : View) (g h : Nat) : Option Nat :=
  match v.index 6 4 g with
  | some e => (member e.dat h).map (· % 2048)
  | none => none

/-- A destination in DEST form: 0 port, 1 LAG, 2 multicast, 3 drop. A group with no member drops, LKP_L3_MISS. -/
def destOf (v : View) (hv : HVec) (dest : Nat) (f : Fwd) : Fwd :=
  let i := bitsOf dest 29 0
  match dest / 2 ^ 30 with
  | 0 => { f with dest := .port i }
  | 1 =>
    match lagPort v i hv.hashB.toNat with
    | some p => { f with dest := .port p }
    | none => { f with dest := .drop, misses := f.misses ++ [12] }
  | 2 => { f with dest := .mcast i false }
  | _ => { f with dest := .drop }

/-- The source MAC of a router MAC index. -/
def rmac (v : View) (i : Nat) : Nat :=
  match v.find 7 [BitVec.ofNat 8 i] with
  | some e => beAt e.dat 4 6
  | none => 0

/-- A next hop gives port, rewrites and tunnel (04 R117 step 6, R137). Through a tunnel, the underlay next hop gives the port
and the outer Ethernet header (12 R399; log 31). -/
def nextHopOf (v : View) (hv : HVec) (i : Nat) (f : Fwd) : Fwd :=
  match v.index 5 4 i with
  | none => { f with dest := .drop }
  | some e =>
    let d := e.dat
    let fl := leAt d 15 1
    let f1 := { f with
      nextHop := some i
      counters := f.counters ++ ctrField d 20
      copies := if bitOf fl 2 then f.copies ++ [7] else f.copies
      da := some (beAt d 8 6)
      sa := some (rmac v (leAt d 14 1))
      vid := if bitOf fl 1 then some (leAt d 16 2 % 4096) else none
      decTtl := bitOf fl 0 }
    let t := leAt d 18 2
    if bitOf t 14 then
      match v.index 9 4 (t % 2 ^ 14) with
      | none => { f1 with dest := .drop }
      | some en =>
        match v.index 5 4 (leAt en.dat 0x2C 4 % 2 ^ 18) with
        | none => { f1 with dest := .drop }
        | some u =>
          destOf v hv (leAt u.dat 4 4) { f1 with
            encap := some en.dat
            underlay := some (sliceOf u.dat 8 6, beBytes 6 (rmac v (leAt u.dat 14 1)),
              if bitOf (leAt u.dat 15 1) 1 then some (leAt u.dat 16 2 % 4096) else none) }
    else destOf v hv (leAt d 4 4) f1

/-- A group names one member; ECMP by HASH_A, LAG by HASH_B (04 R118). -/
def groupOf (v : View) (hv : HVec) (g : Nat) (f : Fwd) : Fwd :=
  match v.index 6 4 g with
  | none => { f with dest := .drop }
  | some e =>
    if leAt e.dat 4 1 = 1 then
      match member e.dat hv.hashB.toNat with
      | some p => { f with dest := .port (p % 2048) }
      | none => { f with dest := .drop, misses := f.misses ++ [12] }
    else
      match member e.dat hv.hashA.toNat with
      | some i => nextHopOf v hv (i % 2 ^ 18) f
      | none => { f with dest := .drop, misses := f.misses ++ [12] }

/-- A RESULT field: 0 next hop, 1 group, 2 drop, 3 punt (04 R136). -/
def resultOf (v : View) (hv : HVec) (w : Nat) (f : Fwd) : Fwd :=
  let i := bitsOf w 29 0
  match w / 2 ^ 30 with
  | 0 => nextHopOf v hv i f
  | 1 => groupOf v hv i f
  | 2 => { f with dest := .drop }
  | _ => { f with dest := .punt 5 }

/-- The route lookup of an IP header in a VRF (04 R117 steps 4 and 5). -/
def routeOn (v : View) (hv : HVec) (h : HdrEnt) (vrf : Nat) (f : Fwd) : Fwd :=
  let f1 := { f with ip := some h, vrf := vrf }
  let miss : Fwd := { f1 with dest := if hv.c.cfg.vrfPunt.get vrf then .punt 5 else .drop, misses := f1.misses ++ [12] }
  if h.typ = 0x09 then
    match v.lpm4 vrf (hv.c.at_ (h.off + 16) 4) with
    | none => miss
    | some e => resultOf v hv (leAt e.dat 8 4)
        { f1 with decider := some (2, e.pos), counters := f1.counters ++ ctrField e.dat 12 }
  else
    match v.host6 vrf (sliceOf hv.c.bytes (h.off + 24) 16) with
    | some e => resultOf v hv (leAt e.dat 0x14 4)
        { f1 with decider := some (4, e.pos), counters := f1.counters ++ ctrField e.dat 0x18 }
    | none =>
      match v.lpm6 vrf (hv.c.at_ (h.off + 24) 8) with
      | none => miss
      | some e => resultOf v hv (leAt e.dat 12 4)
          { f1 with decider := some (3, e.pos), counters := f1.counters ++ ctrField e.dat 16 }

/-- The VRF of a FID, or the fallback (04 R111, R117). -/
def vrfOf (cfg : TtContent) (fid : Nat) (fallback : Option Nat) : Nat :=
  match (cfg.fid fid).vrf with
  | some v => v
  | none => fallback.getD 0

/-- The tunnel that follows an IP header: type, VNI and the index of the inner header (04 R117 step 3, 12 R398). DESIGN CHOICE
(log 63): a tunnel whose inner header is neither Ethernet nor IP is not removed, and the frame is routed on its outer header. -/
def tunnelAt (hv : HVec) (i : Nat) : Option (Nat × Nat × Nat) :=
  let t (k : Nat) : Nat := match hv.r.hdrs[i + k]? with
    | some h => h.typ
    | none => 0
  let off (k : Nat) : Nat := match hv.r.hdrs[i + k]? with
    | some h => h.off
    | none => 0
  let inner (k : Nat) (ok : List Nat) (typ vni : Nat) : Option (Nat × Nat × Nat) :=
    if ok.contains (t k) then some (typ, vni, i + k) else none
  if t 1 = 0x14 && t 2 = 0x15 then inner 3 [0x01] 0 (hv.c.at_ (off 2 + 4) 3)
  else if t 1 = 0x14 && t 2 = 0x16 then inner 3 [0x01, 0x09, 0x0A] 1 (hv.c.at_ (off 2 + 4) 3)
  else if t 1 = 0x17 then inner 2 [0x01, 0x09, 0x0A] 2 0
  else inner 1 [0x09, 0x0A] 3 0

/-- The tunnel termination search (12 R398). -/
def terminate (v : View) (hv : HVec) (h : HdrEnt) (typ vni vrf : Nat) : Option Ent :=
  let dst := if h.typ = 0x09 then sliceOf hv.c.bytes (h.off + 16) 4 ++ zeros 12 else sliceOf hv.c.bytes (h.off + 24) 16
  v.find 8 (leBytes 2 vrf ++ [BitVec.ofNat 8 typ, if h.typ = 0x09 then 4 else 6] ++ leBytes 4 vni ++ dst)

/-- The lookup from the Ethernet header at index `i` of the header vector, in a FID (04 R117). `n` is above the number of headers
left, so that it ends no lookup. -/
def lookEth (v : View) (hv : HVec) (l2only : Bool) : Nat → Nat → Nat → Option Nat → Option Nat → Fwd → Fwd
  | 0, _, _, _, _, f => { f with dest := .drop }
  | n + 1, i, fid, vid, vrfFall, f =>
    let off := match hv.r.hdrs[i]? with
      | some h => h.off
      | none => 0
    let tags := ((hv.r.hdrs.drop (i + 1)).takeWhile (fun h => h.typ == 0x02 || h.typ == 0x03)).length
    let j := i + 1 + tags
    let da := hv.c.at_ off 6
    let f1 := { f with fid := fid, vrf := vrfOf hv.c.cfg fid vrfFall
                       sources := f.sources ++ [(fid, BitVec.ofNat 48 (hv.c.at_ (off + 6) 6))] }
    let ip := match hv.r.hdrs[j]? with
      | some h => if h.typ = 0x09 || h.typ = 0x0A then some h else none
      | none => none
    let isRouter := v.router vid da
    match (if isRouter && !l2only then ip else none) with
    | some h =>
      let vrf := vrfOf hv.c.cfg fid vrfFall
      match tunnelAt hv j with
      | none => routeOn v hv h vrf f1
      | some (typ, vni, k) =>
        match terminate v hv h typ vni vrf, hv.r.hdrs[k]? with
        | some e, some inner =>
          let f2 := { f1 with decap := some inner.off, counters := f1.counters ++ ctrField e.dat 0x1C,
                              decider := some (8, e.pos) }
          if inner.typ = 0x01 then
            let itag := match hv.r.hdrs[k + 1]? with
              | some t => if t.typ = 0x02 || t.typ = 0x03 then some (hv.c.at_ t.off 2 % 4096) else none
              | none => none
            lookEth v hv l2only n k (leAt e.dat 0x1A 2 % 2 ^ 14) itag (some (leAt e.dat 0 2 % 4096)) f2
          else routeOn v hv inner (leAt e.dat 0x18 2 % 4096) f2
        | _, _ => routeOn v hv h vrf f1
    | none =>
      let f1 := { f1 with toRouter := isRouter && l2only && ip.isSome }
      match v.l2 fid da with
      | some e =>
        destOf v hv (leAt e.dat 8 4) { f1 with
          decider := some (1, e.pos)
          counters := f1.counters ++ (if bitOf (leAt e.dat 0x0C 2) 3 then ctrField e.dat 0x14 else [])
          copies := if bitOf (leAt e.dat 0x0C 2) 2 then f1.copies ++ [6] else f1.copies }
      | none =>
        if (hv.c.cfg.fid fid).missDrop then { f1 with dest := .drop, misses := f1.misses ++ [14] }
        else { f1 with dest := .mcast (hv.c.cfg.fid fid).flood true, misses := f1.misses ++ [11] }

/-- The forwarding lookup of a frame. -/
def lookup (v : View) (hv : HVec) (l2only : Bool) : Fwd :=
  lookEth v hv l2only 17 0 (hv.c.cfg.fidMap.get hv.vid) (some hv.vid) hv.pcfg.vrf {}

/-! ### Multicast groups (06 R217, 12 R399) -/

/-- The ports of a multicast group. -/
def groupPorts (dat : List Byte) : List Nat :=
  (List.range 1024).filter (fun p => bitOf (leAt dat (16 + p / 8) 1) (p % 8))
    ++ (List.range (min 4 (leAt dat 3 1))).map (fun i => leAt dat (4 + 2 * i) 2 % 2048)

/-- The membership of a group for a frame of an ingress port: the ingress port is removed unless the group allows hairpin. -/
def resolveGroup (v : View) (g ingress : Nat) : List Nat :=
  match v.index 0x0A 2 g with
  | none => []
  | some e => if bitOf (leAt e.dat 2 1) 0 then groupPorts e.dat else (groupPorts e.dat).filter (· != ingress)

end Sys2Proof.Machine
end

