-- ==== Sys2Proof/Machine/Edit.lean ====
section
/-! DEFINITION. Sys2Proof/Machine/Edit.lean: the frame editor: what an action snapshot makes of a frame's bytes (03 R99, 04 R137,
05 R153, 07 R252). Frames here are without their FCS. Tunnel headers have their IETF formats (log 20). -/

namespace Sys2Proof.Machine

/-- Whether a type field is a tag's: 0x8100, 0x88A8 or the parse profile's programmable TPID (03 R78). -/
def isTpid (tp : Option Nat) (t : Nat) : Bool := t == 0x8100 || t == 0x88A8 || tp == some t

/-- How many tags follow the addresses; `n` bounds the count. -/
def tagRun (tp : Option Nat) : Nat → List Byte → Nat
  | 0, _ => 0
  | n + 1, l => if isTpid tp (beAt l 0 2) then 1 + tagRun tp n (l.drop 4) else 0

/-- The number of tags of a frame. -/
def tagCount (tp : Option Nat) (l : List Byte) : Nat := tagRun tp 16 (l.drop 12)

/-- The bytes with `v` in the place of those at `off`. -/
def splice (l : List Byte) (off : Nat) (v : List Byte) : List Byte := l.take off ++ v ++ l.drop (off + v.length)

/-- The outermost IP header that directly follows the Ethernet header and tags: offset and whether it is IPv6. -/
def ipAt (tp : Option Nat) (l : List Byte) : Option (Nat × Bool) :=
  let o := 12 + 4 * tagCount tp l
  let t := beAt l o 2
  if t = 0x0800 then some (o + 2, false) else if t = 0x86DD then some (o + 2, true) else none

/-- A 16-bit word of an IPv4 header is written and its checksum updated incrementally (05 R153). -/
def setIp4Word (l : List Byte) (ip off v : Nat) : List Byte :=
  let old := beAt l (ip + off) 2
  let s := (65535 - beAt l (ip + 10) 2) + (65535 - old) + v
  let a := s % 65536 + s / 65536
  let sum := 65535 - (a % 65536 + a / 65536)
  splice (splice l (ip + off) (beBytes 2 v)) (ip + 10) (beBytes 2 sum)

/-- The traffic class byte of an IP header is changed by `f`. -/
def mapTos (tp : Option Nat) (f : Nat → Nat) (l : List Byte) : List Byte :=
  match ipAt tp l with
  | none => l
  | some (o, false) => setIp4Word l o 0 (beAt l o 1 * 256 + f (beAt l (o + 1) 1))
  | some (o, true) =>
    let w := beAt l o 2
    splice l o (beBytes 2 (w / 4096 * 4096 + f (w / 16 % 256) * 16 + w % 16))

/-- DSCP is written. -/
def setDscp (tp : Option Nat) (v : Nat) (l : List Byte) : List Byte := mapTos tp (fun t => v % 64 * 4 + t % 4) l

/-- ECN is written. -/
def setEcn (tp : Option Nat) (v : Nat) (l : List Byte) : List Byte := mapTos tp (fun t => t / 4 * 4 + v % 4) l

/-- The ECN field of the outermost IP header, 0 without one. -/
def ecnOf (tp : Option Nat) (l : List Byte) : Nat :=
  match ipAt tp l with
  | none => 0
  | some (o, false) => beAt l (o + 1) 1 % 4
  | some (o, true) => beAt l o 2 / 16 % 4

/-- The DSCP of the outermost IP header, 0 without one. -/
def dscpOf (tp : Option Nat) (l : List Byte) : Nat :=
  match ipAt tp l with
  | none => 0
  | some (o, false) => beAt l (o + 1) 1 / 4
  | some (o, true) => beAt l o 2 / 64 % 64

/-- TTL or hop limit is decremented (none) or set. -/
def setTtl (tp : Option Nat) (v : Option Nat) (l : List Byte) : List Byte :=
  match ipAt tp l with
  | none => l
  | some (o, false) =>
    let t := beAt l (o + 8) 1
    setIp4Word l o 8 ((v.getD (t - 1)) % 256 * 256 + beAt l (o + 9) 1)
  | some (o, true) => splice l (o + 7) [BitVec.ofNat 8 (v.getD (beAt l (o + 7) 1 - 1))]

/-- Fields of the outer tag are written; an untagged frame has none. -/
def setTag (tp : Option Nat) (vid pcp dei : Option Nat) (l : List Byte) : List Byte :=
  if tagCount tp l = 0 then l
  else
    let t := beAt l 14 2
    splice l 14 (beBytes 2 (pcp.getD (t / 8192) % 8 * 8192 + dei.getD (t / 4096 % 2) % 2 * 4096 + vid.getD (t % 4096) % 4096))

/-- Up to `n` tags are popped. -/
def popTags (tp : Option Nat) (n : Nat) (l : List Byte) : List Byte := l.take 12 ++ l.drop (12 + 4 * min n (tagCount tp l))

/-- The type that follows the labels' end, from the payload's first nibble (03 R79). -/
def typeOfPayload (l : List Byte) : Nat := if beAt l 0 1 / 16 = 6 then 0x86DD else 0x0800

/-- Up to `n` MPLS labels are popped; past the bottom of stack the type follows the payload. -/
def popLabels (tp : Option Nat) : Nat → List Byte → List Byte
  | 0, l => l
  | n + 1, l =>
    let o := 12 + 4 * tagCount tp l
    if beAt l o 2 = 0x8847 || beAt l o 2 = 0x8848 then
      let rest := l.drop (o + 6)
      if bitOf (beAt l (o + 4) 1) 0 then l.take o ++ beBytes 2 (typeOfPayload rest) ++ rest
      else popLabels tp n (l.take (o + 2) ++ rest)
    else l

/-- Labels are pushed under the tags. -/
def pushLabels (tp : Option Nat) (labels : List Byte) (l : List Byte) : List Byte :=
  if labels = [] then l
  else
    let o := 12 + 4 * tagCount tp l
    let rest := l.drop (o + 2)
    l.take o ++ beBytes 2 0x8847 ++ labels ++ rest

/-- The VID of a next hop with FLAGS[1]: an untagged frame gains a C-tag (04 R137). -/
def writeNhVid (a : Acts) (l : List Byte) : List Byte :=
  match a.nhVid with
  | none => l
  | some v =>
    if tagCount a.tpid l = 0 then
      l.take 12 ++ beBytes 2 0x8100 ++ beBytes 2 (a.pcp.getD 0 % 8 * 8192 + a.dei.getD 0 % 2 * 4096 + v % 4096) ++ l.drop 12
    else setTag a.tpid (some v) none none l

/-- An IPv4 header with its checksum. -/
def ip4Header (tos len ttl proto : Nat) (src dst : List Byte) : List Byte :=
  let h (sum : Nat) := [0x45, BitVec.ofNat 8 tos] ++ beBytes 2 len ++ zeros 4 ++ [BitVec.ofNat 8 ttl, BitVec.ofNat 8 proto]
    ++ beBytes 2 sum ++ fit 4 src ++ fit 4 dst
  h (65535 - onesSum (h 0))

/-- An IPv6 header. -/
def ip6Header (tos len ttl next : Nat) (src dst : List Byte) : List Byte :=
  beBytes 4 (6 * 2 ^ 28 + tos * 2 ^ 20) ++ beBytes 2 len ++ [BitVec.ofNat 8 next, BitVec.ofNat 8 ttl] ++ fit 16 src ++ fit 16 dst

/-- A frame inside a tunnel (12 R398, R399): the outer header copies the ECN field (07 R252). -/
def encapsulate (tp : Option Nat) (en : List Byte) (und : List Byte × List Byte × Option Nat) (hashA : BitVec 32) (l : List Byte) : List Byte :=
  let typ := leAt en 4 1
  let fl := leAt en 6 1
  let inner := match ipAt tp l with
    | some (o, _) => l.drop o
    | none => l
  let innerType := match ipAt tp l with
    | some (_, v6) => if v6 then 0x86DD else 0x0800
    | none => 0x6558
  let vni := beBytes 3 (leAt en 0x28 4)
  let udp (body : List Byte) : List Byte :=
    beBytes 2 (if bitOf fl 1 then hashA.toNat % 65536 else 0) ++ beBytes 2 (leAt en 0x30 2) ++ beBytes 2 (8 + body.length)
      ++ zeros 2 ++ body
  let pay := if typ = 0 then udp ([0x08, 0, 0, 0] ++ vni ++ [0] ++ l)
    else if typ = 1 then udp ([0, 0, 0x65, 0x58] ++ vni ++ [0] ++ l)
    else if typ = 2 then [0, 0] ++ beBytes 2 innerType ++ inner
    else inner
  let proto := if typ ≤ 1 then 17 else if typ = 2 then 47 else if innerType = 0x86DD then 41 else 4
  let tos := (if bitOf fl 0 then dscpOf tp l else leAt en 0x32 1 % 64) * 4 + ecnOf tp l
  let eth := fit 6 und.1 ++ fit 6 und.2.1 ++ (match und.2.2 with
    | some v => beBytes 2 0x8100 ++ beBytes 2 v
    | none => [])
  if leAt en 5 1 = 6 then
    eth ++ beBytes 2 0x86DD ++ ip6Header tos pay.length (leAt en 7 1) proto (sliceOf en 8 16) (sliceOf en 0x18 16) ++ pay
  else
    eth ++ beBytes 2 0x0800 ++ ip4Header tos (20 + pay.length) (leAt en 7 1) proto (sliceOf en 8 4) (sliceOf en 0x18 4) ++ pay

/-- A terminated tunnel is removed; an inner IP packet gets an Ethernet header of its own. -/
def decapsulate (a : Acts) (l : List Byte) : List Byte :=
  match a.decap with
  | none => l
  | some off =>
    if a.decapIp then l.take 12 ++ beBytes 2 (typeOfPayload (l.drop off)) ++ l.drop off else l.drop off

/-- An R-TAG is written after the last outer tag (11 R363). -/
def pushRtag (tp : Option Nat) (r : Option (BitVec 16)) (l : List Byte) : List Byte :=
  match r with
  | none => l
  | some q =>
    let o := 12 + 4 * tagCount tp l
    l.take o ++ beBytes 2 0xF1C1 ++ zeros 2 ++ beBytes 2 q.toNat ++ l.drop o

/-- An R-TAG after the outer tags is removed (11 R367). -/
def popRtag (tp : Option Nat) (l : List Byte) : List Byte :=
  let o := 12 + 4 * tagCount tp l
  if beAt l o 2 = 0xF1C1 then l.take o ++ l.drop (o + 6) else l

/-- The bytes that leave after the editor, without FCS. -/
def editFrame (a : Acts) (bytes : List Byte) : List Byte :=
  let l0 := decapsulate a bytes
  let tp := a.tpid
  let l1 := pushLabels tp a.pushLab (popLabels tp a.popLab l0)
  let l2 := popTags tp a.popTags l1
  let l3 := l2.take 12 ++ a.pushTags ++ l2.drop 12
  let l4 := match a.da with
    | some v => splice l3 0 (beBytes 6 v)
    | none => l3
  let l5 := match a.sa with
    | some v => splice l4 6 (beBytes 6 v)
    | none => l4
  let l6 := setTag tp a.vid a.pcp a.dei l5
  let l7 := writeNhVid a l6
  let l8 := match a.dscp with
    | some v => setDscp tp v l7
    | none => l7
  let l9 := match a.ecn with
    | some v => setEcn tp v l8
    | none => l8
  let l10 := match a.ttl with
    | some v => setTtl tp v l9
    | none => l9
  let l11 := pushRtag tp a.rtag l10
  match a.encap, a.underlay with
  | some en, some u => encapsulate tp en u a.hashA l11
  | _, _ => l11

/-! ### Recipes (05 R152, R153) -/

/-- Whether the edits are those a recipe can express. -/
def Acts.recipeOk (a : Acts) (tagged : Bool) : Bool :=
  a.ecn.isNone && a.popTags == 0 && a.pushTags == [] && a.popLab == 0 && a.pushLab == [] && a.decap.isNone && a.encap.isNone && a.rtag.isNone
    && (a.ttl.isNone || a.ttl == some none) && (a.nhVid.isNone || tagged)

/-- The recipe fields, a next hop's VID standing for VID. -/
def Acts.recipe (a : Acts) : List (Option Nat) :=
  [a.da, a.sa, (match a.nhVid with | some v => some v | none => a.vid), a.pcp, a.dei, a.dscp, a.ttl.map (fun _ => 0)]

/-- RECIPE_FLAGS. -/
def Acts.recipeFlags (a : Acts) : Nat :=
  ((List.range 7).map (fun i => flag i ((a.recipe.getD i none).isSome))).foldl (· + ·) 0

end Sys2Proof.Machine
end

