-- ==== Sys2Proof/Machine/Clock.lean ====
section
/-! DEFINITION. Sys2Proof/Machine/Clock.lean: the time unit as a function of the instant, and the stamps taken from it (09 R292
to R296, 02 R63). -/

namespace Sys2Proof.Machine

/-- A time of day in units of 2^−16 ns since 0 s. -/
def Tod.units (t : Tod) : Int := ((t.sec.toNat * 1000000000 + t.ns.toNat) * 65536 + t.frac.toNat : Nat)

/-- The time of day that is `u` units of 2^−16 ns after 0 s; SEC wraps from 2^48 − 1 to 0 (09 R292). -/
def todOf (u : Int) : Tod :=
  let n := (u % ((2 ^ 48 * 1000000000 * 65536 : Nat) : Int)).toNat
  { sec := BitVec.ofNat 48 (n / (1000000000 * 65536)), ns := BitVec.ofNat 30 (n / 65536 % 1000000000),
    frac := BitVec.ofNat 16 (n % 65536) }

/-- What the unit gains in `t` picoseconds at a frequency adjustment in 2^−8 ppb, in units of 2^−16 ns (09 R293, R303). -/
def timeGain (freq : BitVec 32) (t : Nat) : Int :=
  (t : Int) * 65536 * (256000000000 + freq.toInt) / (1000 * 256000000000)

/-- The time unit's reading at an instant, in units of 2^−16 ns. -/
def unitsAt (x : Mod) (t : Nat) : Int := x.tim.base.units + timeGain x.tim.freq (t - x.tim.at_)

/-- The time of day now. -/
def todNow (x : Mod) : Tod := todOf (unitsAt x x.now)

/-- The fixed latencies of a side by lane rate code, in picoseconds: (receive, transmit) (02 R38, R63; log 33). -/
def sideLatency (code : Nat) : Nat × Nat :=
  if code = 3 then (55000, 55000) else if code = 2 then (95000, 90000) else if code = 1 then (170000, 160000) else (0, 0)

/-- The adjustments of a port in 2^−16 ns: the last TIME_PORT, or the timetable's (09 R296). -/
def portAdj (x : Mod) (p : Nat) : Int × Int :=
  match x.dax.ptpPorts.get p with
  | some k => (k.inAdj, k.egAdj)
  | none => ((portCfg x p).inAdj, (portCfg x p).egAdj)

/-- Whole picoseconds in units of 2^−16 ns. -/
def psUnits (t : Nat) : Int := (t * 65536 / 1000 : Nat)

/-- The receive stamp of a frame whose first byte leaves decode now. -/
def rxStamp (x : Mod) (p : Nat) : Int :=
  unitsAt x x.now - psUnits (sideLatency ((actCfg x).rates.get (stallOf p))).1 + (portAdj x p).1

/-- The transmit stamp of a frame whose first byte enters encode at `t`. -/
def txStamp (x : Mod) (p t : Nat) : Int :=
  unitsAt x t + psUnits (sideLatency ((actCfg x).rates.get (stallOf p))).2 + (portAdj x p).2

/-- A stamp as (seconds, nanoseconds with quarters in [31:30]). -/
def stampWords (u : Int) : Nat × Nat :=
  let t := todOf u
  (t.sec.toNat, t.ns.toNat + t.frac.toNat / 16384 * 2 ^ 30)

end Sys2Proof.Machine
end

