-- ==== Sys2Proof/Machine/Steward.lean ====
section
/-! DEFINITION. Sys2Proof/Machine/Steward.lean: which module is steward and the actions that are the steward's alone (11 R360, R361). No
row of the opcode table brings a partner's decision or a partner's request, so only this module's side is here (log 77). -/

namespace Sys2Proof.Machine

/-- The pairing settings of the ACTIVE timetable. -/
def pairOf_ (x : Mod) : PairCfg := (actCfg x).pair

/-- Whether this module is the steward (11 R360, R361, R371). -/
def isSteward (x : Mod) : Bool :=
  x.pwr.holdup.isNone &&
  match x.mode.mode with
  | .paired => x.cpl.holder && decide (x.now < x.cpl.ownEnd)
  | .standalone => (pairOf_ x).alone && (if x.cpl.everPaired then (match x.cpl.stewardFrom with
      | some t => decide (t ≤ x.now)
      | none => false) else true)
  | _ => false

/-- Whether the partner is the steward in this module's view: its heartbeats claim the reins, and its lease has not ended here. -/
def partnerSteward (x : Mod) : Bool :=
  x.mode.mode == .paired && !x.cpl.holder && x.cpl.partner.any (·.holder) && x.cpl.viewEnd.any (fun t => decide (x.now < t))

/-- Whether no module of the pair is steward in this module's view. DEDUCED (log 77): a module whose timetable enables no pairing belongs
to no pair. -/
def stewardLess (x : Mod) : Bool := (pairOf_ x).enabled && !isSteward x && !partnerSteward x

/-- The lowest working shed (04 R138). -/
def lowestShed (x : Mod) : Nat := ((List.range 8).find? (shedWorks x)).getD 0

/-! ### The PTP grandmaster (09 R297) -/

/-- Whether an instance may act as grandmaster: in Paired the steward's alone, with no steward none, in Standalone where the timetable
allows it, and never in hold-up (09 R307). -/
def mayBeGrandmaster (x : Mod) (i : Nat) : Bool :=
  (x.dax.ptp.get i).enable && (x.dax.ptp.get i).gmCap && x.pwr.holdup.isNone && (match x.mode.mode with
    | .paired => isSteward x
    | .standalone => (actCfg x).gmAlone && !stewardLess x
    | _ => false)

/-- Whether an instance acts as grandmaster: where it may, the best master clock algorithm of the firmware decides (log 15). -/
def grandmaster (x : Mod) (i : Nat) : Bool := mayBeGrandmaster x i && Config.bestMaster i x.now

/-! ### Twin LAG groups -/

/-- The line ports of a LAG group's record, as the lowest working shed's replica holds it. -/
def lagMembers (x : Mod) (g : Nat) : List Nat :=
  match (viewOf x (lowestShed x) x.tt.active).index 6 4 g with
  | some e => (List.range (leAt e.dat 6 2)).map (fun i => leAt e.dat (8 + 4 * i) 4 % 2048)
  | none => []

/-- The steward decides the aggregation of a twin group anew and sends it over the coupler: the actor, and of the members with link the
ones that the protocol enables (log 15). -/
def decideLag (x : Mod) (g : Nat) : Mod :=
  let on := (lagMembers x g).filter (fun p => (portSt x p).up && Config.lacpEnables g p x.now)
  let d : Nat × List Nat := (Config.lacpActor g x.now, on)
  let x1 := { x with cpl := { x.cpl with twins := x.cpl.twins.set g d } }
  if x.cpl.link && x.mode.mode == .paired then emit (.lagDecision g d.1 d.2) x1 else x1

/-- A line port has come up or gone down: the steward decides the twin groups it belongs to; any other module's keep their last state. -/
def lagsFollow (p : Nat) (x : Mod) : Mod :=
  if isSteward x then ((pairOf_ x).twinLag.filter (fun g => (lagMembers x g).contains p)).foldl decideLag x else x

/-! ### Shared addresses -/

/-- The address that a frame asks for: an ARP request's target, or that of a neighbour solicitation. PRESUMED (log 77): their layouts are
the protocols'. -/
def askedFor (hv : HVec) (l : List Byte) : Option (List Byte) :=
  match hv.r.hdrs.find? (fun h => h.layer == 0 && (h.typ == 0x07 || h.typ == 0x12)) with
  | some h =>
    if h.typ = 0x07 then (if beAt l (h.off + 6) 2 = 1 then some (sliceOf l (h.off + 24) 4) else none)
    else if beAt l h.off 1 = 135 then some (sliceOf l (h.off + 8) 16) else none
  | none => none

/-- A whole good frame that asks for a shared address: the steward answers it on the port it came on; another module sends the request
to the steward over the coupler; with no steward it is dropped and counted in CPL_STEWARD_DROP. -/
def sharedRequest (p : Nat) (hv : HVec) (l : List Byte) (x : Mod) : Mod :=
  match askedFor hv l with
  | some a =>
    if 1024 ≤ p || !(pairOf_ x).enabled || !(pairOf_ x).shared.contains a then x
    else if isSteward x then emit (.answer p l) x
    else if partnerSteward x && x.cpl.link then emit (.ask l) x
    else tally (.cpl 7) x
  | none => x

end Sys2Proof.Machine
end

