-- ==== Sys2Proof/Machine/Capture.lean ====
section
/-! DEFINITION. Sys2Proof/Machine/Capture.lean: capture rings and records, the precise samplers and the performance counters
(08). -/

namespace Sys2Proof.Machine

/-! ### Performance counters (08 R277 to R284) -/

/-- Changes one performance counter. -/
def setPc (s n : Nat) (g : PerfCtr → PerfCtr) (x : Mod) : Mod := setCap s (fun c => { c with pcs := c.pcs.upd n g }) x

/-- Whether an event code is one of a mode (08 R277, R278). -/
def pcCodeValid (mode code : Nat) : Bool :=
  let ev := (1 ≤ code && code ≤ 0x0A) || (0x20 ≤ code && code ≤ 0x23)
  let oc := 0x40 ≤ code && code ≤ 0x46
  if mode = 0 then ev else if mode = 1 || mode = 2 then oc else false

/-- MODE and EVENT of a configuration. -/
def pcMode (c : PerfCtr) : Nat := fieldOf c.cfg 30 29
def pcEvent (c : PerfCtr) : Nat := fieldOf c.cfg 23 16

/-- INVALID (08 R277, R282). -/
def pcInvalid (c : PerfCtr) : Bool := fieldOf c.cfg 31 0 != 0 && !pcCodeValid (pcMode c) (pcEvent c)

/-- The object that a configuration's SOURCE names for its event, as a number: stall and port, stall, crossbar port, half, shed,
engine (08 R278, R282). -/
def pcSource (c : PerfCtr) : Nat :=
  let e := pcEvent c
  if e = 0x01 || e = 0x02 || e = 0x03 || e = 0x04 then fieldOf c.cfg 15 12 * 8 + fieldOf c.cfg 10 8
  else if e = 0x05 || e = 0x21 then fieldOf c.cfg 15 12
  else if e = 0x07 then fieldOf c.cfg 15 11
  else if e = 0x23 || e = 0x45 then fieldOf c.cfg 13 12
  else if e = 0x41 then (fieldOf c.cfg 15 12 * 8 + fieldOf c.cfg 10 8) * 16 + fieldOf c.cfg 3 0
  else if e = 0x06 || e = 0x20 || e = 0x40 || e = 0x44 then 0
  else fieldOf c.cfg 10 8

/-- Counter `n` of a shed counts `k`: a wrap sets OVF and raises PC_OVF when OVF_IRQ is 1 (08 R279). -/
def pcAdd (s n k : Nat) (x : Mod) : Mod :=
  let c := (x.cap.sheds.get s).pcs.get n
  let wraps := 2 ^ 48 ≤ c.val.toNat + k
  let x1 := setPc s n (fun c => { c with
    val := c.val + BitVec.ofNat 48 k, ovf := c.ovf || wraps, cyc := x.cyc, fresh := freshSum x.cyc c.cyc k c.fresh }) x
  if wraps && c.cfg.getLsbD 28 then raise (.shed s) evPcOvf x1 else x1

/-- An event of a shed, `k` times: every enabled counter of MODE 0 that selects it counts, but in the cycle of a change of its settings
(08 R279). -/
def pcEvt (s code src k : Nat) (x : Mod) : Mod :=
  (List.range 16).foldl (fun a n =>
    let c := (a.cap.sheds.get s).pcs.get n
    if c.cfg.getLsbD 31 && c.above.isSome && pcMode c == 0 && pcEvent c == code && pcSource c == src then pcAdd s n k a else a) x

/-- An event of a line port. -/
def pcPort (p code k : Nat) (x : Mod) : Mod := if p < 1024 then pcEvt (p / 128) code (p % 128) k x else x

/-- Whether a write changes MODE, EVENT, SOURCE (08 R279). -/
def pcCfgMask : Nat := mask 30 29 + mask 23 16 + mask 15 8 + mask 3 0

/-- A write of CAP_PC_CFG or CAP_PC_THRESH: a change of MODE, EVENT, SOURCE or THRESH clears counter and OVF. -/
def pcWrite (s n : Nat) (thresh : Bool) (v : Word) (x : Mod) : Mod :=
  setPc s n (fun c =>
    if thresh then
      let t := v &&& BitVec.ofNat 32 (mask 23 0)
      if t = c.thr then c else { c with thr := t, val := 0, ovf := false, above := none, fresh := 0 }
    else
      let n := merge (mask 31 28 + mask 23 8 + mask 3 0) c.cfg v
      if n &&& BitVec.ofNat 32 pcCfgMask = c.cfg &&& BitVec.ofNat 32 pcCfgMask then { c with cfg := n }
      else { c with cfg := n, val := 0, ovf := false, above := none, fresh := 0 }) x

/-! ### Rings and records (08 R269 to R273) -/

/-- Changes one capture ring. -/
def setCapRing (r : Nat) (g : CapRing → CapRing) (x : Mod) : Mod :=
  { x with cap := { x.cap with rings := x.cap.rings.upd r g } }

/-- The DMA ring of capture ring `r` (13 R434). -/
def capDma (r : Nat) : Nat := 64 + r

/-- Bytes of records in the capture buffer, of one ring or of all. -/
def bufBytes (x : Mod) (r : Option Nat) : Nat :=
  (x.cap.buf.filter (fun e => r.isNone || r == some e.1)).foldl (fun a e => a + e.2.length) 0

/-- Free space of a ring: what the host has returned, less what waits for DMA (08 R271). -/
def ringFree (x : Mod) (r : Nat) : Nat :=
  let h := x.host.rings.get (capDma r)
  if h.enable then ringSize h - (idxDiff h.modIdx h.hostIdx + bufBytes x (some r)) else 0

/-- Whether a record of `n` bytes fits its ring and the capture buffer (08 R271, R273). -/
def fitsRing (x : Mod) (r n : Nat) : Bool := decide (n ≤ ringFree x r) && decide (bufBytes x none + n ≤ 1048576)

/-- A record with its LENGTH and SEQ filled in, padded to 8 bytes; FORMAT 1 keeps 32 header bytes (08 R269, R272). -/
def sealRecord (format : Nat) (seq : Word) (hdr data : List Byte) : List Byte :=
  let h := if format = 1 then splice (hdr.take 32) 2 [1] else splice (fit 64 hdr) 0x3C (leBytes 4 seq.toNat)
  let l := h ++ data
  let l1 := l ++ zeros ((8 - l.length % 8) % 8)
  splice l1 0 (leBytes 2 l1.length)

/-- The 64-byte header of a loss marker (08 R270, R271). -/
def lossHeader (x : Mod) (lost : Nat) (first : Word) : List Byte :=
  let t := stampWords (unitsAt x x.now)
  zeros 2 ++ [2, 4] ++ zeros 12 ++ leBytes 6 t.1 ++ zeros 2 ++ leBytes 4 t.2 ++ zeros 4 ++ leBytes 4 lost
    ++ leBytes 4 first.toNat ++ zeros 20

/-- A record joins the capture buffer. -/
def buffer (r : Nat) (l : List Byte) (x : Mod) : Mod :=
  let x1 := eccWrite (fun w => decide (w = .capture (x.cap.bufNo + x.cap.buf.length))) x
  { x1 with cap := { x1.cap with buf := x1.cap.buf ++ [(r, l)] } }

/-- A record is lost: it counts in DROPPED, raises the ring's overflow, and the next loss marker covers it (08 R271). -/
def loseRecord (r : Nat) (seq : Word) (x : Mod) : Mod :=
  raise .yard (evRingOvf r) (setCapRing r (fun g => { g with
    dropped := g.dropped + 1, lost := g.lost + 1
    first := if g.lost = 0 || (0 : Int) < (g.first - seq).toInt then seq else g.first }) x)

/-- A loss marker is written when records were lost and the space allows it (08 R271). -/
def writeMarker (r : Nat) (x : Mod) : Mod :=
  let g := x.cap.rings.get r
  if !g.enable || g.lost = 0 || g.format = 1 || !fitsRing x r 64 then x
  else
    let rec_ := sealRecord 2 (g.seq + 1) (lossHeader x g.lost g.first) []
    buffer r rec_ (setCapRing r (fun g => { g with seq := g.seq + 1, lost := 0 }) x)

/-- A record is offered to its ring: written whole, or dropped whole with a SEQ (08 R271). A ring not set up takes none. -/
def offerRecord (r : Nat) (hdr data : List Byte) (x : Mod) : Mod :=
  if !(x.cap.rings.get r).enable then x
  else
    let x1 := writeMarker r x
    let g := x1.cap.rings.get r
    let seq := g.seq + 1
    let rec_ := sealRecord g.format seq hdr data
    let x2 := setCapRing r (fun g => { g with seq := seq }) x1
    if (g.lost = 0 || g.format = 1) && fitsRing x1 r rec_.length then buffer r rec_ x2 else loseRecord r seq x2

/-- The record at the head of the capture buffer goes to host memory, once the one before it has; 40 GB/s are 25 ps a byte (08 R273). One
that an uncorrectable error has spoilt is discarded as a ring overflow (17 R518). -/
def captureDma (x : Mod) : Mod :=
  match x.cap.buf with
  | [] => x
  | (r, l) :: t =>
    let h := x.host.rings.get (capDma r)
    let word (w : EccWord) : Bool := decide (w = .capture x.cap.bufNo)
    let y := eccRead word x
    let gone (x : Mod) : Mod := { x with cap := { x.cap with buf := t, bufNo := x.cap.bufNo + 1 } }
    let x1 := gone { y.2 with cap := { y.2.cap with dmaAt := x.now + 25 * l.length } }
    if x.now < x.cap.dmaAt then x
    else if y.1 then eccWrite word (loseRecord r (BitVec.ofNat 32 (leAt l 0x3C 4)) (gone y.2))
    else if x.host.up && h.enable then
      ringAdvance (capDma r) l.length (emit (.dma (h.base + h.modIdx % ringSize h) l) x1)
    else x1

/-- A stage stamp: quarter nanoseconds from the frame's first byte, saturating (08 R270). -/
def stage (arr : Nat) (t : Option Nat) : List Byte :=
  leBytes 4 (match t with
    | some t => min ((t - arr) / 250) 0xFFFFFFFE
    | none => 0xFFFFFFFF)

/-- The header of a KIND 0, 1 or 2 record of a frame (08 R269). `c` is the copy the record concerns, if an egress port was
chosen; `cause` the drop cause. -/
def frameRecord (kind session : Nat) (f : Frame) (c : Option Copy) (egress : Bool) (cause captured : Nat)
    (txLast : Option Nat) : List Byte :=
  let st := stampWords f.stamp
  let o := f.otr
  let late := match o with
    | some k => (match k.st with | .stomped l => some l | _ => none)
    | none => none
  let fl := flag 0 egress + flag 1 o.isSome + flag 2 late.isSome + flag 3 (match c with | some k => k.ct | none => false)
    + flag 4 (cause != 0 || f.bad || (match f.guard with | some g => (match g.dispo with | .drop _ => true | _ => false) | none => false)) + flag 5 ((f.guard.map (·.trunc)).getD false) + flag 6 ((f.guard.map (·.reason != 0)).getD false)
    + flag 7 (decide (captured < f.bytes.length))
  let acts := (f.guard.map (·.acts)).getD {}
  let verdict := match f.guard with
    | some g => (match g.verdict with | .noTicket => 0 | .confirm => 1 | .refute => 2 | .late => 3)
    | none => 0
  let tx := match c with
    | some k => k.txAt
    | none => none
  zeros 2 ++ [2, BitVec.ofNat 8 kind, BitVec.ofNat 8 (shedOfPort f.port), BitVec.ofNat 8 session] ++ leBytes 2 f.port
    ++ leBytes 2 (match c with | some k => k.port | none => 0x7FF) ++ leBytes 2 f.bytes.length ++ leBytes 2 captured
    ++ [BitVec.ofNat 8 fl, BitVec.ofNat 8 (f.epoch.toNat + 4 * acts.colour + 16 * acts.cls)]
    ++ leBytes 6 st.1 ++ zeros 2 ++ leBytes 4 st.2
    ++ [BitVec.ofNat 8 (match c with | some k => k.queue | none => 0), BitVec.ofNat 8 cause] ++ zeros 2
    ++ stage f.arr f.tktAt ++ stage f.arr (f.guard.map (·.at_)) ++ stage f.arr (match c with | some k => k.enqAt | none => none)
    ++ stage f.arr tx ++ stage f.arr txLast
    ++ leBytes 4 (match c with | some k => k.depth | none => 0)
    ++ leBytes 2 (match f.tkt with | some t => t + 2 ^ 15 | none => 0) ++ [BitVec.ofNat 8 verdict, 0] ++ zeros 4

/-! ### The precise sampler (08 R274, R275) -/

/-- A frame of shed `s` matches the sampler: the count falls, and the frame that takes it to 0 is the sampled frame. -/
def preciseCount (s f : Nat) (x : Mod) : Mod :=
  let c := x.cap.sheds.get s
  let per := c.precise.getLsbD 30
  let reach (x : Mod) : Mod := setCap s (fun c => { c with precise := if per then c.precise else c.precise &&& 0x7FFFFFFF#32 }) x
  if !c.precise.getLsbD 31 || c.left = 0 then x
  else if 1 < c.left then setCap s (fun c => { c with left := c.left - 1 }) x
  else if (c.inFlight.bind (frame? x)).isSome then
    raise (.shed s) evPreciseSkip (reach (setCap s (fun c => { c with skip := c.skip + 1, left := fieldOf c.period 23 0 }) x))
  else
    setFrame f (fun fr => { fr with sample := true }) (reach (setCap s (fun c => { c with
      inFlight := some f, left := if per then fieldOf c.period 23 0 else 0 }) x))

/-- MATCH of a shed's sampler. -/
def preciseMatch (x : Mod) (s : Nat) : Nat := fieldOf (x.cap.sheds.get s).precise 29 28

/-- Whether a frame matches its shed's sampler as it passes byte 64; an outrider that starts later counts as it starts (log 78). -/
def preciseMatches (x : Mod) (fr : Frame) : Bool :=
  let c := (x.cap.sheds.get (shedOfPort fr.port)).precise
  match preciseMatch x (shedOfPort fr.port) with
  | 0 => true
  | 1 => fieldOf c 10 0 = fr.port
  | 2 => fr.tkt.isSome
  | _ => fr.otr.isSome

/-- Whether a ring takes FORMAT 2 records (08 R272). -/
def ringIsV1 (x : Mod) (r : Nat) : Bool := (x.cap.rings.get r).enable && (x.cap.rings.get r).format == 1

/-- The KIND 2 record of the sampled frame is written, with its first `n` bytes (08 R275); a FORMAT 1 ring takes none (R272; log 78). -/
def preciseRecord (f : Nat) (fr : Frame) (c : Option Copy) (cause n : Nat) (txLast : Option Nat) (x : Mod) : Mod :=
  let s := shedOfPort fr.port
  if (x.cap.sheds.get s).inFlight ≠ some f then x
  else
    let d := (fr.bytes.take n).take 64
    let r := fieldOf (x.cap.sheds.get s).precise 27 24
    setCap s (fun c => { c with inFlight := none })
      (if ringIsV1 x r then x else offerRecord r (frameRecord 2 0xFF fr c (cause = 0) cause d.length txLast) d x)

/-! ### Ostler samples and queue depth exports (08 R264, R270, R276) -/

/-- The STATE code of an engine. -/
def engState (g : Engine) : Nat :=
  match g.st with
  | .issuing => 0
  | .waiting => 1
  | .idle => 2
  | .restarting => 3

/-- One KIND 3 record of shed `s` (08 R270). -/
def ostlerRecord (s : Nat) (x : Mod) : Mod :=
  let c := x.cap.sheds.get s
  let o := x.ost.get s
  let e := fieldOf c.ostCfg 29 28
  let g := o.engines.get e
  let w := (o.micro.get g.uaddr.toNat).getD (Config.romMicro g.uaddr.toNat)
  let t := stampWords (unitsAt x x.now)
  let entry := match g.run with
    | some r => ((o.entry.get r.cmd.code).getD (Config.romEntry r.cmd.code)).toNat
    | none => 0
  offerRecord (fieldOf c.ostCfg 27 24)
    (zeros 2 ++ [2, 3, BitVec.ofNat 8 s, BitVec.ofNat 8 e] ++ leBytes 2 g.uaddr.toNat
      ++ leBytes 2 (if bitsOf w.toNat 23 22 = 0 then bitsOf w.toNat 21 11 else 0)
      ++ [BitVec.ofNat 8 (engState g), BitVec.ofNat 8 (if g.st == .waiting then g.cond else 0)] ++ leBytes 2 entry
      ++ leBytes 2 (match g.run with | some r => r.cmd.tag.toNat | none => 0)
      ++ leBytes 6 t.1 ++ zeros 2 ++ leBytes 4 t.2 ++ zeros 4 ++ leBytes 8 c.cycles.toNat ++ zeros 24) [] x

/-- PERIOD of CAP_OST_SAMPLE in picoseconds: × 64 shed core cycles, at least 16 (08 R276). -/
def ostPeriod (w : Word) : Nat := max 16 (fieldOf w 15 0) * 64 * 625

/-- The sampled instant of an Ostler has come. -/
def ostlerSampleNow (s : Nat) (x : Mod) : Mod :=
  let c := x.cap.sheds.get s
  match c.ostAt with
  | none => x
  | some t =>
    if c.ostCfg.getLsbD 31 && decide (t ≤ x.now) && !ringIsV1 x (fieldOf c.ostCfg 27 24) then
      setCap s (fun c => { c with ostAt := some (t + ostPeriod c.ostCfg) }) (ostlerRecord s x)
    else x

/-- Cells of the frames in a queue. -/
def queueCells (q : QueSt) : Nat := q.ents.foldl (fun a e => a + (e.e + 255) / 256) 0

/-- The KIND 5 record of a port (08 R270). -/
def exportRecord (p r : Nat) (x : Mod) : Mod :=
  let t := stampWords (unitsAt x x.now)
  let data := (List.range 16).flatMap (fun q =>
    let k := x.que.qs.get (p, q)
    leBytes 4 (queueCells k) ++ leBytes 2 k.last ++ leBytes 2 k.max)
  offerRecord r (zeros 2 ++ [2, 5, BitVec.ofNat 8 (shedOfPort p), BitVec.ofNat 8 (stallOf p % 16)] ++ leBytes 2 p ++ zeros 4
    ++ leBytes 2 128 ++ zeros 2 ++ leBytes 6 t.1 ++ zeros 2 ++ leBytes 4 t.2 ++ zeros 32) data x

/-- A port's queue depth export falls due (08 R264, R270). -/
def depthExport (p : Nat) (x : Mod) : Mod :=
  match (actCfg x).exports.get (stallOf p) with
  | none => x
  | some (us_, r) =>
    if p < 1024 && portDefined x p && passed x.now (x.cap.exportAt.get p) (us us_) && !ringIsV1 x r then
      exportRecord p r { x with cap := { x.cap with exportAt := x.cap.exportAt.set p x.now } }
    else x

/-! ### Snapshots (08 R280, R287) -/

/-- A write to CAP_SNAP_CTL: ARM arms the snapshot at the trigger time, or at the next 256 ns boundary when that has passed. -/
def snapArm (v : Word) (x : Mod) : Mod :=
  if !v.getLsbD 0 then x
  else
    let late := x.cap.snapTime.toNat < x.now / 1000
    let at_ := if late then (x.now / 256000 + 1) * 256 else x.cap.snapTime.toNat
    let x1 := { x with cap := { x.cap with
      armed := some at_
      taken := false
      sheds := (List.range 8).foldl (fun m s => m.upd s (fun c => { c with snapDone := false })) x.cap.sheds } }
    if late then raise .yard evSnapLate x1 else x1

/-- A shed copies its counters in the first cycle at or past the trigger; the last working shed completes the snapshot. -/
def snapTake (s : Nat) (x : Mod) : Mod :=
  match x.cap.armed with
  | none => x
  | some t =>
    if !(shedWorks x s) || (x.cap.sheds.get s).snapDone || x.now / 1000 < t then x
    else
      let x1 := setCap s (fun c => { c with
        snapDone := true
        snap := (List.range 16).foldl (fun m n => m.set n (c.pcs.get n).val) c.snap }) x
      if (List.range 8).all (fun k => !shedWorks x1 k || (x1.cap.sheds.get k).snapDone) then
        { x1 with cap := { x1.cap with armed := none, taken := true } }
      else x1

/-! ### The commands -/

/-- LOSS_MARKER_WRITE. -/
def execLossMarkerWrite (r : Nat) (st : State) : Host.Outcome State Fault Refusal :=
  cmd (.lossMarkerWrite r) (writeMarker r) st

/-- CAPTURE_RECORD_DMA. -/
def execCaptureRecordDma (st : State) : Host.Outcome State Fault Refusal :=
  cmd (.captureRecordDma) (captureDma) st

/-- OSTLER_SAMPLE. -/
def execOstlerSample (s : Nat) (st : State) : Host.Outcome State Fault Refusal :=
  cmd (.ostlerSample s) (ostlerSampleNow s) st

/-- QUEUE_DEPTH_EXPORT. -/
def execQueueDepthExport (port : Nat) (st : State) : Host.Outcome State Fault Refusal :=
  cmd (.queueDepthExport port) (depthExport port) st

/-- SNAPSHOT_ARM. -/
def execSnapshotArm (v : Word) (st : State) : Host.Outcome State Fault Refusal :=
  cmd (.snapshotArm v) (snapArm v) st

/-- SNAPSHOT_TAKE. -/
def execSnapshotTake (s : Nat) (st : State) : Host.Outcome State Fault Refusal :=
  cmd (.snapshotTake s) (snapTake s) st

end Sys2Proof.Machine
end

