-- ==== Sys2Proof/Machine/Loft.lean ====
section
/-! DEFINITION. Sys2Proof/Machine/Loft.lean: Loft cells and their releases, admission, thresholds and pause requests, the audit
(06 R188 to R197). Cells and descriptors are taken lowest number first (log 34). -/

namespace Sys2Proof.Machine

/-! ### Banks and occupancy -/

/-- The domain of a Loft bank (00 R5). -/
def bankDom (s b : Nat) : Nat := 256 + 12 * s + b

/-- The running banks of a shed. -/
def runningBanks (x : Mod) (s : Nat) : List Nat := (List.range 12).filter (fun b => domRuns x (bankDom s b))

/-- Cells of the running banks. -/
def runCells (x : Mod) (s : Nat) : Nat := 16384 * (runningBanks x s).length

/-- The frames held in a shed, with where their cells are. -/
def heldIn (x : Mod) (s : Nat) : List (Nat × Held) :=
  (x.loft.get s).held.ents.filterMap (fun e => e.2.map (fun h => (e.1, h)))

/-- The cells that hold a frame and the heads of its mirror copies. -/
def Held.all (h : Held) : List Nat := h.cells ++ h.heads.map (·.2)

/-- Cells in use or reserved (LFT_OCC.USED). -/
def loftUsed (x : Mod) (s : Nat) : Nat := (heldIn x s).foldl (fun a e => a + e.2.all.length + e.2.unwritten) 0

/-- Whether a bank holds no cell. -/
def loftBankEmpty (x : Mod) (s b : Nat) : Bool := (heldIn x s).all (fun e => e.2.all.all (fun c => c / 16384 != b))

/-- The sum of the MIN and HEADROOM settings of a shed's pairs. -/
def guaranteed (c : TtContent) (s : Nat) : Nat :=
  (c.loft.filter (fun e => shedOfPort e.1.1 == s)).foldl (fun a e => a + e.2.min + e.2.headroom) 0

/-- Whether occupancy is below a quarter of the running banks' cells (06 R197). -/
def loftLow (x : Mod) (s : Nat) : Bool := decide (4 * loftUsed x s < runCells x s)

/-- Since when occupancy is low, as the present occupancy and banks leave it. -/
def lowSince (x : Mod) (s : Nat) (was : Option Nat) : Option Nat := if loftLow x s then some (was.getD x.now) else none

/-- Whether a bank of `s` may be stopped: enough cells remain and at least 4 banks run (06 R197). -/
def bankSpare (x : Mod) (s : Nat) : Bool :=
  let n := (runningBanks x s).length
  5 ≤ n && guaranteed (actCfg x) s + 2 * loftUsed x s ≤ 16384 * (n - 1)

/-- Whether a warning level was passed one cell upward, and whether it is armed afterwards (06 R196). -/
def warnStep (used limit : Nat) (armed : Bool) : Bool × Bool :=
  if armed && limit < used then (true, false) else (false, armed || used + 4096 ≤ limit)

/-- The lowest stopped bank is woken without leave when occupancy is above half the running cells, unless one already wakes
(06 R197). Wake source 1 is the Loft (16 R486). -/
def loftBankWake (s : Nat) (x : Mod) : Mod :=
  if runCells x s < 2 * loftUsed x s then
    let x0 := setLoft s (fun l => { l with noAlloc := none }) x
    if (List.range 12).any (fun b => domSt x (bankDom s b) == .waking) then x0
    else
      match (List.range 12).find? (fun b => domIdle x (bankDom s b)) with
      | some b => askWake 1 (bankDom s b) (tally (.lft s 6) x0)
      | none => x0
  else x

/-- What follows a change of occupancy: the peak, the warnings, the low-occupancy timer, a bank wake. -/
def loftWatch (s : Nat) (x : Mod) : Mod :=
  let used := loftUsed x s
  let l := x.loft.get s
  let (rl, al) := warnStep used 147456 l.warnLow
  let (rh, ah) := warnStep used 172032 l.warnHigh
  let x1 := setLoft s (fun l => { l with
    peak := max l.peak used, warnLow := al, warnHigh := ah, lowAt := lowSince x s l.lowAt }) x
  let x2 := if rl then raise (.shed s) evWarnLow x1 else x1
  loftBankWake s (if rh then raise (.shed s) evWarnHigh x2 else x2)

/-! ### Pause requests (06 R195, 02 R59) -/

/-- Whether a (port, class) pair is under flow control (06 R194). -/
def flowControlled (k : PortCfg) (cls : Nat) : Bool := k.fc == 1 || (k.fc == 2 && k.pfcEn.getLsbD cls)

/-- A pause request or release waits for the port's next frame boundary. -/
def askPause (p : Nat) (cls : Option Nat) (stops : Bool) (x : Mod) : Mod :=
  setPort p (fun s => { s with ctl := s.ctl ++ [(cls, stops)], asked := s.asked.set (cls.getD 8) stops }) x

/-- The shared use of a pair has changed from `before`: XOFF when it rose past XOFF, a pause time of zero when it fell to XON,
which an 802.3x port waits for in all its classes. -/
def pauseUpdate (s p cls before : Nat) (x : Mod) : Mod :=
  let k := portCfg x p
  let l := (actCfg x).loftPair p cls
  let after := ((x.loft.get s).uses.get (p, cls)).shared
  if !flowControlled k cls then x
  else if before ≤ l.xoff && l.xoff < after then
    askPause p (if k.fc = 1 then none else some cls) true
      (tally (.lft s 3) (setLoft s (fun t => { t with uses := t.uses.upd (p, cls) (fun u => { u with xoff := true }) }) x))
  else if l.xon < before && after ≤ l.xon then
    let x1 := setLoft s (fun t => { t with uses := t.uses.upd (p, cls) (fun u => { u with xoff := false }) }) x
    if k.fc = 2 then askPause p (some cls) false x1
    else if (List.range 8).all (fun c =>
        ((x1.loft.get s).uses.get (p, c)).shared ≤ ((actCfg x1).loftPair p c).xon) then askPause p none false x1
    else x1
  else x

/-- A pair's pool use changed by `f`; pool 3, the Loft credit of a source shed, is no pair's. -/
def setUse (s p cls pool : Nat) (f : Nat → Nat) (x : Mod) : Mod :=
  let before := ((x.loft.get s).uses.get (p, cls)).shared
  let x1 := setLoft s (fun l => { l with uses := l.uses.upd (p, cls) (fun u =>
    if pool = 0 then { u with min := f u.min } else if pool = 1 then { u with shared := f u.shared }
    else if pool = 2 then { u with head := f u.head } else u) }) x
  if pool = 1 then pauseUpdate s p cls before x1 else x1

/-! ### Frames in cells -/

/-- Where a frame's cells are in a shed. -/
def held? (x : Mod) (s f : Nat) : Option Held := (x.loft.get s).held.get f

/-- Changes where a frame's cells are. -/
def setHeld (s f : Nat) (g : Held → Held) (x : Mod) : Mod :=
  setLoft s (fun l => { l with held := l.held.upd f (Option.map g) }) x

/-- The first `n` free cells from `c` up, of `fuel` looked at; `ok` says which banks are allocated from. -/
def freeCells (l : Loft) (ok : Nat → Bool) : Nat → Nat → Nat → List Nat
  | 0, _, _ => []
  | _, 0, _ => []
  | fuel + 1, n + 1, c =>
    if ok (c / 16384) && (l.cells.get c).count = 0 then c :: freeCells l ok fuel n (c + 1) else freeCells l ok fuel (n + 1) (c + 1)

/-- Whether a bank is allocated from. -/
def allocFrom (x : Mod) (s b : Nat) : Bool := domRuns x (bankDom s b) && (x.loft.get s).noAlloc != some b

/-- The `n` cells a frame takes in shed `s`. -/
def takeCells (x : Mod) (s n : Nat) : List Nat := freeCells (x.loft.get s) (allocFrom x s) 196608 n 0

/-- The cells of shed `s` that are neither in use nor reserved, in the banks allocated from. -/
def allocFree (x : Mod) (s : Nat) : Nat :=
  let used (h : Held) : Nat := (h.all.filter (fun c => allocFrom x s (c / 16384))).length + h.unwritten
  16384 * ((List.range 12).filter (allocFrom x s)).length - (heldIn x s).foldl (fun a e => a + used e.2) 0

/-- The lowest descriptor not in use, from `d` up. -/
def freeDesc (used : List Nat) : Nat → Nat → Nat
  | 0, d => d
  | n + 1, d => if used.contains d then freeDesc used n (d + 1) else d

/-- Cells of a length. -/
def cellsFor (n : Nat) : Nat := (n + 255) / 256

/-- The words of some cells of a shed. -/
def cellWords (s : Nat) (cells : List Nat) (w : EccWord) : Bool :=
  match w with
  | .loft t c => t == s && cells.contains c
  | _ => false

/-- Frame `f` takes cells of shed `s` for the `len` bytes at hand, of `reserve` that it reserves (06 R193): each with one reference, the
descriptor's, and its owner tag. -/
def storeFrame (s f pool p cls src reserve len : Nat) (x : Mod) : Mod :=
  let cells := takeCells x s (cellsFor len)
  let used := (heldIn x s).filterMap (fun e => if e.2.doneAt.isNone then some e.2.desc else none)
  let d := freeDesc used used.length 0
  let x1 := setLoft s (fun l => { l with
    cells := cells.foldl (fun m c => m.set c { count := 1, owner := d }) l.cells
    held := l.held.set f (some { desc := d, cells := cells, unwritten := reserve - cellsFor len, pool := pool, port := p,
                                 cls := cls, src := src }) }) (eccWrite (cellWords s cells) x)
  loftWatch s (setUse s p cls pool (· + max reserve (cellsFor len)) x1)

/-- The reserved cells that were not written are released (06 R193). -/
def releaseUnwritten (s f : Nat) (x : Mod) : Mod :=
  match held? x s f with
  | none => x
  | some h =>
    if h.unwritten = 0 then x
    else loftWatch s (setUse s h.port h.cls h.pool (· - h.unwritten) (setHeld s f (fun h => { h with unwritten := 0 }) x))

/-- The shed whose cells a copy of a frame uses: the ingress shed for yard streams and for ports 1032 and above, else the shed
of its port (06 R190, R218; log 22). -/
def copyHome (fr : Frame) (c : Copy) : Nat :=
  match c.kind with
  | .stream _ => shedOfPort fr.port
  | .mirrorRing _ => shedOfPort fr.port
  | .sample _ => shedOfPort fr.port
  | _ => if 1032 ≤ c.port then shedOfPort fr.port else shedOfPort c.port

/-- The cells of a frame up to byte `n` are written: reserved ones first, each with the references that the frame's cells have by now
(06 R190, R193). -/
def writeCells (s f n : Nat) (x : Mod) : Mod :=
  match held? x s f with
  | none => x
  | some h =>
    let more := cellsFor n - h.cells.length
    if more = 0 then x
    else
      let refs := match frame? x f with
        | some fr => if fr.decided then (fr.copies.filter (fun c => copyHome fr c == s && c.st != .done)).length else 0
        | none => 0
      let new := takeCells x s more
      let x1 := setLoft s (fun l => { l with
        cells := new.foldl (fun m c => m.set c { count := 1 + refs, owner := h.desc }) l.cells
        held := l.held.set f (some { h with cells := h.cells ++ new, unwritten := h.unwritten - more }) }) (eccWrite (cellWords s new) x)
      loftWatch s (setUse s h.port h.cls h.pool (· + (more - h.unwritten)) x1)

/-- The last byte of a frame, its `n`th, has arrived: its cells are written, the others it reserved are released (06 R193). -/
def settleCells (s f n : Nat) (x : Mod) : Mod := releaseUnwritten s f (writeCells s f n x)

/-- The references of a frame's cells grow by `n`: its copies (06 R190). -/
def addRefs (s f n : Nat) (x : Mod) : Mod :=
  match held? x s f with
  | none => x
  | some h => setLoft s (fun l => { l with cells := h.cells.foldl (fun m c => m.upd c (fun k => { k with count := k.count + n })) l.cells }) x

/-! ### Releases (06 R190 to R192, R224) -/

/-- The requester code of a port's egress (06 R224). -/
def reqOf (p : Nat) : Nat :=
  if p < 1024 then at_ 4 4 (stallOf p % 16) + p % 8 else if p < 1032 then 0x100 else 0x300 + (p - 1032) % 4

/-- A rejected request is recorded, counted and raised. -/
def rejectFree (s kind requester cell : Nat) (x : Mod) : Mod :=
  raise (.shed s) evFreeReject (tally (.lft s 4) (setLoft s (fun l => { l with
    log0 := reg [at_ 30 2 kind, at_ 18 12 requester, at_ 0 18 cell]
    log1 := reg [at_ 14 18 (l.cells.get cell).owner, at_ 0 14 (l.log1.toNat % 16384 + 1)] }) x))

/-- DEC of one cell: accepted while the count is 2 or more. -/
def decCell (s cell requester : Nat) (x : Mod) : Mod :=
  let n := ((x.loft.get s).cells.get cell).count
  if n = 0 then rejectFree s 1 requester cell x
  else if n = 1 then rejectFree s 2 requester cell x
  else setLoft s (fun l => { l with cells := l.cells.upd cell (fun k => { k with count := k.count - 1 }) }) x

/-- The frame whose cells in a shed hold `cell`. -/
def holderOf (x : Mod) (s cell : Nat) : Option (Nat × Held) := (heldIn x s).find? (fun e => e.2.cells.contains cell)

/-- Whether any shed still holds cells of a frame. -/
def anywhere (x : Mod) (f : Nat) : Bool := (List.range 8).any (fun s => (held? x s f).isSome)

/-- A frame that no shed holds, all of whose copies are done, leaves the module's books. -/
def tidyFrame (f : Nat) (x : Mod) : Mod :=
  match frame? x f with
  | none => x
  | some fr =>
    let gone := fr.ended && (fr.decided || fr.refused) && fr.copies.all (fun c => c.st == .done)
    if gone && !anywhere x f then dropFrame f x else x

/-- Shed `s` owes its peer `n` credits for destination `d`: they return in the CREDIT field of cells toward the peer, or at once
where no drawbar leads there (06 R202, R206; log 39). -/
def oweCredit (s peer d n : Nat) (x : Mod) : Mod :=
  let k := (x.mesh.halves.get (s, halfToward s peer)).st
  if s = peer then x
  else if k == .full || k == .halfRate then
    { x with mesh := { x.mesh with owed := x.mesh.owed.upd (s, peer) (fun l =>
      match l with
      | (e, m) :: t => if e = d then (e, m + n) :: t else (e, m) :: t ++ [(d, n)]
      | [] => [(d, n)]) } }
  else if d = s then { x with mesh := { x.mesh with lcredit := x.mesh.lcredit.upd (peer, s) (· + n) } }
  else { x with mesh := { x.mesh with credit := x.mesh.credit.upd (peer, s, d) (· + n) } }

/-- A frame that holds no cell of shed `s` any more leaves its books. -/
def dropHeld (s f : Nat) (x : Mod) : Mod :=
  match held? x s f with
  | some h => if h.all = [] then setLoft s (fun l => { l with held := l.held.set f none }) x else x
  | none => x

/-- A cell returns to the free list, and its pool and the frame's chain forget it; a cell of a source shed's Loft credit returns
that credit. -/
def returnCell (s cell : Nat) (x : Mod) : Mod :=
  let x1 := setLoft s (fun l => { l with cells := l.cells.upd cell (fun k => { k with count := 0 }) }) x
  match holderOf x s cell with
  | none => x1
  | some (f, h) =>
    let x2 := setHeld s f (fun h => { h with cells := h.cells.filter (· != cell) }) x1 |> dropHeld s f
    tidyFrame f (loftWatch s (setUse s h.port h.cls h.pool (· - 1) (if h.pool = 3 then oweCredit s h.src s 1 x2 else x2)))

/-- FREE of one cell: accepted when the count is exactly 1 and the requester names the owner. A FREE by the owner that finds
other references is retried by the descriptor manager and not logged (06 R192). -/
def freeCell (s cell requester desc : Nat) (x : Mod) : Mod :=
  let k := (x.loft.get s).cells.get cell
  if desc ≠ k.owner then rejectFree s 0 requester cell x
  else if k.count = 0 then rejectFree s 1 requester cell x
  else if k.count = 1 then
    returnCell s cell (setLoft s (fun l => { l with retry := l.retry.filter (fun e => e.1 != cell) }) x)
  else setLoft s (fun l => { l with retry := l.retry.filter (fun e => e.1 != cell) ++ [(cell, requester, desc)] }) x

/-- The descriptor manager retries a FREE that a DEC had preceded. -/
def retryFree (s cell : Nat) (x : Mod) : Mod :=
  match (x.loft.get s).retry.find? (fun e => e.1 == cell) with
  | some e => freeCell s cell e.2.1 e.2.2 x
  | none => x

/-- One release. -/
def doRelease (s : Nat) (r : Release) (x : Mod) : Mod := if r.free then freeCell s r.cell r.req r.desc x else decCell s r.cell r.req x

/-- The releases of one cell among the commands that wait: those of the same cycle. -/
def releasesWaiting (s cell : Nat) (l : List Instr) : List Release :=
  l.filterMap (fun c => match c with
    | .cellDec t k r => if t = s && k = cell then some { free := false, cell := k, req := r, desc := 0 } else none
    | .cellFree t k r d => if t = s && k = cell then some { free := true, cell := k, req := r, desc := d } else none
    | _ => none)

/-- A release takes its place among others in the order of a pointer over requesters, behind those of the same requester. -/
def insertRelease (ptr : Nat) (r : Release) : List Release → List Release
  | [] => [r]
  | a :: t =>
    if (r.req + 4096 - ptr) % 4096 < (a.req + 4096 - ptr) % 4096 then r :: a :: t else a :: insertRelease ptr r t

/-- A release as it arrives: with others of its cycle on the same cell it is taken in the order of the rotating pointer over requesters,
which moves past the first (06 R192). -/
def releaseNow (s : Nat) (r : Release) (waiting : List Instr) (x : Mod) : Mod :=
  let l := x.loft.get s
  if l.relDone.contains r then setLoft s (fun l => { l with relDone := l.relDone.erase r }) x
  else
    match releasesWaiting s r.cell waiting with
    | [] => doRelease s r x
    | others =>
      let order := (r :: others).foldl (fun k a => insertRelease l.relPtr a k) []
      let next := match order with
        | a :: _ => (a.req + 1) % 4096
        | [] => l.relPtr
      order.foldl (fun a r => doRelease s r a) (setLoft s (fun l => { l with relPtr := next, relDone := l.relDone ++ others }) x)

/-- The audit, once per 100 ms, reclaims the cells of descriptors that have been free for longer than 10 ms (06 R191). -/
def auditLoft (s : Nat) (x : Mod) : Mod :=
  due (passed x.now (x.loft.get s).auditAt (ms 100)) (fun x =>
  let stale := (heldIn x s).flatMap (fun e =>
    match e.2.doneAt with
    | some t => if t + ms 10 < x.now then e.2.cells else []
    | none => [])
  stale.foldl (fun a c => returnCell s c (tally (.lft s 4) a)) (setLoft s (fun l => { l with auditAt := x.now }) x)) x

/-! ### Copies and their references -/

/-- The descriptor of a frame in a shed is freed once its copy list shows every copy done (06 R190). -/
def settleDesc (s f : Nat) (x : Mod) : Mod :=
  match frame? x f with
  | none => x
  | some fr =>
    if (fr.decided || fr.refused) && fr.copies.all (fun c => copyHome fr c != s || c.st == .done) then
      setHeld s f (fun h => { h with doneAt := some (h.doneAt.getD x.now) }) x
    else x

/-- The mirror engine takes an extra cell for the new head of a copy that its session encapsulates or cuts (06 R219). With no cell free
the copy is lost, counted as one its queue refuses (DESIGN CHOICE, log 74). -/
def takeHead (f : Nat) (y : Mod × List Nat) (e : Nat × Copy) : Mod × List Nat :=
  match frame? y.1 f with
  | none => y
  | some fr =>
    let s := shedOfPort fr.port
    let mirrored := match e.2.kind with
      | .mirror _ => e.2.hdr.isSome || (e.2.trunc ≠ 0 && decide (e.2.trunc < fr.bytes.length))
      | _ => false
    match held? y.1 s f with
    | none => y
    | some h =>
      if !mirrored then y
      else
        match takeCells y.1 s 1 with
        | [] => (y.1, y.2 ++ [e.1])
        | c :: _ =>
          (loftWatch s (setHeld s f (fun h => { h with heads := h.heads ++ [(e.1, c)] })
            (setLoft s (fun l => { l with cells := l.cells.set c { count := 1, owner := h.desc } }) (eccWrite (cellWords s [c]) y.1))), y.2)

/-- The extra cell of a mirror copy's head is released (06 R219). -/
def dropHead (s f c : Nat) (x : Mod) : Mod :=
  match (held? x s f).bind (fun h => h.heads.find? (fun e => e.1 == c)) with
  | none => x
  | some e =>
    loftWatch s (dropHeld s f (setHeld s f (fun h => { h with heads := h.heads.filter (fun k => k.1 != c) })
      (setLoft s (fun l => { l with cells := l.cells.upd e.2 (fun k => { k with count := 0 }) }) x)))

/-- The requester that releases a copy's reference: the mirror engine for mirror copies and samples, else the port (06 R224). -/
def copyReq (k : Copy) : Nat :=
  match k.kind with
  | .mirror _ => 0x400
  | .mirrorRing _ => 0x400
  | .sample _ => 0x400
  | _ => reqOf k.port

/-- Copy `c` of frame `f` is done: its reference is released by DEC, and the descriptor manager looks whether all are. -/
def finishCopy (f c requester : Nat) (x : Mod) : Mod :=
  match (frame? x f).bind (·.copy? c), frame? x f with
  | some k, some fr =>
    if k.st == .done then x
    else
      let s := copyHome fr k
      let x1 := dropHead (shedOfPort fr.port) f c (setCopy f c (fun k => { k with st := .done }) x)
      let x2 := match held? x1 s f with
        | some h => h.cells.foldl (fun a cell => decCell s cell requester a) x1
        | none => x1
      tidyFrame f (settleDesc s f x2)
  | _, _ => x

/-- A read of the cells of a copy in shed `s`, an extra head first: which of them, in the frame's order, holds an uncorrectable error
first (17 R518). -/
def readCells (s f c : Nat) (x : Mod) : Option Nat × Mod :=
  match held? x s f with
  | none => (none, x)
  | some h =>
    let cells := (h.heads.filter (fun e => e.1 == c)).map (·.2) ++ h.cells
    let y := eccRead (cellWords s cells) x
    (if y.1 then (List.range cells.length).find? (fun i => x.ecc.any (fun e => e.double && e.word == .loft s (cells.getD i 0))) else none, y.2)

/-- The heads of a frame's mirror copies are built. -/
def takeHeads (f : Nat) (x : Mod) : Mod :=
  match frame? x f with
  | none => x
  | some fr =>
    let y := ((List.range fr.copies.length).zip fr.copies).foldl (takeHead f) (x, [])
    y.2.foldl (fun a c => finishCopy f c 0x400 (tally (.lft (shedOfPort fr.port) 2) a)) y.1

/-! ### Admission (06 R193, R194) -/

/-- The declared length once the layer-0 IP header lies within the first `n` bytes (05 R162). -/
def declaredBy (hv : HVec) (n : Nat) : Option Nat :=
  match hv.r.hdrs.find? (fun h => h.layer == 0 && (h.typ == 0x09 || h.typ == 0x0A)) with
  | some h => if h.off + h.len ≤ n then hv.declared else none
  | none => none

/-- The traffic class of a frame before any action: its port's mapping of OUTER_PCP (log 29). -/
def portClass (hv : HVec) : Nat := hv.pcfg.pcpClass.getD hv.pcp 0 % 8

/-- The shared pool of a shed, and its cells that no pair holds. -/
def sharedFree (x : Mod) (c : TtContent) (s : Nat) : Nat :=
  196608 - guaranteed c s - (x.loft.get s).uses.ents.foldl (fun a e => a + e.2.shared) 0

/-- The speed at which a frame arrives. -/
def inGbps (x : Mod) (fr : Frame) : Nat := portGbps (frameCfg x fr) fr.port

/-- When byte `n` of a frame has arrived. -/
def byteAt (x : Mod) (fr : Frame) (n : Nat) : Nat := fr.arr + bytesTime (inGbps x fr) n

/-- When the last byte of a frame has arrived. -/
def lastByte (x : Mod) (fr : Frame) : Nat := byteAt x fr (fr.wire.getD fr.bytes).length

/-- Whether the last byte of a frame has arrived. -/
def lastIn (x : Mod) (fr : Frame) : Bool := lastByte x fr ≤ x.now

/-- Bytes of a frame that have arrived. -/
def arrivedBytes (x : Mod) (fr : Frame) : Nat :=
  if fr.ended || fr.direct || lastIn x fr then fr.bytes.length else min fr.bytes.length (bytesIn (inGbps x fr) (x.now - fr.arr))

/-- What admission decides for a reservation of `n` cells: the pool, or the drop of a lossy pair, or of one under flow
control. -/
inductive Admit where
  | pool (p : Nat)
  | lossy
  | headroom
  deriving DecidableEq, Repr

/-- The decision of 06 R194. -/
def decideAdmit (x : Mod) (c : TtContent) (s p cls n : Nat) : Admit :=
  let u := (x.loft.get s).uses.get (p, cls)
  let k := c.loftPair p cls
  let free := sharedFree x c s
  if u.min + n ≤ k.min then .pool 0
  else if (u.shared + n) * 128 ≤ 2 ^ k.alpha * free && n ≤ free then .pool 1
  else if !flowControlled (c.cfg p) cls then .lossy
  else if u.head + n ≤ k.headroom then .pool 2
  else .headroom

/-! ### The precise sampler at byte 64 (08 R274) -/

/-- The lookup pipe of a frame among the 32 of its shed. DESIGN CHOICE (log 67): a stall with both pipes running gives its frames to
them in turn, by their numbers. -/
def pipeOf (x : Mod) (f : Nat) (fr : Frame) : Nat :=
  2 * (stallOf fr.port % 16) + (if (x.line.clks.get (stallOf fr.port)).one then 0 else f % 2)

/-- The items of some in the order of a rotating pointer over 32 pipes. -/
def byPipe {α : Type} (pipe : α → Nat) (ptr : Nat) (l : List α) : List α :=
  (List.range 32).flatMap (fun i => l.filter (fun e => pipe e == (ptr + i) % 32))

/-- A frame passes byte 64: with every matching frame of its shed that passes it in the same cycle and has not been counted, it is counted
in the order of the sampler's pointer, which then moves past the first (08 R274). -/
def preciseSelect (f : Nat) (fr : Frame) (x : Mod) : Mod :=
  let s := shedOfPort fr.port
  let passes (e : Nat × Frame) : Bool := shedOfPort e.2.port == s && !e.2.counted && !e.2.bad && decide (64 ≤ e.2.bytes.length)
    && decide (byteAt x e.2 64 ≤ x.now) && byteAt x e.2 64 / 625 == byteAt x fr 64 / 625 && preciseMatches x e.2
  if fr.counted || !preciseMatches x fr then x
  else
    let pipe (e : Nat × Frame) : Nat := pipeOf x e.1 e.2
    let order := byPipe pipe (x.cap.sheds.get s).ptr ((f, fr) :: (heldFrames x).filter (fun e => e.1 != f && passes e))
    let x1 := match order with
      | e :: _ => setCap s (fun c => { c with ptr := (pipe e + 1) % 32 }) x
      | [] => x
    order.foldl (fun a e => setFrame e.1 (fun r => { r with counted := true }) (preciseCount s e.1 a)) x1

/-- Byte 64 of a frame: cells are reserved, or the frame is refused whole: then only its drop count and the precise sampler's
record are committed (01 R23). -/
def admitFrame (f : Nat) (fr : Frame) (x : Mod) : Mod :=
  let c := frameCfg x fr
  let s := shedOfPort fr.port
  let hv := vectorOf c fr false
  let cls := portClass hv
  let reserve := cellsFor ((declaredBy hv 64).getD hv.pcfg.maxLen)
  let here := arrivedBytes x fr
  let need := max reserve (cellsFor here)
  let refuse (x : Mod) : Mod :=
    let x1 := preciseRecord f fr none 7 64 none (setFrame f (fun r => { r with refused := true }) x)
    x1
  let x0 := preciseSelect f fr x
  match decideAdmit x0 c s fr.port cls need with
  | .pool p =>
    if need ≤ allocFree x0 s then storeFrame s f p fr.port cls s reserve here (setFrame f (fun r => { r with admitted := true, admAt := r.admAt.or (some x0.now) }) x0)
    else refuse (tally (.lft s 0) x0)
  | .lossy => refuse (tally (.lft s 0) x0)
  | .headroom => refuse (raise (.shed s) evHeadroomDrop (tally (.lft s 1) x0))

/-- LOFT_ADMISSION. -/
def loftAdmit (f : Nat) (x : Mod) : Mod :=
  match frame? x f with
  | none => x
  | some fr =>
    if fr.admitted || fr.refused || fr.bytes.length < 64 || fr.bad || x.now < byteAt x fr 64 then x
    else admitFrame f fr (pcPort fr.port 0x01 1 x)

/-! ### The commands -/

/-- LOFT_ADMISSION. -/
def execLoftAdmission (f : Nat) (st : State) : Host.Outcome State Fault Refusal :=
  cmd (.loftAdmission f) (loftAdmit f) st

/-- CELL_DEC. -/
def execCellDec (s cell requester : Nat) (st : State) : Host.Outcome State Fault Refusal :=
  cmd (.cellDec s cell requester) (releaseNow s { free := false, cell := cell, req := requester, desc := 0 } st.pending) st

/-- CELL_FREE. -/
def execCellFree (s cell requester desc : Nat) (st : State) : Host.Outcome State Fault Refusal :=
  cmd (.cellFree s cell requester desc) (releaseNow s { free := true, cell := cell, req := requester, desc := desc } st.pending) st

/-- FREE_RETRY. -/
def execFreeRetry (s cell : Nat) (st : State) : Host.Outcome State Fault Refusal :=
  cmd (.freeRetry s cell) (retryFree s cell) st

/-- LOFT_AUDIT. -/
def execLoftAudit (s : Nat) (st : State) : Host.Outcome State Fault Refusal :=
  cmd (.loftAudit s) (auditLoft s) st

end Sys2Proof.Machine
end

