-- ==== Sys2Proof/Machine/Hitch.lean ====
section
/-! DEFINITION. Sys2Proof/Machine/Hitch.lean: the hitch lanes of a drawbar direction: where the bits of a slot travel, the scrambler, the
stuffed bits (06 R201, R213); the shed crossbar (06 R198 to R200). -/

namespace Sys2Proof.Machine

/-! ### Slots on lanes (06 R201, R213) -/

/-- Bit `i` of a slot's 4,000, the lowest of byte 0 first (log 75). -/
def slotBit (l : List Byte) (i : Nat) : Bool := (l.getD (i / 8) 0).getLsbD (i % 8)

/-- The 20 bits of a slot on a data lane: bit i travels on lane i mod 200, in word position i div 200. -/
def laneWord (l : List Byte) (lane : Nat) : List Bool := (List.range 20).map (fun k => slotBit l (200 * k + lane))

/-- The clock lane that serves a data lane. -/
def clockLane (lane : Nat) : Nat := if 192 ≤ lane then 12 else lane / 16

/-- One bit on a lane: scrambled additively by x^58 + x^39 + 1; after 31 equal bits one of the opposite value follows. -/
def LaneTx.bit (y : LaneTx × List Bool) (b : Bool) : LaneTx × List Bool :=
  let t := y.1
  let k := t.scr.getLsbD 57 != t.scr.getLsbD 38
  let o := b != k
  let n := if o = t.last then t.run + 1 else 1
  let scr := t.scr <<< 1 ||| (if k then 1#58 else 0#58)
  if n = 31 then ({ scr := scr, last := !o, run := 1, stuffed := t.stuffed + 1 }, y.2 ++ [o, !o])
  else ({ t with scr := scr, last := o, run := n }, y.2 ++ [o])

/-- A slot's word on a lane as it is sent. -/
def LaneTx.word (t : LaneTx) (w : List Bool) : LaneTx × List Bool := w.foldl LaneTx.bit (t, [])

/-- A half's lanes after a slot, and what each carried, by clock lane; none before the first training. -/
def codeSlot (lanes : List LaneTx) (l : List Byte) : List LaneTx × List (List (List Bool)) :=
  if lanes = [] then ([], [])
  else
    let out := ((List.range lanes.length).zip lanes).map (fun e => e.2.word (laneWord l e.1))
    (out.map (·.1), (List.range 13).map (fun c =>
      (((List.range out.length).zip out).filter (fun e => clockLane e.1 == c)).map (·.2.2)))

/-- Whether a lane has stuffed more bits in this superframe than the idle slot of 20 bits absorbs: the cells it carries fail their CRC. -/
def overStuffed (lanes : List LaneTx) : Bool := lanes.any (fun t => decide (20 < t.stuffed))

/-- Lanes with seeds drawn at training: free values. -/
def seedLanes (x : Mod) : List LaneTx × Mod :=
  ((List.range 200).map (fun i => { scr := (Config.freeBits (x.free + i)).setWidth 58 }), { x with free := x.free + 200 })

/-! ### The shed crossbar (06 R198 to R200) -/

/-- The crossbar port of a shed that a port is attached to; the coupler and the management port have none (06 R198). -/
def xbarPort (p : Nat) : Option Nat :=
  if p < 1024 then some (stallOf p % 16) else if p < 1032 then some 16 else if p < 1036 then some 31 else none

/-- The crossbar port of drawbar half `h` that the `i`th cell takes: the two in turn (DESIGN CHOICE, log 76). -/
def xbarHalf (h i : Nat) : Nat := 17 + 2 * h + i % 2

/-- Changes the crossbar of a shed. -/
def setXbar (s : Nat) (g : Xbar → Xbar) (x : Mod) : Mod := { x with mesh := { x.mesh with xbars := x.mesh.xbars.upd s g } }

/-- Where the `i`th cell of a frame enters the crossbar of shed `s`: its ingress port's, or of the half it came over. -/
def xbarIn (fr : Frame) (s i : Nat) : Option Nat :=
  if shedOfPort fr.port = s then xbarPort fr.port else some (xbarHalf (halfToward s (shedOfPort fr.port)) i)

/-- The cells of a copy ask to cross to `out`, those a resequencer has released one matching ahead (06 R200). -/
def crossCells (s f c n : Nat) (out : Nat → Option Nat) (x : Mod) : Mod :=
  match frame? x f with
  | none => x
  | some fr =>
    let early := shedOfPort fr.port != s
    let r (i : Nat) : XReq := { f := f, copy := c, idx := i, from_ := if early then x.cyc else x.cyc + 1 }
    (List.range n).foldl (fun a i => match xbarIn fr s i, out i with
      | some p, some o => setXbar s (fun b => { b with voq := b.voq.upd (p, o) (· ++ [r i]) }) a
      | _, _ => a) x

/-- Whether input `i` has a cell for output `o` in cycle `cyc`. -/
def Xbar.asks (b : Xbar) (cyc i o : Nat) : Bool :=
  match b.voq.get (i, o) with
  | r :: _ => decide (r.from_ ≤ cyc)
  | [] => false

/-- Ports from a pointer on. -/
def fromPtr (p : Nat) : List Nat := (List.range 32).map (fun k => (p + k) % 32)

/-- One iteration over unmatched inputs and outputs: the pairs requested, granted and accepted (06 R199). -/
def Xbar.iterate (b : Xbar) (cyc : Nat) (m : List (Nat × Nat)) : List (Nat × Nat) :=
  let grants := (List.range 32).filterMap (fun o =>
    if m.any (fun e => e.2 == o) then none
    else ((fromPtr (b.grant.get o)).find? (fun i => !(m.any (fun e => e.1 == i)) && b.asks cyc i o)).map (fun i => (i, o)))
  (List.range 32).filterMap (fun i => ((fromPtr (b.accept.get i)).find? (fun o => grants.contains (i, o))).map (fun o => (i, o)))

/-- The matching of a cycle, of three iterations, and the pairs of the first. -/
def Xbar.matching (b : Xbar) (cyc : Nat) : List (Nat × Nat) × List (Nat × Nat) :=
  let m1 := b.iterate cyc []
  let m2 := m1 ++ b.iterate cyc m1
  (m2 ++ b.iterate cyc m2, m1)

/-- The crossbar after a cycle: each pair matched moves one cell; the pointers move past the pairs of the first iteration alone (06 R200);
the ports of requests left unmatched. -/
def Xbar.cycle (b : Xbar) (cyc : Nat) : Xbar :=
  let (m, first) := b.matching cyc
  let left := (b.voq.ents.map (·.1)).filter (fun k => b.asks cyc k.1 k.2 && !m.contains k)
  { voq := m.foldl (fun v e => v.upd e (·.drop 1)) b.voq
    grant := first.foldl (fun g e => g.set e.2 ((e.1 + 1) % 32)) b.grant
    accept := first.foldl (fun a e => a.set e.1 ((e.2 + 1) % 32)) b.accept
    missed := (left.flatMap (fun k => [k.1, k.2])).eraseDups }

/-- One cycle of a shed's crossbar. -/
def xbarCycle (s : Nat) (x : Mod) : Mod :=
  let b := x.mesh.xbars.get s
  if b.voq.ents = [] && b.missed = [] then x else setXbar s (fun b => b.cycle x.cyc) x

end Sys2Proof.Machine
end

