-- ==== Sys2Proof/Machine/Flow.lean ====
section
/-! DEFINITION. Sys2Proof/Machine/Flow.lean: the arithmetic of queues: scheduler nodes, deficit round robin, shapers, meters, WRED
and their residues (07). Tokens are millibits. -/

namespace Sys2Proof.Machine

/-! ### Nodes -/

/-- A scheduler node of a port as last edited, or as the ACTIVE timetable sets it. -/
def nodeOf (x : Mod) (p lvl n : Nat) : Node := (x.que.nodes.get (p, lvl, n)).getD ((actCfg x).node p lvl n)

/-- Whether a node's shaper shapes it (07 R244). -/
def Node.shapes (k : Node) : Bool := k.shape && k.rate != 0

/-- One queue of a port. -/
def queSt (x : Mod) (p q : Nat) : QueSt := x.que.qs.get (p, q)

/-- Changes a shaper. -/
def setShaper (p lvl n : Nat) (f : Shaper → Shaper) (x : Mod) : Mod :=
  { x with que := { x.que with shapers := x.que.shapers.upd (p, lvl, n) f } }

/-- Whether a node has zero or more tokens, or is not shaped. -/
def tokensOk (x : Mod) (p lvl n : Nat) : Bool :=
  !(nodeOf x p lvl n).shapes || decide (0 ≤ (x.que.shapers.get (p, lvl, n)).tok)

/-- Whether a class of a port, or the port (8), is paused now (02 R55, R57). -/
def pausedNow (x : Mod) (p cls : Nat) : Bool :=
  match ((portSt x p).paused.get cls).until_ with
  | some t => x.now < t
  | none => false

/-- Whether a queue is held (07 R233). -/
def queueHeld (x : Mod) (p q : Nat) : Bool :=
  pausedNow x p 8 || (List.range 8).any (fun c => bitOf (nodeOf x p 0 q).classSet c && pausedNow x p c)

/-- Whether a queue is eligible (07 R238). -/
def queueEligible (x : Mod) (p q : Nat) : Bool :=
  (queSt x p q).ents != [] && !queueHeld x p q && tokensOk x p 0 q

/-- The queues of a group. -/
def groupQueues (x : Mod) (p g : Nat) : List Nat := (List.range 16).filter (fun q => (nodeOf x p 0 q).group == g)

/-- Whether a group is eligible. -/
def groupEligible (x : Mod) (p g : Nat) : Bool := (groupQueues x p g).any (queueEligible x p) && tokensOk x p 1 g

/-! ### Deficit weighted round robin (07 R239) -/

/-- A competing child: index, weight, deficit, E of its head frame. -/
structure Child where
  idx    : Nat
  weight : Nat
  def_   : Int
  e      : Nat
  deriving DecidableEq, Repr

/-- The next competing child after index `p`, wrapping. -/
def nextChild (l : List Child) (p : Nat) : Nat :=
  match l.find? (fun c => p < c.idx) with
  | some c => c.idx
  | none => (l.head?.map (·.idx)).getD 0

/-- A child's deficit changed. -/
def addDeficit (l : List Child) (i : Nat) (d : Int) : List Child :=
  l.map (fun c => if c.idx = i then { c with def_ := c.def_ + d } else c)

/-- The round from a pointer: the child chosen, which the pointer then stands on, and the deficits; `n` bounds the visits. -/
def roundRobin : Nat → List Child → Nat → Option (Nat × List Child)
  | 0, _, _ => none
  | n + 1, l, p =>
    let i := if l.any (fun c => c.idx == p) then p else nextChild l p
    match l.find? (fun c => c.idx == i) with
    | none => none
    | some c =>
      if (c.e : Int) ≤ c.def_ then some (i, addDeficit l i (-(c.e : Int)))
      else roundRobin n (addDeficit l i (256 * c.weight)) (nextChild l i)

/-- The highest PRIO of some children. -/
def topPrio (l : List (Nat × Nat)) : Nat := l.foldl (fun a e => max a e.2) 0

/-- The lowest child of a PRIO on which an arbiter's pointer stands before it ever moved. -/
def firstOfPrio (all : List (Nat × Nat)) (prio : Nat) : Nat := ((all.find? (fun e => e.2 == prio)).map (·.1)).getD 0

/-- An arbiter's round pointer; arbiter 4 is the port's. It stands on the lowest child of its PRIO until it moves. -/
def pointerOf (x : Mod) (p arb prio : Nat) (all : List (Nat × Nat)) : Nat :=
  match x.que.ptr.get (p, arb, prio) with
  | 0 => firstOfPrio all prio
  | n + 1 => n

/-- What an arbiter chooses: child, PRIO, deficits. -/
structure Pick where
  child : Nat
  prio  : Nat
  defs  : List Child
  deriving DecidableEq, Repr

/-- One arbiter's choice among its eligible children. -/
def arbitrate (x : Mod) (p arb lvl : Nat) (all : List Nat) (ok : Nat → Bool) (head : Nat → Nat) : Option Pick :=
  let kids := all.map (fun i => (i, (nodeOf x p lvl i).prio))
  let live := kids.filter (fun e => ok e.1)
  let prio := topPrio live
  let comp := (live.filter (fun e => e.2 == prio)).map (fun e =>
    { idx := e.1, weight := (nodeOf x p lvl e.1).weight, def_ := (x.que.shapers.get (p, lvl, e.1)).def_, e := head e.1 })
  (roundRobin 4096 comp (pointerOf x p arb prio kids)).map (fun r => { child := r.1, prio := prio, defs := r.2 })

/-- E of a queue's head frame. -/
def headE (x : Mod) (p q : Nat) : Nat :=
  match (queSt x p q).ents with
  | e :: _ => e.e
  | [] => 0

/-- The queue a group would choose. -/
def pickQueue (x : Mod) (p g : Nat) : Option Pick :=
  arbitrate x p g 0 (groupQueues x p g) (queueEligible x p) (headE x p)

/-- The group a port chooses: a group's head frame is the frame the group would choose. -/
def pickGroup (x : Mod) (p : Nat) : Option Pick :=
  arbitrate x p 4 1 (List.range 4) (groupEligible x p) (fun g =>
    match pickQueue x p g with
    | some k => headE x p k.child
    | none => 0)

/-- An arbiter's choice is taken: deficits and pointer move. -/
def takePick (p arb lvl : Nat) (k : Pick) (x : Mod) : Mod :=
  let x1 := k.defs.foldl (fun a c => setShaper p lvl c.idx (fun s => { s with def_ := c.def_ }) a) x
  { x1 with que := { x1.que with ptr := x1.que.ptr.set (p, arb, k.prio) (k.child + 1) } }

/-- Empty or ineligible children have no deficit. -/
def clearDeficits (p : Nat) (x : Mod) : Mod :=
  let x1 := (List.range 16).foldl (fun a q =>
    if queueEligible a p q then a else setShaper p 0 q (fun s => { s with def_ := 0 }) a) x
  (List.range 4).foldl (fun a g =>
    if groupEligible a p g then a else setShaper p 1 g (fun s => { s with def_ := 0 }) a) x1

/-! ### Residues (07 R253, R262) -/

/-- A failed residue check is recorded and raised. KIND 0 meter, 1 shaper or deficit, 2 queue use, 3 WRED average. -/
def residueFault (kind port obj : Nat) (o : ResObj) (x : Mod) : Mod :=
  let s := if kind = 0 then port else shedOfPort port
  let x1 := { x with que := { x.que with
    resBad := x.que.resBad.filter (· != o)
    resLog := x.que.resLog.upd s (fun w => reg [at_ 30 2 kind, at_ 26 4 (if kind = 0 then 0 else stallOf port % 16),
      at_ 17 9 (fieldOf w 25 17 + 1), at_ 0 17 obj]) } }
  if kind = 0 then raise (.shed s) evMeterResidue x1
  else if port < 1024 then raise (.stall (stallOf port)) evQueResidue x1 else x1

/-- OBJECT of a node. -/
def nodeObj (p lvl n : Nat) : Nat := at_ 7 2 lvl + at_ 4 3 (p % 8) + at_ 0 4 n

/-- A value with a residue and ECC is read where it is updated: a failed check, or a word that ECC cannot correct, is repaired (07 R253,
17 R518). -/
def checkObj (kind port obj : Nat) (o : ResObj) (repair : Mod → Mod) (x : Mod) : Mod :=
  eccRepair (fun w => decide (w = .queue o)) repair
    (if x.que.resBad.contains o then residueFault kind port obj o (repair x) else x)

/-- A shaper's and a deficit's values are repaired to 0. -/
def checkShaper (p lvl n : Nat) (x : Mod) : Mod :=
  checkObj 1 p (nodeObj p lvl n) (.deficit p lvl n) (setShaper p lvl n (fun s => { s with def_ := 0 }))
    (checkObj 1 p (nodeObj p lvl n) (.shaper p lvl n) (setShaper p lvl n (fun s => { s with tok := 0 })) x)

/-- A queue's use is recounted within 10 us; a WRED average is set to the instantaneous depth. -/
def checkQueue (p q : Nat) (x : Mod) : Mod :=
  checkObj 3 p (nodeObj p 0 q) (.avg p q) (setQue p q (fun k => { k with avgNum := queueCells k, avgDen := 0 }))
    (checkObj 2 p (nodeObj p 0 q) (.use p q) (fun x => setQue p q (fun k => { k with recount := some x.now }) x) x)

/-! ### Shapers (07 R242 to R244) -/

/-- Millibits of a number of bytes. -/
def mbits (n : Nat) : Int := (n * 8000 : Nat)

/-- A node's shaper is charged E + OVERHEAD. -/
def chargeShaper (p lvl n e : Nat) (x : Mod) : Mod :=
  let k := nodeOf x p lvl n
  let x1 := checkShaper p lvl n x
  if k.shapes then setShaper p lvl n (fun s => { s with tok := s.tok - ((e : Int) + k.overhead) * 8000 }) x1 else x1

/-- A stomped outrider's refund, never above BURST (07 R241). -/
def refundShaper (p lvl n bytes : Nat) (x : Mod) : Mod :=
  let k := nodeOf x p lvl n
  if k.shapes then setShaper p lvl n (fun s => { s with tok := min (mbits k.burst) (s.tok + mbits bytes) }) x else x

/-- The queue, its group and its port are charged. -/
def chargeAll (p q e : Nat) (x : Mod) : Mod :=
  chargeShaper p 2 0 e (chargeShaper p 1 (nodeOf x p 0 q).group e (chargeShaper p 0 q e x))

/-- One refill of a shaper. -/
def refillShaper (k : Node) (s : Shaper) : Shaper :=
  if k.shapes then { s with tok := min (mbits k.burst) (s.tok + 5 * k.rate) } else s

/-! ### Meters (07 R245 to R250) -/

/-- Settings of a meter record. -/
structure MeterCfg where
  tr     : Bool
  aware  : Bool
  acts   : Nat
  cir    : Nat
  cbs    : Nat
  pir    : Nat
  ebs    : Nat
  ctr    : Nat
  deriving DecidableEq, Repr

/-- Reads a meter record (07 R255). -/
def meterCfg (r : List Byte) : MeterCfg :=
  { tr := leAt r 4 1 == 1, aware := bitOf (leAt r 5 1) 0, acts := leAt r 6 1, cir := leAt r 8 4 % 2 ^ 21,
    cbs := leAt r 0x0C 4 % 2 ^ 24, pir := leAt r 0x10 4 % 2 ^ 21, ebs := leAt r 0x14 4 % 2 ^ 24, ctr := leAt r 0x18 4 }

/-- A full meter. -/
def MeterCfg.full (k : MeterCfg) : MeterSt := { c := mbits k.cbs, e := mbits k.ebs }

/-- One decision: the colour, which buckets are charged (bit 0 C, bit 1 E or P) and the buckets after (07 R245, R246). -/
def meterDecide (k : MeterCfg) (m : MeterSt) (colour bytes : Nat) : Nat × Nat × MeterSt :=
  let b := mbits bytes
  let inC := if k.aware then colour else 0
  if inC = 2 then (2, 0, m)
  else if k.tr then
    if m.e < b then (2, 0, m)
    else if inC = 1 || m.c < b then (1, 2, { m with e := m.e - b })
    else (0, 3, { c := m.c - b, e := m.e - b })
  else if inC = 0 && b ≤ m.c then (0, 1, { m with c := m.c - b })
  else if b ≤ m.e then (1, 2, { m with e := m.e - b })
  else (2, 0, m)

/-- One refill of a meter's buckets. -/
def refillMeter (k : MeterCfg) (m : MeterSt) : MeterSt :=
  let c := m.c + 5 * k.cir
  if k.tr then { c := min c (mbits k.cbs), e := min (m.e + 5 * k.pir) (mbits k.ebs) }
  else { c := min c (mbits k.cbs), e := min (m.e + max 0 (c - mbits k.cbs)) (mbits k.ebs) }

/-- The record of meter `i` in a shed, under the tables of a bank. -/
def meterRec (x : Mod) (s : Nat) (bank : Option Nat) (i : Nat) : Option MeterCfg :=
  ((viewOf x s bank).index 0x0B 4 i).map (fun e => meterCfg e.dat)

/-- The buckets of a meter, full when nothing has been charged. -/
def meterSt (x : Mod) (s i : Nat) (k : MeterCfg) : MeterSt := (x.que.meters.get (s, i)).getD k.full

/-- Puts a meter's buckets back. -/
def setMeter (s i : Nat) (m : MeterSt) (x : Mod) : Mod :=
  { x with que := { x.que with meters := x.que.meters.set (s, i) (some m) } }

/-- A meter's buckets are set full (07 R253). -/
def checkMeter (s i : Nat) (x : Mod) : Mod :=
  checkObj 0 s i (.meter s i) (fun x => { x with que := { x.que with meters := x.que.meters.set (s, i) none } }) x

/-- At a 5 ns boundary every shaper and meter is refilled (07 R242, R245). -/
def refillAll (x : Mod) : Mod :=
  if x.now % 5000 != 0 || x.que.refill == some x.now then x
  else
    let x1 := (x.que.resBad ++ x.ecc.filterMap (fun e => match e.word with
      | .queue o => some o
      | _ => none)).foldl (fun a o =>
      match o with
      | .meter s i => checkMeter s i a
      | .shaper p l n => checkShaper p l n a
      | _ => a) x
    { x1 with que := { x1.que with
      refill := some x.now
      shapers := x1.que.shapers.mapEnts (fun k s => refillShaper (nodeOf x1 k.1 k.2.1 k.2.2) s)
      meters := x1.que.meters.mapEnts (fun k m =>
        match m, meterRec x1 k.1 x1.tt.active k.2 with
        | some v, some c => some (refillMeter c v)
        | m, _ => m) } }

/-! ### WRED (07 R251, R252) -/

/-- The WRED record a queue names, if it enables WRED. -/
def wredRec (x : Mod) (p q : Nat) : Option (List Byte) :=
  match (nodeOf x p 0 q).wred with
  | none => none
  | some i => ((viewOf x (shedOfPort p) x.tt.active).index 0x0C 1 i).map (·.dat)

/-- The average after one update with weight `w`: avg + (depth − avg) / 2^w, exactly. -/
def wredAvg (w depth num den : Nat) : Nat × Nat :=
  let n := num * (2 ^ w - 1) + depth * 2 ^ den
  if n = 0 then (0, 0) else if w = 0 then (depth, 0) else (n, den + w)

/-- A queue's average is updated. -/
def updateAvg (p q : Nat) (x : Mod) : Mod :=
  match wredRec x p q with
  | none => x
  | some r =>
    let x1 := checkQueue p q x
    let k := queSt x1 p q
    let a := wredAvg (leAt r 1 1 % 16) (queueCells k) k.avgNum k.avgDen
    setQue p q (fun k => { k with avgNum := a.1, avgDen := a.2 }) x1

/-- Whether the action of a colour is taken at an average, by a 16-bit draw; and whether its ECN bit is set. -/
def wredActs (r : List Byte) (colour num den draw : Nat) : Bool × Bool :=
  let o := 4 + 12 * colour
  let mn := leAt r o 4 % 2 ^ 18
  let mx := leAt r (o + 4) 4 % 2 ^ 18
  let fl := leAt r (o + 10) 1
  let d := 2 ^ den
  let act := if !bitOf fl 0 || num ≤ mn * d then false
    else if mx * d < num then true
    else draw * (mx - mn) * d < leAt r (o + 8) 2 * (num - mn * d)
  (act, bitOf fl 1)

/-- Every 1 us all averages are updated (07 R251). -/
def wredTick (x : Mod) : Mod :=
  if x.now % us 1 != 0 || x.que.avgAt == some x.now then x
  else
    let x1 := { x with que := { x.que with avgAt := some x.now } }
    x1.que.qs.ents.foldl (fun a e => updateAvg e.1.1 e.1.2 a) x1

/-- A queue's recount ends within 10 us (07 R253). -/
def recountDone (p q : Nat) (x : Mod) : Mod := setQue p q (fun k => { k with recount := none }) x

/-! ### The commands -/

/-- REFILL_TICK. -/
def execRefillTick (st : State) : Host.Outcome State Fault Refusal :=
  cmd (.refillTick) (refillAll) st

/-- WRED_AVERAGE_TICK. -/
def execWredAverageTick (st : State) : Host.Outcome State Fault Refusal :=
  cmd (.wredAverageTick) (wredTick) st

/-- QUEUE_USE_RECOUNT_DONE. -/
def execQueueUseRecountDone (port q : Nat) (st : State) : Host.Outcome State Fault Refusal :=
  cmd (.queueUseRecountDone port q) (recountDone port q) st

end Sys2Proof.Machine
end

