-- ==== Sys2Proof/Machine/Resolve.lean ====
section
/-! DEFINITION. Sys2Proof/Machine/Resolve.lean: what the guard check resolves for a frame: policies, ACL searches, the merge, the
disposition (03 R84 to R104, 04 R117). Nothing is committed here. -/

namespace Sys2Proof.Machine

/-! ### ACL (03 R94 to R101) -/

/-- The action record of an ACL entry. -/
def aclAction (dat : List Byte) : List Byte := sliceOf dat 0xA8 32

/-- Whether an entry's slice belongs to a group, the entry is valid and matches the key. -/
def aclMatches (c : TtContent) (g : Nat) (key : BitVec 640) (dat : List Byte) : Bool :=
  c.acl.slice.get (leAt dat 0 1) == some g && bitOf (leAt dat 1 1) 0 &&
    (key ^^^ BitVec.ofNat 640 (leNat (sliceOf dat 8 80))) &&& BitVec.ofNat 640 (leNat (sliceOf dat 0x58 80)) == 0

/-- The place of an ACL entry: slice and entry, in the order of the group index. -/
def aclPlace (dat : List Byte) : Nat := 4096 * leAt dat 0 1 + leAt dat 2 2 % 4096

/-- The record with the lower group index. -/
def lowerAcl (a : Option (List Byte)) (b : List Byte) : Option (List Byte) :=
  match a with
  | none => some b
  | some r => if aclPlace b < aclPlace r then some b else some r

/-- The winning record of a group, if its search is made and finds one. -/
def aclWinner (v : View) (hv : HVec) (g : Nat) : Option (List Byte) :=
  match hv.c.cfg.acl.select.get (g, hv.pcfg.aclClass, hv.fclass) with
  | none => none
  | some prof =>
    let key := hv.key (hv.c.cfg.acl.keys.get prof)
    (((v 0x0F).map (·.dat)).filter (aclMatches hv.c.cfg g key)).foldl lowerAcl none

/-- FLAGS of an action record. -/
def actFlag (a : List Byte) (i : Nat) : Bool := bitOf (leAt a 2 2) i

/-- The rewrite template an action record names. -/
def template (v : View) (a : List Byte) : List Byte :=
  match v.index 0x10 2 (leAt a 0x14 4 % 2 ^ 13) with
  | some e => e.dat
  | none => []

/-- A value that a group sets replaces what lower groups and the forwarding set. -/
def orOld {α : Type} (new old : Option α) : Option α := if new.isSome then new else old

/-- One group's edits orOld those below it (03 R99, R100, R101). -/
def groupEdits (v : View) (acts : Acts) (a : List Byte) : Acts :=
  let t := template v a
  let fl (i n : Nat) : Option Nat := if actFlag a 6 && bitOf (leAt t 2 2) i then some n else none
  let tag := leAt t 0x10 2
  let pp := leAt a 0x1A 1
  let op := leAt a 0x18 1
  let vid := fl 2 (tag % 4096)
  { acts with
    cls := if actFlag a 1 then leAt a 8 1 % 8 else acts.cls
    queue := if actFlag a 2 then some (leAt a 9 1) else acts.queue
    colour := if actFlag a 3 then leAt a 0x0A 1 else acts.colour
    da := orOld (fl 0 (beAt t 4 6)) acts.da
    sa := orOld (fl 1 (beAt t 0x0A 6)) acts.sa
    vid := if acts.nhVid.isSome then acts.vid else orOld vid acts.vid
    nhVid := if acts.nhVid.isSome then orOld vid acts.nhVid else none
    pcp := orOld (fl 3 (tag / 8192)) acts.pcp
    dei := orOld (fl 4 (tag / 4096 % 2)) acts.dei
    dscp := orOld (fl 5 (leAt t 0x12 1 % 64)) acts.dscp
    ecn := orOld (fl 6 (leAt t 0x13 1 % 4)) acts.ecn
    ttl := if op = 1 then some none else if op = 2 then some (some (leAt a 0x19 1)) else acts.ttl
    popTags := if pp / 64 ≠ 0 then min 2 (pp / 64) else acts.popTags
    pushTags := if pp / 16 % 4 ≠ 0 then sliceOf t 0x14 (4 * min 2 (pp / 16 % 4)) else acts.pushTags
    popLab := if bitOf pp 1 then pp / 4 % 4 + 1 else acts.popLab
    pushLab := if bitOf pp 0 then sliceOf t 0x1C (4 * min 4 (leAt t 0x2C 1)) else acts.pushLab }

/-! ### Mirror sessions (08 R265, R266) -/

/-- The underlay of a tunnel encapsulation record: addresses and VID of its next hop (12 R399; log 31). -/
def underlayOf (v : View) (en : List Byte) : Option (List Byte × List Byte × Option Nat) :=
  (v.index 5 4 (leAt en 0x2C 4 % 2 ^ 18)).map (fun u =>
    (sliceOf u.dat 8 6, beBytes 6 (rmac v (leAt u.dat 14 1)),
     if bitOf (leAt u.dat 15 1) 1 then some (leAt u.dat 16 2 % 4096) else none))

/-- A mirror session of a shed as its replica holds it now: its record, and the tunnel that a session of KIND 2 names. -/
def mirrorRec (v : View) (s n : Nat) : Option MirRec :=
  (v.find 0x0D [BitVec.ofNat 8 s, BitVec.ofNat 8 n]).map (fun e =>
    { n := n, dat := e.dat
      hdr := if leAt e.dat 2 1 = 2 then
          (v.index 9 4 (leAt e.dat 8 2 % 2 ^ 14)).bind (fun t => (underlayOf v t.dat).map (fun u => (t.dat, u)))
        else none })

/-! ### What is resolved -/

/-- The resolution of one frame. `prs` are the PRS counters it counts in, `lkp` the LKP misses, `hits` the ACL groups that
matched, `parity` a winning entry with bad parity, `meters` with their groups' order, `aclCopy` the punt copy that a group asks
for and `punts` the one taken, as source and reason, `learn` the keys to learn, `hitL2` the dynamic entries the source searches
found, `static_` a violation. -/
structure Resolved where
  hv      : HVec
  fwd     : Fwd
  acts    : Acts
  dispo   : Dispo
  mcast   : Bool := false
  prs     : List Nat := []
  lkp     : List Nat := []
  hits    : List Nat := []
  parity  : Option (Nat × Nat) := none
  counters: List Nat := []
  meters  : List Nat := []
  sessions: List MirRec := []
  excess  : Bool := false
  aclCopy : List (Nat × Nat) := []
  punts   : List (Nat × Nat) := []
  learn   : List (Nat × BitVec 48) := []
  hitL2   : List (Nat × BitVec 48) := []
  static_ : Bool := false

/-- The punt reason of a source other than an ACL entry (13 R426). -/
def reasonOf (c : TtContent) (src : Nat) : Nat := (c.srcReason.get src).getD (0xF0 + src)

/-- The traffic class, colour and hash a frame starts with (07 R246; log 29). -/
def firstActs (hv : HVec) : Acts :=
  { cls := portClass hv, colour := hv.pcfg.colour.getD (2 * hv.pcp + hv.dei) 0, hashA := hv.hashA, tpid := hv.c.prof.tpid }

/-- The forwarding's rewrites. -/
def fwdActs (hv : HVec) (f : Fwd) : Acts :=
  { firstActs hv with
    da := f.da
    sa := f.sa
    nhVid := f.vid
    ttl := if f.decTtl then some none else none
    decap := f.decap
    decapIp := f.decap.isSome && f.ip.isSome
    encap := f.encap
    underlay := f.underlay }

/-- Suppression above L2 of a flagged frame's edits (03 R86), and whether anything was suppressed. -/
def suppress (a : Acts) : Acts × Bool :=
  let b := { a with ttl := none, dscp := none, ecn := none, popLab := 0, pushLab := [], decap := none, decapIp := false,
                    encap := none, underlay := none }
  (b, b != a)

/-- DISPOSITION of an action record. -/
def dispCode (a : List Byte) : Nat := leAt a 0 1

/-- A redirect's forwarding: its destination and next hop take the place of the lookup's (03 R100, R101). -/
def redirect (v : View) (hv : HVec) (a : List Byte) (f : Fwd) : Fwd :=
  let w := leAt a 4 4
  let base : Fwd := { f with dest := .drop, nextHop := none, decap := none, da := none, sa := none, vid := none, decTtl := false,
                             encap := none, underlay := none }
  let i := bitsOf w 29 0
  match w / 2 ^ 30 with
  | 0 => { base with dest := .port i }
  | 1 => nextHopOf v hv i base
  | _ => groupOf v hv i base

/-- The TTL or hop limit of the header a frame is routed on. -/
def ttlOf (hv : HVec) (h : HdrEnt) : Nat := hv.c.at_ (h.off + (if h.typ = 0x09 then 8 else 7)) 1

/-- Where a forwarding result sends a frame; the second part says that it is a multicast or flooded frame (07 R232). -/
def dispoOf (c : TtContent) (v : View) (ingress : Nat) (d : FDest) : Dispo × Bool :=
  match d with
  | .drop => (.drop 0, false)
  | .punt src => (.punt src (reasonOf c src), false)
  | .port p => (.ports [p], false)
  | .mcast g _ => (.ports (resolveGroup v g ingress), true)

/-- Whether an L2 entry's DEST is the ingress port or the port's LAG group. -/
def destIsPort (k : PortCfg) (p dest : Nat) : Bool :=
  dest == p || (dest / 2 ^ 30 == 1 && k.lag == some (dest % 2 ^ 30))

/-- The source search of one key (04 R117 step 1, R126, R130). -/
def sourceSearch (v : View) (hv : HVec) (r : Resolved) (key : Nat × BitVec 48) : Resolved :=
  match v.l2 key.1 key.2.toNat with
  | none => { r with learn := r.learn ++ [key] }
  | some e =>
    let here := destIsPort hv.pcfg hv.port (leAt e.dat 8 4)
    if bitOf (leAt e.dat 0x0C 2) 0 then { r with static_ := r.static_ || !here }
    else { r with hitL2 := r.hitL2 ++ [key], learn := if here then r.learn else r.learn ++ [key] }

/-- Mirror sessions: from groups 3 down to 0, then the port's own; two are taken (03 R100; 08 R265). DESIGN CHOICE (log 64): a
session named twice is one session, and gives no excess. -/
def sessionsOf (k : PortCfg) (wins : List (Nat × List Byte)) : List Nat :=
  ((wins.reverse.filter (fun w => actFlag w.2 7)).map (fun w => leAt w.2 0x0B 1) ++ k.inMirror).eraseDups

/-- The highest-numbered group's record with a DISPOSITION. -/
def topDisp (wins : List (Nat × List Byte)) (code : Nat) : Option (List Byte) :=
  (wins.reverse.find? (fun w => dispCode w.2 == code)).map (·.2)

/-- What decides a frame's forwarding: the lookup, for a frame handled as L2 only its L2 part (03 R85), or a disposition settled
without the lookup (03 R84, 02 R66, 11 R363). -/
inductive How where
  | lookup (l2only : Bool)
  | settled (d : Dispo)

/-- The forwarding of a frame whose disposition the lookup doesn't decide: its FID, VRF and source search alone. -/
def noLookup (hv : HVec) : Fwd :=
  let fid := hv.c.cfg.fidMap.get hv.vid
  { fid := fid, vrf := vrfOf hv.c.cfg fid hv.pcfg.vrf, sources := [(fid, BitVec.ofNat 48 (hv.c.at_ 6 6))] }

/-- The resolution of a frame: every group is searched for every frame (03 R94), and the merge of 03 R100 follows. DESIGN CHOICE
(log 64): an ACL punt stands before an expired TTL; one punt copy is taken of those that groups, L2 entry and next hop ask for, a
group's first; of two winning entries with bad parity the lowest group's is logged, and the event is raised once. -/
def resolveFull (x : Mod) (s : Nat) (v : View) (hv : HVec) (how : How) : Resolved :=
  let c := hv.c.cfg
  let wins := (List.range 4).filterMap (fun g => (aclWinner v hv g).map (fun a => (g, aclAction a)))
  let bad := (List.range 4).filterMap (fun g =>
    match aclWinner v hv g with
    | some a => if x.tbl.aclBad.contains (s, leAt a 0 1, leAt a 2 2 % 4096) then some (leAt a 0 1, leAt a 2 2 % 4096) else none
    | none => none)
  let look := match how with
    | .lookup l2only => lookup v hv l2only
    | .settled _ => noLookup hv
  let f := match how, topDisp wins 2 with
    | .lookup _, some a => redirect v hv a look
    | _, _ => look
  let (acts, supp) := let a := wins.foldl (fun acts w => groupEdits v acts w.2) (fwdActs hv f)
    if hv.flagged then suppress a else (a, false)
  let routed := look.ip
  let csum := match routed with
    | some h => hv.r.badSum.contains h.off
    | none => false
  let forwards := f.dest != .drop && f.dest != .punt 5
  let ttl := match routed with
    | some h => ttlOf hv h ≤ 1 && forwards
    | none => false
  let r0 : Resolved := look.sources.foldl (sourceSearch v hv) { hv := hv, fwd := f, acts := acts, dispo := .drop 0 }
  let viol := r0.static_ && hv.pcfg.staticDrop
  let (dispo, mcast, prs) : Dispo × Bool × List Nat :=
    if bad ≠ [] then (.drop 6, false, [9])
    else match how with
    | .settled d => (d, false, [])
    | .lookup _ =>
    if (topDisp wins 4).isSome then (.drop 6, false, [11])
    else if look.toRouter then (.drop 0, false, [5])
    else if csum then (.drop 0, false, [13])
    else if viol then (.drop 0, false, [])
    else
      match topDisp wins 3 with
      | some a => (.punt 0 (leAt a 1 1), false, [12])
      | none =>
        if ttl then (.punt 3 (reasonOf c 3), false, [8])
        else
          let d := dispoOf c v hv.port f.dest
          (d.1, d.2, [])
  let sess := sessionsOf hv.pcfg wins
  let aclCopy := match wins.reverse.find? (fun w => actFlag w.2 0) with
    | some w => [(1, leAt w.2 1 1)]
    | none => []
  { r0 with
    dispo := dispo
    mcast := mcast
    prs := prs ++ (if supp then [7] else []) ++ (if hv.r.unknown then [6] else [])
      ++ wins.map (fun w => 16 + w.1) ++ (if 2 < sess.length then [10] else [])
    lkp := f.misses
    hits := wins.map (·.1)
    parity := bad.head?
    counters := (wins.filter (fun w => actFlag w.2 5)).map (fun w => leAt w.2 0x10 4 % 2 ^ 20) ++ f.counters
    meters := (wins.filter (fun w => actFlag w.2 4)).map (fun w => leAt w.2 0x0C 4 % 2 ^ 17)
    sessions := (sess.take 2).filterMap (mirrorRec v s)
    aclCopy := aclCopy
    punts := match dispo with
      | .punt _ _ => []
      | .drop _ => aclCopy
      | .ports _ => (aclCopy ++ f.copies.map (fun src => (src, reasonOf c src))).take 1 }

/-- A frame of the partner that names the port it leaves by (11 R349, R364): no group is searched and nothing is learnt. -/
def resolveSendTo (hv : HVec) (p : Nat) : Resolved :=
  { hv := hv, acts := firstActs hv, dispo := .ports [p], fwd := { noLookup hv with sources := [] }
    prs := if hv.r.unknown then [6] else [] }

/-- The PRS counters of a flagged frame. -/
def flagCounts (hv : HVec) : List Nat := (if hv.trunc then [0] else []) ++ (if hv.conf then [1] else [])

/-- What the guard check resolves for a frame; `known` once its last byte has arrived. -/
def resolve (x : Mod) (fr : Frame) (known : Bool) : Resolved :=
  let c := frameCfg x fr
  let hv := vectorOf c fr known
  let s := shedOfPort fr.port
  let v := viewOf x s fr.bank
  match fr.side with
  | .sendTo p => resolveSendTo hv p
  | _ =>
    let flagged (n : Nat) (how : How) : Resolved :=
      let r := resolveFull x s v hv how
      { r with prs := flagCounts hv ++ [n] ++ r.prs }
    if hv.pcfg.macsec && hv.c.at_ 12 2 = 0x888E then resolveFull x s v hv (.settled (.punt 4 (reasonOf c 4)))
    else if hv.flagged then
      match hv.policy with
      | 0 => flagged 2 (.settled (.drop 0))
      | 1 => flagged 3 (.settled (.punt 2 (reasonOf c 2)))
      | _ => flagged 4 (.lookup true)
    else resolveFull x s v hv (.lookup false)

end Sys2Proof.Machine
end

