-- ==== Sys2Proof/Machine/Tickets.lean ====
section
/-! DEFINITION. Sys2Proof/Machine/Tickets.lean: the ticket cache: lookup, install, update, blocking, clears by edits, generations
and sweeps (05 R149 to R159). -/

namespace Sys2Proof.Machine

/-! ### Lookup -/

/-- The masked first 32 bytes of a frame (05 R150). -/
def maskedHead (mask : Nat) (bytes : List Byte) : List Byte :=
  (List.range 32).map (fun i => if bitOf mask i then bytes.getD i 0 else 0)

/-- The ticket key of a frame. -/
def ticketKey (x : Mod) (fr : Frame) : BitVec 64 :=
  Config.ticketHash (maskedHead ((frameCfg x fr).cfg fr.port).hashMask fr.bytes) fr.port

/-- The ticket numbers of a key's set: 8 × set + way. -/
def setOf (key : BitVec 64) : List Nat := (List.range 8).map (fun w => 8 * bitsOf key.toNat 11 0 + w)

/-- The signature of a key. -/
def sigOf (key : BitVec 64) : BitVec 40 := BitVec.ofNat 40 (bitsOf key.toNat 51 12)

/-- One ticket of a shed. -/
def tkt? (x : Mod) (s t : Nat) : Option Tkt := (x.tkt.get s).ways.get t

/-- Changes or removes one ticket. -/
def putTkt (s t : Nat) (k : Option Tkt) (x : Mod) : Mod := setTkt s (fun c => { c with ways := c.ways.set t k }) x

/-- A ticket read with bad parity is invalidated, a Notice (05 R159). -/
def parityTickets (s : Nat) (l : List Nat) (x : Mod) : Mod :=
  l.foldl (fun a t =>
    if (a.tkt.get s).bad.contains t then
      raiseWith (.shed s) evTicketParity none t (setTkt s (fun c => { c with
        bad := c.bad.filter (· != t), ways := c.ways.set t none }) a)
    else a) x

/-- Whether a way holds a ticket of a frame: its signature and its port. -/
def Tkt.isFor (k : Tkt) (x : Mod) (fr : Frame) : Bool := k.sig == sigOf (ticketKey x fr) && k.port == fr.port

/-- Whether a frame hits a ticket: the ticket is the frame's, of the shed's generation and the frame's epoch (05 R151). -/
def Tkt.hits (k : Tkt) (x : Mod) (fr : Frame) : Bool :=
  k.isFor x fr && k.gen == (x.tkt.get (shedOfPort fr.port)).gen && k.epoch == fr.epoch

/-- The ticket that a frame hits (05 R151). -/
def hitOf (x : Mod) (fr : Frame) : Option Nat :=
  (setOf (ticketKey x fr)).find? (fun t => (tkt? x (shedOfPort fr.port) t).any (·.hits x fr))

/-- The ticket a frame has hit, while it still stands in its way. -/
def frameTkt (x : Mod) (fr : Frame) : Option (Nat × Tkt) :=
  fr.tkt.bind (fun t => ((tkt? x (shedOfPort fr.port) t).filter (·.isFor x fr)).map (fun k => (t, k)))

/-! ### Predictions -/

/-- What a guard result predicts: one port, queue, class, edits. -/
structure Predict where
  port  : Nat
  queue : Nat
  cls   : Nat
  acts  : Acts
  dep   : BitVec 16
  nh    : Option Nat
  deriving DecidableEq, Repr

/-- Whether a ticket's prediction equals a result in egress port, queue, class and every recipe field (05 R156, R166). -/
def Tkt.equals (k : Tkt) (p : Predict) (tagged : Bool) : Bool :=
  k.egress == p.port && k.queue == p.queue && k.cls == p.cls && p.acts.recipeOk tagged && k.acts.recipe == p.acts.recipe

/-- Row 4 of 05 R160 for the ports: no MACsec, no redundancy. -/
def rowPorts (c : TtContent) (a b : Nat) : Bool :=
  !(c.cfg a).macsec && !(c.cfg b).macsec && !(c.cfg a).redundant && !(c.cfg b).redundant

/-- Row 4 of 05 R160 for the frame: no RTAG, no PTP header with messageType 0 to 7. -/
def rowHeaders (hv : HVec) : Bool :=
  (hv.r.first 0x04).isNone && (match hv.r.first 0x08 with
    | some h => 8 ≤ hv.c.at_ h.off 1 % 16
    | none => true)

/-- Whether a frame carries a tag, by its parse profile. -/
def frameTagged (x : Mod) (fr : Frame) : Bool :=
  let c := frameCfg x fr
  tagCount (c.profiles.get (c.cfg fr.port).profile).tpid fr.bytes != 0

/-- Rows 1, 3, 4, 5 and 9 of 05 R160. -/
def rowsStatic (c : TtContent) (hv : HVec) (ingress egress : Nat) : Bool :=
  ingress < 1024 && egress < 1024 && (c.cfg ingress).otrEn && (c.cfg egress).otrEn && daType hv.c.bytes = 0
    && rowPorts c ingress egress && rowHeaders hv && !fasterThan (portGbps c egress) (portGbps c ingress) && !hv.flagged

/-- Whether a ticket may be installed for a result (05 R154); it predicts a unicast queue (05 R152). -/
def installable (x : Mod) (fr : Frame) (hv : HVec) (p : Predict) : Bool :=
  let c := frameCfg x fr
  rowsStatic c hv fr.port p.port && decide (p.queue < 12) && p.acts.recipeOk (frameTagged x fr)
    && (shedOfPort fr.port == shedOfPort p.port || decide (portGbps c p.port ≤ 800))
    && fr.epoch == x.tt.epoch

/-- The way an install takes (05 R155), and whether it displaces a valid current ticket. -/
def chooseWay (x : Mod) (s : Nat) (set : List Nat) : Option (Nat × Bool) :=
  let c := x.tkt.get s
  match set.find? (fun t => (c.ways.get t).isNone) with
  | some t => some (t, false)
  | none =>
    match set.find? (fun t =>
        match c.ways.get t with
        | some k => k.gen != c.gen || k.epoch != x.tt.epoch
        | none => false) with
    | some t => some (t, false)
    | none =>
      let age (t : Nat) : Option Nat :=
        match c.ways.get t with
        | some k => if k.blocked then none else some (ageTick x - k.lastUse).toNat
        | none => none
      (set.foldl (fun (best : Option (Nat × Nat)) t =>
        match age t, best with
        | none, b => b
        | some a, none => some (t, a)
        | some a, some b => if b.2 < a then some (t, a) else some b) none).map (fun e => (e.1, true))

/-- A ticket with a new prediction. -/
def newTkt (x : Mod) (s : Nat) (fr : Frame) (p : Predict) : Tkt :=
  { sig := sigOf (ticketKey x fr), port := fr.port, egress := p.port, queue := p.queue, cls := p.cls, gen := (x.tkt.get s).gen,
    epoch := fr.epoch, minLen := fr.bytes.length, acts := p.acts, lastUse := ageTick x, dep := p.dep, nextHop := p.nh }

/-- An install (05 R154, R155). -/
def installTkt (fr : Frame) (p : Predict) (x : Mod) : Mod :=
  let s := shedOfPort fr.port
  match chooseWay x s (setOf (ticketKey x fr)) with
  | none => tally (.otrT s 2) x
  | some (t, displaced) =>
    let x1 := tally (.otrT s 0) (putTkt s t (some (newTkt x s fr p)) x)
    if displaced then tally (.otrT s 1) x1 else x1

/-! ### Updates (05 R156) -/

/-- An agreeing result. -/
def agreeTkt (k : Tkt) (tick : BitVec 20) (len threshold : Nat) : Tkt :=
  let n := min 15 (k.streak + 1)
  { k with streak := n, elig := k.elig || threshold ≤ n, minLen := min k.minLen len, lastUse := tick }

/-- The count of the refute window after a disagreeing result, and the window's opening. -/
def refuteCount (k : Tkt) (now : Nat) : Nat × Nat :=
  match k.windowAt with
  | some t => if now < t + sec 1 then (min 15 (k.refutes + 1), t) else (1, now)
  | none => (1, now)

/-- The guard result of a frame updates the ticket it hit, if that still stands: it agrees when it equals the prediction and
confirms. -/
def updateTkt (fr : Frame) (hv : HVec) (confirms : Bool) (p : Option Predict) (x : Mod) : Mod :=
  let s := shedOfPort fr.port
  let port := (frameCfg x fr).cfg fr.port
  match frameTkt x fr with
  | none => x
  | some (t, k) =>
    if k.blocked then x
    else if confirms && p.any (fun p => k.equals p (frameTagged x fr)) then putTkt s t (some (agreeTkt k (ageTick x) fr.bytes.length port.confirm)) x
    else
      match p with
      | some p =>
        if installable x fr hv p then
          let (n, w) := refuteCount k x.now
          let k1 := { newTkt x s fr p with gen := k.gen, epoch := k.epoch, refutes := n, windowAt := some w }
          if port.refute ≤ n then
            raise (.stall (stallOf fr.port)) evTicketBlocked
              (tally (.otrT s 5) (putTkt s t (some { k1 with blocked := true, blockAt := x.now }) x))
          else putTkt s t (some k1) x
        else putTkt s t none x
      | none => putTkt s t none x

/-- The end of a block: STREAK 0 and ELIGIBLE 0. -/
def blockEnds (s t : Nat) (x : Mod) : Mod :=
  match tkt? x s t with
  | none => x
  | some k =>
    if k.blocked && passed x.now k.blockAt (ms (actCfg x).blockMs) then
      putTkt s t (some { k with blocked := false, streak := 0, refutes := 0, elig := false, windowAt := none }) x
    else x

/-- The end of a refute window of 1 s. -/
def windowEnds (s t : Nat) (x : Mod) : Mod :=
  match tkt? x s t with
  | none => x
  | some k =>
    match k.windowAt with
    | some w => if !k.blocked && passed x.now w (sec 1) then putTkt s t (some { k with refutes := 0, windowAt := none }) x else x
    | none => x

/-! ### Edits and generations (05 R157, R158) -/

/-- ELIGIBLE is cleared on every ticket of a shed that `p` selects. -/
def clearEligible (s : Nat) (p : Tkt → Bool) (x : Mod) : Mod :=
  let hit (k : Option Tkt) : Bool :=
    match k with
    | some k => k.elig && p k
    | none => false
  let n := ((x.tkt.get s).ways.ents.filter (fun e => hit e.2)).length
  count (.otrT s 3) n (setTkt s (fun c => { c with ways := c.ways.mapEnts (fun _ k =>
    if hit k then k.map (fun t => { t with elig := false }) else k) }) x)

/-- An edit asks for the next generation of a shed. -/
def askGen (s : Nat) (x : Mod) : Mod := setTkt s (fun c => { c with genDue := true }) x

/-- The generation advances, at most once per 1 us. A sweep begins, or the one in progress takes in the new stale tickets: its 200
us stand. -/
def advanceGen (s : Nat) (x : Mod) : Mod :=
  let c := x.tkt.get s
  let free := match c.genAt with
    | some t => passed x.now t (us 1)
    | none => true
  if c.genDue && free then
    tally (.otrT s 4) (setTkt s (fun c => { c with
      gen := c.gen + 1, genAt := some x.now, genDue := false, sweepAt := orOld c.sweepAt (some x.now) }) x)
  else x

/-- The Ostlers have invalidated every stale ticket. -/
def sweepDone (s : Nat) (x : Mod) : Mod :=
  if (x.tkt.get s).sweepAt.isNone then x
  else setTkt s (fun c => { c with sweepAt := none, late := false, ways := c.ways.mapEnts (fun _ k =>
    match k with
    | some t => if t.gen = c.gen then some t else none
    | none => none) }) x

/-- A sweep has not completed within 200 us: a Fault, and outriders in the shed stop (05 R187). -/
def sweepLate (s : Nat) (x : Mod) : Mod :=
  let c := x.tkt.get s
  match c.sweepAt with
  | some t => if t + us 200 < x.now && !c.late then raise (.shed s) evSweepLate (setTkt s (fun c => { c with late := true }) x) else x
  | none => x

/-! ### The host's view (05 R152) -/

/-- The 48-byte record of a ticket. -/
def tktRecord (k : Tkt) : List Byte :=
  let a := k.acts
  let vid := match a.nhVid with
    | some v => some v
    | none => a.vid
  leBytes 5 k.sig.toNat ++ zeros 1 ++ leBytes 2 k.port ++ leBytes 2 k.egress
    ++ [BitVec.ofNat 8 (1 + flag 1 k.elig + flag 2 k.blocked + flag 3 (shedOfPort k.port != shedOfPort k.egress)),
        BitVec.ofNat 8 (k.queue + 16 * k.cls), k.gen, BitVec.ofNat 8 (k.streak + 16 * k.refutes),
        BitVec.ofNat 8 k.epoch.toNat, 0]
    ++ leBytes 2 k.minLen ++ leBytes 2 a.recipeFlags ++ beBytes 6 (a.da.getD 0) ++ beBytes 6 (a.sa.getD 0)
    ++ leBytes 2 (at_ 13 3 (a.pcp.getD 0) + at_ 12 1 (a.dei.getD 0) + at_ 0 12 (vid.getD 0))
    ++ [BitVec.ofNat 8 (a.dscp.getD 0), 0] ++ leBytes 4 k.lastUse.toNat ++ leBytes 2 k.dep.toNat ++ zeros 2
    ++ leBytes 4 (match k.nextHop with | some i => i + 2 ^ 31 | none => 0)

/-! ### The commands -/

/-- TICKET_GEN_ADVANCE. -/
def execTicketGenAdvance (s : Nat) (st : State) : Host.Outcome State Fault Refusal :=
  cmd (.ticketGenAdvance s) (advanceGen s) st

/-- TICKET_SWEEP_DONE. -/
def execTicketSweepDone (s : Nat) (st : State) : Host.Outcome State Fault Refusal :=
  cmd (.ticketSweepDone s) (sweepDone s) st

/-- TICKET_SWEEP_LATE. -/
def execTicketSweepLate (s : Nat) (st : State) : Host.Outcome State Fault Refusal :=
  cmd (.ticketSweepLate s) (sweepLate s) st

/-- TICKET_BLOCK_END. -/
def execTicketBlockEnd (s t : Nat) (st : State) : Host.Outcome State Fault Refusal :=
  cmd (.ticketBlockEnd s t) (blockEnds s t) st

/-- REFUTE_WINDOW_END. -/
def execRefuteWindowEnd (s t : Nat) (st : State) : Host.Outcome State Fault Refusal :=
  cmd (.refuteWindowEnd s t) (windowEnds s t) st

end Sys2Proof.Machine
end

