-- ==== Sys2Proof/Machine/Wire.lean ====
section
/-! DEFINITION. Sys2Proof/Machine/Wire.lean: the bytes that leave a port: editor, mark, one-step correction, FCS, MACsec, and the
stomp (02 R65 to R70, 05 R171, 07 R234, R252, 08 R267, 09 R298, R299). -/

namespace Sys2Proof.Machine

/-! ### The body of a copy -/

/-- Zeros up to byte 60, so that a frame is at least 64 bytes long. -/
def pad60 (l : List Byte) : List Byte := l ++ zeros (60 - l.length)

/-- The actions of a frame, none for a direct inject. -/
def frameActs (fr : Frame) : Acts := (fr.guard.map (·.acts)).getD {}

/-- A mirror copy's bytes: the frame as received, or as edited at an egress point, cut and encapsulated by the records its commit
found (03 R102). -/
def mirrorBody (fr : Frame) (c : Copy) : List Byte :=
  let raw := if c.egr then editFrame (frameActs fr) (noFcs fr.bytes) else noFcs fr.bytes
  let cut := if c.trunc ≠ 0 && c.trunc < raw.length then raw.take c.trunc else raw
  match c.hdr with
  | none => cut
  | some (en, u) => encapsulate (frameActs fr).tpid en u (frameActs fr).hashA cut

/-- The settings of a port that govern a frame: those of its own timetable (01 R24). -/
def framePort (x : Mod) (fr : Frame) (p : Nat) : PortCfg := (frameCfg x fr).cfg p

/-- The bytes of a copy after the editor, without FCS and MACsec. -/
def copyBody (x : Mod) (fr : Frame) (c : Copy) : List Byte :=
  match c.kind with
  | .mirror _ => mirrorBody fr c
  | .punt _ _ => noFcs fr.bytes
  | _ =>
    let l0 := editFrame (frameActs fr) (noFcs fr.bytes)
    let tp := (frameActs fr).tpid
    let l1 := if c.marked then setEcn tp 3 l0 else l0
    if fr.rtagPop && !(framePort x fr c.port).redundant then popRtag tp l1 else l1


/-! ### One-step correction (09 R298, R299) -/

/-- An incremental update of a ones' complement checksum for bytes that change from `a` to `b` at an even offset. -/
def fixSum (sum : Nat) (a b : List Byte) : Nat :=
  let words (l : List Byte) : Nat := onesSum l
  let s := (65535 - sum) + (65535 - words a) + words b
  let t := s % 65536 + s / 65536
  65535 - (t % 65536 + t / 65536)

/-- Bytes of a PTP message are replaced, and the UDP checksum ahead of it is updated; an IPv4 UDP checksum of 0 stays 0. -/
def writePtp (l : List Byte) (udp : Option Nat) (v6 : Bool) (off : Nat) (v : List Byte) : List Byte :=
  let old := sliceOf l off v.length
  let l1 := splice l off v
  match udp with
  | none => l1
  | some u =>
    let sum := beAt l (u + 6) 2
    if sum = 0 && !v6 then l1 else splice l1 (u + 6) (beBytes 2 (fixSum sum old v))

/-- Where the PTP header of a frame stands as received, with the UDP header ahead of it and whether it runs over IPv6. -/
def ptpAt (hv : HVec) : Option (Nat × Option Nat × Bool) :=
  match hv.r.first 0x08 with
  | none => none
  | some h =>
    let udp := (hv.r.hdrs.reverse.find? (fun k => k.typ == 0x14 && k.off < h.off)).map (·.off)
    let v6 := hv.r.hdrs.any (fun k => k.typ == 0x0A && k.off < h.off)
    some (h.off, udp, v6)

/-- Whether a frame is a PTP event message (messageType 0 to 3). -/
def ptpEvent (hv : HVec) : Bool :=
  match hv.r.first 0x08 with
  | some h => decide (hv.c.at_ h.off 1 % 16 < 4)
  | none => false

/-- Whether a copy is a PTP event frame that the module forwards or sends. -/
def copyEvent (x : Mod) (fr : Frame) (c : Copy) : Bool :=
  (match c.kind with | .unicast | .multicast => true | _ => false) && ptpEvent (vectorOf (frameCfg x fr) fr true)

/-- Whether a copy needs MACsec at its port: every frame but those of the uncontrolled port (02 R66) and the PTP event frames that
the port's policy sends unprotected (02 R70). -/
def needsSec (x : Mod) (fr : Frame) (c : Copy) (body : List Byte) : Bool :=
  let k := framePort x fr c.port
  k.macsec && beAt body 12 2 != 0x888E && !(k.ptpClear && copyEvent x fr c)

/-- The bytes MACsec adds: 24, or 32 with SCI (07 R234). -/
def secBytes (x : Mod) (fr : Frame) (c : Copy) (body : List Byte) : Nat :=
  if needsSec x fr c body then (if (framePort x fr c.port).txSci then 32 else 24) else 0

/-- The egress length E of a copy. -/
def egressLen (x : Mod) (fr : Frame) (c : Copy) : Nat :=
  let b := pad60 (copyBody x fr c)
  b.length + 4 + secBytes x fr c b

/-- PTP settings of a port; off without a TIME_PORT. -/
def ptpPort (x : Mod) (p : Nat) : PtpPort := (x.dax.ptpPorts.get p).getD {}

/-- The residence time of a frame sent at `t` from a port, in 2^−16 ns: from its monotonic stamp at the connector pins it came in by to the
one at those it leaves by, each in quarter nanoseconds, scaled by the frequency adjustment and rounded (09 R294, R299). -/
def residence (x : Mod) (fr : Frame) (p t : Nat) : Int :=
  let lat (p : Nat) : Nat × Nat := sideLatency ((actCfg x).rates.get (stallOf p))
  let quarters (t : Int) : Int := t / 250
  let d := quarters ((t : Int) + (lat p).2) - quarters ((fr.arr : Int) - (lat fr.port).1)
  (d * 16384 * (256000000000 + x.tim.freq.toInt) * 2 + 256000000000) / 512000000000

/-- The egress MAC's PTP fields for a copy that starts now: the originTimestamp of a Sync of this module, the correctionField of
a transparent clock. meanLinkDelay is the firmware's, and the handling of a one-step Pdelay_Resp is not stated further: free
values (log 15). -/
def oneStep (x : Mod) (fr : Frame) (c : Copy) (body : List Byte) : List Byte × Mod :=
  let hv := vectorOf (frameCfg x fr) fr true
  let k := ptpPort x c.port
  let one := k.oneStep && !needsSec x fr c body && !hv.flagged
  match ptpAt hv with
  | none => (body, x)
  | some (off0, udp0, v6) =>
    if !one || !copyEvent x fr c then (body, x)
    else
      let shift (o : Nat) : Nat := o + body.length - (fr.bytes.length - 4)
      let off := shift off0
      let udp := udp0.map shift
      let ty := beAt body off 1 % 16
      let st := todOf (txStamp x c.port x.now)
      if fr.inject.isSome then
        if !fr.oneStep || k.mode = 0 then (body, x)
        else if ty = 0 then
          (writePtp body udp v6 (off + 34) (beBytes 6 st.sec.toNat ++ beBytes 4 st.ns.toNat), x)
        else if ty = 3 then
          let (b, x1) := drawBytes 10 x
          (writePtp body udp v6 (off + 34) b, x1)
        else (body, x)
      else if 2 ≤ k.mode then
        let (d, x1) := if k.mode = 3 then drawNat x else (0, x)
        let corr : BitVec 64 := BitVec.ofNat 64 (beAt body (off + 8) 8) + BitVec.ofInt 64 (residence x fr c.port x.now + (d : Int))
        (writePtp body udp v6 (off + 8) (beBytes 8 corr.toNat), x1)
      else (body, x)

/-! ### MACsec (02 R65, R69) -/

/-- The transmit SA in use on a port. -/
def txSaOf (x : Mod) (p : Nat) : Option TxSa := x.line.txSa.get (p, x.line.txAn.get p)

/-- Whether a copy that needs protection finds no SA that may still send (02 R69). DESIGN CHOICE (log 65): a port with no transmit
SA installed or selected is taken as one whose SA is exhausted, so the frame is dropped and counts in LNE_TX_MACSEC_PN_DROP. -/
def pnSpent (x : Mod) (fr : Frame) (c : Copy) (body : List Byte) : Bool :=
  needsSec x fr c body && (match txSaOf x c.port with
    | some sa => sa.nextPn.isNone
    | none => true)

/-- Two byte strings combined by XOR. -/
def xorBytes (a b : List Byte) : List Byte := (a.zip b).map (fun e => e.1 ^^^ e.2)

/-- The 12-byte IV of a packet number (02 R65). -/
def secIv (salt ssci : List Byte) (pn : Nat) : List Byte := xorBytes (fit 12 salt) (fit 4 ssci ++ beBytes 8 pn)

/-- The SecTAG of a frame sent. -/
def secTag (sci : Bool) (an : Nat) (sa : TxSa) (pn len : Nat) : List Byte :=
  beBytes 2 0x88E5 ++ [BitVec.ofNat 8 ((if sci then 0x2C else 0x0C) + an), BitVec.ofNat 8 (if len < 48 then len else 0)]
    ++ beBytes 4 pn ++ (if sci then fit 8 sa.sci else [])

/-- A protected frame, without FCS. -/
def protect (x : Mod) (k : PortCfg) (p : Nat) (sa : TxSa) (pn : Nat) (body : List Byte) : List Byte :=
  let data := body.drop 12
  let tag := secTag k.txSci (x.line.txAn.get p) sa pn data.length
  let clear := data.take k.confOff
  let rest := data.drop k.confOff
  body.take 12 ++ tag ++ clear
    ++ fit (rest.length + 16) (Config.macsecSeal sa.key (secIv sa.salt sa.ssci pn) (body.take 12 ++ tag ++ clear) rest)

/-- The packet number is used: PN_WARN once past the threshold, PN_EXHAUST after the last (02 R69). -/
def usePn (p : Nat) (sa : TxSa) (pn : Nat) (x : Mod) : Mod :=
  let warn := (portCfg x p).pnWarn < pn && !sa.warned
  let last := 2 ^ 64 - 1 ≤ pn
  let sa1 : TxSa := { sa with nextPn := if last then none else some (pn + 1), warned := sa.warned || warn }
  let x1 := { x with line := { x.line with txSa := x.line.txSa.set (p, x.line.txAn.get p) (some sa1) } }
  let x2 := if warn then portEvent p evPnWarn x1 else x1
  if last then portEvent p evPnExhaust x2 else x2

/-- The bytes of a copy that starts now, FCS included, with what sending them uses up. -/
def finalBytes (x : Mod) (fr : Frame) (c : Copy) : List Byte × Mod :=
  let (l, x1) := oneStep x fr c (pad60 (copyBody x fr c))
  match (if needsSec x fr c l then txSaOf x c.port else none) with
  | some sa =>
    match sa.nextPn with
    | some pn =>
      let s := protect x1 (framePort x fr c.port) c.port sa pn l
      (s ++ fcsOf s, countPort lneCtr c.port 51 1 (usePn c.port sa pn x1))
    | none => (l ++ fcsOf l, x1)
  | none => (if fr.inject.isSome && l = noFcs fr.bytes then fr.bytes else l ++ fcsOf l, x1)

/-! ### The stomp (05 R171, R172) -/

/-- The frame in transmission on a port ends now with zero pad, the stomped FCS and the error control block, after the bytes
already sent and never beyond `cap`. -/
def stompTx (p cap at_ : Nat) (x : Mod) : Mod :=
  match (portSt x p).tx with
  | none => x
  | some t =>
    let g := portGbps (actCfg x) p
    let sent := min cap (min t.bytes.length (bytesIn g (at_ - t.start)))
    let body := pad60 (t.bytes.take sent)
    let all := body ++ stompFcs body
    setPort p (fun s => { s with tx := some { t with
      bytes := all, e := all.length, end_ := t.start + bytesTime g all.length, stomp := true } }) x

/-- Whether a stalled FIFO lets no byte of a line port pass inward: behind the MAC, or behind the pipeline (15 R476). -/
def rxShut (x : Mod) (p : Nat) : Bool :=
  decide (p < 1024) && x.isl.blocked.any (fun e => (e.1.toNat == 0xC00 + p / 8 || e.1.toNat == 0xA00 + p / 8) && e.2.toNat / 256 != 0xC)

/-- Outward: the FIFO before the MAC, or the one before the pipeline. -/
def txShut (x : Mod) (p : Nat) : Bool :=
  decide (p < 1024) && x.isl.blocked.any (fun e => (e.1.toNat == 0xA00 + p / 8 && e.2.toNat == 0xC00 + p / 8)
    || e.2.toNat == 0xA00 + p / 8 && e.1.toNat / 256 == 6)

/-- The bytes of the frame in transmission already sent at an instant. -/
def sentBytes (x : Mod) (p at_ : Nat) : Nat :=
  match (portSt x p).tx with
  | some t => min t.bytes.length (bytesIn (portGbps (actCfg x) p) (at_ - t.start))
  | none => 0

end Sys2Proof.Machine
end

