-- ==== Sys2Proof/Machine/Outrider.lean ====
section
/-! DEFINITION. Sys2Proof/Machine/Outrider.lean: outriders: the conditions of a start, the start delay, confirmation, the stomp,
and what a lost egress leaves (05 R160 to R173). -/

namespace Sys2Proof.Machine

/-- The header vector as far as the frame has arrived. -/
def hvNow (x : Mod) (fr : Frame) : HVec := vectorOf (frameCfg x fr) fr (lastIn x fr)

/-- Whether an egress port lies in another shed than the ingress. -/
def across (fr : Frame) (egress : Nat) : Bool := shedOfPort fr.port != shedOfPort egress

/-- The transit of a guard result to the egress MAC (05 R161). -/
def transit (fr : Frame) (egress : Nat) : Nat := if across fr egress then 6000 else 0

/-- L (05 R162). -/
def otrLen (x : Mod) (fr : Frame) (k : Tkt) : Nat :=
  if lastIn x fr then fr.bytes.length
  else (declaredBy (hvNow x fr) (bytesIn (inGbps x fr) (x.now - fr.arr))).getD k.minLen

/-- The earliest start of an outrider, from the first byte (05 R161). -/
def startDelay (x : Mod) (fr : Frame) (egress len : Nat) : Nat :=
  let g := inGbps x fr
  let hor := (hvNow x fr).hor
  let path := if across fr egress then 11000 else 5000
  let d := max path (guardTime g hor + transit fr egress + 2000 - bytesTime (portGbps (frameCfg x fr) egress) len)
  max d (max (bytesTime g 64) (bytesTime g hor))

/-- When byte `n` of an express stream reaches the egress shed: 6 ns after it enters the express lane (06 R209). -/
def expressAt (x : Mod) (fr : Frame) (n : Nat) : Nat := byteAt x fr n + transit fr (fr.otr.map (·.port) |>.getD fr.port)

/-- The drawbar half an express stream takes. -/
def expressHalf (fr : Frame) (egress : Nat) : Nat × Nat :=
  let s := shedOfPort fr.port
  (s, halfToward s (shedOfPort egress))

/-- One drawbar half. -/
def halfSt (x : Mod) (h : Nat × Nat) : Half := x.mesh.halves.get h

/-- Whether the direct drawbar has free express capacity (05 R163, 06 R215). -/
def expressFree (x : Mod) (fr : Frame) (egress : Nat) : Bool :=
  let h := halfSt x (expressHalf fr egress)
  h.st == .full && h.switchAt.isNone && decide (h.express + portGbps (frameCfg x fr) egress ≤ 800)

/-- Whether the predicted port could take an outrider now: row 6 of 05 R160, and no queued or control frame ready (R164). DEDUCED
(log 66): a port in the minimum gap after a frame still transmits that frame. -/
def egressIdle (x : Mod) (p q cls : Nat) : Bool :=
  let s := portSt x p
  portUpNow x p && !txShut x p && s.tx.isNone && decide (s.gapTill ≤ x.now) && (queSt x p q).ents == [] && !pausedNow x p cls && !pausedNow x p 8
    && !s.txLpi && s.lpiWake.isNone && tokensOk x p 0 q && tokensOk x p 1 (nodeOf x p 0 q).group && tokensOk x p 2 0
    && s.ctl == [] && (pickGroup x p).isNone

/-- Whether every earlier frame of the ingress port has its guard result (row 7). -/
def ordered (x : Mod) (f : Nat) (fr : Frame) : Bool :=
  (heldFrames x).all (fun e => e.2.port != fr.port || f ≤ e.1 || e.2.guard.isSome || e.2.refused || e.2.bad)

/-- The skip counter of the first row of 05 R160 that fails, none when all hold; `dyn` whether the rows of the moment (6, 7 and
the express capacity) are judged. -/
def skipRow (x : Mod) (f : Nat) (fr : Frame) (k : Tkt) (dyn : Bool) : Option Nat :=
  let c := frameCfg x fr
  let hv := hvNow x fr
  let p := k.egress
  if !(fr.port < 1024 && (c.cfg fr.port).otrEn && p < 1024 && (c.cfg p).otrEn) then some 10
  else if !k.hits x fr || !k.elig || k.blocked || (x.tkt.get (shedOfPort fr.port)).late then some 7
  else if daType fr.bytes ≠ 0 then some 10
  else if !(rowPorts c fr.port p && rowHeaders hv) then some 10
  else if fasterThan (portGbps c p) (portGbps c fr.port) then some 9
  else if dyn && !egressIdle x p k.queue k.cls then some 8
  else if dyn && !ordered x f fr then some 12
  else if across fr p && (decide (800 < portGbps c p) || (dyn && !expressFree x fr p)) then some 11
  else if hv.flagged then some 10
  else none

/-- L of an outrider as its frame turns out: a frame shorter than the L it started with ends there (05 R162). -/
def otrBytes (fr : Frame) (o : Otr) : Nat := min o.len fr.bytes.length

/-- The deadline of an outrider: byte L − 8 must be sent (05 R166). -/
def otrDeadline (fr : Frame) (o : Otr) : Nat := o.start + bytesTime o.gbps (otrBytes fr o - 8)

/-- Whether a frame's outrider is on the wire and has no guard result yet. -/
def otrRunning (fr : Frame) : Bool := fr.otr.any (fun o => o.st == .running)

/-- Express capacity of a drawbar half grows or falls. -/
def setExpress (h : Nat × Nat) (f : Nat → Nat) (x : Mod) : Mod :=
  setHalf h.1 h.2 (fun k => { k with express := f k.express, lightAt := some x.now }) x

/-- An outrider's start counts when its guard resolves: OTR_START and the performance event (05 R167, R177, 08 R278). -/
def countStart (fr : Frame) (x : Mod) : Mod := countPort otrCtr fr.port 2 1 (pcPort fr.port 0x03 1 x)

/-- A confirmed outrider: its counters, and the queue's as if it had passed it, its WRED average included (05 R168, 07 R241, R251);
the unicast copy is not sent. -/
def confirmOutrider (f : Nat) (fr : Frame) (o : Otr) (x : Mod) : Mod :=
  let c := countPort otrCtr fr.port
  let q := count (.que o.port o.queue 1) fr.bytes.length (tally (.que o.port o.queue 0) (updateAvg o.port o.queue x))
  setFrame f (fun r => { r.setCopy 0 (fun k => { k with st := .sending, enqAt := none, txAt := some o.start }) with
    otr := some { o with st := .confirmed } }) (c 3 1 (countStart fr q))

/-- OTR_LAST_STOMP (05 R182). -/
def lastStomp (fr : Frame) (o : Otr) (cause : Nat) (x : Mod) : Mod :=
  let w := reg [at_ 29 3 (fr.port % 8), at_ 27 2 cause, at_ 16 10 o.port, at_ 0 15 o.tkt]
  { x with line := { x.line with lastStomp := x.line.lastStomp.set (stallOf fr.port) w } }

/-- Whether an outrider's frame is in transmission and not yet stomped. -/
def otrSending (x : Mod) (f : Nat) (o : Otr) : Bool :=
  (portSt x o.port).tx.any (fun t => t.f == some f && t.copy.isNone && !t.stomp)

/-- The egress stomps an outrider at an instant: refuted, or late (05 R171, R173). The shapers and the deficit get back what E is
above the bytes sent, pad and stomped FCS included (07 R241). -/
def stompOutrider (f : Nat) (fr : Frame) (o : Otr) (cause at_ : Nat) (x : Mod) : Mod :=
  let late := cause == 2
  let e (x : Mod) : Nat := ((portSt x o.port).tx.map (·.e)).getD 0
  let x1 := if otrSending x f o then
      let y := pcPort o.port 0x04 1 (lastStomp fr o cause (stompTx o.port (otrBytes fr o - 8) at_ x))
      let back := e x - e y
      let y1 := refundShaper o.port 2 0 back (refundShaper o.port 1 (nodeOf x o.port 0 o.queue).group back (refundShaper o.port 0 o.queue back y))
      setShaper o.port 0 o.queue (fun s => { s with def_ := s.def_ + (back : Int) }) y1
    else x
  let x2 := setFrame f (fun r => { r with otr := some { o with st := .stomped late } }) x1
  if late then raise (.stall (stallOf fr.port)) evLateGuard x2 else x2

/-- The edits of a recipe on a frame: it never changes the frame's length, so on an untagged frame it writes no tag field (05 R153;
log 66). -/
def recipeEdits (x : Mod) (fr : Frame) (k : Tkt) : Acts :=
  if frameTagged x fr then k.acts else { k.acts with nhVid := none, vid := none, pcp := none, dei := none }

/-- An outrider starts on the predicted port: its bytes rewritten by the recipe, the shapers and the deficit charged, express
capacity reserved (05 R160, R163; 07 R241). Its start counts when its guard resolves (R167). -/
def startOutrider (f : Nat) (fr : Frame) (t : Nat) (k : Tkt) (x : Mod) : Mod :=
  let p := k.egress
  let g := portGbps (frameCfg x fr) p
  let body := pad60 (editFrame (recipeEdits x fr k) (noFcs fr.bytes))
  let bytes := body ++ fcsOf body
  let o : Otr := { tkt := t, port := p, queue := k.queue, cls := k.cls, acts := k.acts, len := otrLen x fr k, start := x.now, gbps := g,
                   across := if across fr p then some (expressHalf fr p) else none }
  let x1 := setPort p (fun s => { s with tx := some { f := some f, copy := none, start := x.now, e := bytes.length, bytes := bytes,
                                                       end_ := x.now + bytesTime g bytes.length, queue := k.queue } }) x
  let x2 := setShaper p 0 k.queue (fun s => { s with def_ := s.def_ - (bytes.length : Int) }) (chargeAll p k.queue bytes.length x1)
  let x3 := match o.across with
    | some h => setExpress h (· + g) x2
    | none => x2
  let s := shedOfPort fr.port
  let x4 := setFrame f (fun r => { r with otr := some o }) (if preciseMatch x s = 3 && (fr.admitted || fr.refused) then preciseCount s f x3 else x3)
  if fr.decided then confirmOutrider f fr o x4 else x4

/-- LATE_GUARD: the cycle in which byte L − 8 must be sent has passed without the guard result, which at that cycle would still be
in time (05 R166, R171). -/
def lateGuardNow (f : Nat) (x : Mod) : Mod :=
  match frame? x f with
  | none => x
  | some fr =>
    match fr.otr with
    | some o =>
      if o.st == .running && otrDeadline fr o < x.now && !fr.decided then stompOutrider f fr o 2 (otrDeadline fr o) x else x
    | none => x

/-! ### The commands -/

/-- LATE_GUARD. -/
def execLateGuard (f : Nat) (st : State) : Host.Outcome State Fault Refusal :=
  cmd (.lateGuard f) (lateGuardNow f) st

end Sys2Proof.Machine
end

