-- ==== Sys2Proof/Machine/Egress.lean ====
section
/-! DEFINITION. Sys2Proof/Machine/Egress.lean: egress: enqueue and its tests, the scheduler's frame boundary, punts, the end of a
transmission and what follows it, cut-through stomps, a port's queues when it goes down (05 R169 to R176, 07 R231 to R241, 13 R424
to R427, 02 R55 to R60, R69, 08 R265 to R268, 09 R300 to R302). -/

namespace Sys2Proof.Machine

/-! ### Small parts -/

/-- A counter of a queue (07 R260). -/
def queCtr (p q i : Nat) : CtrId := .que p q i

/-- The MAC address of a port: BASE_MAC of the ACTIVE timetable plus its number, or the address drawn at this start (10 R325). -/
def portMac (x : Mod) (p : Nat) : Nat :=
  match x.tt.active with
  | some b => ((x.tt.banks.get b).mac.toNat + p) % 2 ^ 48
  | none => x.tt.mgmtMac.toNat

/-- The egress length of a copy as far as it is known: from the frame's length, or from its declared length (07 R234, R237). -/
def knownE (x : Mod) (fr : Frame) (c : Copy) : Option Nat :=
  if lastIn x fr then some (egressLen x fr c)
  else (declaredBy (hvNow x fr) (bytesIn (inGbps x fr) (x.now - fr.arr))).map (fun d => egressLen x fr c + d - fr.bytes.length)

/-- Whether a copy's bytes of the frame have reached its egress shed whole and good (06 R202, R210). -/
def copyWhole (x : Mod) (f : Nat) (fr : Frame) (c : Copy) : Bool :=
  fr.ended && fr.good && (match held? x (copyHome fr c) f with
    | some h => copyHome fr c == shedOfPort fr.port || (h.whole && !h.bad)
    | none => false)

/-- Whether a frame's head has reached the egress shed of a copy. -/
def copyHead (x : Mod) (f : Nat) (fr : Frame) (c : Copy) : Bool := (held? x (copyHome fr c) f).isSome

/-- Whether a copy finds its egress port ready at the moment it is queued: its queue empty, the port idle, not paused for its class
and not in LPI (05 R175). -/
def egressReady (x : Mod) (p q cls : Nat) : Bool :=
  let s := portSt x p
  portUpNow x p && s.tx.isNone && (queSt x p q).ents == [] && !pausedNow x p cls && !pausedNow x p 8
    && !s.txLpi && s.lpiWake.isNone

/-- Whether a copy goes cut-through (05 R175; a frame that waits for its recovery context is stored, 11 R365). -/
def goesCt (x : Mod) (fr : Frame) (c : Copy) : Bool :=
  let kindOk := match c.kind with
    | .unicast | .multicast => true
    | _ => false
  kindOk && c.port < 1024 && fr.port < 1024 && (framePort x fr c.port).ctEn && !(framePort x fr fr.port).macsec && fr.recov.isNone
    && !fasterThan (portGbps (actCfg x) c.port) (inGbps x fr) && egressReady x c.port c.queue c.cls

/-- The copies of a frame that are not yet done, but for copy `c`. -/
def othersLeft (fr : Frame) (c : Nat) : Bool :=
  ((List.range fr.copies.length).zip fr.copies).any (fun e => e.1 != c && e.2.port < 1024 && e.2.st != .done)

/-! ### Egress-point mirrors (08 R267, R268) -/

/-- Data bytes of a mirror or sample record. -/
def recordData (fr : Frame) (trunc : Nat) : List Byte := (noFcs fr.bytes).take (if trunc = 0 then 384 else min 384 trunc)

/-- The original of a copy was sent, or dropped: the egress-point copies that wait for it become ready, or are released without
being sent (08 R267). Copies to a ring are offered and done at once. -/
def mirrorsReady (f c : Nat) (dropped : Nat) (txLast : Option Nat) (x : Mod) : Mod :=
  match frame? x f with
  | none => x
  | some fr =>
    (List.range fr.copies.length).foldl (fun a i =>
      match (frame? a f).bind (·.copy? i) with
      | none => a
      | some k =>
        if k.orig ≠ some c || k.st ≠ .held then a
        else
          let fires := if k.onDrop then dropped != 0 else dropped == 0
          if !fires then (if k.onDrop || dropped != 0 then finishCopy f i (copyReq k) a else a)
          else
            let fr1 := (frame? a f).getD fr
            match k.kind with
            | .mirrorRing n =>
              let d := recordData fr1 k.trunc
              finishCopy f i (copyReq k) (offerRecord k.port
                (frameRecord 0 n fr1 (fr1.copy? c) true dropped d.length txLast) d a)
            | .sample _ =>
              let d := recordData fr1 k.trunc
              finishCopy f i (copyReq k) (offerRecord k.port
                (frameRecord 1 0xFF fr1 (fr1.copy? c) true dropped d.length txLast) d a)
            | _ => setCopy f i (fun k => { k with st := .ready, orig := none }) a) x

/-- A copy is dropped by condition `cause` of 07 R234: counted for its queue, its mirrors and the precise record follow, its
reference is released. -/
def dropCopy (f c cause ctr : Nat) (x : Mod) : Mod :=
  match (frame? x f).bind (·.copy? c), frame? x f with
  | some k, some fr =>
    let x1 := count (queCtr k.port k.queue ctr) 1 x
    let x2 := match k.kind with
      | .mirror _ | .mirrorRing _ => tally (.lft (copyHome fr k) 2) x1
      | _ => x1
    let x3 := mirrorsReady f c cause none x2
    let x4 := if othersLeft fr c then x3 else preciseRecord f fr (some k) cause fr.bytes.length none x3
    finishCopy f c (copyReq k) x4
  | _, _ => x

/-! ### Enqueue (07 R232 to R237) -/

/-- The 10 ns units of a queueing delay (07 R254). -/
def delayUnits (t : Nat) : Nat := min (t / 10000) 65535

/-- A copy enters its queue. -/
def admitCopy (f c : Nat) (k : Copy) (e : Nat) (ct : Bool) (x : Mod) : Mod :=
  let x1 := setQue k.port k.queue (fun q =>
    let ent : QEnt := { f := f, copy := c, e := e, at_ := x.now }
    let q1 : QueSt := { q with ents := q.ents ++ [ent] }
    { q1 with peak := max q1.peak (queueCells q1) }) x
  let depth := queueCells (queSt x k.port k.queue)
  let x2 := setCopy f c (fun k => { k with st := .queued, e := e, ct := ct, enqAt := some x.now, depth := depth }) x1
  count (queCtr k.port k.queue 1) e (tally (queCtr k.port k.queue 0) x2)

/-- WRED at a queue that is not empty and has no recount running: dropped, or marked (07 R251 to R253). -/
def wredAt (f c : Nat) (fr : Frame) (k : Copy) (x : Mod) : Bool × Mod :=
  let x1 := updateAvg k.port k.queue x
  match wredRec x1 k.port k.queue with
  | none => (false, x1)
  | some r =>
    let q := queSt x1 k.port k.queue
    if q.ents = [] || q.recount.isSome then (false, x1)
    else
      let (draw, x2) := drawBits 16 x1
      let (act, ecnBit) := wredActs r (frameActs fr).colour q.avgNum q.avgDen draw.toNat
      let flagged := fr.guard.any (fun g => g.flags != 0)
      let ecn := ecnOf (frameActs fr).tpid (copyBody x2 fr k)
      let capable := !flagged && (ecn == 1 || ecn == 2 || ecn == 3)
      if !act then (false, x2)
      else if ecnBit && capable then
        (false, tally (queCtr k.port k.queue 6) (setCopy f c (fun k => { k with marked := true }) x2))
      else (true, x2)

/-- The conditions of 07 R234 in order, then admission. A port that no longer exists is none that is down: condition 2 (02 R36). -/
def enqueueNow (f c : Nat) (fr : Frame) (k : Copy) (ct : Bool) (x : Mod) : Mod :=
  let p := k.port
  let e := knownE x fr k
  let lim := (framePort x fr p).maxLen
  let len := e.getD (egressLen x fr k)
  if !portDefined x p then dropCopy f c 2 9 x
  else if !portUpNow x p then dropCopy f c 1 7 x
  else if (match e with | some n => decide (lim < n) | none => false) then dropCopy f c 3 8 x
  else
    let x0 := checkQueue p k.queue x
    match wredAt f c fr k x0 with
    | (true, x1) => dropCopy f c 4 5 x1
    | (false, x1) =>
      let q := queSt x1 p k.queue
      let nd := nodeOf x1 p 0 k.queue
      if q.ents != [] && q.recount.isNone && !nd.lossless && nd.qlimit < queueCells q + (len + 255) / 256 then dropCopy f c 5 4 x1
      else admitCopy f c k len ct x1

/-! ### The frame boundary (07 R238 to R241) -/

/-- Some copies leave their queue; the deficit of a child that is now empty is 0 (07 R239). -/
def pruneQueue (p q : Nat) (keep : List QEnt → List QEnt) (x : Mod) : Mod :=
  clearDeficits p (setQue p q (fun k => { k with ents := keep k.ents }) x)

/-- A copy leaves its queue's head. -/
def popQueue (p q : Nat) (x : Mod) : Mod := pruneQueue p q (·.drop 1) x

/-- The 64-byte punt record and the frame as received, without its FCS (13 R427), cut to `n` bytes of frame. -/
def puntBytes (x : Mod) (fr : Frame) (source reason n : Nat) : List Byte :=
  let body := (noFcs fr.bytes).take n
  let hv := vectorOf (frameCfg x fr) fr true
  let g := fr.guard
  let st := stampWords fr.stamp
  let acts := frameActs fr
  leBytes 2 (64 + body.length) ++ [1, BitVec.ofNat 8 source, BitVec.ofNat 8 reason,
      BitVec.ofNat 8 (flag 0 hv.trunc + flag 1 hv.conf + flag 2 (hv.r.badSum != []) + flag 3 (decide (n < fr.bytes.length - 4))
        + flag 4 (hv.r.first 0x04).isSome)]
    ++ leBytes 2 fr.port ++ leBytes 2 fr.bytes.length ++ leBytes 2 hv.vid
    ++ leBytes 2 ((g.map (·.fid)).getD 0)
    ++ [BitVec.ofNat 8 (fr.epoch.toNat + 4 * acts.cls + 32 * acts.colour), BitVec.ofNat 8 hv.r.reason]
    ++ leBytes 6 st.1 ++ zeros 2 ++ leBytes 4 st.2 ++ leBytes 4 ((g.map (·.vrf)).getD 0) ++ leBytes 8 (fr.arr / 1000) ++ zeros 24
    ++ body

/-- A drop on a punt ring without an empty buffer (13 R426). -/
def ringDrop (n : Nat) (x : Mod) : Mod := setRing n (fun r => { r with drop := r.drop + 1 }) x

/-- The ring a REASON maps to, when its map entry is valid (13 R426, R432). -/
def puntRing (x : Mod) (reason : Nat) : Option Nat :=
  let b := (x.host.puntMap.get reason).toNat
  if bitOf b 7 then some (b % 64) else none

/-- Whether a REASON leads to an enabled punt ring; a ring stopped by a link that is down counts the drop itself (13 R428). -/
def puntMapped (x : Mod) (reason : Nat) : Option Nat :=
  match puntRing x reason with
  | none => none
  | some n =>
    let r := x.host.rings.get n
    if ringType n r = 1 && (r.enable || r.error = 4) then some n else none

/-- A frame leaves a host port's queue into its ring's next empty buffer, or is dropped (13 R426, R427). The host's descriptor is
in its own memory (log 23). -/
def puntFill (fr : Frame) (source reason : Nat) (x : Mod) : Mod :=
  match puntMapped x reason with
  | none => { x with host := { x.host with unmapped := x.host.unmapped + 1 } }
  | some n =>
    let r := x.host.rings.get n
    if !r.enable then ringDrop n x
    else if r.hostIdx = r.modIdx then raise .yard evPuntDrop (ringDrop n x)
    else
      let size := Config.puntBufSize n r.modIdx
      let whole := fr.bytes.length - 4 + 64 ≤ size
      let bytes := puntBytes x fr source reason (if whole then fr.bytes.length - 4 else size - 64)
      let slot := r.modIdx % ringSize r
      ringAdvance n 1 (emit (.dma (r.base + 32 * slot + 0x0A) (leBytes 2 bytes.length ++ [if whole then 1 else 2, 0]))
        (emit (.punt n slot bytes) x))

/-- What a copy that leaves a host port carries as SOURCE and REASON: those of its punt, or for a frame forwarded to a host port,
of which the manual states none, free values (log 35). -/
def puntOf (k : Copy) (x : Mod) : (Nat × Nat) × Mod :=
  match k.kind with
  | .punt s r => ((s, r), x)
  | _ =>
    let a := drawBits 8 x
    let b := drawBits 8 a.2
    ((a.1.toNat, b.1.toNat), b.2)

/-- A frame whose descriptor in shed `s` cannot be read is dropped there: its copies leave their queues, and its cells keep their counts for
the audit (17 R518, 06 R191). -/
def dropDesc (s f : Nat) (x : Mod) : Mod :=
  match frame? x f with
  | none => x
  | some fr =>
    settleDesc s f (((List.range fr.copies.length).zip fr.copies).foldl (fun a e =>
      if copyHome fr e.2 != s || e.2.st == .sending || e.2.st == .done then a
      else setCopy f e.1 (fun k => { k with st := .done })
        (pruneQueue e.2.port e.2.queue (fun l => l.filter (fun k => !(k.f == f && k.copy == e.1))) a)) (eccWrite (fun w => decide (w = .desc s f)) x))

/-- A queue's head copy starts: protected or dropped for want of a packet number (02 R69), its bytes fixed (09 R298), its
shapers charged, its delay recorded (07 R242, R254); its cells cross the crossbar of the shed that holds them (06 R198; log 76). -/
def sendCopy (p q : Nat) (ent : QEnt) (fr : Frame) (k : Copy) (x : Mod) : Mod :=
  let x0 := popQueue p q x
  if pnSpent x fr k (pad60 (copyBody x fr k)) then
    finishCopy ent.f ent.copy (copyReq k) (countPort lneCtr p 52 1 x0)
  else
    let fb := finalBytes x0 fr k
    let x1 := clearDeficits p (chargeAll p q ent.e fb.2)
    let d := delayUnits (x.now - ent.at_)
    let x2 := setQue p q (fun s => { s with
      last := d, max := max s.max d, cyc := x.cyc, fresh := max d (freshIn x.cyc s.cyc s.fresh) }) x1
    let x3 := setCopy ent.f ent.copy (fun c => { c with st := .sending, txAt := some x.now }) x2
    let x4 := if 1032 ≤ p && p ≤ 1035 then
        let sr := puntOf k x3
        puntFill fr sr.1.1 sr.1.2 sr.2
      else x3
    let x5 := crossCells (copyHome fr k) ent.f ent.copy (cellsFor fr.bytes.length) (fun _ => xbarPort p) x4
    setPort p (fun s => { s with tx := some {
      f := some ent.f, copy := some ent.copy, start := x.now, e := fb.1.length, bytes := fb.1,
      end_ := x.now + bytesTime (portGbps (actCfg x) p) fb.1.length, queue := q } }) x5

/-- A queue's head copy is read to start (17 R518): with a descriptor that cannot be read its frame is dropped; with such a word in its first
cell, or toward the host, the copy is; with one further on it is stomped where the word would leave. An
edit whose residue check fails twice drops the copy, or stomps one that goes cut-through (17 R517). -/
def startCopy (p q : Nat) (ent : QEnt) (fr : Frame) (k : Copy) (x : Mod) : Mod :=
  let s := copyHome fr k
  let y := eccRead (fun w => decide (w = .desc s ent.f)) x
  if y.1 then dropDesc s ent.f (popQueue p q y.2)
  else
    let c := readCells s ent.f ent.copy y.2
    let z := residue (.edit ent.f) p c.2
    let x1 := z.2
    match (if z.1 then some (if k.ct then 1 else 0) else c.1) with
    | none => sendCopy p q ent fr k x1
    | some n =>
      if n = 0 || (1032 ≤ p && p ≤ 1035) then finishCopy ent.f ent.copy (copyReq k) (popQueue p q x1)
      else
        let x2 := sendCopy p q ent fr k x1
        stompTx p (256 * n) (((portSt x2 p).tx.map (·.end_)).getD x2.now) x2

/-- A MAC control frame: pause for the port, or PFC for one class, with its quanta or a time of zero (02 R55, R59). -/
def ctlBytes (x : Mod) (p : Nat) (cls : Option Nat) (stops : Bool) : List Byte :=
  let k := portCfg x p
  let quanta (c : Nat) : Nat := if stops then k.pauseTime.getD c 0xFFFF else 0
  let head := beBytes 6 0x0180C2000001 ++ beBytes 6 (portMac x p) ++ beBytes 2 0x8808
  let body := match cls with
    | none => head ++ beBytes 2 0x0001 ++ beBytes 2 (quanta 0)
    | some c => head ++ beBytes 2 0x0101 ++ beBytes 2 (2 ^ c)
        ++ (List.range 8).flatMap (fun i => beBytes 2 (if i = c then quanta c else 0))
  pad60 body ++ fcsOf (pad60 body)

/-- A MAC control frame that waits starts ahead of every queue (02 R59). -/
def startCtl (p : Nat) (cls : Option Nat) (stops : Bool) (rest : List (Option Nat × Bool)) (x : Mod) : Mod :=
  let b := ctlBytes x p cls stops
  setPort p (fun s => { s with
    ctl := rest
    sentAt := s.sentAt.set (cls.getD 8) x.now
    tx := some { f := none, copy := none, start := x.now, e := b.length, bytes := b,
                 end_ := x.now + bytesTime (portGbps (actCfg x) p) b.length, queue := cls.getD 8 } }) x

/-- Whether a port is at a frame boundary and may send a frame of some kind (07 R238; 02 R60). A recirculation port stops at its next
boundary when admission stops (01 R29). -/
def atBoundary (x : Mod) (p : Nat) : Bool :=
  let s := portSt x p
  portUpNow x p && !txShut x p && s.tx.isNone && decide (s.gapTill ≤ x.now) && !s.txLpi && s.lpiWake.isNone
    && (forwarding x || p < 1024 || 1032 ≤ p)

/-- A port at a frame boundary in LPI that has something to send begins its wake (02 R60); the frame waits for LPI_WAKE_END. -/
def lpiWakes (p : Nat) (x : Mod) : Mod :=
  let s := portSt x p
  if s.txLpi && s.lpiWake.isNone && (s.ctl != [] || (List.range 16).any (fun q => (queSt x p q).ents != [])) then
    setPort p (fun s => { s with lpiWake := some x.now }) x
  else x

/-- SCHEDULE_FRAME: the port's next frame starts (07 R238 to R240, 02 R59). A refill due in this cycle comes first (07 R242). -/
def scheduleNow (p : Nat) (x_ : Mod) : Mod :=
  let x := refillAll x_
  if !atBoundary x p then lpiWakes p x
  else
    match (portSt x p).ctl with
    | (cls, stops) :: rest => startCtl p cls stops rest x
    | [] =>
      if !tokensOk x p 2 0 then x
      else
        let x0 := clearDeficits p x
        match pickGroup x0 p with
        | none => x0
        | some g =>
          match pickQueue x0 p g.child with
          | none => x0
          | some q =>
            match (queSt x0 p q.child).ents with
            | [] => x0
            | ent :: _ =>
              let x1 := takePick p g.child 0 q (takePick p 4 1 g x0)
              match frame? x1 ent.f with
              | none => popQueue p q.child x1
              | some fr =>
                match fr.copy? ent.copy with
                | none => popQueue p q.child x1
                | some k => startCopy p q.child ent fr k x1

/-- OTR_CT and OTR_STORED count a frame once each (05 R177). -/
def pathCount (f : Nat) (fr : Frame) (ct : Bool) (x : Mod) : Mod :=
  if (if ct then fr.ctSeen else fr.stSeen) then x
  else countPort otrCtr fr.port (if ct then 13 else 14) 1
    (setFrame f (fun r => { r with ctSeen := r.ctSeen || ct, stSeen := r.stSeen || !ct }) x)

/-- Whether a frame's confirmed outrider has still to start: its unicast copy waits for it (05 R161). -/
def awaitsStart (fr : Frame) (c : Nat) : Bool :=
  c == 0 && fr.tkt.isSome && fr.otr.isNone && !fr.skipped && (match fr.guard with
    | some g => g.verdict == .confirm
    | none => false)

/-- Whether a ready copy of a frame has reached its egress, with its guard result and byte 64 there. -/
def copyDue (x : Mod) (f c : Nat) (fr : Frame) (k : Copy) : Bool :=
  let local_ := match k.kind with
    | .stream _ => false
    | _ => true
  k.st == .ready && local_ && fr.decided && !fr.bad && !awaitsStart fr c && copyHead x f fr k
    && decide (byteAt x fr 64 ≤ x.now)

/-- ENQUEUE: a ready copy of a frame reaches its egress. With its guard result and byte 64 there it is tested once: it starts
cut-through at once, or it is to be stored; stored, it enters its queue once the frame is whole and good (05 R175, R176, 07 R234). -/
def enqueueCopy (f c : Nat) (x : Mod) : Mod :=
  match frame? x f with
  | none => x
  | some fr =>
    match fr.copy? c with
    | none => x
    | some k =>
      if !copyDue x f c fr k then x
      else if !k.stored && goesCt x fr k then
        let x1 := enqueueNow f c fr k true (pathCount f fr true x)
        match (frame? x1 f).bind (·.copy? c) with
        | some k1 => if k1.st = .queued then scheduleNow k.port x1 else x1
        | none => x1
      else
        let x1 := setCopy f c (fun k => { k with stored := true }) x
        if copyWhole x f fr k then enqueueNow f c fr k false (pathCount f fr false x1) else x1

/-! ### The end of a transmission (07 R241, 02 R48, 08 R267, R275, 09 R300 to R302) -/

/-- Transmit counters of a line port for a frame of `bytes` (02 R48). -/
def txCounts (p : Nat) (bytes : List Byte) (x : Mod) : Mod :=
  countPort lneCtr p (39 + sizeBin bytes.length) 1 (countPort lneCtr p (34 + daType bytes) 1
    (countPort lneCtr p 33 1 (countPort lneCtr p 32 bytes.length x)))

/-- The 16-byte ring entry of a transmit stamp (09 R302, R319). -/
def tsWords (e : TsEnt) : Nat × Nat × Nat :=
  (2 ^ 31 + at_ 16 11 e.port + at_ 0 16 e.id, e.ns, e.sec % 2 ^ 32)

/-- The reads of a stall's return queue among the commands of this instant that wait: they come before an entry that finds it full
(09 R301). -/
def tsqReads (g : Nat) (l : List Instr) : Nat := (l.filter (fun c => decide (c = .tsqPop g))).length

/-- A transmit stamp is returned: to the stall's queue, from which `reads` entries are read in this cycle, or its DMA ring (09 R300 to
R302). -/
def returnStamp (reads p id : Nat) (u : Int) (x : Mod) : Mod :=
  let t := stampWords u
  let e : TsEnt := { id := id, port := p, ns := t.2, sec := t.1 }
  let g := stallOf p
  if 1024 ≤ p then x
  else
    let q := x.tim.tsqs.get g
    let lose (x : Mod) : Mod := raise (.stall g) evTsqOvf { x with tim := { x.tim with tsqs := x.tim.tsqs.upd g (fun q =>
      { q with lost := q.lost + 1, ovf := true, lostAt := some x.cyc }) } }
    if q.cfg.getLsbD 31 then
      let n := 80 + fieldOf q.cfg 18 16
      let r := x.host.rings.get n
      if r.enable && decide (idxDiff r.modIdx r.hostIdx < ringSize r) then
        let w := tsWords e
        ringAdvance n 1 (emit (.dma (r.base + 16 * (r.modIdx % ringSize r)) (leBytes 4 w.1 ++ leBytes 4 w.2.1 ++ leBytes 4 w.2.2 ++ zeros 4)) x)
      else lose x
    else if q.ents.length < 32 + reads then
      { x with tim := { x.tim with tsqs := x.tim.tsqs.upd g (fun q => { q with ents := q.ents ++ [e] }) } }
    else lose x

/-- The stamp of a frame sent whole, where one is asked for: by the inject descriptor, or for a PTP event frame that the module
forwards two-step, because the port is two-step or protects it (02 R70), under an ID the manual leaves open (log 15). -/
def stampSent (reads : Nat) (fr : Frame) (k : Copy) (start : Nat) (x : Mod) : Mod :=
  let u := txStamp x k.port start
  match fr.tsReq with
  | some id => returnStamp reads k.port id u x
  | none =>
    let pp := ptpPort x k.port
    if k.port < 1024 && pp.mode ≠ 0 && (!pp.oneStep || needsSec x fr k (copyBody x fr k)) && fr.inject.isNone
        && copyEvent x fr k then
      let (id, x1) := drawBits 16 x
      returnStamp reads k.port id.toNat u x1
    else x

/-- The recirculated frame enters the module again on its recirculation port (01 R24, 03 R87): flags, epoch and bank stay. One whose tag
has retired is dropped and counted: it is looked up in no bank (10 R337). -/
def recirculate (fr : Frame) (p : Nat) (bytes : List Byte) (x : Mod) : Mod :=
  if tagRetired x fr then setShedTt (shedOfPort p) (fun k => { k with retireDrop := k.retireDrop + 1 }) x
  else newFrame { port := p, bytes := bytes, arr := x.now, epoch := fr.epoch, bank := fr.bank, pass := fr.pass + 1
                  carryT := (fr.guard.map (·.trunc)).getD fr.carryT, carryC := (match fr.guard with
                    | some g => decide (g.reason ≠ 0) || fr.carryC
                    | none => fr.carryC), stamp := fr.stamp, admAt := fr.admAt } x

/-- Preamble, start-of-frame delimiter and minimum gap on the wire: 20 byte times after the last byte (00 R11). -/
def gapTime (x : Mod) (p : Nat) : Nat := if p < 1024 || p = 1037 then bytesTime (portGbps (actCfg x) p) 20 else 0

/-- What leaves the module at the end of a transmission. -/
def sendOut (p : Nat) (side : CplSide) (t : TxNow) (x : Mod) : Mod :=
  if t.f.isNone then emit (.macCtl p t.bytes) x
  else if p = 1036 then emit (.coupler side t.bytes t.stomp) x
  else if p < 1024 || p = 1037 then emit (.frame p t.bytes t.stomp) x
  else x

/-- A received pause that waited for the end of the frame in transmission takes effect (02 R55). -/
def pauseLands (p : Nat) (x : Mod) : Mod :=
  let quantum (n : Nat) : Nat := bytesTime (portGbps (actCfg x) p) (64 * n)
  clearDeficits p (setPort p (fun s => { s with paused := s.paused.mapEnts (fun _ k =>
    match k.wait with
    | some (t, n) => { until_ := if n = 0 then none else some (t + quantum n), wait := none }
    | none => k) }) x)

/-- An outrider's last byte has gone: its express capacity is free; confirmed, it counts as dequeued and its copy is done. -/
def outriderEnds (reads p f : Nat) (t : TxNow) (x : Mod) : Mod :=
  match frame? x f with
  | none => x
  | some fr =>
    match fr.otr with
    | none => x
    | some o =>
      let g := portGbps (frameCfg x fr) o.port
      let x1 := match o.across with
        | some h => setExpress h (· - g) x
        | none => x
      let x2 := setFrame f (fun r => { r with otr := some { o with across := none } }) x1
      if o.st = .confirmed then
        let last := some x.now
        let y0 := count (queCtr p o.queue 3) t.e (tally (queCtr p o.queue 2) x2)
        let y := if t.stomp then x2 else stampSent reads fr ((fr.copy? 0).getD { kind := .unicast, port := p, queue := o.queue, cls := o.cls }) t.start y0
        let y1 := preciseRecord f ((frame? y f).getD fr) (fr.copy? 0) 0 fr.bytes.length last y
        finishCopy f 0 (reqOf p) (mirrorsReady f 0 0 last y1)
      else x2

/-- A copy's last byte has gone: dequeue counters, stamp, records, mirrors, reference (07 R241, 08 R267, R275). -/
def copyEnds (reads p f c : Nat) (t : TxNow) (x : Mod) : Mod :=
  match (frame? x f).bind (·.copy? c), frame? x f with
  | some k, some fr =>
    let last := some x.now
    let x1 := if t.stomp then x else
      stampSent reads fr k t.start (count (queCtr p t.queue 3) t.e (tally (queCtr p t.queue 2) x))
    let x2 := if p < 1024 then preciseRecord f fr (some k) 0 fr.bytes.length last x1 else x1
    let x3 := if 1024 ≤ p && p < 1032 && !t.stomp then recirculate fr p t.bytes x2 else x2
    finishCopy f c (copyReq k) (mirrorsReady f c 0 last x3)
  | _, _ => x

/-- Whether the frame in transmission on a port is an outrider without its guard result: it passes no byte beyond L − 8 (05 R167). -/
def txUnconfirmed (x : Mod) (t : TxNow) : Bool := t.copy.isNone && (t.f.bind (frame? x)).any otrRunning

/-- Whether the frame in transmission on a port is an outrider whose last byte has not reached its shed (06 R209). -/
def txAhead (x : Mod) (t : TxNow) : Bool :=
  t.copy.isNone && !t.stomp && (t.f.bind (frame? x)).any (fun fr => decide (x.now < expressAt x fr fr.bytes.length))

/-- TX_FRAME_END: the last byte has entered egress encode. -/
def txEnds (reads p : Nat) (x : Mod) : Mod :=
  match (portSt x p).tx with
  | none => x
  | some t =>
    if x.now < t.end_ || txUnconfirmed x t || txAhead x t then x
    else
      let side := match t.f, t.copy with
        | some f, some c => (((frame? x f).bind (·.copy? c)).map (·.side)).getD .plain
        | _, _ => .plain
      let x0 := pauseLands p (setPort p (fun s => { s with
        tx := none, idleAt := x.now, gapTill := t.end_ + gapTime x p }) (sendOut p side t x))
      let x1 := txCounts p t.bytes (pcPort p 0x02 1 x0)
      match t.f, t.copy with
      | none, _ =>
        if t.queue = 8 then countPort lneCtr p 37 1 x1
        else countPort lneCtr p (72 + t.queue) 1 (countPort lneCtr p 38 1 x1)
      | some f, none =>
        let spec := match (frame? x1 f).bind (·.otr) with
          | some o => (match o.st with | .stomped _ => true | _ => false)
          | none => false
        outriderEnds reads p f t (if t.stomp then countPort lneCtr p (if spec then 49 else 50) 1 x1 else x1)
      | some f, some c => copyEnds reads p f c t (if t.stomp then countPort lneCtr p 50 1 x1 else x1)

/-! ### Stomps of cut-through frames (07 R237, 05 R171, 06 R212) -/

/-- The frame that a port sends cut-through now, with its copy. -/
def ctNow (x : Mod) (p : Nat) : Option (Nat × Nat × Frame × Copy) :=
  match (portSt x p).tx with
  | none => none
  | some t =>
    match t.f, t.copy with
    | some f, some c =>
      match frame? x f with
      | some fr => (fr.copy? c).bind (fun k => if k.ct && !t.stomp then some (f, c, fr, k) else none)
      | none => none
    | _, _ => none

/-- CT_OVERSIZE_STOMP: a cut-through frame whose length was not known exceeds the egress MAX_LEN: MAX_LEN − 4 bytes and the stomp
(07 R237). -/
def ctOversize (p : Nat) (x : Mod) : Mod :=
  let lim := (portCfg x p).maxLen
  match ctNow x p, (portSt x p).tx with
  | some (_, _, _, k), some t =>
    if lim < t.bytes.length && t.start + bytesTime (portGbps (actCfg x) p) (lim - 4) ≤ x.now then
      raise (.stall (stallOf p)) evOversizeStomp (tally (queCtr p k.queue 8) (stompTx p (lim - 4) x.now x))
    else x
  | _, _ => x

/-- CT_UNDERRUN: the egress needs bytes that the resequencer has not released (06 R212). -/
def ctUnderrunNow (p : Nat) (x : Mod) : Mod :=
  match ctNow x p with
  | none => x
  | some (f, _, fr, k) =>
    match held? x (copyHome fr k) f with
    | none => x
    | some h =>
      if copyHome fr k != shedOfPort fr.port && !h.whole && h.got < sentBytes x p x.now then
        tally (.xbr (copyHome fr k) (shedOfPort fr.port) 11) (stompTx p h.got x.now x)
      else x

/-- The frame found bad after its head has left: the copies that go cut-through and a confirmed outrider are stomped (05 R171, R172;
02 R45, R46). The bytes sent never reach the last four. -/
def stompSending (f : Nat) (x : Mod) : Mod :=
  (List.range 1024).foldl (fun a p =>
    match (portSt a p).tx with
    | some t => if t.f = some f && !t.stomp then stompTx p (t.bytes.length - 4) a.now a else a
    | none => a) x

/-! ### A port's queues (07 R236, 05 R169) -/

/-- Every frame in a port's queues is dropped with the counter of condition 1 or 2. -/
def flushQueues (p cause ctr : Nat) (x : Mod) : Mod :=
  (List.range 16).foldl (fun a q =>
    (queSt a p q).ents.foldl (fun b e => dropCopy e.f e.copy cause ctr (popQueue p q b)) a) x

/-- The frame in transmission when the port goes down ends (05 R169, 07 R236). An outrider already stomped stays so: its buffered
copy goes the normal way (05 R171). -/
def abortTx (p : Nat) (x : Mod) : Mod :=
  match (portSt x p).tx with
  | none => x
  | some t =>
    let x1 := setPort p (fun s => { s with tx := none, idleAt := x.now }) x
    match t.f, t.copy with
    | some f, none =>
      match frame? x1 f with
      | none => x1
      | some fr =>
        match fr.otr with
        | none => x1
        | some o =>
          let x2 := match o.across with
            | some h => setExpress h (· - portGbps (frameCfg x fr) o.port) x1
            | none => x1
          if o.st = .confirmed then
            dropCopy f 0 1 7 (countPort otrCtr fr.port 15 1
              (setFrame f (fun r => { r with otr := some { o with across := none, st := .lost } }) x2))
          else
            let st : OtrSt := match o.st with
              | .stomped l => .stomped l
              | _ => .lost
            setFrame f (fun r => { r with otr := some { o with across := none, st := st } }) x2
    | some f, some c => dropCopy f c 1 7 (setCopy f c (fun k => { k with queue := t.queue }) x1)
    | none, _ => x1

/-! ### The start of an outrider (05 R160 to R164) -/

/-- An express request to a direction at half rate is refused and starts its return (06 R215). -/
def refuseExpress (fr : Frame) (p : Nat) (x : Mod) : Mod :=
  let h := expressHalf fr p
  tally (.otrT (shedOfPort fr.port) 7) (setHalf h.1 h.2 (fun k => { k with wantFull := k.wantFull || k.st == .halfRate }) x)

/-- Whether a frame may still start as an outrider: no part of it has taken the normal path, nothing has refuted it. -/
def startFresh (fr : Frame) : Bool :=
  fr.admitted && fr.otr.isNone && !fr.skipped && !fr.bad && fr.copies.all (fun c => c.st == .ready || c.st == .held)
    && fr.guard.all (fun g => g.verdict == .confirm)

/-- The earliest start of a frame on a ticket (05 R161). -/
def startAt (x : Mod) (fr : Frame) (k : Tkt) : Nat := fr.arr + startDelay x fr k.egress (otrLen x fr k)

/-- Whether another frame becomes ready for a port in this cycle, as it is queued: it wins the port (05 R164, 07 R241). -/
def queuedNow (x : Mod) (f p : Nat) : Bool :=
  (heldFrames x).any (fun e => e.1 != f && ((List.range e.2.copies.length).zip e.2.copies).any (fun c =>
    c.2.port == p && copyDue x e.1 c.1 e.2 c.2 && (goesCt x e.2 c.2 || copyWhole x e.1 e.2 c.2)))

/-- The place of an ingress port in a rotating pointer's order. -/
def turn (ptr p : Nat) : Nat := (p + 2048 - ptr) % 2048

/-- The ingress ports of the other frames that start in this cycle on tickets that `want` selects, all their rows holding. -/
def rivals (x : Mod) (f : Nat) (want : Frame → Tkt → Bool) : List Nat :=
  (heldFrames x).filterMap (fun e =>
    match frameTkt x e.2 with
    | some (_, k) =>
      if e.1 != f && startFresh e.2 && decide (startAt x e.2 k ≤ x.now) && startAt x e.2 k / 625 == x.now / 625
          && want e.2 k && (skipRow x e.1 e.2 k true).isNone then some e.2.port
      else none
    | none => none)

/-- What the arbiters of 05 R164 leave of a start whose rows hold: the skip of a loser, none for the winner. -/
def arbiterSkip (x : Mod) (f : Nat) (fr : Frame) (k : Tkt) : Option Nat :=
  let p := k.egress
  let half := expressHalf fr p
  let g (q : Nat) : Nat := portGbps (frameCfg x fr) q
  let loses (ptr : Nat) (l : List Nat) : Bool := l.any (fun q => turn ptr q < turn ptr fr.port)
  if queuedNow x f p || loses (x.line.otrPtr.get p) (rivals x f (fun _ j => j.egress == p)) then some 8
  else if across fr p && loses (halfSt x half).otrPtr (rivals x f (fun r j => across r j.egress && expressHalf r j.egress == half
      && decide (800 < (halfSt x half).express + g p + g j.egress))) then some 11
  else none

/-- The arbiters' pointers move past the winner. -/
def passArbiters (fr : Frame) (p : Nat) (x : Mod) : Mod :=
  let n := (fr.port + 1) % 2048
  let x1 := { x with line := { x.line with otrPtr := x.line.otrPtr.set p n } }
  if across fr p then setHalf (expressHalf fr p).1 (expressHalf fr p).2 (fun h => { h with otrPtr := n }) x1 else x1

/-- A frame does not start: its skip counts when its guard has resolved (05 R177). -/
def skipStart (f : Nat) (fr : Frame) (c : Nat) (x : Mod) : Mod :=
  if fr.decided then countPort otrCtr fr.port c 1 (setFrame f (fun r => { r with skipped := true }) x)
  else setFrame f (fun r => { r with skipped := true, skip := some c }) x

/-- OUTRIDER_START: at the earliest start of a frame whose ticket hit, the rows are judged, then the arbiters; the first that fails
is the frame's skip (05 R160, R164). A ticket that has left its way since is row 2. -/
def tryOutrider (f : Nat) (x_ : Mod) : Mod :=
  let x := refillAll x_
  match frame? x f with
  | none => x
  | some fr =>
    if fr.tkt.isNone || !startFresh fr then x
    else
      match frameTkt x fr with
      | none =>
        if x.now < byteAt x fr 64 then x
        else skipStart f fr (if ((frameCfg x fr).cfg fr.port).otrEn then 7 else 10) x
      | some (t, k) =>
        if x.now < startAt x fr k then x
        else
          match (match skipRow x f fr k true with | some c => some c | none => arbiterSkip x f fr k) with
          | none => startOutrider f fr t k (passArbiters fr k.egress x)
          | some c => skipStart f fr c (if c = 11 then refuseExpress fr k.egress x else x)

/-! ### The commands -/

/-- OUTRIDER_START. -/
def execOutriderStart (f : Nat) (st : State) : Host.Outcome State Fault Refusal :=
  cmd (.outriderStart f) (tryOutrider f) st

/-- ENQUEUE. -/
def execEnqueue (f : Nat) (copy : Nat) (st : State) : Host.Outcome State Fault Refusal :=
  cmd (.enqueue f copy) (enqueueCopy f copy) st

/-- SCHEDULE_FRAME. -/
def execScheduleFrame (port : Nat) (st : State) : Host.Outcome State Fault Refusal :=
  cmd (.scheduleFrame port) (scheduleNow port) st

/-- TX_FRAME_END. -/
def execTxFrameEnd (port : Nat) (st : State) : Host.Outcome State Fault Refusal :=
  cmd (.txFrameEnd port) (txEnds (tsqReads (stallOf port) st.pending) port) st

/-- CT_OVERSIZE_STOMP. -/
def execCtOversizeStomp (port : Nat) (st : State) : Host.Outcome State Fault Refusal :=
  cmd (.ctOversizeStomp port) (ctOversize port) st

/-- CT_UNDERRUN. -/
def execCtUnderrun (port : Nat) (st : State) : Host.Outcome State Fault Refusal :=
  cmd (.ctUnderrun port) (ctUnderrunNow port) st

end Sys2Proof.Machine
end

