-- ==== Sys2Proof/Machine/Guard.lean ====
section
/-! DEFINITION. Sys2Proof/Machine/Guard.lean: the guard result: streams, meters, the verdict on the ticket, the copy list, and
everything that commits with it; the revised result (03 R84 to R102, 04 R126, R131, 05 R154 to R174, 06 R190, R217 to R219,
07 R245 to R249, 08 R265 to R268, 11 R362 to R367). -/

namespace Sys2Proof.Machine

/-! ### Streams (11 R362 to R367) -/

/-- The stream record a frame hits: keyed by SA, VID, DA. -/
def streamRec (v : View) (hv : HVec) : Option (List Byte) :=
  let b := hv.c.bytes
  (v.find 0x0E (sliceOf b 6 6 ++ leBytes 2 hv.vid ++ sliceOf b 0 6)).map (·.dat)

/-- The sequence number of a frame's RTAG. -/
def rtagSeq (hv : HVec) : Option (BitVec 16) :=
  (hv.r.first 0x04).map (fun h => BitVec.ofNat 16 (hv.c.at_ (h.off + 2) 2))

/-- Whether this module generates a handle of a GEN_ROLE now (11 R363, R364). -/
def generates (x : Mod) (handle role : Nat) : Bool :=
  x.mode.mode != .paired || (actCfg x).pair.role == role || (x.cpl.gens.get handle).keeps

/-- Changes the generation state of a handle. -/
def setGen (h : Nat) (g : GenSt → GenSt) (x : Mod) : Mod := { x with cpl := { x.cpl with gens := x.cpl.gens.upd h g } }

/-- What the stream table makes of a resolution. -/
structure Streamed where
  res    : Resolved
  copyTo : Option Nat := none
  side   : CplSide := .plain
  recov  : Option Nat := none
  pop    : Bool := false

/-- Generation at a guard commit: a number, an RTAG and a copy for the partner; or the frame goes to the generator. -/
def streamNow (x : Mod) (fr : Frame) (r : Resolved) : Streamed × Mod :=
  let v := viewOf x (shedOfPort fr.port) fr.bank
  let seq := rtagSeq r.hv
  match fr.side, streamRec v r.hv with
  | .sendTo _, some rec_ =>
    let h := leAt rec_ 0 2
    let x1 := match seq with
      | some q => setGen h (fun g => { g with partnerMax := match g.partnerMax with
          | some m => some (if serialNewer q m then q else m)
          | none => some q }) x
      | none => x
    ({ res := r }, x1)
  | _, none => ({ res := r }, x)
  | _, some rec_ =>
    let h := leAt rec_ 0 2
    let fn := leAt rec_ 2 1
    let fwd := match r.dispo with
      | .ports l => l != []
      | _ => false
    match seq with
    | some _ => ({ res := r, pop := bitOf fn 2 }, x)
    | none =>
      if !bitOf fn 0 || !fwd then ({ res := r }, x)
      else if generates x h (leAt rec_ 3 1 % 2) then
        let g := x.cpl.gens.get h
        let dest_ := leAt rec_ 0x12 2 % 2048
        let paired := x.mode.mode == .paired
        ({ res := { r with acts := { r.acts with rtag := some g.next } },
           copyTo := if paired && dest_ != 0x7FF then some dest_ else none },
         tally (.cpl 10) (setGen h (fun g => { g with next := g.next + 1, soloUsed := g.soloUsed || !paired }) x))
      else ({ res := { r with dispo := .ports [1036], mcast := false, acts := firstActs r.hv }, side := .generate }, x)

/-- The recovery context a frame is offered to: an RTAG and FUNCTION[1] (11 R365). -/
def recoverOf (x : Mod) (fr : Frame) (hv : HVec) : Option Nat :=
  match fr.side, rtagSeq hv, streamRec (viewOf x (shedOfPort fr.port) fr.bank) hv with
  | .sendTo _, _, _ => none
  | _, some _, some r => if bitOf (leAt r 2 1) 1 then some (leAt r 0 2) else none
  | _, _, _ => none

/-! ### Meters (07 R245 to R249) -/

/-- The outcome of a frame's meters: colour, whether DEI is set, whether the frame is dropped, what was charged (meter, buckets,
length), the counter bases that count the final colour. -/
structure Metered where
  colour : Nat
  dei    : Bool := false
  drop   : Bool := false
  log    : List (Nat × Nat × Nat) := []
  bases  : List Nat := []

/-- The receive counters of a good frame (02 R48). -/
def goodCounts (p : Nat) (l : List Byte) (x : Mod) : Mod :=
  countPort lneCtr p (8 + sizeBin l.length) 1 (countPort lneCtr p (2 + daType l) 1
    (countPort lneCtr p 1 1 (countPort lneCtr p 0 l.length (countPort lneCtr p 28 l.length x))))

/-- The meters of a frame in group order, each on the colour the one before produced. -/
def runMeters (s : Nat) (bank : Option Nat) (bytes : Nat) : List Nat → Metered × Mod → Metered × Mod
  | [], y => y
  | i :: t, (m, x) =>
    match meterRec x s bank i with
    | none => runMeters s bank bytes t (m, x)
    | some k =>
      let x1 := checkMeter s i x
      let (c, charged, st) := meterDecide k (meterSt x1 s i k) m.colour bytes
      let a := bitsOf k.acts (2 * c + 1) (2 * c)
      runMeters s bank bytes t
        ({ colour := c, dei := m.dei || a == 1, drop := m.drop || a == 2, log := m.log ++ [(i, charged, bytes)],
           bases := if bitOf k.ctr 31 then m.bases ++ [k.ctr % 2 ^ 20] else m.bases }, setMeter s i st x1)

/-- B of 07 R247. -/
def meterLen (x : Mod) (fr : Frame) : Nat :=
  if lastIn x fr then fr.bytes.length
  else (declaredBy (hvNow x fr) (bytesIn (inGbps x fr) (x.now - fr.arr))).getD 64

/-- A bucket charged `more` bytes, or given back fewer (07 R247). -/
def correctMeter (s : Nat) (bank : Option Nat) (e : Nat × Nat × Nat) (len : Nat) (x : Mod) : Mod :=
  match meterRec x s bank e.1 with
  | none => x
  | some k =>
    let m := meterSt x s e.1 k
    let d := mbits len - mbits e.2.2
    setMeter s e.1 { c := if bitOf e.2.1 0 then min (mbits k.cbs) (m.c - d) else m.c,
                     e := if bitOf e.2.1 1 then min (mbits k.ebs) (m.e - d) else m.e } x

/-- The named counters of a frame: frames and octets (03 R99). -/
def nameCount (s n len : Nat) (x : Mod) : Mod := count (.named s n true) len (tally (.named s n false) x)

/-! ### The copy list (06 R190, R217 to R219, 07 R232) -/

/-- The queue of a copy that is no mirror: the action's or the class map's of the frame's timetable for a single port, 12 + class div 2
for the others. -/
def queueFor (c : TtContent) (a : Acts) (p : Nat) (mcast : Bool) : Nat :=
  if mcast then 12 + a.cls / 2
  else
    match a.queue with
    | some q => q % 12
    | none => (c.cfg p).queueMap.getD a.cls a.cls % 12

/-- The copies to the ports of a disposition. -/
def portCopies (t : TtContent) (a : Acts) (mcast : Bool) (side : CplSide) (l : List Nat) : List Copy :=
  l.map (fun p => { kind := if mcast then .multicast else .unicast, port := p, queue := queueFor t a p mcast, cls := a.cls, side := side })

/-- A punt or punt copy: at the host port of its ring, in the queue of its class; dropped and counted where its REASON leads
nowhere (13 R426). -/
def puntCopy (t : TtContent) (a : Acts) (e : Nat × Nat) (y : List Copy × Mod) : List Copy × Mod :=
  match puntMapped y.2 e.2 with
  | none => (y.1, { y.2 with host := { y.2.host with unmapped := y.2.host.unmapped + 1 } })
  | some n =>
    let p := 1032 + (y.2.host.rings.get n).hostPort
    let c : Copy := { kind := .punt e.1 e.2, port := p, queue := (t.cfg p).queueMap.getD a.cls a.cls % 12, cls := a.cls }
    (y.1 ++ [c], y.2)

/-- Whether a mirror session takes this frame: one in every N (08 R266). -/
def sessionTakes (s n every : Nat) (x : Mod) : Bool × Mod :=
  let k := x.cap.samples.get (s, n) + 1
  if every ≤ k then (true, { x with cap := { x.cap with samples := x.cap.samples.set (s, n) 0 } })
  else (false, { x with cap := { x.cap with samples := x.cap.samples.set (s, n) k } })

/-- One mirror session of a frame: an ingress-point copy enters the list, or its record is offered; an egress-point copy waits
for the first line-port copy (08 R265 to R267). `cause` is the drop cause of the frame. -/
def mirrorCopy (fr : Frame) (cause : Nat) (y : List Copy × Mod) (m : MirRec) : List Copy × Mod :=
  let r := m.dat
  let kind := leAt r 2 1
  if kind = 0 then y
  else
    match sessionTakes (shedOfPort fr.port) m.n (leAt r 0x0C 4 % 2 ^ 24) y.2 with
    | (false, x1) => (y.1, x1)
    | (true, x1) =>
      let egr := bitOf (leAt r 3 1) 0
      let orig := ((List.range y.1.length).zip y.1).find? (fun e => e.2.port < 1024 &&
        (match e.2.kind with | .unicast | .multicast => true | _ => false))
      let dest := leAt r 4 2
      let cls := leAt r 0x0A 1 % 8
      let base : Copy := {
        kind := if kind = 3 then .mirrorRing m.n else .mirror m.n
        port := if kind = 3 then dest % 16 else dest % 2048, queue := 12 + cls / 2, cls := cls, trunc := leAt r 6 2
        hdr := m.hdr, onDrop := bitOf (leAt r 3 1) 1, egr := egr }
      if egr then
        match orig with
        | some o => (y.1 ++ [{ base with st := .held, orig := some o.1 }], x1)
        | none => (y.1, x1)
      else if kind = 3 then
        let d := recordData fr base.trunc
        (y.1, offerRecord (dest % 16) (frameRecord 0 m.n fr none false cause d.length none) d x1)
      else (y.1 ++ [base], x1)

/-- Whether a sampler takes a frame: a 24-bit draw below 2^24 / N (08 R268). -/
def samplerTakes (n : Nat) (x : Mod) : Bool × Mod :=
  let d := drawBits 24 x
  (decide (d.1.toNat * n < 2 ^ 24), d.2)

/-- The ingress sampler of a port: its record is offered at once. -/
def inSample (fr : Frame) (cause : Nat) (k : PortCfg) (x : Mod) : Mod :=
  match k.inSampler with
  | none => x
  | some t =>
    match samplerTakes t.n x with
    | (false, x1) => x1
    | (true, x1) =>
      let d := recordData fr t.trunc
      offerRecord t.ring (frameRecord 1 0xFF fr none false cause d.length none) d x1

/-- The egress sampler of the port of each line-port copy. -/
def egSamples (t : TtContent) (x : Mod) (l : List Copy) : List Copy × Mod :=
  ((List.range l.length).zip l).foldl (fun (y : List Copy × Mod) e =>
    if 1024 ≤ e.2.port || (match e.2.kind with | .unicast | .multicast | .mirror _ => false | _ => true) then y
    else
      match (t.cfg e.2.port).egSampler with
      | none => y
      | some k =>
        match samplerTakes k.n y.2 with
        | (false, x1) => (y.1, x1)
        | (true, x1) =>
          let c : Copy := { kind := .sample true, port := k.ring, queue := 0, cls := 0, trunc := k.trunc, st := .held, orig := some e.1 }
          (y.1 ++ [c], x1)) (l, x)

/-- The yard streams of a copy list: one per other shed with copies that are no mirrors, one per mirror to another shed
(06 R218, R219). -/
def streamCopies (fr : Frame) (l : List Copy) : List Copy :=
  let s := shedOfPort fr.port
  let isMirror (c : Copy) : Bool := match c.kind with
    | .mirror _ => true
    | _ => false
  let far := l.filter (fun c => copyHome fr c != s)
  let sheds := (List.range 8).filter (fun d => far.any (fun c => !isMirror c && copyHome fr c == d))
  let mirrors := (far.filter isMirror).map (copyHome fr)
  (sheds ++ mirrors).map (fun d => { kind := .stream d, port := 0, queue := 0, cls := 0 })

/-- Copies in another shed wait for the frame's first cell there. -/
def holdRemote (fr : Frame) (l : List Copy) : List Copy :=
  l.map (fun c => if copyHome fr c != shedOfPort fr.port && c.st == .ready then { c with st := .held } else c)

/-! ### Hits and learning (04 R126, R131) -/

/-- The shed that serves as home for a shed's keys now: itself, but while a Fatal event keeps it quiesced the next whose core and
Ostler group run (04 R127). -/
def homeNow (x : Mod) (h : Nat) : Nat :=
  if shedWorks x h then h
  else (((List.range 8).map (fun i => (h + i) % 8)).find? (fun s =>
    shedWorks x s && domRuns x (408 + s) && domRuns x (416 + s))).getD h

/-- The home shed of a key (04 R127, 03 R578). -/
def homeOf (x : Mod) (fid : Nat) (mac : BitVec 48) : Nat := homeNow x (Config.homeHash fid mac).toNat

/-- A source hit: in the home shed it is the entry's HIT_TIME; elsewhere the shed's hint, with a refresh when the hint is older
(04 R131). -/
def hitSeen (s fid : Nat) (mac : BitVec 48) (x : Mod) : Mod :=
  let t := ageTick x
  if homeOf x fid mac = s then
    { x with tbl := { x.tbl with meta_ := x.tbl.meta_.upd (fid, mac) (fun m => { m with hit := t }) } }
  else if x.tbl.hint.get (s, fid, mac) = t then x
  else { x with tbl := { x.tbl with hint := x.tbl.hint.set (s, fid, mac) t, pend := x.tbl.pend ++ [(s, fid, mac, t)] } }

/-- A request joins a home shed's queue: behind those that came before, and among those of its own cycle in the order of the rotating
pointer over source sheds, which then moves past the first (04 R127). -/
def enqueueLearn (h : Nat) (l : Learn) (x : Mod) : Mod :=
  let q := x.tbl.learns.get h
  let cyc := l.came / 625
  let (at_, from_, after) := x.tbl.learnPtr.get h
  let ptr := if at_ = cyc then from_ else after
  let turnOf (k : Learn) : Nat := (k.src + 8 - ptr) % 8
  let (same, rest) := (q.filter (fun k => k.came / 625 == cyc), q.filter (fun k => k.came / 625 != cyc))
  let new := same.filter (fun k => turnOf k ≤ turnOf l) ++ [l] ++ same.filter (fun k => turnOf l < turnOf k)
  let first := match new with
    | k :: _ :: _ => (k.src + 1) % 8
    | _ => ptr
  { x with tbl := { x.tbl with learns := x.tbl.learns.set h (rest ++ new), learnPtr := x.tbl.learnPtr.set h (cyc, ptr, first) } }

/-- A learn request leaves for a key's home shed, which queues up to 4,096; an ingress shed asks again for a key only once
answered or after 100 us (04 R126, R127). -/
def sendLearn (fr : Frame) (key : Nat × BitVec 48) (x : Mod) : Mod :=
  let (fid, mac) := key
  let s := shedOfPort fr.port
  let waits : Bool := match x.tbl.asked.get (s, fid, mac) with
    | some t => x.now < t + us 100
    | none => false
  if waits then x
  else
    let h := homeOf x fid mac
    let x1 := { x with tbl := { x.tbl with asked := x.tbl.asked.set (s, fid, mac) (some x.now) } }
    if 4096 ≤ (x1.tbl.learns.get h).length then raise (.shed h) evLearnDrop (tally (.lkp h 1) x1)
    else
      let dest := match ((frameCfg x fr).cfg fr.port).lag with
        | some g => 2 ^ 30 + g
        | none => fr.port
      enqueueLearn h { src := s, dest := dest, fid := fid, mac := mac, time := fr.arr, came := x.now } x1

/-- A frame that is good and whose guard result has committed requests its learns, once. -/
def learnOnce (f : Nat) (x : Mod) : Mod :=
  match frame? x f with
  | none => x
  | some fr => if fr.good && fr.decided && !fr.learned then
      fr.learnKeys.foldl (fun a k => sendLearn fr k a) (setFrame f (fun r => { r with learned := true }) x)
    else x

/-! ### The verdict (05 R156, R166) -/

/-- The prediction a resolution makes, when it forwards to exactly one port. -/
def predictOf (r : Resolved) : Option Predict :=
  match r.dispo with
  | .ports [p] =>
    let dep := match r.fwd.decider with
      | some d => Config.depFold d.1 d.2
      | none => 0
    some { port := p, queue := queueFor r.hv.c.cfg r.acts p r.mcast, cls := r.acts.cls, acts := r.acts, dep := dep, nh := r.fwd.nextHop }
  | _ => none

/-- Whether an outrider was started on a prediction. -/
def Otr.equals (o : Otr) (p : Predict) (tagged : Bool) : Bool :=
  o.port == p.port && o.queue == p.queue && o.cls == p.cls && p.acts.recipeOk tagged && o.acts.recipe == p.acts.recipe

/-- Whether a resolution equals the prediction that the frame's outrider started on, or that its ticket holds: to the predicted port
alone, unflagged, in queue, class and recipe. -/
def matches_ (x : Mod) (fr : Frame) (r : Resolved) (p : Option Predict) : Bool :=
  match p with
  | none => false
  | some p =>
    !r.hv.flagged && (match fr.otr with
      | some o => o.equals p (frameTagged x fr)
      | none => (frameTkt x fr).any (fun e => e.2.equals p (frameTagged x fr)))

/-- Whether a guard result is too late for an outrider: the cycle in which byte L − 8 must be sent has passed when it reaches the egress
MAC (05 R166). -/
def otrLate (x : Mod) (fr : Frame) (o : Otr) : Bool := decide (otrDeadline fr o < x.now + transit fr o.port)

/-- The verdict on a frame's ticket at this instant. -/
def verdictOf (x : Mod) (fr : Frame) (agrees : Bool) : Verdict :=
  match fr.tkt with
  | none => .noTicket
  | some _ =>
    match fr.otr with
    | some o =>
      match o.st with
      | .stomped _ => .late
      | .lost => if agrees then .confirm else .refute
      | _ => if otrLate x fr o then .late else if agrees then .confirm else .refute
    | none => if agrees then .confirm else .refute

/-- A verdict takes effect on an outrider (05 R166 to R173): its start counts, and with it what became of it. -/
def settleStarted (f : Nat) (fr : Frame) (o : Otr) (v : Verdict) (x : Mod) : Mod :=
  let c (i : Nat) (x : Mod) : Mod := countPort otrCtr fr.port i 1 x
  match o.st, v with
  | .lost, .confirm => dropCopy f 0 1 7 (c 15 (countStart fr x))
  | .lost, _ => c 15 (countStart fr x)
  | .stomped _, _ => c 5 (countStart fr x)
  | _, .confirm =>
    let x1 := confirmOutrider f fr o x
    if (portSt x1 o.port).tx.any (fun t => t.f == some f && t.copy.isNone) then x1 else finishCopy f 0 (reqOf o.port) x1
  | _, .late => stompOutrider f fr o 2 (otrDeadline fr o) (c 5 (countStart fr x))
  | _, _ =>
    let cause := match fr.guard with
      | some g => (match g.dispo with
        | .ports [p] => if p = o.port then 1 else 0
        | _ => 1)
      | none => 1
    stompOutrider f fr o cause (x.now + transit fr o.port) (c 4 (countStart fr x))

/-- The verdict takes effect on the outrider, or on its start (05 R166 to R173, R177). A ticket that has left its way since is row 2 of
R160. -/
def settleOutrider (f : Nat) (fr : Frame) (v : Verdict) (x : Mod) : Mod :=
  let c (i : Nat) (x : Mod) : Mod := countPort otrCtr fr.port i 1 x
  let skip (i : Nat) (x : Mod) : Mod := c i (setFrame f (fun r => { r with skipped := true }) x)
  let en := ((frameCfg x fr).cfg fr.port).otrEn
  match fr.tkt with
  | none => setFrame f (fun r => { r with skipped := true }) (if fr.port < 1024 && en then c 1 x else c 10 (c 1 x))
  | some _ =>
    let x0 := pcEvt (shedOfPort fr.port) 0x06 0 1 (c 0 x)
    match fr.otr with
    | some o => settleStarted f fr o v x0
    | none =>
      match (match fr.skip with
        | some i => some i
        | none => match frameTkt x fr with
          | none => some (if en then 7 else 10)
          | some (_, k) => skipRow x f fr k false) with
      | some i => skip i x0
      | none => if v = .confirm then x0 else skip 6 x0

/-! ### The commit (05 R167, R174) -/

/-- The drop cause of a disposition (08 R269). -/
def dropCause (d : Dispo) : Nat :=
  match d with
  | .drop c => c
  | _ => 0

/-- A winning ACL entry with bad parity is logged and raised (03 R98, R109). -/
def parityFound (s : Nat) (e : Option (Nat × Nat)) (x : Mod) : Mod :=
  match e with
  | none => x
  | some (sl, i) => raise (.shed s) evAclParity
      { x with tbl := { x.tbl with
        aclLog := x.tbl.aclLog.set s (reg [at_ 28 4 sl, at_ 16 12 i]), aclHit := (s, sl, i) :: x.tbl.aclHit } }

/-- The source keys of a frame that are to be learnt: its port and the key's FID learn, and it is not dropped (04 R126). -/
def mayLearn (fr : Frame) (r : Resolved) : List (Nat × BitVec 48) :=
  if r.hv.pcfg.learn && fr.side == .plain && (match r.dispo with | .drop _ => false | _ => true) then
    r.learn.filter (fun k => (r.hv.c.cfg.fid k.1).learn)
  else []

/-- What the guard found, as the frame keeps it; `m` what its meters made of it. -/
def guardOf (x : Mod) (r : Resolved) (v : Verdict) (m : Metered) : Guard :=
  { at_ := x.now, acts := r.acts, dispo := r.dispo, verdict := v, trunc := r.hv.trunc, reason := r.hv.r.reason, fid := r.fwd.fid,
    vrf := r.fwd.vrf, vid := r.hv.vid, flags := flag 0 r.hv.trunc + flag 1 r.hv.conf,
    nextHop := r.fwd.nextHop, mcast := r.mcast, prs := r.prs, setDei := m.dei, metDrop := m.drop }

/-- The counters of a resolution: PRS, LKP, ACL-named (03 R102, R106, 04 R144). -/
def resolvedCounts (s : Nat) (fr : Frame) (r : Resolved) (x : Mod) : Mod :=
  let x1 := r.prs.foldl (fun a i => countPort prsCtr fr.port i 1 a) x
  let x2 := r.lkp.foldl (fun a i => tally (.lkp s i) a) x1
  let x3 := r.counters.foldl (fun a n => nameCount s n fr.bytes.length a) x2
  if r.static_ then tally (.lkp s 10) x3 else x3

/-- The copy list of a frame is fixed: its cells take a reference for each copy, and its mirrors' heads a cell each (06 R190, R219). -/
def fixCopies (f : Nat) (l : List Copy) (x : Mod) : Mod :=
  match frame? x f with
  | none => x
  | some fr =>
    let s := shedOfPort fr.port
    let all := holdRemote fr (l ++ streamCopies fr l)
    takeHeads f (addRefs s f ((all.filter (fun c => copyHome fr c == s)).length) (setFrame f (fun r => { r with copies := all }) x))

/-- Whether a disposition is a drop. -/
def Dispo.drops (d : Dispo) : Bool :=
  match d with
  | .drop _ => true
  | _ => false

/-- The copies that a resolution sends to ports and punts. -/
def sentCopies (r : Resolved) (st : Streamed) (x : Mod) : List Copy × Mod :=
  let a := r.acts
  let t := r.hv.c.cfg
  let base := match r.dispo with
    | .ports l => portCopies t a r.mcast st.side l
    | _ => []
  let cpl : List Copy := match st.copyTo with
    | some p => [{ kind := .multicast, port := 1036, queue := 12 + a.cls / 2, cls := a.cls, side := .sendTo p }]
    | none => []
  let y0 := match r.dispo with
    | .punt s c => puntCopy t a (s, c) (base, x)
    | _ => (base ++ cpl, x)
  r.punts.foldl (fun y e => puntCopy t a e y) y0

/-- The copies a resolution asks for, mirrors and samples with them, with the records offered at once. -/
def copiesOf (fr : Frame) (r : Resolved) (st : Streamed) (x : Mod) : List Copy × Mod :=
  let y2 := r.sessions.foldl (mirrorCopy fr (dropCause r.dispo)) (sentCopies r st x)
  let y3 := (y2.1, inSample fr (dropCause r.dispo) r.hv.pcfg y2.2)
  egSamples r.hv.c.cfg y3.2 y3.1

/-- A copy that has not begun is withdrawn: it leaves its queue and its reference is released. -/
def withdrawCopy (f : Nat) (x : Mod) (e : Nat × Copy) : Mod :=
  finishCopy f e.1 (copyReq e.2)
    (if e.2.st == .queued then pruneQueue e.2.port e.2.queue (fun l => l.filter (fun k => !(k.f == f && k.copy == e.1))) x else x)

/-- The copies of a bad frame that are not being sent are dropped without a count of their own (02 R45). -/
def discardCopies (f : Nat) (x : Mod) : Mod :=
  match frame? x f with
  | none => x
  | some fr =>
    let x1 := ((List.range fr.copies.length).zip fr.copies).foldl (fun a e =>
      if e.2.st == .sending || e.2.st == .done then a else withdrawCopy f a e) x
    tidyFrame f (settleDesc (shedOfPort fr.port) f x1)

/-- What its meters make of a resolution (07 R249): colour, DEI, and a drop, which leaves the punt copy that a group asks for
(03 R100). -/
def Metered.apply (m : Metered) (r : Resolved) : Resolved :=
  { r with
    acts := { r.acts with colour := m.colour, dei := if m.dei then some 1 else r.acts.dei }
    dispo := if m.drop && !r.dispo.drops then .drop 6 else r.dispo
    punts := if m.drop then r.aclCopy else r.punts }

/-- The receive counters of a frame that ended good while its outrider had no guard result (05 R167). -/
def countWaiting (f : Nat) (fr : Frame) (x : Mod) : Mod :=
  if fr.rxDue then goodCounts fr.port (fr.wire.getD fr.bytes) (setFrame f (fun o => { o with rxDue := false }) x) else x

/-- PRS_LAST_FLAGGED of a stall. -/
def noteFlagged (fr : Frame) (hv : HVec) (x : Mod) : Mod :=
  if hv.flagged && fr.port < 1024 then
    { x with line := { x.line with flagged := x.line.flagged.set (stallOf fr.port) hv.lastFlagged } }
  else x

/-- The guard result of a frame, streams applied, commits exactly once (05 R167, 03 R102). -/
def commitStreamed (f : Nat) (fr : Frame) (st : Streamed) (x0 : Mod) : Mod :=
  let s := shedOfPort fr.port
  let r1 := st.res
  let (m, x1) := runMeters s fr.bank (meterLen x0 fr) r1.meters ({ colour := r1.acts.colour }, x0)
  let r := m.apply r1
  let p := predictOf r
  let agrees := fr.tkt.isSome && matches_ x1 fr r p
  let v := verdictOf x1 fr agrees
  let x2 := setFrame f (fun o => { o with
    guard := some (guardOf x1 r v m), meters := m.log, learnKeys := mayLearn fr r, rtagPop := st.pop, decided := true, kept := none }) x1
  let x3 := countWaiting f fr (resolvedCounts s fr r x2)
  let x4 := m.bases.foldl (fun a b => nameCount s (b + m.colour) fr.bytes.length a) x3
  let x5 := noteFlagged fr r.hv (parityFound s r.parity x4)
  let x7 := r.hitL2.foldl (fun a k => hitSeen s k.1 k.2 a) x5
  let fr1 := (frame? x7 f).getD fr
  let (l, x8) := copiesOf fr1 r st x7
  let x9 := settleOutrider f fr1 v (fixCopies f l x8)
  let x10 := if fr.tkt.isSome then updateTkt fr r.hv (v == .confirm) p x9
    else
      match p with
      | some p => if installable x9 fr r.hv p && (hitOf x9 fr).isNone then installTkt fr p x9 else x9
      | none => x9
  let x11 := if l = [] then preciseRecord f fr1 none (dropCause r.dispo) fr.bytes.length none x10 else x10
  let x12 := tidyFrame f (settleDesc s f (learnOnce f x11))
  if fr.bad then discardCopies f x12 else x12

/-- The guard result of a frame commits. -/
def commitGuard (f : Nat) (fr : Frame) (r : Resolved) (x : Mod) : Mod :=
  let (st, x0) := streamNow x fr r
  commitStreamed f fr st x0

/-! ### Frames that wait for a recovery context (11 R365) -/

/-- What a frame keeps of its resolution until its recovery context has decided. -/
def keptOf (x : Mod) (fr : Frame) (r : Resolved) (known : Bool) (h : Nat) (seq : BitVec 16) : Kept :=
  let rec_ := (streamRec (viewOf x (shedOfPort fr.port) fr.bank) r.hv).getD []
  let w := leAt rec_ 0x18 4
  { known := known, acts := r.acts, dispo := r.dispo, mcast := r.mcast, prs := r.prs, lkp := r.lkp, counters := r.counters
    meters := r.meters, sessions := r.sessions, aclCopy := r.aclCopy, punts := r.punts, learn := r.learn, hitL2 := r.hitL2
    static_ := r.static_, parity := r.parity, fid := r.fwd.fid, vrf := r.fwd.vrf, nextHop := r.fwd.nextHop
    pop := bitOf (leAt rec_ 2 1) 2, handle := h, seq := seq, ctr := if bitOf w 31 then some (w % 2 ^ 20) else none }

/-- The resolution that a frame kept. -/
def Kept.resolved (k : Kept) (hv : HVec) : Resolved :=
  { hv := hv, fwd := { fid := k.fid, vrf := k.vrf, nextHop := k.nextHop }, acts := k.acts, dispo := k.dispo, mcast := k.mcast
    prs := k.prs, lkp := k.lkp, counters := k.counters, meters := k.meters, sessions := k.sessions, aclCopy := k.aclCopy
    punts := k.punts, learn := k.learn, hitL2 := k.hitL2, static_ := k.static_, parity := k.parity }

/-- A frame's guard result is due (03 R88). -/
def guardDue (x : Mod) (fr : Frame) : Bool :=
  fr.guard.isNone && fr.admitted && !fr.direct && fr.arr + guardTime (inGbps x fr) (hvNow x fr).hor ≤ x.now
    && !(fr.bad && (recoverOf x fr (hvNow x fr)).isSome)

/-- A guard result later than 18 ns counts for its stall (08 R278). -/
def countSlow (fr : Frame) (x : Mod) : Mod :=
  if fr.arr + 18000 < x.now && fr.port < 1024 then pcEvt (fr.port / 128) 0x05 (stallOf fr.port % 16) 1 x else x

/-- Whether the lookup of a frame read an entry of its shed's replica: without the entry its result is another (DEDUCED, log 61). -/
def lookupReads (x : Mod) (fr : Frame) (known : Bool) (tab : Nat) (key : List Byte) : Bool :=
  let s := shedOfPort fr.port
  let r := resolve x fr known
  let r1 := resolve { x with tbl := { x.tbl with ents := x.tbl.ents.upd (s, tab) (fun l => l.filter (fun e => e.key != key)) } } fr known
  !(r.fwd == r1.fwd && r.acts == r1.acts && r.dispo == r1.dispo && r.prs == r1.prs && r.counters == r1.counters && r.meters == r1.meters
    && r.punts == r1.punts)

/-- The words of its shed's replica that the lookup of a frame reads. -/
def lookupWords (x : Mod) (fr : Frame) (known : Bool) (w : EccWord) : Bool :=
  match w with
  | .replica s tab key => s == shedOfPort fr.port && fr.bank == x.tt.active && lookupReads x fr known tab key
  | _ => false

/-- What the guard check resolves for a frame: dropped where its lookup reads a word that ECC cannot correct, which is rewritten from the
majority of the replicas (17 R518, 04 R116). -/
def resolveRead (x : Mod) (fr : Frame) (known : Bool) : Resolved × Mod :=
  let r := resolve x fr known
  let w := lookupWords x fr known
  let y := eccRead w x
  if y.1 then ({ r with dispo := .drop 0, punts := [] }, eccWrite w y.2) else (r, y.2)

/-- One frame's guard result. A frame for a recovery context keeps it until the context has passed the frame (11 R365). -/
def guardOne (x : Mod) (f : Nat) : Mod :=
  match frame? x f with
  | none => x
  | some fr =>
    let known := lastIn x fr
    let (r, x0) := resolveRead (countSlow fr x) fr known
    match recoverOf x0 fr r.hv, rtagSeq r.hv with
    | some h, some q => setFrame f (fun o => { o with
        recov := some h, guard := some (guardOf x0 r .noTicket { colour := r.acts.colour }), kept := some (keptOf x0 fr r known h q) }) x0
    | _, _ => commitGuard f fr r x0

/-! ### Meters that several pipes reach in one cycle (07 R248) -/

/-- The meters that a frame's guard result names now. -/
def frameMeters (x : Mod) (fr : Frame) : List Nat := (resolve x fr (lastIn x fr)).meters

/-- The cycle in which a frame's guard result is due. -/
def guardCycle (x : Mod) (fr : Frame) : Nat := (fr.arr + guardTime (inGbps x fr) (hvNow x fr).hor) / 625

/-- The other frames of a frame's shed whose guard results are due in its cycle. -/
def sameCycle (x : Mod) (f : Nat) (fr : Frame) : List (Nat × Frame) :=
  (heldFrames x).filter (fun e => e.1 != f && shedOfPort e.2.port == shedOfPort fr.port && guardDue x e.2
    && guardCycle x e.2 == guardCycle x fr)

/-- The frames of some that reach a meter in common with a frame, over further frames too. -/
def sharing (x : Mod) (fr : Frame) (l : List (Nat × Frame)) : List (Nat × Frame) :=
  let meets (a b : Frame) : Bool := (frameMeters x a).any (frameMeters x b).contains
  l.foldl (fun acc _ => l.filter (fun e => meets e.2 fr || acc.any (fun k => meets k.2 e.2))) []

/-- The guard result of a frame. Frames of one cycle that reach one meter are decided one after another, in the order of the meter unit's
rotating pointer over the lookup pipes, which then moves past the first (07 R248). -/
def guardShed (x : Mod) (f : Nat) : Mod :=
  match frame? x f with
  | none => x
  | some fr =>
    if !guardDue x fr then x
    else
      match sharing x fr (sameCycle x f fr) with
      | [] => guardOne x f
      | l =>
        let s := shedOfPort fr.port
        let ptr := x.que.pipePtr.get s
        let order := byPipe (fun e => pipeOf x e.1 e.2) ptr ((f, fr) :: l)
        let next := match order with
          | e :: _ => (pipeOf x e.1 e.2 + 1) % 32
          | [] => ptr
        (order.map (·.1)).foldl guardOne { x with que := { x.que with pipePtr := x.que.pipePtr.set s next } }

/-- The handle from which a frame's guard result takes a sequence number (11 R363). -/
def numberedBy (x : Mod) (fr : Frame) : Option Nat :=
  let hv := vectorOf (frameCfg x fr) fr (lastIn x fr)
  match fr.side, rtagSeq hv, streamRec (viewOf x (shedOfPort fr.port) fr.bank) hv with
  | .sendTo _, _, _ => none
  | _, none, some r => if bitOf (leAt r 2 1) 0 && generates x (leAt r 0 2) (leAt r 3 1 % 2) then some (leAt r 0 2) else none
  | _, _, _ => none

/-- GUARD_RESULT. Frames of one handle that commit in one cycle take their numbers in the order of the home shed's rotating pointer over
source sheds, which then moves past the first (11 R363); a refill of the meters in the cycle comes before (07 R248). -/
def guardNow (f : Nat) (x_ : Mod) : Mod :=
  let x := refillAll x_
  match frame? x f with
  | none => x
  | some fr =>
    match (if guardDue x fr then numberedBy x fr else none) with
    | none => guardShed x f
    | some h =>
      let src (e : Nat × Frame) : Nat := shedOfPort e.2.port
      let rivals := (heldFrames x).filter (fun e => e.1 != f && guardDue x e.2 && guardCycle x e.2 == guardCycle x fr
        && numberedBy x e.2 == some h)
      match rivals with
      | [] => guardShed x f
      | l =>
        let order := (List.range 8).flatMap (fun i => ((f, fr) :: l).filter (fun e => src e == (x.cpl.genPtr.get (h % 8) + i) % 8))
        let x1 := match order with
          | e :: _ => { x with cpl := { x.cpl with genPtr := x.cpl.genPtr.set (h % 8) ((src e + 1) % 8) } }
          | [] => x
        (order.map (·.1)).foldl guardShed x1

/-! ### The revised result (03 R88, 05 R171, R174) -/

/-- Whether a frame's first result was made without a length conflict that its last byte shows. -/
def revisionDue (x : Mod) (fr : Frame) : Bool :=
  match fr.guard with
  | some g => !g.revised && fr.ended && !fr.bad && decide (g.at_ < lastByte x fr) && (
      let a := (vectorOf (frameCfg x fr) fr false).r
      let b := (vectorOf (frameCfg x fr) fr true).r
      b.reason != 0 && (a.reason != b.reason || a.stopOff != b.stopOff))
  | none => false

/-- What the first result's meters and streams made of a frame stands in the revised one; it is metered once (log 68). -/
def keepMetered (g : Guard) (r : Resolved) : Resolved :=
  let r1 := (Metered.apply { colour := g.acts.colour, dei := g.setDei, drop := g.metDrop } r)
  { r1 with acts := { r1.acts with rtag := g.acts.rtag } }

/-- The PRS counters that a revised result adds: a frame counts once in each, and in one policy's (03 R84, R102). -/
def addedCounts (g : Guard) (prs : List Nat) : List Nat :=
  let policy (i : Nat) : Bool := decide (2 ≤ i ∧ i ≤ 4)
  prs.filter (fun i => !g.prs.contains i && !(policy i && g.prs.any policy))

/-- Whether a revised result replaces a copy: one to a port, a punt or a yard stream that has not begun. What its mirrors and samplers took,
and the copy for the partner, stay (log 68). -/
def replaced (k : Copy) : Bool :=
  k.st != .sending && k.st != .done && (match k.kind with
    | .unicast | .multicast => k.side == .plain
    | .punt _ _ | .stream _ => true
    | _ => false)

/-- The egress-point mirrors that wait for a copy withdrawn wait for the first new line-port copy, or are released (08 R267). -/
def rehang (f : Nat) (gone : List Nat) (next : Option Nat) (x : Mod) : Mod :=
  match frame? x f with
  | none => x
  | some fr => ((List.range fr.copies.length).zip fr.copies).foldl (fun a e =>
      if e.2.st == .held && e.2.orig.any gone.contains then
        match next with
        | some i => setCopy f e.1 (fun k => { k with orig := some i }) a
        | none => finishCopy f e.1 (copyReq e.2) a
      else a) x

/-- The copies not yet begun are replaced by those of the revised result; those begun go on. -/
def reviseCopies (f : Nat) (fr : Frame) (l : List Copy) (x : Mod) : Mod :=
  let old := ((List.range fr.copies.length).zip fr.copies).filter (fun e => replaced e.2)
  let x1 := old.foldl (withdrawCopy f) (setFrame f (fun r => { r with decided := false }) x)
  match frame? x1 f with
  | none => x1
  | some fr1 =>
    let live := fr1.copies.filter (fun c => c.st != .done)
    let sent := (live.filter (fun c => c.st == .sending)).map (·.port)
    let new := l.filter (fun c => !sent.contains c.port)
    let streams := (streamCopies fr1 (live ++ new)).filter (fun c => !(live.map (·.kind)).contains c.kind)
    let all := holdRemote fr1 (new ++ streams)
    let n := fr1.copies.length
    let next := ((List.range new.length).zip new).find? (fun e => e.2.port < 1024) |>.map (fun e => n + e.1)
    let s := shedOfPort fr1.port
    rehang f (old.map (·.1)) next (addRefs s f ((all.filter (fun c => copyHome fr1 c == s)).length)
      (setFrame f (fun r => { r with copies := r.copies ++ all, decided := true }) x1))

/-- The verdict of a revised result, which confirms no outrider: a started one is late (05 R171, R174). -/
def revisedVerdict (fr : Frame) : Verdict :=
  if fr.tkt.isNone then .noTicket else if fr.otr.isSome then .late else .refute

/-- A confirmed outrider that is still being sent is stomped as late by a revised result (05 R171), and its copy is to be sent. -/
def reviseOutrider (f : Nat) (fr : Frame) (x : Mod) : Mod :=
  match fr.otr with
  | some o =>
    if o.st = .confirmed && otrSending x f o then
      setCopy f 0 (fun c => { c with st := .ready, txAt := none })
        (countPort otrCtr fr.port 5 1 (stompOutrider f fr o 2 (x.now + transit fr o.port) x))
    else x
  | none => x

/-- GUARD_REVISION: the revised result of a frame whose length conflict appeared at its last byte replaces the first; an outrider
it no longer matches is stomped as late, and the copies that have not begun are replaced. -/
def guardRevise (f : Nat) (x : Mod) : Mod :=
  match frame? x f with
  | none => x
  | some fr =>
    match fr.guard with
    | none => x
    | some g =>
      if !revisionDue x fr || !fr.decided then x
      else
        let s := shedOfPort fr.port
        let rx := resolveRead x fr true
        let r := keepMetered g rx.1
        let new := addedCounts g r.prs
        let g1 := guardOf x r (revisedVerdict fr) { colour := g.acts.colour, dei := g.setDei, drop := g.metDrop }
        let x1 := setFrame f (fun o => { o with guard := some { g1 with revised := true, prs := g.prs ++ new } }) rx.2
        let x2 := new.foldl (fun a i => countPort prsCtr fr.port i 1 a) x1
        let x3 := noteFlagged fr r.hv (if g.prs.contains 9 then x2 else parityFound s r.parity x2)
        let x4 := reviseOutrider f fr x3
        let y := sentCopies r { res := r } x4
        tidyFrame f (settleDesc s f (reviseCopies f ((frame? y.2 f).getD fr) y.1 y.2))

end Sys2Proof.Machine
end

