-- ==== Sys2Proof/Machine/LineIn.lean ====
section
/-! DEFINITION. Sys2Proof/Machine/LineIn.lean: the line side: a frame's arrival and end, the receive tests, pause and PFC, LPI, stall
clock scaling, ports and lanes (02 R34 to R73, 10 R334). -/

namespace Sys2Proof.Machine

/-! ### Arrival (01 R23, R24, 10 R334, 05 R149 to R151) -/

/-- The epoch tag and the bank a frame takes: the new ones from T on, by the stall's copy of the monotonic counter. -/
def epochNow (x : Mod) : BitVec 2 × Option Nat :=
  match x.tt.act with
  | some a =>
    match a.flipT with
    | some t => if t ≤ x.now / 1000 then (x.tt.epoch + 1, some a.bank) else (x.tt.epoch, x.tt.active)
    | none => (x.tt.epoch, x.tt.active)
  | none => (x.tt.epoch, x.tt.active)

/-- An arriving frame finds its stall's running pipe busy: both pipes run again. A pipe issues one frame each 0.625 ns (02 R61). -/
def pipeArrival (g : Nat) (x : Mod) : Mod :=
  setClk g (fun c =>
    let busy := c.one && decide (x.now < c.busyTill)
    { c with
      one := c.one && !busy
      steps := if busy then c.steps + 1 else c.steps
      busyTill := x.now + 625
      arrivals := (x.now :: c.arrivals).filter (fun t => x.now < t + us 100) }) x

/-- The SecTAG of a received frame: AN, PN as sent, SCI or none, bytes of tag (02 R65). -/
def secTagOf (l : List Byte) : Option (Nat × Nat × Option (List Byte) × Nat) :=
  if beAt l 12 2 ≠ 0x88E5 then none
  else
    let tci := beAt l 14 1
    let sci := bitOf tci 5
    some (tci % 4, beAt l 16 4, if sci then some (sliceOf l 20 8) else none, if sci then 16 else 8)

/-- The whole packet number of a frame from its low half: the nearest not below the lowest accepted (log 36). -/
def fullPn (low pn : Nat) : Nat :=
  let hi := low / 2 ^ 32
  if 2 ^ 31 ≤ low % 2 ^ 32 && pn < 2 ^ 31 then (hi + 1) * 2 ^ 32 + pn else hi * 2 ^ 32 + pn

/-- The receive channel of a port that a frame names; without an SCI the port's only channel. -/
def rxScOf (x : Mod) (p : Nat) (sci : Option (List Byte)) : Option RxSc :=
  match sci with
  | some s => x.line.rxSc.find? (fun c => c.port == p && c.sci == s)
  | none => x.line.rxSc.find? (fun c => c.port == p)

/-- What MACsec makes of a received frame: the bytes after validation, the fault (1 ICV, 2 replay, 3 no SA), and the channel, AN and
packet number that it uses up if it ends good (02 R65). -/
def secReceive (x : Mod) (p : Nat) (l : List Byte) : List Byte × Nat × Option (List Byte × Nat × Nat) :=
  let k := portCfg x p
  if !k.macsec || beAt l 12 2 = 0x888E then (l, 0, none)
  else
    match secTagOf l with
    | none => (l, if k.validate = 2 then 3 else 0, none)
    | some (an, pn, sci, n) =>
      let body := noFcs l
      let open_ (clear : List Byte) : List Byte := let b := body.take 12 ++ clear; b ++ fcsOf b
      match (rxScOf x p sci).bind (fun c => (c.sas.get an).map (fun a => (c, a))) with
      | none => if k.validate = 0 then (open_ ((body.drop (12 + n)).take (body.length - 28 - n)), 0, none) else (l, 3, none)
      | some (c, a) =>
        let full := fullPn a.low pn
        let aad := body.take (12 + n + c.off)
        match Config.macsecOpen a.key (secIv a.salt a.ssci full) aad (body.drop (12 + n + c.off)) with
        | none => if k.validate = 0 then (open_ ((body.drop (12 + n)).take (body.length - 28 - n)), 0, none) else (l, 1, none)
        | some plain =>
          if full < a.low then (l, 2, none)
          else (open_ (sliceOf body (12 + n) c.off ++ plain), 0, some (c.sci, an, full))

/-- The MACsec fault of a frame whose last byte has arrived good: its packet number may have been used since its first byte. -/
def secFault (x : Mod) (fr : Frame) : Nat :=
  match fr.pn with
  | none => fr.sec
  | some (sci, an, pn) =>
    match (rxScOf x fr.port (some sci)).bind (fun c => c.sas.get an) with
    | some a => if pn < a.low then 2 else fr.sec
    | none => fr.sec

/-- The lowest packet number a channel accepts after a good frame: the channel's replay window behind it (02 R65). -/
def acceptPn (fr : Frame) (x : Mod) : Mod :=
  match fr.pn with
  | none => x
  | some (sci, an, pn) =>
    { x with line := { x.line with rxSc := x.line.rxSc.map (fun k =>
        if k.port = fr.port && k.sci = sci then
          { k with sas := k.sas.upd an (Option.map (fun (a : RxSa) => { a with low := max a.low (pn + 1 - k.win) })) }
        else k) } }

/-- Whether a frame is a MAC control frame (02 R54). -/
def macControl (l : List Byte) : Bool := beAt l 12 2 == 0x8808

/-- Whether a frame of 64 to MAX_LEN bytes that ends with an ordinary terminate block is a valid pause or PFC frame of the port's mode (1
pause, 2 PFC): the MAC consumes it (02 R54). -/
def validCtl (x : Mod) (p : Nat) (rx : RxBytes) : Bool :=
  let k := portCfg x p
  let l := rx.bytes
  !rx.err && macControl l && decide (64 ≤ l.length) && decide (l.length ≤ k.maxLen) && tailFcs l == fcsOf (noFcs l)
    && ((k.fc == 1 && beAt l 14 2 == 0x0001) || (k.fc == 2 && beAt l 14 2 == 0x0101))
    && (beAt l 0 6 == 0x0180C2000001 || beAt l 0 6 == portMac x p)

/-- FRAME_RECEIVE: a frame's first byte leaves PCS decode on a port that is up and free, while the module forwards. The one frame that
goes neither to the Loft nor to the guard check is a valid pause or PFC frame (01 R23), which is received by its own command. -/
def frameArrives (p : Nat) (rx : RxBytes) (side : CplSide) (x : Mod) : Mod :=
  let l := rx.bytes
  let s := shedOfPort p
  let free := match (portSt x p).lastIn with
    | some t => t ≤ x.now
    | none => true
  let enters := p < 1024 || p = 1036 || p = 1037
  if !enters || !forwarding x || !portUpNow x p || rxShut x p || !shedWorks x s || !free || (p < 1024 && validCtl x p rx) then x
  else
    let (epoch, bank) := epochNow x
    let (bytes, fault, pn) := secReceive x p l
    let fr0 : Frame := { port := p, bytes := bytes, arr := x.now, epoch := epoch, bank := bank, side := side, sec := fault, err := rx.err
                         pn := pn, stamp := rxStamp x p, wire := if (portCfg x p).macsec then some l else none }
    let x1 := if p < 1024 then pipeArrival (stallOf p) x else x
    let x2 := parityTickets s (setOf (ticketKey x1 fr0)) x1
    let fr := { fr0 with tkt := hitOf x2 fr0, tktAt := some (byteAt x2 fr0 32 + 2180) }
    newFrame fr (setPort p (fun k => { k with lastIn := some (byteAt x2 fr l.length) }) x2)

/-! ### The end of reception (02 R42 to R47) -/

/-- The bytes of a frame as they came over the wire. -/
def Frame.onWire (fr : Frame) : List Byte := fr.wire.getD fr.bytes

/-- Whether a byte of the frame has left the module: on an outrider or by cut-through. -/
def headLeft (x : Mod) (f : Nat) (fr : Frame) : Bool :=
  (match fr.otr with
    | some o => o.st == .running || o.st == .confirmed
    | none => false)
  || (List.range fr.copies.length).any (fun i => match fr.copy? i with
      | some k => k.ct && k.st == .sending
      | none => false)
  || fr.copies.any (fun k => k.ct && (portSt x k.port).tx.any (fun t => t.f == some f))

/-- The buckets that a frame's meters charged are charged the difference to its length, whatever its end (07 R247). -/
def correctMeters (f : Nat) (fr : Frame) (len : Nat) (x : Mod) : Mod :=
  fr.meters.foldl (fun a e => correctMeter (shedOfPort fr.port) fr.bank e len a) (setFrame f (fun r => { r with meters := [] }) x)

/-- A frame ends bad after `len` bytes: what has left is stomped, what has not is dropped, its unwritten cells are released (02 R45,
R46), its meters keep the charge of its length. A frame the Loft never held has no guard result to come. -/
def endBad (f : Nat) (fr : Frame) (len : Nat) (x : Mod) : Mod :=
  let x1 := setFrame f (fun r => { r with ended := true, bad := true, refused := r.refused || !r.admitted
                                          decided := r.decided || r.recov.isSome }) (correctMeters f fr len x)
  discardCopies f (settleCells (shedOfPort fr.port) f len (stompSending f x1))

/-- The decision of a recovery context on a sequence number: the context after it, and 0 pass, 1 duplicate, 2 rogue (11 R365). -/
def recDecide (c : RecCtx) (s : BitVec 16) : RecCtx × Nat :=
  if c.takeAny then ({ c with seq := s, hist := 1, takeAny := false }, 0)
  else
    let d := (s - c.seq).toInt
    if 1 ≤ d && d ≤ 63 then ({ c with seq := s, hist := (c.hist <<< d.toNat) ||| 1 }, 0)
    else if d ≤ 0 && -63 ≤ d then
      (if c.hist.getLsbD (-d).toNat then (c, 1) else ({ c with hist := c.hist ||| (1 <<< (-d).toNat) }, 0))
    else (c, 2)

/-- How a frame ends on its wire: its FCS good, a stomp, or bad; whether reception was cut or ended with an error block. -/
inductive EndKind where
  | short (runt : Bool)
  | stomp
  | code
  | fcs
  | good

/-- How a frame ends (02 R42 to R47). -/
def endKind (fr : Frame) : EndKind :=
  let l := fr.onWire
  let fcs := tailFcs l
  let good := fcs == fcsOf (noFcs l)
  if l.length < 64 then .short (good && !fr.err)
  else if fr.cut.isSome then .code
  else if fcs == stompFcs (noFcs l) then .stomp
  else if fr.err then .code
  else if !good then .fcs
  else .good

/-- Whether a frame that waits for a recovery context will be offered to it when its last byte has arrived (11 R365). -/
def willOffer (fr : Frame) : Bool :=
  !fr.ended && !fr.bad && fr.sec == 0 && (match endKind fr with | .good => true | _ => false)

/-- A context decides one frame's offer. -/
def decideOffer (x : Mod) (e : Nat × Kept) : Mod :=
  let (c, out) := recDecide (x.cpl.recs.get e.2.handle) e.2.seq
  setFrame e.1 (fun r => { r with kept := some { e.2 with ctx := some out } })
    { x with cpl := { x.cpl with recs := x.cpl.recs.set e.2.handle (if out = 0 then { c with lastPass := some x.now } else c) } }

/-- The offers of one cycle to a context, in the order of its home shed's rotating pointer over source sheds, which then moves past the
first where there are several (11 R366). -/
def decideOffers (f : Nat) (fr : Frame) (k : Kept) (x : Mod) : Mod :=
  let home := k.handle % 8
  let ptr := x.cpl.recPtr.get home
  let others := (heldFrames x).filterMap (fun e =>
    match e.2.kept with
    | some j => if e.1 != f && j.handle == k.handle && j.ctx.isNone && willOffer e.2
        && lastByte x e.2 / 625 == lastByte x fr / 625 then some (shedOfPort e.2.port, e.1, j) else none
    | none => none)
  let all := (shedOfPort fr.port, f, k) :: others
  let order := (List.range 8).flatMap (fun i => all.filter (fun e => e.1 == (ptr + i) % 8))
  let x0 := match order with
    | e :: _ :: _ => { x with cpl := { x.cpl with recPtr := x.cpl.recPtr.set home ((e.1 + 1) % 8) } }
    | _ => x
  order.foldl (fun a e => decideOffer a e.2) x0

/-- A frame that its context has discarded is dropped before enqueue and requests no learn. -/
def discardOffer (f : Nat) (fr : Frame) (x : Mod) : Mod :=
  tidyFrame f (settleDesc (shedOfPort fr.port) f (setFrame f (fun k => { k with decided := true, guard := none, kept := none }) x))

/-- A good frame with an RTAG is offered to its recovery context: passed, it commits the guard result it kept; otherwise it counts only
as a duplicate or rogue (11 R365, R366). -/
def offerRecovery (f : Nat) (fr : Frame) (k0 : Kept) (x_ : Mod) : Mod :=
  let x := if k0.ctx.isSome then x_ else decideOffers f fr k0 x_
  match (frame? x f).bind (·.kept) with
  | none => x
  | some k =>
    let out := k.ctx.getD 0
    let x1 := tally (.cpl (12 + out)) x
    let x2 := match k.ctr with
      | some n => nameCount (k.handle % 8) (n + out) fr.bytes.length x1
      | none => x1
    if out = 0 then commitStreamed f fr { res := k.resolved (vectorOf (frameCfg x fr) fr k.known), pop := k.pop } x2
    else discardOffer f fr x2

/-- A frame ends good: its meters corrected, its packet number used up, its learn requested, and its request for a shared address answered
(07 R247, 02 R65, 04 R126, 11 R360). -/
def endGood (f : Nat) (fr : Frame) (x : Mod) : Mod :=
  let s := shedOfPort fr.port
  let x1 := acceptPn fr (correctMeters f fr fr.bytes.length x)
  let x2 := sharedRequest fr.port (hvNow x fr) fr.bytes x1
  let x3 := learnOnce f (setFrame f (fun r => { r with ended := true, good := true }) (settleCells s f fr.bytes.length x2))
  match frame? x3 f with
  | some fr1 =>
    match fr1.kept with
    | some k => offerRecovery f fr1 k x3
    | none => tidyFrame f x3
  | none => x3

/-- The receive counters of a good frame: at once, or with the guard result that its outrider still waits for (05 R167). -/
def receiveCounts (f : Nat) (fr : Frame) (l : List Byte) (x : Mod) : Mod :=
  if otrRunning fr && !fr.decided then setFrame f (fun r => { r with rxDue := true }) x else goodCounts fr.port l x

/-- FRAME_END: the last byte has arrived, with an error control block when `errBlock` or the frame itself says so. A MAC control frame that
the MAC did not consume is counted as such and dropped. -/
def frameEnds (f : Nat) (errBlock : Bool) (x : Mod) : Mod :=
  match frame? x f with
  | none => x
  | some fr0 =>
    let fr := { fr0 with err := fr0.err || errBlock }
    let l := fr.onWire
    let p := fr.port
    let max_ := ((frameCfg x fr).cfg p).maxLen
    if fr.ended || fr.direct || x.now < byteAt x fr l.length || (p < 1024 && max_ < l.length) then x
    else
      let c (i : Nat) (x : Mod) : Mod := countPort lneCtr p i 1 x
      let all (x : Mod) : Mod := countPort lneCtr p 28 l.length x
      let err (x : Mod) : Mod := if headLeft x f fr then c 24 x else x
      let bad (x : Mod) : Mod := endBad f fr fr.bytes.length x
      match endKind fr with
      | .short runt => dropFrame f (c (if runt then 19 else 20) (all x))
      | .stomp => bad (c 23 (all x))
      | .code => bad (err (c 22 (all x)))
      | .fcs => bad (err (c 18 (all x)))
      | .good =>
        let sec := secFault x fr
        if macControl l then bad (c 7 (goodCounts p l x))
        else if sec ≠ 0 then bad (c (24 + sec) (goodCounts p l x))
        else endGood f fr (receiveCounts f fr l x)

/-- FRAME_OVERSIZE: a frame has reached MAX_LEN + 1 bytes (02 R44). -/
def frameOversizes (f : Nat) (x : Mod) : Mod :=
  match frame? x f with
  | none => x
  | some fr =>
    let p := fr.port
    let max_ := ((frameCfg x fr).cfg p).maxLen
    if fr.ended || fr.direct || fr.onWire.length ≤ max_ || x.now < byteAt x fr (max_ + 1) then x
    else
      let x0 := countPort lneCtr p 21 1 (countPort lneCtr p 28 (max_ + 1) x)
      endBad f fr (max_ + 1) (if headLeft x f fr then countPort lneCtr p 24 1 x0 else x0)

/-! ### Pause and PFC (02 R54 to R59) -/

/-- A pause of `n` quanta for a class of a port, 8 for the port: at once, or at the end of the frame in transmission; a time of zero ends
the pause at once (02 R55). What is held has no deficit (07 R239). -/
def pauseClass (p cls n : Nat) (x : Mod) : Mod :=
  let quantum := bytesTime (portGbps (actCfg x) p) (64 * n)
  clearDeficits p (setPort p (fun s => { s with paused := s.paused.upd cls (fun k =>
    if n = 0 then { until_ := none, wait := none }
    else if s.tx.isSome then { k with wait := some (x.now, n) }
    else { until_ := some (x.now + quantum), wait := none }) }) x)

/-- A valid pause or PFC frame of the port's mode is consumed and counted; another frame is none of this command's (02 R54). -/
def ctlReceive (p mode idx : Nat) (l : List Byte) (apply : Mod → Mod) (x : Mod) : Mod :=
  if portUpNow x p && (portCfg x p).fc == mode && validCtl x p { bytes := l } then apply (countPort lneCtr p idx 1 (goodCounts p l x)) else x

/-- PAUSE_FRAME_RECEIVE: the last byte of an 802.3x pause frame has arrived. -/
def pauseArrives (p : Nat) (l : List Byte) (x : Mod) : Mod := ctlReceive p 1 5 l (pauseClass p 8 (beAt l 16 2)) x

/-- PFC_FRAME_RECEIVE: each class whose enable bit is 1. -/
def pfcArrives (p : Nat) (l : List Byte) (x : Mod) : Mod :=
  ctlReceive p 2 6 l (fun x => (List.range 8).foldl (fun a c =>
    if bitOf (beAt l 16 2) c then pauseClass p c (beAt l (18 + 2 * c) 2) (countPort lneCtr p (64 + c) 1 a) else a) x) x

/-- PAUSE_EXPIRY: the last quantum has ended (02 R57). -/
def pauseExpires (p : Nat) (cls : Option Nat) (x : Mod) : Mod :=
  match ((portSt x p).paused.get (cls.getD 8)).until_ with
  | some t => if t ≤ x.now then setPort p (fun s => { s with paused := s.paused.upd (cls.getD 8) (fun k => { k with until_ := none }) }) x else x
  | none => x

/-- PAUSE_RESEND: half the pause time has passed and the condition still holds (02 R59). -/
def pauseResends (p : Nat) (cls : Option Nat) (x : Mod) : Mod :=
  let s := portSt x p
  let k := cls.getD 8
  let q := (portCfg x p).pauseTime.getD (cls.getD 0) 0xFFFF
  let half := bytesTime (portGbps (actCfg x) p) (64 * q) / 2
  if s.asked.get k && !s.ctl.any (fun e => e.1 == cls) && passed x.now (s.sentAt.get k) half then
    setPort p (fun s => { s with ctl := s.ctl ++ [(cls, true)] }) x
  else x

/-! ### LPI and clock scaling (02 R60, R61) -/

/-- LPI_ENTER: the queues have been empty for the idle time. -/
def lpiEnters (p : Nat) (x : Mod) : Mod :=
  let s := portSt x p
  let k := portCfg x p
  if k.lpi && k.lpiCap && portUpNow x p && s.tx.isNone && !s.txLpi && s.ctl == []
      && (List.range 16).all (fun q => (queSt x p q).ents == []) && passed x.now s.idleAt (us k.lpiIdleUs) then
    countPort lneCtr p 53 1 (setPort p (fun s => { s with txLpi := true }) x)
  else x

/-- LPI_WAKE_END: the wake time that the port's clause defines has passed. -/
def lpiWakeEnds (p : Nat) (x : Mod) : Mod :=
  if (portSt x p).lpiWake.isSome then setPort p (fun s => { s with txLpi := false, lpiWake := none, idleAt := x.now }) x else x

/-- RX_LPI_CHANGE. -/
def rxLpiChanges (p : Nat) (b : Bool) (x : Mod) : Mod :=
  if !portUpNow x p || (portSt x p).rxLpi = b then x
  else
    let x1 := setPort p (fun s => { s with rxLpi := b }) x
    if b then countPort lneCtr p 54 1 x1 else x1

/-- PIPE_STEP_DOWN: fewer than 64,000 frames, 0.64 Gframes/s, in the last 100 us (02 R61). -/
def pipeStepsDown (g : Nat) (x : Mod) : Mod :=
  let c := x.line.clks.get g
  let n := (c.arrivals.filter (fun t => x.now < t + us 100)).length
  if !c.one && !c.pin && us 100 ≤ x.now && n < 64000 then setClk g (fun c => { c with one := true, steps := c.steps + 1 }) x else x

/-! ### Ports and lanes (02 R39 to R41) -/

/-- The lanes of a port. -/
def lanesOf (x : Mod) (p : Nat) : List Nat := (List.range (portCfg x p).width).map (p + ·)

/-- The configured port that a lane belongs to. -/
def portOfLane (x : Mod) (lane : Nat) : Option Nat :=
  ((cfgPorts x).find? (fun e => e.1 < 1024 && e.1 ≤ lane && lane < e.1 + e.2.width)).map (·.1)

/-- The frames in reception on a port end bad (02 R40): the last byte that counts is the last received. -/
def cutReception (p : Nat) (x : Mod) : Mod :=
  (heldFrames x).foldl (fun a e =>
    if e.2.port = p && !e.2.ended && !e.2.direct && !lastIn x e.2 then setFrame e.1 (fun r => { r with cut := some (r.cut.getD x.now) }) a
    else a) x

/-- The frames cut by a port that goes down end now (02 R40). -/
def endCut (p : Nat) (x : Mod) : Mod :=
  (heldFrames x).foldl (fun a e =>
    if e.2.port = p && !e.2.ended && e.2.cut.isSome then
      let n := min e.2.onWire.length (bytesIn (inGbps a e.2) (a.now - e.2.arr))
      let x0 := countPort lneCtr p 22 1 (countPort lneCtr p 28 n a)
      let x1 := if headLeft a e.1 e.2 then countPort lneCtr p 24 1 x0 else x0
      if a.now < byteAt a e.2 64 then dropFrame e.1 x1 else endBad e.1 e.2 n x1
    else a) x

/-- A port goes down: LINK_DOWN, its queues and its frame in transmission are dropped, what it received is bad (02 R39, R40, 07 R236,
05 R169). `cause`, `ctr` are the drop condition and its counter. -/
def portGoesDown (p cause ctr : Nat) (x : Mod) : Mod :=
  if !(portSt x p).up then x
  else
    let x1 := flushQueues p cause ctr (abortTx p (endCut p (cutReception p x)))
    lagsFollow p <| portEvent p evLinkDown (setPort p (fun s =>
      { s with up := false, txLpi := false, rxLpi := false, lpiWake := none, paused := .const {}, ctl := [], lastIn := none }) x1)

/-- PORT_UP: every lane has held lock for 1 ms (02 R39). -/
def portComesUp (p : Nat) (x : Mod) : Mod :=
  let ls := lanesOf x p
  if portDefined x p && !(portSt x p).up && domRuns x (stallOf p)
      && ls.all (fun l => (x.line.lanes.get l).lock && passed x.now (x.line.lanes.get l).since (ms 1)) then
    lagsFollow p (portEvent p evLinkUp (setPort p (fun s => { s with up := true, idleAt := x.now }) x))
  else x

/-- Whether a lane of a port has been without lock for more than 2 us. -/
def lockLost (x : Mod) (p : Nat) : Bool :=
  (lanesOf x p).any (fun l => !(x.line.lanes.get l).lock && decide ((x.line.lanes.get l).since + us 2 < x.now))

/-- PORT_DOWN. -/
def portDownNow (p : Nat) (x : Mod) : Mod := if (portSt x p).up && lockLost x p then portGoesDown p 1 7 x else x

/-- LANE_LOCK_LOSS: counted; a frame in reception is bad (02 R39, R40). -/
def laneLoses (lane : Nat) (x : Mod) : Mod :=
  if !(x.line.lanes.get lane).lock then x
  else
    let x1 := setLane lane (fun l => { l with lock := false, since := x.now }) x
    match portOfLane x lane with
    | some p => cutReception p (countPort lneCtr p 58 1 x1)
    | none => x1

/-- Whether a lane can hold lock: its group runs and is not held electrically idle (01 R25, R29 to R31; 16 R502). -/
def laneLive (x : Mod) (lane : Nat) : Bool := domRuns x (lane / 8) && !x.line.idle.get (lane / 8)

/-- LANE_LOCK_REGAIN: a loss of 2 us or less raises LANE_LOSS; a longer one has taken the port down (02 R39). -/
def laneRegains (lane : Nat) (x : Mod) : Mod :=
  let l := x.line.lanes.get lane
  if l.lock || !laneLive x lane then x
  else
    let set_ (x : Mod) : Mod := setLane lane (fun l => { l with lock := true, since := x.now }) x
    match portOfLane x lane with
    | some p =>
      if !(portSt x p).up then set_ x
      else if l.since + us 2 < x.now then set_ (portGoesDown p 1 7 x)
      else portEvent p evLaneLoss (set_ x)
    | none => set_ x

/-- FEC_DEGRADE: the codewords corrected and uncorrectable and the symbols corrected of a 1 ms interval count (02 R48); more symbols than
the threshold raise the event, once for that interval (02 R41). -/
def fecDegrades (p : Nat) (n : FecCounts) (x : Mod) : Mod :=
  let k := portCfg x p
  let fresh := match (portSt x p).fecAt with
    | some t => passed x.now t (ms 1)
    | none => true
  if !portUpNow x p then x
  else
    let x1 := countPort lneCtr p 57 n.symbols (countPort lneCtr p 56 n.uncorr (countPort lneCtr p 55 n.corr x))
    if fresh && k.fecLimit * k.width < n.symbols then
      portEvent p evFecDegrade (setPort p (fun s => { s with fecAt := some x.now }) x1)
    else x1

/-- The lanes of a stall are held electrically idle: every lane that held lock counts its loss, and its ports go down (02 R39; 16 R482,
17 R526). -/
def lanesIdle (g : Nat) (x : Mod) : Mod :=
  let x1 := (List.range 8).foldl (fun a i => laneLoses (8 * g + i) a) x
  let x2 := (List.range 8).foldl (fun a i => portGoesDown (8 * g + i) 1 7 a) x1
  { x2 with line := { x2.line with idle := x2.line.idle.set g true } }

/-- The lanes of a stall are to be trained: they are held idle no longer (16 R502). -/
def lanesTrain (g : Nat) (x : Mod) : Mod := { x with line := { x.line with idle := x.line.idle.set g false } }

/-! ### A stalled FIFO (15 R475, R476) -/

/-- The frames whose bytes stood in a stall's stalled FIFO are bad: behind the MAC of the stall and behind its pipeline those in
reception, before its MAC and before its pipeline those in transmission, which end in a stomp. -/
def fifoSpoils (near far : BitVec 12) (x : Mod) : Mod :=
  let inward := near.toNat / 256 == 0xC || near.toNat / 256 == 0xA && far.toNat / 256 == 6
  let outward := near.toNat / 256 == 0xA && far.toNat / 256 == 0xC || near.toNat / 256 == 6 && far.toNat / 256 == 0xA
  let g := if near.toNat / 256 == 6 then far.toNat % 256 else near.toNat % 256
  (List.range 8).foldl (fun a i =>
    let p := 8 * g + i
    if inward then endCut p (cutReception p a)
    else if outward then
      match (portSt a p).tx with
      | some t => if t.stomp then a else stompTx p (t.bytes.length - 4) a.now a
      | none => a
    else a) x

/-- The FIFO times out: with entries discarded, the frames whose bytes they held are bad (15 R475, R476). -/
def fifoTimesOut (near far : BitVec 12) (n : Nat) (x : Mod) : Mod :=
  fifoStalls near far n (if n = 0 then x else fifoSpoils near far x)

/-! ### The commands -/

/-- FIFO_STALL_TIMEOUT. -/
def execFifoStallTimeout (near far : BitVec 12) (entries : Nat) (st : State) : Host.Outcome State Fault Refusal :=
  cmd (.fifoStallTimeout near far entries) (fifoTimesOut near far entries) st

/-- FRAME_RECEIVE. -/
def execFrameReceive (port : Nat) (bytes : RxBytes) (side : CplSide) (st : State) : Host.Outcome State Fault Refusal :=
  cmd (.frameReceive port bytes side) (frameArrives port bytes side) st

/-- FRAME_OVERSIZE. -/
def execFrameOversize (f : Nat) (st : State) : Host.Outcome State Fault Refusal :=
  cmd (.frameOversize f) (frameOversizes f) st

/-- PAUSE_FRAME_RECEIVE. -/
def execPauseFrameReceive (port : Nat) (bytes : List Byte) (st : State) : Host.Outcome State Fault Refusal :=
  cmd (.pauseFrameReceive port bytes) (pauseArrives port bytes) st

/-- PFC_FRAME_RECEIVE. -/
def execPfcFrameReceive (port : Nat) (bytes : List Byte) (st : State) : Host.Outcome State Fault Refusal :=
  cmd (.pfcFrameReceive port bytes) (pfcArrives port bytes) st

/-- PAUSE_EXPIRY. -/
def execPauseExpiry (port : Nat) (cls : Option Nat) (st : State) : Host.Outcome State Fault Refusal :=
  cmd (.pauseExpiry port cls) (pauseExpires port cls) st

/-- PAUSE_RESEND. -/
def execPauseResend (port : Nat) (cls : Option Nat) (st : State) : Host.Outcome State Fault Refusal :=
  cmd (.pauseResend port cls) (pauseResends port cls) st

/-- LPI_ENTER. -/
def execLpiEnter (port : Nat) (st : State) : Host.Outcome State Fault Refusal :=
  cmd (.lpiEnter port) (lpiEnters port) st

/-- LPI_WAKE_END. -/
def execLpiWakeEnd (port : Nat) (st : State) : Host.Outcome State Fault Refusal :=
  cmd (.lpiWakeEnd port) (lpiWakeEnds port) st

/-- RX_LPI_CHANGE. -/
def execRxLpiChange (port : Nat) (lpi : Bool) (st : State) : Host.Outcome State Fault Refusal :=
  cmd (.rxLpiChange port lpi) (rxLpiChanges port lpi) st

/-- PIPE_STEP_DOWN. -/
def execPipeStepDown (g : Nat) (st : State) : Host.Outcome State Fault Refusal :=
  cmd (.pipeStepDown g) (pipeStepsDown g) st

/-- PORT_UP. -/
def execPortUp (port : Nat) (st : State) : Host.Outcome State Fault Refusal :=
  cmd (.portUp port) (portComesUp port) st

/-- PORT_DOWN. -/
def execPortDown (port : Nat) (st : State) : Host.Outcome State Fault Refusal :=
  cmd (.portDown port) (portDownNow port) st

/-- LANE_LOCK_LOSS. -/
def execLaneLockLoss (lane : Nat) (st : State) : Host.Outcome State Fault Refusal :=
  cmd (.laneLockLoss lane) (laneLoses lane) st

/-- LANE_LOCK_REGAIN. -/
def execLaneLockRegain (lane : Nat) (st : State) : Host.Outcome State Fault Refusal :=
  cmd (.laneLockRegain lane) (laneRegains lane) st

/-- FEC_DEGRADE. -/
def execFecDegrade (port : Nat) (symbols : FecCounts) (st : State) : Host.Outcome State Fault Refusal :=
  cmd (.fecDegrade port symbols) (fecDegrades port symbols) st

end Sys2Proof.Machine
end

