-- ==== Sys2Proof/Machine/Tables.lean ====
section
/-! DEFINITION. Sys2Proof/Machine/Tables.lean: table records and their checks, placement in hashed tables, edits in the shed-wide
order, the journal, TABLE_EDIT and QUEUE_CONFIG (04 R111 to R125, R134 to R137, R141, R142; 12 R395 to R401). -/

namespace Sys2Proof.Machine

/-! ### Placement (04 R119, R120) -/

/-- Capacity and stash of a hashed table (04 R111, 11 R362). -/
def hashCap (tab : Nat) : Option (Nat × Nat) :=
  match tab with
  | 1 => some (1048576, 512) | 4 => some (262144, 512) | 8 => some (16384, 0) | 0x0E => some (65536, 0) | _ => none

/-- First position of a key's bucket in way `w`. -/
def bucketAt (tab cap w : Nat) (key : List Byte) : Nat := w * (cap / 2) + 4 * (Config.bucketHash tab w key % (cap / 8))

/-- Whether a position is free. -/
def posFree (l : List Ent) (p : Nat) : Bool := l.all (fun e => e.pos != p)

/-- The lowest free slot of the bucket at `b`. -/
def freeIn (l : List Ent) (b : Nat) : Option Nat := ((List.range 4).map (b + ·)).find? (posFree l)

/-- The entry at a position. -/
def entAt (l : List Ent) (p : Nat) : Option Ent := l.find? (fun e => e.pos == p)

/-- The bucket of an entry in its other way. -/
def otherBucket (tab cap : Nat) (e : Ent) : Nat := bucketAt tab cap (if e.pos < cap / 2 then 1 else 0) e.key

/-- Breadth-first search for a relocation path, at most `n` more moves from the buckets reached so far: the free slot, then the
slots to be vacated, the key's own last. -/
def pathFrom (tab cap : Nat) (l : List Ent) : Nat → List (Nat × List Nat) → Option (List Nat)
  | 0, _ => none
  | n + 1, front =>
    let nexts := front.flatMap (fun b => ((List.range 4).map (b.1 + ·)).filterMap (fun p =>
      (entAt l p).map (fun e => (otherBucket tab cap e, p :: b.2))))
    match nexts.findSome? (fun b => (freeIn l b.1).map (fun q => q :: b.2)) with
    | some path => some path
    | none => pathFrom tab cap l n nexts

/-- The moves of a path in order, each from and to. -/
def movesOf : List Nat → List (Nat × Nat)
  | q :: p :: t => (p, q) :: movesOf (p :: t)
  | _ => []

/-- One entry moved. -/
def moveEnt (l : List Ent) (m : Nat × Nat) : List Ent := l.map (fun e => if e.pos = m.1 then { e with pos := m.2 } else e)

/-- The position an index key names: itself; slice and entry of an ACL entry; the session of a mirror session. -/
def indexPos (tab : Nat) (key : List Byte) : Nat :=
  if tab = 0x0F then leAt key 0 1 * 4096 + leAt key 1 2 else if tab = 0x0D then leAt key 1 1 else leNat key

/-- Where an insert of an absent key goes, with the moves that make room; none when the table is full of it. DESIGN CHOICE (log 69): of
several free slots, buckets, paths of one length or stash slots, which the manual does not order, way 0, the lowest slot and the path
found first are taken. -/
def placeFor (tab : Nat) (key : List Byte) (l : List Ent) : Option (Nat × List (Nat × Nat)) :=
  match hashCap tab with
  | some (cap, stash) =>
    let b0 := bucketAt tab cap 0 key
    let b1 := bucketAt tab cap 1 key
    match freeIn l b0, freeIn l b1 with
    | some p, _ => some (p, [])
    | none, some p => some (p, [])
    | none, none =>
      match pathFrom tab cap l 8 [(b0, []), (b1, [])] with
      | some path => some (path.getLastD 0, movesOf path)
      | none => (((List.range stash).map (cap + ·)).find? (posFree l)).map (fun p => (p, []))
  | none =>
    if tab = 2 || tab = 3 then
      let cap := if tab = 2 then 2097152 else 1048576
      if l.length < cap then ((List.range (l.length + 1)).find? (posFree l)).map (fun p => (p, [])) else none
    else some (indexPos tab key, [])

/-- The table with a record inserted or replaced, and the moves made; unchanged when it is full. -/
def putRecord (tab : Nat) (key dat : List Byte) (l : List Ent) : List Ent × List (Nat × Nat) :=
  if l.any (fun e => e.key == key) then (l.map (fun e => if e.key = key then { e with dat := dat } else e), [])
  else
    match placeFor tab key l with
    | some (p, ms) => ((ms.foldl moveEnt l) ++ [{ pos := p, key := key, dat := dat }], ms)
    | none => (l, [])

/-! ### Records (04 R112, R135 to R137; 12 R396 to R400; 07 R255, R256; 08 R266; 11 R362) -/

/-- A record as it is stored: an L2 record without its result-only fields. -/
def storedRec (tab : Nat) (r : List Byte) : List Byte :=
  if tab = 1 then splice (splice r 0x0C (leBytes 2 (leAt r 0x0C 2 % 16 - flag 1 (bitOf (leAt r 0x0C 2) 1)))) 0x0E (zeros 6) else r

/-- A field of a record that must be 0. -/
def rsv (r : List Byte) (off n : Nat) : Bool := allZero (sliceOf r off n)

/-- A DEST field whose port is one that `pd` knows (00 R4); `kinds` DEST kinds are allowed. -/
def destOk (pd : Nat → Bool) (w kinds : Nat) : Bool := w / 2 ^ 30 < kinds && (w / 2 ^ 30 != 0 || pd (w % 2 ^ 30))

/-- One colour block of a WRED profile: MIN below MAX while enabled. -/
def wredOk (r : List Byte) (o : Nat) : Bool :=
  let fl := leAt r (o + 10) 1
  fl < 4 && leAt r o 4 < 2 ^ 18 && leAt r (o + 4) 4 < 2 ^ 18 && rsv r (o + 11) 1 && (!bitOf fl 0 || leAt r o 4 < leAt r (o + 4) 4)

/-- Whether a record breaks no range and no reserved field, and names no port but those that `pd` knows: the ports a configuration defines
(00 R4). -/
def recordOk (pd : Nat → Bool) (tab : Nat) (r : List Byte) : Bool :=
  let n (o k : Nat) : Nat := leAt r o k
  match tab with
  | 1 => n 6 2 < 2 ^ 14 && destOk pd (n 8 4) 4 && n 0x0C 2 < 16 && rsv r 0x18 8
  | 2 => n 4 1 ≤ 32 && rsv r 5 1 && n 6 2 < 4096 && beAt r 0 4 % 2 ^ (32 - n 4 1) == 0
  | 3 => n 8 1 ≤ 64 && rsv r 9 1 && n 0x0A 2 < 4096 && rsv r 0x14 4 && beAt r 0 8 % 2 ^ (64 - n 8 1) == 0
  | 4 => n 0x10 2 < 4096 && rsv r 0x12 2 && rsv r 0x1C 4
  | 5 => n 0 4 < 2 ^ 18 && destOk pd (n 4 4) 2 && n 14 1 < 64 && n 15 1 < 8 && n 16 2 < 4096 && n 18 2 < 2 ^ 15 && rsv r 24 12
  | 6 => n 0 4 < 2 ^ 14 && n 4 1 ≤ 1 && rsv r 5 1 && n 6 2 ≤ 512 && r.length == 8 + 4 * n 6 2
      && (List.range (n 6 2)).all (fun i => if n 4 1 = 0 then n (8 + 4 * i) 4 < 2 ^ 18 else n (8 + 4 * i) 4 < 1024 && pd (n (8 + 4 * i) 4))
  | 7 => n 0 1 < 64 && n 1 1 < 4 && n 2 2 < 4096 && !bitOf (n 4 1) 0 && rsv r 0x0A 6
  | 8 => n 0 2 < 4096 && n 2 1 < 4 && (n 3 1 == 4 || n 3 1 == 6) && n 4 4 < 2 ^ 24 && (n 2 1 < 2 || n 4 4 == 0)
      && (n 3 1 == 6 || rsv r 0x0C 12) && n 0x18 2 < 4096 && n 0x1A 2 < 2 ^ 14
  | 9 => n 0 4 < 2 ^ 14 && n 4 1 < 4 && (n 5 1 == 4 || n 5 1 == 6) && n 6 1 < 4 && n 7 1 != 0 && n 0x28 4 < 2 ^ 24
      && n 0x2C 4 < 2 ^ 18 && n 0x32 1 < 64 && rsv r 0x33 13
  | 0x0A => n 0 2 < 2 ^ 14 && n 2 1 < 2 && n 3 1 ≤ 4 && rsv r 0x0C 4 && (List.range 4).all (fun i =>
      if i < n 3 1 then 1024 ≤ n (4 + 2 * i) 2 && n (4 + 2 * i) 2 ≤ 1035 else n (4 + 2 * i) 2 == 0)
      && (List.range 1024).all (fun i => !bitOf (n (0x10 + i / 8) 1) (i % 8) || pd i)
  | 0x0B => n 0 4 < 2 ^ 17 && n 4 1 < 2 && n 5 1 < 2 && n 6 1 < 64 && rsv r 7 1
      && (List.range 3).all (fun i => n 6 1 / 4 ^ i % 4 != 3)
      && n 8 4 ≤ 1600000 && n 0x0C 4 < 2 ^ 24 && n 0x14 4 < 2 ^ 24 && rsv r 0x1C 4
      && (if n 4 1 = 0 then n 0x10 4 == 0 else n 8 4 ≤ n 0x10 4 && n 0x10 4 ≤ 1600000)
      && (!bitOf (n 0x18 4) 31 || n 0x18 4 % 2 ^ 20 ≤ 1048573)
  | 0x0C => n 0 1 < 64 && n 1 1 < 16 && rsv r 2 2 && wredOk r 4 && wredOk r 0x10 && wredOk r 0x1C && rsv r 0x28 8
  | 0x0D => n 0 1 < 8 && n 1 1 < 16 && n 2 1 < 4 && n 3 1 < 4 && rsv r 0x0B 1
      && (if n 2 1 = 3 then n 4 2 < 16 else if n 2 1 = 0 then true else pd (n 4 2))
      && (n 6 2 == 0 || (64 ≤ n 6 2 && n 6 2 ≤ 384 && n 6 2 % 64 == 0)) && n 8 2 < 2 ^ 14 && n 0x0A 1 < 8
      && n 0x0C 4 != 0 && n 0x0C 4 < 2 ^ 24
  | 0x0E => n 2 1 < 8 && n 3 1 < 2 && n 0x0A 2 < 4096 && (pd (n 0x12 2) || n 0x12 2 == 0x7FF) && n 0x14 2 != 0
      && rsv r 0x16 2 && rsv r 0x1C 4
  | 0x0F => n 0 1 < 16 && n 1 1 < 2 && n 2 2 < 4096 && rsv r 4 4 && n 0xA8 1 ≤ 4 && n 0xAA 2 < 256 && rsv r 0xC3 5
      && (n 0xA8 1 != 2 || (n 0xAC 4 / 2 ^ 30 < 3 && (n 0xAC 4 / 2 ^ 30 != 0 || pd (n 0xAC 4 % 2 ^ 30))))
      && n 0xB0 1 < 8 && n 0xB1 1 < 12 && n 0xB2 1 < 3 && n 0xB3 1 < 16 && n 0xC0 1 < 3
      && n 0xC2 1 / 64 < 3 && n 0xC2 1 / 16 % 4 < 3
  | 0x10 => n 0 2 < 8192 && n 2 2 < 128 && n 0x12 1 < 64 && n 0x13 1 < 4 && n 0x2C 1 ≤ 4 && rsv r 0x2D 3
  | _ => false

/-! ### References (04 R123) -/

/-- Whether a table holds an index. -/
def View.has (v : View) (tab n i : Nat) : Bool := (v.index tab n i).isSome

/-- Whether what a DEST names is there: a LAG group, a multicast group. -/
def destThere (v : View) (w : Nat) : Bool :=
  match w / 2 ^ 30 with
  | 1 => v.has 6 4 (w % 2 ^ 30)
  | 2 => w % 2 ^ 30 < 2 ^ 14 && v.has 0x0A 2 (w % 2 ^ 30)
  | _ => true

/-- Whether what a RESULT names is there: a next hop, a group. -/
def resultThere (v : View) (w : Nat) : Bool :=
  match w / 2 ^ 30 with
  | 0 => v.has 5 4 (w % 2 ^ 30)
  | 1 => v.has 6 4 (w % 2 ^ 30)
  | _ => true

/-- The RESULT field of a route or host record. -/
def resultField (tab : Nat) (r : List Byte) : Nat := leAt r (if tab = 2 then 8 else if tab = 3 then 12 else 0x14) 4

/-- The members of a group record. -/
def groupMembers (r : List Byte) : List Nat := (List.range (leAt r 6 2)).map (fun i => leAt r (8 + 4 * i) 4)

/-- Whether every entry a record names is present. -/
def refsThere (v : View) (tab : Nat) (r : List Byte) : Bool :=
  match tab with
  | 1 => destThere v (leAt r 8 4)
  | 2 | 3 | 4 => resultThere v (resultField tab r)
  | 5 => destThere v (leAt r 4 4) && (!bitOf (leAt r 18 2) 14 || v.has 9 4 (leAt r 18 2 % 2 ^ 14))
  | 6 => leAt r 4 1 != 0 || (groupMembers r).all (fun i => v.has 5 4 i)
  | 9 => v.has 5 4 (leAt r 0x2C 4)
  | 0x0F => leAt r 0xA8 1 != 2 || (match leAt r 0xAC 4 / 2 ^ 30 with
      | 1 => v.has 5 4 (leAt r 0xAC 4 % 2 ^ 30)
      | 2 => v.has 6 4 (leAt r 0xAC 4 % 2 ^ 30)
      | _ => true)
  | _ => true

/-- Whether a next hop's DEST is an ECMP group. -/
def nextHopToEcmp (v : View) (i : Nat) : Bool :=
  match v.index 5 4 i with
  | some e => leAt e.dat 4 4 / 2 ^ 30 == 1 && (match v.index 6 4 (leAt e.dat 4 4 % 2 ^ 30) with
      | some g => leAt g.dat 4 1 == 0
      | none => false)
  | none => false

/-- Whether a record is invalid for what it names: an ECMP member that leads to an ECMP group, an underlay next hop with a
tunnel (12 R397, R399). -/
def refsBad (v : View) (tab : Nat) (r : List Byte) : Bool :=
  match tab with
  | 6 => leAt r 4 1 == 0 && (groupMembers r).any (nextHopToEcmp v)
  | 9 => match v.index 5 4 (leAt r 0x2C 4) with
    | some e => bitOf (leAt e.dat 18 2) 14
    | none => false
  | _ => false

/-- Whether a record names entry `i` of table `tab` (5, 6, 9 or 0x0A). -/
def namesEntry (t : Nat) (r : List Byte) (tab i : Nat) : Bool :=
  let result := (t == 2 || t == 3 || t == 4)
  let w := resultField t r
  match tab with
  | 5 => (result && w == i) || (t == 6 && leAt r 4 1 == 0 && (groupMembers r).contains i) || (t == 9 && leAt r 0x2C 4 == i)
      || (t == 0x0F && leAt r 0xA8 1 == 2 && leAt r 0xAC 4 == 2 ^ 30 + i)
  | 6 => (result && w == 2 ^ 30 + i) || (t == 1 && leAt r 8 4 == 2 ^ 30 + i) || (t == 5 && leAt r 4 4 == 2 ^ 30 + i)
      || (t == 0x0F && leAt r 0xA8 1 == 2 && leAt r 0xAC 4 == 2 ^ 31 + i)
  | 9 => t == 5 && leAt r 18 2 == 2 ^ 14 + i
  | 0x0A => t == 1 && leAt r 8 4 == 2 ^ 31 + i
  | _ => false

/-- Whether any record still names an entry of table 5, 6, 9 or 0x0A. -/
def inUse (v : View) (tab i : Nat) : Bool :=
  [1, 2, 3, 4, 5, 6, 9, 0x0F].any (fun t => (v t).any (fun e => namesEntry t e.dat tab i))

/-! ### Counters and meters named by records (04 R125) -/

/-- The counters a record names. -/
def countersOf (tab : Nat) (r : List Byte) : List Nat :=
  let three (l : List Nat) : List Nat := l.flatMap (fun b => [b, b + 1, b + 2])
  match tab with
  | 1 => ctrField r 0x14
  | 2 => ctrField r 0x0C
  | 3 => ctrField r 0x10
  | 4 => ctrField r 0x18
  | 5 => ctrField r 20
  | 8 => ctrField r 0x1C
  | 0x0B => three (ctrField r 0x18)
  | 0x0E => three (ctrField r 0x18)
  | 0x0F => if bitOf (leAt r 0xAA 2) 5 then [leAt r 0xB8 4 % 2 ^ 20] else []
  | _ => []

/-- The meters a record names: those of ACL actions. -/
def metersOf (tab : Nat) (r : List Byte) : List Nat :=
  if tab = 0x0F && bitOf (leAt r 0xAA 2) 4 then [leAt r 0xB4 4 % 2 ^ 17] else []

/-- The tables whose records name counters or meters. -/
def namingTabs : List Nat := [1, 2, 3, 4, 5, 8, 0x0B, 0x0E, 0x0F]

/-- Whether some record of a view names a counter. -/
def counterNamed (v : View) (i : Nat) : Bool := namingTabs.any (fun t => (v t).any (fun e => (countersOf t e.dat).contains i))

/-- Whether some record of a view names a meter. -/
def meterNamed (v : View) (i : Nat) : Bool := (v 0x0F).any (fun e => (metersOf 0x0F e.dat).contains i)

/-- Whether an index is in quarantine. -/
def quarantined (x : Mod) (meter : Bool) (i : Nat) : Bool := x.tbl.quar.any (fun q => q.meter == meter && q.idx == i)

/-- An assignment zeroes a counter in every shed (04 R125). -/
def zeroNamed (i : Nat) (x : Mod) : Mod :=
  (List.range 8).foldl (fun a s => { a with ctrs := (a.ctrs.set (.named s i false) {}).set (.named s i true) {} }) x

/-- An assigned meter starts full in every shed (07 R250). -/
def fullMeter (i : Nat) (x : Mod) : Mod :=
  (List.range 8).foldl (fun a s => { a with que := { a.que with meters := a.que.meters.set (s, i) none } }) x

/-- The indices an edit assigns start anew; those it names last enter quarantine (04 R125). `v` is the view before, `w` after. -/
def renewNames (v w : View) (tab : Nat) (old new : List Byte) (x : Mod) : Mod :=
  let x1 := ((countersOf tab new).filter (fun i => !counterNamed v i)).foldl (fun a i => zeroNamed i a) x
  let x2 := ((metersOf tab new).filter (fun i => !meterNamed v i)).foldl (fun a i => fullMeter i a) x1
  let q1 := ((countersOf tab old).filter (fun i => !counterNamed w i)).map (fun i => ({ meter := false, idx := i, at_ := x.now } : Quar))
  let q2 := ((metersOf tab old).filter (fun i => !meterNamed w i)).map (fun i => ({ meter := true, idx := i, at_ := x.now } : Quar))
  { x2 with tbl := { x2.tbl with quar := x2.tbl.quar ++ q1 ++ q2 } }

/-! ### What an edit does in one shed (04 R113, R157, R158) -/

/-- The longest existing route that covers a new prefix or host, other than itself. -/
def coveringRoute (v : View) (tab : Nat) (key dat : List Byte) : Option (Nat × Ent) :=
  match tab with
  | 2 =>
    let n := leAt dat 4 1
    (((v 2).filter (fun e => e.key != key && leAt e.dat 6 2 == leAt dat 6 2 && leAt e.dat 4 1 ≤ n &&
      beAt e.dat 0 4 / 2 ^ (32 - leAt e.dat 4 1) == beAt dat 0 4 / 2 ^ (32 - leAt e.dat 4 1))).foldl (longer 4) none).map (fun e => (2, e))
  | 3 =>
    let n := leAt dat 8 1
    (((v 3).filter (fun e => e.key != key && leAt e.dat 0x0A 2 == leAt dat 0x0A 2 && leAt e.dat 8 1 ≤ n &&
      beAt e.dat 0 8 / 2 ^ (64 - leAt e.dat 8 1) == beAt dat 0 8 / 2 ^ (64 - leAt e.dat 8 1))).foldl (longer 8) none).map (fun e => (3, e))
  | 4 => (v.lpm6 (leAt dat 0x10 2) (beAt dat 0 8)).map (fun e => (3, e))
  | _ => none

/-- The tickets an edit touches lose ELIGIBLE (05 R157), or the generation is asked to advance (05 R158). -/
def editTickets (s : Nat) (v : View) (e : Edit) (pos : Nat) (isNew : Bool) (x : Mod) : Mod :=
  let dep (t p : Nat) (x : Mod) : Mod := clearEligible s (fun k => k.dep == Config.depFold t p) x
  match e.tab with
  | 1 => dep 1 pos x
  | 2 | 3 | 4 =>
    let x1 := dep e.tab pos x
    if isNew then
      match coveringRoute v e.tab e.key e.dat with
      | some (t, c) => dep t c.pos x1
      | none => x1
    else x1
  | 5 => clearEligible s (fun k => k.nextHop == some (leNat e.key)) (dep 5 pos x)
  | 6 => dep 6 pos x
  | 7 | 8 | 9 | 0x0B | 0x0F | 0x10 => askGen s x
  | _ => x

/-- A meter's buckets after an edit: full when created or of another mode, reduced to smaller sizes otherwise (07 R250). -/
def editMeter (s i : Nat) (old : Option Ent) (e : Edit) (x : Mod) : Mod :=
  let full : Mod := { x with que := { x.que with meters := x.que.meters.set (s, i) none } }
  match old with
  | none => full
  | some o =>
    if e.op = 2 || leAt o.dat 4 1 ≠ leAt e.dat 4 1 then full
    else
      let k := meterCfg e.dat
      match x.que.meters.get (s, i) with
      | some m => setMeter s i { c := min m.c (mbits k.cbs), e := min m.e (mbits k.ebs) } x
      | none => setMeter s i { c := min (meterCfg o.dat).full.c k.full.c, e := min (meterCfg o.dat).full.e k.full.e } x

/-- Entries that go from ahead of a cursor to behind it, `passed_` of the cursor, enter its catch-up list, at most 256; beyond that the
cursor rewinds (04 R139). -/
def cursorsCatch (s tab : Nat) (passed_ : Cursor → List (List Byte)) (x : Mod) : Mod :=
  let step (c : Cursor) : Cursor :=
    let l := if c.tab = tab then c.catchUp ++ passed_ c else c.catchUp
    if 256 < l.length then { c with pos := 0, catchUp := [], rewound := true } else { c with catchUp := l }
  let old := x.tbl.cursors.get s
  let new := old.map step
  let n := (new.filter (·.rewound)).length - (old.filter (·.rewound)).length
  (List.range n).foldl (fun a _ => raise (.shed s) evCursorRewound a)
    { x with tbl := { x.tbl with cursors := x.tbl.cursors.set s new } }

/-- The cursors of a shed after the moves of an edit. -/
def cursorMoves (s tab : Nat) (before : List Ent) (moves : List (Nat × Nat)) (x : Mod) : Mod :=
  cursorsCatch s tab (fun c => (moves.foldl (fun (y : List Ent × List (List Byte)) m =>
      (moveEnt y.1 m, if c.pos ≤ m.1 && m.2 < c.pos then
        (match entAt y.1 m.1 with
         | some e => y.2 ++ [e.key]
         | none => y.2) else y.2)) (before, [])).2) x

/-- The cursors of a shed after a table has been placed anew, with entries in other positions than before. -/
def cursorReplaced (s tab : Nat) (before after : List Ent) (x : Mod) : Mod :=
  cursorsCatch s tab (fun c => (before.filter (fun e => c.pos ≤ e.pos
    && after.any (fun a => a.key == e.key && decide (a.pos < c.pos)))).map (·.key)) x

/-- The edit's writes in shed `s`: insert, replacement or removal, with the relocation moves counted (04 R144). -/
def applyTable (s : Nat) (e : Edit) (x : Mod) : Mod :=
  let l := x.tbl.ents.get (s, e.tab)
  let v := viewOf x s x.tt.active
  let old := l.find? (fun o => o.key == e.key)
  let r := if e.op = 2 then (l.filter (fun o => o.key != e.key), []) else putRecord e.tab e.key e.dat l
  let pos := match old with
    | some o => o.pos
    | none => ((r.1.find? (fun o => o.key == e.key)).map (·.pos)).getD 0
  let written (w : EccWord) : Bool := decide (w = .replica s e.tab e.key)
    || (e.tab == 0x0F && decide (w = .shadow s (leAt e.key 0 1) (leAt e.key 1 2)))
  let x1 := eccWrite written { x with tbl := { x.tbl with ents := x.tbl.ents.set (s, e.tab) r.1 } }
  let x2 := cursorMoves s e.tab l r.2 (count (.lkp s 9) r.2.length x1)
  let x3 := if e.tab = 0x0B then editMeter s (leNat e.key) old e x2 else x2
  editTickets s v e pos (old.isNone && e.op != 2) x3

/-! ### Scheduler nodes (07 R240, R244, R257) -/

/-- Whether a scheduler-node record is valid (07 R235, R257), at a port that `pd` knows. -/
def nodeOk (pd : Nat → Bool) (r : List Byte) : Bool :=
  let n (o k : Nat) : Nat := leAt r o k
  let ovh := n 0x18 1
  pd (n 0 2) && n 2 1 < 3 && (if n 2 1 = 0 then n 3 1 < 16 else if n 2 1 = 1 then n 3 1 < 4 else n 3 1 == 0)
    && (if n 2 1 = 0 then n 4 1 < 4 && n 8 4 ≤ 196608 && !bitOf (n 0x0C 1) 6 && n 0x0D 1 < 2
        else n 4 1 == 0 && n 7 1 == 0 && n 8 4 == 0 && n 0x0C 1 == 0 && n 0x0D 1 == 0)
    && (if n 2 1 = 2 then n 5 1 == 0 && n 6 1 == 0 else n 5 1 < 8 && n 6 1 != 0)
    && rsv r 0x0E 2 && n 0x10 4 ≤ 1600000 && 64 ≤ n 0x14 4 && n 0x14 4 < 2 ^ 24
    && (ovh ≤ 96 || 224 ≤ ovh) && n 0x19 1 < 2 && rsv r 0x1A 6

/-- The node a record sets. -/
def nodeFrom (r : List Byte) : Node :=
  let n (o k : Nat) : Nat := leAt r o k
  { group := n 4 1, prio := n 5 1, weight := n 6 1, classSet := n 7 1, qlimit := n 8 4
    wred := if bitOf (n 0x0C 1) 7 then some (n 0x0C 1 % 64) else none, lossless := bitOf (n 0x0D 1) 0
    rate := n 0x10 4, burst := n 0x14 4, overhead := (BitVec.ofNat 8 (n 0x18 1)).toInt, shape := bitOf (n 0x19 1) 0 }

/-- Whether two settings of a node differ in its shaper. -/
def shaperDiffers (a b : Node) : Bool := a.rate != b.rate || a.burst != b.burst || a.overhead != b.overhead || a.shape != b.shape

/-- An arbiter's round pointer stands on a child. -/
def setPointer (p arb prio child : Nat) (x : Mod) : Mod :=
  { x with que := { x.que with ptr := x.que.ptr.set (p, arb, prio) (child + 1) } }

/-- The round pointers after a queue or group has left an arbiter's PRIO, whose pointer stood on `from_`, for another; `left` the children
that stay, `joined` those it comes to (07 R240). -/
def movePointer (p arb arb' prio prio' i from_ : Nat) (left joined : List Nat) (x : Mod) : Mod :=
  let next := match left.find? (i < ·) with
    | some k => k
    | none => left.headD i
  let x1 := setPointer p arb prio (if from_ = i then next else from_) x
  if joined = [] then setPointer p arb' prio' i x1 else x1

/-- The children of an arbiter with a PRIO: the queues of a group, or the groups of the port (4). -/
def prioChildren (x : Mod) (p arb prio : Nat) : List Nat :=
  if arb = 4 then (List.range 4).filter (fun g => (nodeOf x p 1 g).prio == prio)
  else (List.range 16).filter (fun q => (nodeOf x p 0 q).group == arb && (nodeOf x p 0 q).prio == prio)

/-- A scheduler node takes new settings. -/
def changeNode (p lvl i : Nat) (b : Node) (x : Mod) : Mod :=
  let a := nodeOf x p lvl i
  let moved := a.group != b.group || a.prio != b.prio
  let arbOf (k : Node) : Nat := if lvl = 0 then k.group else 4
  let x1 := { x with que := { x.que with nodes := x.que.nodes.set (p, lvl, i) (some b) } }
  let x2 := if lvl ≠ 2 && moved then
      let was := prioChildren x p (arbOf a) a.prio
      let there := prioChildren x p (arbOf b) b.prio
      let stood (arb prio : Nat) (l : List Nat) : Nat := pointerOf x p arb prio (l.map (fun k => (k, prio)))
      let y := if there = [] then x1 else setPointer p (arbOf b) b.prio (stood (arbOf b) b.prio there) x1
      movePointer p (arbOf a) (arbOf b) a.prio b.prio i (stood (arbOf a) a.prio was) (was.filter (· != i)) (there.filter (· != i)) y
    else x1
  let x3 := if lvl ≠ 2 && (moved || a.weight != b.weight) then setShaper p lvl i (fun k => { k with def_ := 0 }) x2 else x2
  let full : Int := mbits b.burst
  let x4 := setShaper p lvl i (fun k => { k with tok :=
    if b.shapes && !a.shapes then full else if b.shapes then min k.tok full else k.tok }) x3
  if shaperDiffers a b then (List.range 8).foldl (fun a s => askGen s a) x4 else x4

/-- A scheduler node is edited. -/
def applyNode (r : List Byte) (x : Mod) : Mod := changeNode (leAt r 0 2) (leAt r 2 1) (leAt r 3 1) (nodeFrom r) x

/-! ### The edit order (04 R113) -/

/-- Whether an edit has still to be written in a shed. -/
def Edit.needs (e : Edit) (s : Nat) : Bool := !e.done.contains s && (match e.only with
  | some o => o == s
  | none => true)

/-- The first edit not yet written in a shed is marked as written there. -/
def markFirst (s : Nat) : List Edit → List Edit
  | [] => []
  | e :: t => if e.needs s then { e with done := e.done ++ [s] } :: t else e :: markFirst s t

/-- Shed `s` writes the next edit of the order. -/
def writeNext (s : Nat) (x : Mod) : Mod :=
  match x.tbl.edits.find? (·.needs s) with
  | none => x
  | some e =>
    let x1 := { x with tbl := { x.tbl with edits := markFirst s x.tbl.edits } }
    if e.tab = 0 then applyNode e.dat x1 else applyTable s e x1

/-- Shed `s` writes every edit still to be written there. -/
def catchUp (s : Nat) (x : Mod) : Mod := x.tbl.edits.foldl (fun a _ => writeNext s a) x

/-- An edit takes its place in the order, and the shed that begins it writes it; the indices it assigns start anew and those it names
last enter quarantine (04 R113, R125). -/
def beginEdit (e : Edit) (x : Mod) : Mod :=
  let s := e.begin_
  let x1 := catchUp s x
  let x2 := writeNext s { x1 with tbl := { x1.tbl with edits := x1.tbl.edits ++ [{ e with at_ := x.now, done := [] }] } }
  let v := viewOf x1 s x1.tt.active
  renewNames v (viewOf x2 s x2.tt.active) e.tab (((v.find e.tab e.key).map (·.dat)).getD []) (if e.op = 2 then [] else e.dat) x2

/-- Whether every shed that takes part has written an edit; a quiesced shed takes none (17 R526). -/
def editDone (x : Mod) (e : Edit) : Bool :=
  match e.only with
  | some s => e.done.contains s
  | none => (List.range 8).all (fun s => e.done.contains s || !shedWorks x s)

/-! ### The journal (04 R141, R142) -/

/-- Part `i` of an edit's journal records. -/
def journalPart (x : Mod) (e : Edit) (idx parts i : Nat) : List Byte :=
  let base := match x.tt.active with
    | some b => (x.tt.banks.get b).seq
    | none => 0
  leBytes 4 idx ++ leBytes 4 base.toNat ++ leBytes 8 (x.now / 1000) ++ [BitVec.ofNat 8 e.kind, BitVec.ofNat 8 e.tab, BitVec.ofNat 8 e.op, 0]
    ++ [BitVec.ofNat 8 i, BitVec.ofNat 8 parts] ++ leBytes 2 e.dat.length ++ sliceOf e.dat (224 * i) 224 ++ zeros 8

/-- Whether the host has not read journal record `i`. -/
def journalUnread (x : Mod) (i : Nat) : Bool := decide (x.tbl.jRead ≤ i) && !x.tbl.jSeen.any (fun k => k.1 ≤ i && i < k.2)

/-- The host has read the journal records from `a` up to `b`. -/
def journalSeen (a b : Nat) (x : Mod) : Mod :=
  let l := if a < b then x.tbl.jSeen ++ [(a, b)] else x.tbl.jSeen
  let to_ := l.foldl (fun r _ => l.foldl (fun n k => if k.1 ≤ n then Nat.max n k.2 else n) r) x.tbl.jRead
  { x with tbl := { x.tbl with jRead := to_, jSeen := l.filter (fun k => to_ < k.2) } }

/-- One record enters the journal, over the oldest of 32,768; JOURNAL_WRAP when the host had not read that (shed-level, raised in
the shed that began the edit). -/
def journalPush (s : Nat) (r : List Byte) (x : Mod) : Mod :=
  let full := 32768 ≤ x.tbl.journal.length
  let oldest := x.tbl.jNext - x.tbl.journal.length
  let x1 := { x with tbl := { x.tbl with
    journal := (if full then x.tbl.journal.drop 1 else x.tbl.journal) ++ [r], jNext := x.tbl.jNext + 1 } }
  if full && journalUnread x oldest then raise (.shed s) evJournalWrap x1 else x1

/-- A committed edit is journalled, all its parts in a row; a host edit enters the edit digest. -/
def journalEdit (e : Edit) (x : Mod) : Mod :=
  let parts := max 1 ((e.dat.length + 223) / 224)
  let x1 := (List.range parts).foldl (fun a i => journalPush e.begin_ (journalPart a e a.tbl.jNext parts i) a) x
  if e.kind = 0 then
    { x1 with tbl := { x1.tbl with editDig := Config.shake256 (digestBytes x1.tbl.editDig ++ e.dat) } }
  else x1

/-! ### L2 entries (04 R128 to R132, 11 R368) -/

/-- FID and MAC of an L2 key. -/
def l2Fid (key : List Byte) : Nat := leAt key 6 2
def l2Mac (key : List Byte) : BitVec 48 := BitVec.ofNat 48 (beAt key 0 6)

/-- Changes what the home keeps of an L2 key. -/
def setMeta (key : List Byte) (f : L2Meta → L2Meta) (x : Mod) : Mod :=
  { x with tbl := { x.tbl with meta_ := x.tbl.meta_.upd (l2Fid key, l2Mac key) f } }

/-- What the home keeps of an L2 key. -/
def metaOf (x : Mod) (key : List Byte) : L2Meta := x.tbl.meta_.get (l2Fid key, l2Mac key)

/-- The home keeps nothing of a key whose entry is gone. -/
def dropMeta (key : List Byte) (x : Mod) : Mod :=
  { x with tbl := { x.tbl with meta_ := x.tbl.meta_.dropIf (fun k => k.1 == l2Fid key && k.2 == l2Mac key) } }

/-- Whether an L2 record is static. -/
def isStatic (r : List Byte) : Bool := bitOf (leAt r 0x0C 2) 0

/-- The home of an L2 key. -/
def keyHome (x : Mod) (key : List Byte) : Nat := homeOf x (l2Fid key) (l2Mac key)

/-- The sync record of a committed edit of a dynamic L2 entry on a port other than 1036, while Paired; host edits are never copied
(11 R368, R370; log 37). -/
def syncOf (x : Mod) (e : Edit) : Option (List Byte) :=
  let dest := leAt e.dat 8 4
  let kind : Option Nat := match e.kind with
    | 1 => some 0
    | 2 => some 1
    | 3 | 4 | 5 => some 2
    | _ => none
  match kind with
  | some k =>
    if x.mode.mode == .paired && e.tab == 1 && !isStatic e.dat && dest != 1036 then
      some ([BitVec.ofNat 8 k, BitVec.ofNat 8 (flag 0 (dest / 2 ^ 30 == 1 && (actCfg x).pair.twinLag.contains (dest % 2 ^ 30)))]
        ++ leBytes 2 (l2Fid e.key) ++ sliceOf e.key 0 6 ++ zeros 2 ++ leBytes 4 dest)
    else none
  | none => none

/-- The records of dynamic L2 entries in the lowest working shed's replica. -/
def dynamicL2 (x : Mod) : List (List Byte) :=
  ((x.tbl.ents.get (lowestShed x, 1)).filter (fun e => !isStatic e.dat)).map (·.dat)

/-- The learned-set digest (04 R142). -/
def learnedDigest (x : Mod) : Digest :=
  (dynamicL2 x).foldl (fun a r => a ^^^ Config.shake256 (leBytes 2 (leAt r 6 2) ++ sliceOf r 0 6 ++ leBytes 4 (leAt r 8 4))) 0

/-- KEY_DIGEST (11 R368). -/
def keyDigest (x : Mod) : Digest :=
  (dynamicL2 x).foldl (fun a r => a ^^^ Config.shake256 (leBytes 2 (leAt r 6 2) ++ sliceOf r 0 6)) 0

/-! ### Full tables (04 R121) -/

/-- The evictable entries of a key's buckets, by slot. -/
def evictable (x : Mod) (key : List Byte) (l : List Ent) : List Ent :=
  let slots := [0, 1].flatMap (fun w => (List.range 4).map (bucketAt 1 1048576 w key + ·))
  (slots.filterMap (entAt l)).filter (fun e => !isStatic e.dat && (metaOf x e.key).frozenAt.isNone)

/-- The victim of a full insert under the table's full policy: the oldest, or one drawn at random. -/
def victimOf (x : Mod) (key : List Byte) (l : List Ent) : Option Ent × Mod :=
  let c := evictable x key l
  let age (e : Ent) : Nat := (ageTick x - (metaOf x e.key).hit).toNat
  match (actCfg x).fullPolicy, c with
  | 0, _ => (none, x)
  | _, [] => (none, x)
  | 1, _ => (c.foldl (fun (b : Option Ent) e =>
      match b with
      | none => some e
      | some o => if age o < age e then some e else some o) none, x)
  | _, _ =>
    let d := drawNat x
    (c.drop (d.1 % c.length) |>.head?, d.2)

/-- Whether the key of an insert would find the table full. -/
def fullFor (tab : Nat) (key dat : List Byte) (l : List Ent) : Bool :=
  let slots : Nat := (l.filter (fun e => e.key != key)).foldl (fun a e => a + leAt e.dat 6 2) (leAt dat 6 2)
  if tab = 6 then 131072 < slots
  else !(l.any (fun e => e.key == key)) && (placeFor tab key l).isNone

/-- A full insert fails: TABLE_FULL, counted for a hashed table. -/
def insertFails (s tab : Nat) (x : Mod) : Mod :=
  let x1 := if (hashCap tab).isSome then tally (.lkp s 8) x else x
  if (hashCap tab).isSome || tab = 2 || tab = 3 then raise (.shed s) evTableFull x1 else x1

/-- Room for an insert in shed `s`: an L2 entry may be evicted for it; false when the insert fails. -/
def makeRoom (s tab : Nat) (key dat : List Byte) (x : Mod) : Bool × Mod :=
  let l := x.tbl.ents.get (s, tab)
  if !fullFor tab key dat l then (true, x)
  else if tab ≠ 1 then (false, insertFails s tab x)
  else
    match victimOf x key l with
    | (some v, x1) =>
      let x2 := raise (.shed s) evEvict (tally (.lkp s 7) x1)
      (true, dropMeta v.key (beginEdit { kind := 4, tab := 1, op := 2, key := v.key, dat := v.dat, at_ := 0, begin_ := s, done := [],
                                         mbx := none } x2))
    | (none, x1) => (false, insertFails s tab x1)

/-! ### TABLE_EDIT and QUEUE_CONFIG (12 R395, R401) -/

/-- What one record of a message comes to. -/
inductive Done1 where
  | ok
  | bad
  | fail (code : Nat)
  | hold
  deriving DecidableEq, Repr

/-- The shed that begins a host edit: the key's home for an L2 entry, the named shed for a mirror session, the lowest working shed
for the others. -/
def hostBegins (x : Mod) (tab : Nat) (key : List Byte) : Nat :=
  if tab = 1 then keyHome x key else if tab = 0x0D then leAt key 0 1 else lowestShed x

/-- A host edit of an L2 entry as its home takes it (04 R128, R129, R131): the time and tick of the commit; FROZEN 0 ends a freeze. -/
def hostMeta (key dat : List Byte) (frozen : Bool) (op : Nat) (x : Mod) : Mod :=
  if op = 2 then dropMeta key x
  else setMeta key (fun m =>
    let m1 := if frozen then m else { m with frozenAt := none, moves := if m.frozenAt.isSome then [] else m.moves }
    if isStatic dat then { m1 with synced := false } else { m1 with portTime := x.now, hit := ageTick x, synced := false }) x

/-- Whether a queue with WRED enabled names a profile (07 R251). -/
def wredNamed (x : Mod) (i : Nat) : Bool :=
  let set_ := ((actCfg x).nodes.map (·.1)) ++ x.que.nodes.ents.map (·.1)
  set_.any (fun k => k.2.1 == 0 && (nodeOf x k.1 k.2.1 k.2.2).wred == some i)

/-- Whether a scheduler-node record names a WRED profile that its shed does not hold (07 R251). -/
def wredMissing (x : Mod) (r : List Byte) : Bool :=
  match (nodeFrom r).wred with
  | some i => leAt r 2 1 == 0 && ((viewOf x (shedOfPort (leAt r 0 2)) x.tt.active).index 0x0C 1 i).isNone
  | none => false

/-- Whether a stream record names a handle that another key holds (11 R362). -/
def handleTaken (v : View) (key dat : List Byte) : Bool :=
  (v 0x0E).any (fun e => e.key != key && leAt e.dat 0 2 == leAt dat 0 2)

/-- What a stream edit does to the handle's generation and recovery (11 R363, R365): a created record starts both. -/
def streamEdit (v : View) (key dat : List Byte) (op : Nat) (x : Mod) : Mod :=
  if op = 2 || (v.find 0x0E key).any (fun e => leAt e.dat 0 2 == leAt dat 0 2) then x
  else { x with cpl := { x.cpl with gens := x.cpl.gens.set (leAt dat 0 2) {}, recs := x.cpl.recs.set (leAt dat 0 2) {} } }

/-- One record of a TABLE_EDIT with its operation. -/
def hostEdit (m tab op : Nat) (r : List Byte) (x : Mod) : Done1 × Mod :=
  let key := keyOf tab r
  let s := hostBegins x tab key
  let x0 := catchUp s x
  let v := viewOf x0 s x0.tt.active
  let old := v.find tab key
  let dat := match old with
    | some o => if op = 2 then o.dat else storedRec tab r
    | none => storedRec tab r
  let e : Edit := { kind := 0, tab := tab, op := if op = 0 && old.isSome then 1 else op, key := key, dat := dat, at_ := 0, begin_ := s,
                    done := [], mbx := some m, only := if tab = 0x0D then some s else none }
  let commit (x : Mod) : Mod :=
    let x1 := beginEdit e x
    let x3 := if tab = 1 then hostMeta key dat (bitOf (leAt r 0x0C 2) 1) op x1 else x1
    if tab = 0x0E then streamEdit v key dat op x3 else x3
  if op = 2 then
    if old.isNone then (.fail 1, x0)
    else if inUse v tab (leNat key) || (tab == 0x0C && wredNamed x0 (leNat key)) then (.fail 3, x0)
    else (.ok, commit x0)
  else if !recordOk (portDefined x0) tab r || refsBad v tab r || (tab == 0x0E && handleTaken v key r) then (.bad, x0)
  else if op = 1 && old.isNone then (.fail 1, x0)
  else if !refsThere v tab r then (.fail 1, x0)
  else if ((countersOf tab dat).filter (fun i => !counterNamed v i)).any (quarantined x0 false)
      || ((metersOf tab dat).filter (fun i => !meterNamed v i)).any (quarantined x0 true) then (.hold, x0)
  else
    match makeRoom s tab key dat x0 with
    | (true, x1) => (.ok, commit x1)
    | (false, x1) => (.fail 2, x1)

/-- The records of a message from the first not yet handled; PHASE of the mailbox tells how they end: 0 all committed, 1 + RESULT,
0x100 malformed, 0x200 held by a quarantine. `run` handles record `i`. DESIGN CHOICE (log 69): the lowest working shed counts
LKP_QUARANTINE_HELD, for which the manual names no shed. -/
def runRecords (m : Nat) (run : Nat → Mod → Done1 × Mod) : Nat → Nat → Mod → Mod
  | 0, _, x => setBox m (fun b => { b with phase := 0 }) x
  | n + 1, i, x =>
    match run i x with
    | (.ok, x1) => runRecords m run n (i + 1) (setBox m (fun b => { b with doneN := i + 1 }) x1)
    | (.bad, x1) => setBox m (fun b => { b with phase := 0x100 }) x1
    | (.fail c, x1) => setBox m (fun b => { b with phase := 1 + c }) x1
    | (.hold, x1) => setBox m (fun b => { b with phase := 0x200 }) (if (x1.dax.boxes.get m).phase = 0x200 then x1 else tally (.lkp (lowestShed x1) 13) x1)

/-- The body of the reply to TABLE_EDIT and QUEUE_CONFIG. -/
def editReply (b : Mailbox) : List Byte :=
  let res := if b.phase = 0 || 0x100 ≤ b.phase then 0 else b.phase - 1
  [BitVec.ofNat 8 res, 0] ++ leBytes 2 b.doneN ++ leBytes 2 (if b.phase = 0 then 0xFFFF else b.doneN) ++ zeros 2

/-- The message of mailbox `m` is answered once none of its edits waits for a replica. -/
def finishEdits (m : Nat) (y : Mod × List Host.Cell) : Mod × List Host.Cell :=
  let b := y.1.dax.boxes.get m
  if b.phase = 0x200 || y.1.tbl.edits.any (fun e => e.mbx == some m) then y
  else complete m (if b.phase = 0x100 then stInvalid else stOk) (editReply b) y

/-- The records of mailbox `m`'s message are handled from where it stands. -/
def goOnEdits (m : Nat) (y : Mod × List Host.Cell) : Mod × List Host.Cell :=
  let b := y.1.dax.boxes.get m
  let q := b.body
  let x1 :=
    if b.opcode = 0x0010 then
      let size := leAt q 4 2
      runRecords m (fun i => hostEdit m (leAt q 0 1) (leAt q 1 1) (sliceOf q (8 + size * i) size)) (leAt q 2 2 - b.doneN) b.doneN y.1
    else
      runRecords m (fun i x =>
        let r := sliceOf q (4 + 32 * i) 32
        if !nodeOk (portDefined x) r then (.bad, x)
        else if wredMissing (catchUp (shedOfPort (leAt r 0 2)) x) r then (.fail 1, x)
        else
          let s := shedOfPort (leAt r 0 2)
          (.ok, beginEdit { kind := 0, tab := 0, op := 1, key := sliceOf r 0 4, dat := r, at_ := 0, begin_ := s, done := [],
                            mbx := some m, only := some s } x)) (leAt q 0 2 - b.doneN) b.doneN y.1
  finishEdits m (x1, y.2)

/-- Whether a table accepts an entry size (12 R396). -/
def sizeOk (tab size : Nat) : Bool :=
  if tab = 6 then 8 ≤ size && size ≤ 8 + 4 * 512 && size % 4 == 0 else 1 ≤ tab && tab ≤ 0x10 && size == entSize tab

/-- The table that the command in a mailbox edits; 0 stands for the scheduler nodes. -/
def Mailbox.edits (b : Mailbox) : Option Nat :=
  if b.opcode = 0x0010 then some (leAt b.body 0 1) else if b.opcode = 0x0017 then some 0 else none

/-- Whether every command on mailbox `m`'s table that was taken before it has had its records applied (12 R382). -/
def editTurn (x : Mod) (m : Nat) : Bool :=
  let b := x.dax.boxes.get m
  (List.range 15).all (fun k =>
    let o := x.dax.boxes.get k
    k == m || !o.busy || o.edits != b.edits || decide (b.order < o.order) || (o.began && o.phase != 0x200))

/-- TABLE_EDIT with operation `op`; a message whose OP names none is malformed and meets the insert's check. Table 0x0E is of version
3.0 and above (12 R387), and edits to one table apply in the order taken (12 R382). -/
def tableEdit (m op : Nat) (b : Mailbox) (y : Mod × List Host.Cell) : Mod × List Host.Cell :=
  let q := b.body
  let tab := leAt q 0 1
  let o := leAt q 1 1
  let n := leAt q 2 2
  let size := leAt q 4 2
  if (if 2 < o then 0 else o) ≠ op then y
  else if 2 < o || n = 0 || !sizeOk tab size || (tab = 0x0E && !versionAtLeast y.1 3 0) || b.len ≠ 8 + n * size || leAt q 6 2 ≠ 0 || (tab = 6 && n ≠ 1) then fail m stInvalid y
  else if y.1.tt.act.any (·.loading) then fail m stBusy y
  else if !editTurn y.1 m then y
  else goOnEdits m (setBox m (fun b => { b with began := true, phase := 0, doneN := 0 }) y.1, y.2)

/-- QUEUE_CONFIG. -/
def queueConfigCmd (m : Nat) (b : Mailbox) (y : Mod × List Host.Cell) : Mod × List Host.Cell :=
  let n := leAt b.body 0 2
  if n = 0 || 64 < n || leAt b.body 2 2 ≠ 0 || b.len ≠ 4 + 32 * n then fail m stInvalid y
  else if y.1.tt.act.any (·.loading) then fail m stBusy y
  else if !editTurn y.1 m then y
  else goOnEdits m (setBox m (fun b => { b with began := true, phase := 0, doneN := 0 }) y.1, y.2)

/-! ### The replicas commit -/

/-- A write reaches shed `s`'s replica: the next edit of the order. A quiesced shed takes none. -/
def replicaWrite (s : Nat) (x : Mod) : Mod := if shedWorks x s then writeNext s x else x

/-- Every replica has written the oldest edit: it is journalled, synced to the partner, and its command may end. -/
def editCommitted (y : Mod × List Host.Cell) : Mod × List Host.Cell :=
  let x := y.1
  match x.tbl.edits with
  | [] => y
  | e :: t =>
    if !editDone x e then y
    else
      let x1 := { x with tbl := { x.tbl with
        edits := t
        quar := x.tbl.quar.map (fun q => if q.at_ = e.at_ then { q with at_ := x.now } else q) } }
      let x2 := journalEdit e x1
      let x3 := match syncOf x e with
        | some r => { x2 with cpl := { x2.cpl with unsent := x2.cpl.unsent ++ [r], lastL2 := some x.now } }
        | none => x2
      match e.mbx with
      | some m => if (x3.dax.boxes.get m).opcode = 0x0013 then (x3, y.2) else finishEdits m (x3, y.2)
      | none => (x3, y.2)

/-- An index leaves quarantine once no frame inside can hold it: none admitted, on this pass or its first, before the edit committed, or
of an older epoch (04 R125). The edits held for it go on. -/
def quarantineEnds (meter : Bool) (i : Nat) (y : Mod × List Host.Cell) : Mod × List Host.Cell :=
  let x := y.1
  match x.tbl.quar.find? (fun q => q.meter == meter && q.idx == i) with
  | none => y
  | some q =>
    if x.tbl.edits.any (fun e => e.at_ ≤ q.at_) ||
        (heldFrames x).any (fun f => f.2.admAt.any (· < q.at_) || (f.2.admAt.isSome && f.2.bank != x.tt.active)) then y
    else
      let x1 := { x with tbl := { x.tbl with quar := x.tbl.quar.filter (fun q => !(q.meter == meter && q.idx == i)) } }
      ((List.range 15).filter (fun m => (x1.dax.boxes.get m).busy && (x1.dax.boxes.get m).phase == 0x200)).foldl
        (fun a m => goOnEdits m a) (x1, y.2)

/-! ### The commands -/

/-- TABLE_EDIT_INSERT. -/
def execTableEditInsert (m : Nat) (st : State) : Host.Outcome State Fault Refusal :=
  cmdAll (.tableEditInsert m) (onCommand m 0x0010 (tableEdit m 0)) st

/-- TABLE_EDIT_CHANGE. -/
def execTableEditChange (m : Nat) (st : State) : Host.Outcome State Fault Refusal :=
  cmdAll (.tableEditChange m) (onCommand m 0x0010 (tableEdit m 1)) st

/-- TABLE_EDIT_DELETE. -/
def execTableEditDelete (m : Nat) (st : State) : Host.Outcome State Fault Refusal :=
  cmdAll (.tableEditDelete m) (onCommand m 0x0010 (tableEdit m 2)) st

/-- QUEUE_CONFIG. -/
def execQueueConfig (m : Nat) (st : State) : Host.Outcome State Fault Refusal :=
  cmdAll (.queueConfig m) (onCommand m 0x0017 (queueConfigCmd m)) st

/-- REPLICA_WRITE_RECEIVE. -/
def execReplicaWriteReceive (s : Nat) (st : State) : Host.Outcome State Fault Refusal :=
  cmd (.replicaWriteReceive s) (replicaWrite s) st

/-- QUARANTINE_END. -/
def execQuarantineEnd (meter : Bool) (idx : Nat) (st : State) : Host.Outcome State Fault Refusal :=
  cmdAll (.quarantineEnd meter idx) (quarantineEnds meter idx) st

end Sys2Proof.Machine
end

