-- ==== Sys2Proof/Machine/Learning.lean ====
section
/-! DEFINITION. Sys2Proof/Machine/Learning.lean: learning, station moves, freezes, aging and the repair of ACL entries (04 R126 to
R133; 03 R98). -/

namespace Sys2Proof.Machine

/-! ### Learning -/

/-- The key of a learn request. -/
def Learn.key (l : Learn) : List Byte := l2Key l.fid l.mac.toNat

/-- A learned L2 record. -/
def learnedRec (l : Learn) : List Byte := l.key ++ leBytes 4 l.dest ++ zeros 20

/-- An edit of an L2 entry that no host command asked for. -/
def l2Edit (s kind op : Nat) (key dat : List Byte) (mbx : Option Nat) : Edit :=
  { kind := kind, tab := 1, op := op, key := key, dat := dat, at_ := 0, begin_ := s, done := [], mbx := mbx }

/-- The home removes an entry: aged, flushed or removed by the partner (KIND of 04 R141). -/
def removeL2 (s kind : Nat) (e : Ent) (mbx : Option Nat) (x : Mod) : Mod :=
  dropMeta e.key (beginEdit (l2Edit s kind 2 e.key e.dat mbx) x)

/-- The first learn of a key (04 R128). -/
def firstLearn (s : Nat) (l : Learn) (x : Mod) : Mod :=
  match makeRoom s 1 l.key (learnedRec l) x with
  | (false, x1) => x1
  | (true, x1) =>
    setMeta l.key (fun _ => { portTime := l.time, hit := ageTick x1, synced := l.sync })
      (tally (.lkp s 0) (beginEdit (l2Edit s 1 0 l.key (learnedRec l) none) x1))

/-- An instant as the monotonic counter shows it, in nanoseconds (09 R294). -/
def counterNs (t : Nat) : Nat := t / 1000

/-- Whether a request for another port is contested, by the monotonic counter: before the end of the move-hold window, or at it when
there is a window (04 R128). -/
def contested (holdUs portTime t : Nat) : Bool :=
  if holdUs = 0 then counterNs t < counterNs portTime else counterNs t ≤ counterNs portTime + 1000 * holdUs

/-- LKP_FLAP_LOG0 to 2 of a frozen entry (04 R147). -/
def flapWords (key dat : List Byte) (count : Nat) : List Word :=
  [BitVec.ofNat 32 (beAt key 2 4), reg [at_ 16 16 (beAt key 0 2), at_ 0 14 (l2Fid key)],
   reg [at_ 30 2 (leAt dat 8 4 / 2 ^ 30), at_ 16 14 (leAt dat 8 4), at_ 0 16 count]]

/-- The freeze of an entry by a ninth station move within 1 s (04 R129). -/
def freezeL2 (s : Nat) (e : Ent) (x : Mod) : Mod :=
  let n := x.tbl.freezes.get s + 1
  let x1 := setMeta e.key (fun m => { m with frozenAt := some x.now }) (tally (.lkp s 5) x)
  raise (.shed s) evFlap { x1 with tbl := { x1.tbl with
    freezes := x1.tbl.freezes.set s n, flapLog := x1.tbl.flapLog.set s (flapWords e.key e.dat n) } }

/-- A station move (04 R128, R129). -/
def stationMove (s : Nat) (l : Learn) (e : Ent) (x : Mod) : Mod :=
  let m := metaOf x e.key
  let tooFast : Bool := match m.moves with
    | o :: _ => m.moves.length == 8 && decide (counterNs l.time ≤ counterNs o + 1000000000)
    | [] => false
  if tooFast then freezeL2 s e x
  else
    let moves := m.moves ++ [l.time]
    setMeta e.key (fun m => { m with
        portTime := l.time, hit := ageTick x, synced := l.sync, moves := moves.drop (moves.length - 8) })
      (tally (.lkp s 2) (beginEdit (l2Edit s 2 1 e.key (splice e.dat 8 (leBytes 4 l.dest)) none) x))

/-- One learn request as its home takes it (04 R128 to R130, 11 R368). -/
def handleLearn (s : Nat) (l : Learn) (x : Mod) : Mod :=
  let x0 := catchUp s x
  match (viewOf x0 s x0.tt.active).find 1 l.key with
  | none => if l.del then x0 else firstLearn s l x0
  | some e =>
    let m := metaOf x0 l.key
    if isStatic e.dat then x0
    else if l.del then (if m.synced then removeL2 s 3 e none x0 else x0)
    else if leAt e.dat 8 4 = l.dest then x0
    else if m.frozenAt.isSome then tally (.lkp s 4) x0
    else if contested (actCfg x0).holdUs m.portTime l.time then tally (.lkp s 3) x0
    else stationMove s l e x0

/-- The home shed takes the request at the head of its queue and answers its shed. -/
def learnHandle (s : Nat) (x : Mod) : Mod :=
  match x.tbl.learns.get s with
  | [] => x
  | l :: t =>
    if !shedWorks x s then x
    else
      handleLearn s l { x with tbl := { x.tbl with
        learns := x.tbl.learns.set s t, asked := x.tbl.asked.set (l.src, l.fid, l.mac) none } }

/-- The flap hold time passes: the entry is unfrozen, an edit of KIND 6 (04 R129, R141). -/
def freezeEnds (s fid : Nat) (mac : BitVec 48) (x : Mod) : Mod :=
  let key := l2Key fid mac.toNat
  let x0 := catchUp s x
  match (metaOf x key).frozenAt, (viewOf x0 s x0.tt.active).find 1 key with
  | some t, some e =>
    if homeOf x fid mac = s && passed x.now t (sec (actCfg x).flapS) then
      setMeta key (fun m => { m with frozenAt := none, moves := [] }) (beginEdit (l2Edit s 6 1 key e.dat none) x0)
    else x
  | _, _ => x

/-! ### Aging (04 R131 to R133) -/

/-- The later of two ticks, compared modulo 2^20 against the current one. -/
def laterTick (cur a b : BitVec 20) : BitVec 20 := if (cur - b).toNat < (cur - a).toNat then b else a

/-- A refresh of HIT_TIME reaches the home shed. -/
def refreshLands (s fid : Nat) (mac : BitVec 48) (tick : BitVec 20) (x : Mod) : Mod :=
  if !(x.tbl.pend.contains (s, fid, mac, tick)) then x
  else
    let x1 := { x with tbl := { x.tbl with pend := x.tbl.pend.filter (· != (s, fid, mac, tick)) } }
    if (x.tbl.ents.get (homeOf x fid mac, 1)).any (fun e => e.key == l2Key fid mac.toNat && !isStatic e.dat) then
      setMeta (l2Key fid mac.toNat) (fun m => { m with hit := laterTick (ageTick x) m.hit tick }) x1
    else x1

/-- Whether the entries of a shed count as aged because its Ostler group was stopped for 2^19 ticks or longer: the first pass after
the wake, for an entry not hit since. -/
def longStopped (x : Mod) (s : Nat) (age : Nat) : Bool :=
  match (x.pwr.doms.get (416 + s)).stops with
  | (a, b) :: _ => domRuns x (416 + s) && decide (a + 2 ^ 19 * 2 ^ 24 * 1000 ≤ b) && decide (x.now ≤ b + sec 1)
      && decide ((x.now - b) / (2 ^ 24 * 1000) < age)
  | [] => false

/-- The refreshes of a key that reach its home shed in this instant, of the commands that wait. -/
def refreshesNow (fid : Nat) (mac : BitVec 48) (l : List Instr) (x : Mod) : Mod :=
  l.foldl (fun a c => match c with
    | .hitRefresh s f m t => if f = fid && m = mac then refreshLands s f m t a else a
    | _ => a) x

/-- The home shed's Ostlers visit an entry: it is deleted when aged; a synced entry never ages while Paired (11 R368). A refresh that
arrives in the same cycle wins: those of the waiting commands land first (04 R132). -/
def agingVisitNow (s fid : Nat) (mac : BitVec 48) (waiting : List Instr) (x_ : Mod) : Mod :=
  let x := refreshesNow fid mac waiting x_
  let key := l2Key fid mac.toNat
  let x0 := catchUp s x
  let m := metaOf x key
  let age := (ageTick x - m.hit).toNat
  match (viewOf x0 s x0.tt.active).find 1 key with
  | none => x
  | some e =>
    if homeOf x fid mac ≠ s || !shedWorks x s || isStatic e.dat || (m.synced && x.mode.mode == .paired) then x
    else if ((actCfg x).fid fid).ageTick < age || longStopped x s age then removeL2 s 3 e none (tally (.lkp s 6) x0)
    else x

/-- Home duty of the keys that shed `s` serves moves: each adopted entry takes the current tick as hit time, whether the shed served it
as its own or for another (04 R133). -/
def adoptEntries (s : Nat) (x : Mod) : Mod :=
  let t := ageTick x
  { x with tbl := { x.tbl with
    learns := x.tbl.learns.set s []
    meta_ := x.tbl.meta_.mapEnts (fun k m => if homeOf x k.1 k.2 = s then { m with hit := t } else m) } }

/-! ### ACL entries (03 R98) -/

/-- The Ostlers have rewritten an entry read with bad parity from the shadow copy, which with an uncorrectable error is written itself from
the majority of the replicas first (17 R518). -/
def aclRepaired (s sl i : Nat) (x_ : Mod) : Mod :=
  if !(x_.tbl.aclBad.contains (s, sl, i)) then x_
  else
    let x := eccRepair (fun w => decide (w = .shadow s sl i)) id x_
    let w := x.tbl.aclLog.get s
    let this := fieldOf w 31 28 = sl && fieldOf w 27 16 = i
    { x with tbl := { x.tbl with
      aclBad := x.tbl.aclBad.filter (· != (s, sl, i))
      aclHit := x.tbl.aclHit.filter (· != (s, sl, i))
      aclLog := if this then x.tbl.aclLog.set s (w ||| 1#32) else x.tbl.aclLog } }

/-! ### The commands -/

/-- LEARN_REQUEST_HANDLE. -/
def execLearnRequestHandle (s : Nat) (st : State) : Host.Outcome State Fault Refusal :=
  cmd (.learnRequestHandle s) (learnHandle s) st

/-- FREEZE_END. -/
def execFreezeEnd (s fid : Nat) (mac : BitVec 48) (st : State) : Host.Outcome State Fault Refusal :=
  cmd (.freezeEnd s fid mac) (freezeEnds s fid mac) st

/-- HIT_REFRESH. -/
def execHitRefresh (s fid : Nat) (mac : BitVec 48) (tick : BitVec 20) (st : State) : Host.Outcome State Fault Refusal :=
  cmd (.hitRefresh s fid mac tick) (refreshLands s fid mac tick) st

/-- AGING_VISIT. -/
def execAgingVisit (s fid : Nat) (mac : BitVec 48) (st : State) : Host.Outcome State Fault Refusal :=
  cmd (.agingVisit s fid mac) (agingVisitNow s fid mac st.pending) st

/-- ACL_PARITY_REPAIR. -/
def execAclParityRepair (s slice entry : Nat) (st : State) : Host.Outcome State Fault Refusal :=
  cmd (.aclParityRepair s slice entry) (aclRepaired s slice entry) st

end Sys2Proof.Machine
end

