-- ==== Sys2Proof/Machine/TableCmds.lean ====
section
/-! DEFINITION. Sys2Proof/Machine/TableCmds.lean: SEARCH, NEXT, FLUSH_BY_PORT, JOURNAL_READ, TICKET_READ, TICKET_FLUSH, COUNTER_READ
and CAPTURE_RING (04 R134 to R141, 05 R152, 08 R272, R281; 12 R389, R401). -/

namespace Sys2Proof.Machine

/-! ### Results -/

/-- A record as a reply shows it: an L2 record with FROZEN, MOVES, HOME and HIT_TIME (04 R135). -/
def shownRec (x : Mod) (tab : Nat) (e : Ent) : List Byte :=
  if tab ≠ 1 then e.dat
  else
    let m := metaOf x e.key
    let own := (Config.homeHash (l2Fid e.key) (l2Mac e.key)).toNat
    let home := keyHome x e.key
    let moves := (m.moves.filter (fun t => x.now ≤ t + sec 1)).length
    splice (splice e.dat 0x0C (leBytes 2 (leAt e.dat 0x0C 2 + flag 1 m.frozenAt.isSome))) 0x0E
      ([BitVec.ofNat 8 (min 8 moves), BitVec.ofNat 8 (home + flag 7 (home != own))]
        ++ leBytes 4 (if isStatic e.dat then 0 else m.hit.toNat))

/-- The replica a SHED byte names. -/
def replicaOf (x : Mod) (b : Nat) : Option Nat := if b < 8 then some b else if b = 0xFF then some (lowestShed x) else none

/-- Whether a search key has all but its key fields 0. -/
def keyOnly (tab : Nat) (k : List Byte) : Bool :=
  match tab with
  | 1 => allZero (k.drop 8)
  | 2 => allZero (sliceOf k 5 1) && allZero (k.drop 8)
  | 3 => allZero (sliceOf k 9 1) && allZero (k.drop 12)
  | 4 => allZero (k.drop 18)
  | 8 => allZero (k.drop 24)
  | 7 => allZero (k.drop 1)
  | _ => allZero (k.drop 4)

/-- SEARCH (04 R138). -/
def searchCmd (m : Nat) (b : Mailbox) (y : Mod × List Host.Cell) : Mod × List Host.Cell :=
  let x := y.1
  let q := b.body
  let tab := leAt q 0 1
  let k := q.drop 4
  match replicaOf x (leAt q 1 1) with
  | none => fail m stInvalid y
  | some s =>
    if tab = 0 || 9 < tab || leAt q 2 2 ≠ 0 || b.len < 4 || !sizeOk tab k.length || !keyOnly tab k then fail m stInvalid y
    else
      match (viewOf x s x.tt.active).find tab (keyOf tab k) with
      | some e => complete m stOk ([0, BitVec.ofNat 8 s, 0, 0] ++ shownRec x tab e) y
      | none => complete m stOk ([1, BitVec.ofNat 8 s, 0, 0] ++ zeros k.length) y

/-! ### NEXT (04 R138, R139) -/

/-- An entry among others in position order. -/
def insertByPos (e : Ent) : List Ent → List Ent
  | [] => [e]
  | h :: t => if e.pos < h.pos then e :: h :: t else h :: insertByPos e t

/-- Entries in position order. -/
def sortByPos (l : List Ent) : List Ent := l.foldl (fun a e => insertByPos e a) []

/-- Whether a record passes a FILTER. -/
def passesFilter (tab filter dest fv : Nat) (r : List Byte) : Bool :=
  let d := if tab = 1 then leAt r 8 4 else if tab = 5 then leAt r 4 4 else resultField tab r
  let f := if tab = 1 then leAt r 6 2 else if tab = 2 then leAt r 6 2 else if tab = 3 then leAt r 0x0A 2 else leAt r 0x10 2
  (!bitOf filter 0 || tab != 1 || !isStatic r) && (!bitOf filter 1 || d == dest) && (!bitOf filter 2 || tab == 5 || f == fv)

/-- A cursor's shed and place, or none when it is closed: no NEXT for more than 10 s. -/
def cursorOf (x : Mod) (h : Nat) : Option (Nat × Cursor) :=
  (List.range 8).findSome? (fun s => ((x.tbl.cursors.get s).find? (fun c => c.handle == h && decide (x.now ≤ c.lastAt + sec 10))).map
    (fun c => (s, c)))

/-- A reply to NEXT without records. -/
def nextFails (m code : Nat) (y : Mod × List Host.Cell) : Mod × List Host.Cell :=
  complete m stOk ([BitVec.ofNat 8 code, 0, 0, 0] ++ zeros 4) y

/-- The records that follow a cursor, up to `max`; the cursor moves past them, and closes at the end. -/
def walk (m s max filter dest fv : Nat) (c : Cursor) (y : Mod × List Host.Cell) : Mod × List Host.Cell :=
  let x := y.1
  let l := viewOf x s x.tt.active c.tab
  let late := c.catchUp.filterMap (fun k => l.find? (fun e => e.key == k))
  let ahead := sortByPos (l.filter (fun e => c.pos ≤ e.pos))
  let all := ((late.map (fun e => (false, e))) ++ (ahead.map (fun e => (true, e)))).filter
    (fun e => passesFilter c.tab filter dest fv e.2.dat)
  let out := all.take max
  let whole := all.length ≤ max
  let pos := out.foldl (fun a e => if e.1 then e.2.pos + 1 else a) c.pos
  let gone := (out.filter (fun e => !e.1)).map (fun e => e.2.key)
  let c1 := { c with pos := pos, catchUp := c.catchUp.filter (fun k => !gone.contains k), rewound := false, lastAt := x.now }
  let others := (x.tbl.cursors.get s).filter (fun k => k.handle != c.handle)
  let x1 := { x with tbl := { x.tbl with cursors := x.tbl.cursors.set s (if whole then others else others ++ [c1]) } }
  complete m stOk ([0, BitVec.ofNat 8 (flag 0 whole + flag 1 c.rewound), BitVec.ofNat 8 out.length, 0]
    ++ leBytes 4 (if whole then 0 else c.handle) ++ out.flatMap (fun e => shownRec x c.tab e.2)) (x1, y.2)

/-- NEXT. -/
def tableNextCmd (m : Nat) (b : Mailbox) (y : Mod × List Host.Cell) : Mod × List Host.Cell :=
  let x := y.1
  let q := b.body
  let tab := leAt q 0 1
  let max := leAt q 2 1
  let filter := leAt q 3 1
  let h := leAt q 4 4
  match replicaOf x (leAt q 1 1) with
  | none => fail m stInvalid y
  | some s =>
    if b.len ≠ 16 || tab = 0 || 5 < tab || max = 0 || 64 < max || 8 ≤ filter || leAt q 0x0E 2 ≠ 0 then fail m stInvalid y
    else if h ≠ 0 then
      match cursorOf x h with
      | none => nextFails m 4 y
      | some (s, c) => if c.tab ≠ tab then fail m stInvalid y else walk m s max filter (leAt q 8 4) (leAt q 0x0C 2) c y
    else
      let open_ := (x.tbl.cursors.get s).filter (fun c => decide (x.now ≤ c.lastAt + sec 10))
      if 16 ≤ open_.length then nextFails m 5 y
      else
        let c : Cursor := { handle := x.tbl.nextCur, shed := s, tab := tab, pos := 0, lastAt := x.now }
        let n := (x.tbl.nextCur + 1) % 2 ^ 32
        walk m s max filter (leAt q 8 4) (leAt q 0x0C 2) c
          ({ x with tbl := { x.tbl with nextCur := if n = 0 then 1 else n, cursors := x.tbl.cursors.set s open_ } }, y.2)

/-- A cursor that has received no NEXT for more than 10 s closes. -/
def cursorExpires (s h : Nat) (x : Mod) : Mod :=
  { x with tbl := { x.tbl with cursors := x.tbl.cursors.upd s (fun l =>
    l.filter (fun c => !(c.handle == h && decide (c.lastAt + sec 10 < x.now)))) } }

/-! ### Leave for a command (12 R389) -/

/-- The leave a command was granted or waits for is given back. -/
def dropLeaves (m : Nat) (x : Mod) : Mod :=
  { x with pwr := { x.pwr with
    grants := x.pwr.grants.filter (fun g => g.mbx != some m)
    queue := x.pwr.queue.filter (fun r => r.mbx != some m) } }

/-- Leave for one operation on each unit: whether none was refused, the module, and the requests that wait in the mailbox. -/
def askLeaves (m op : Nat) : List Nat → Mod → Bool × Mod
  | [], x => (true, x)
  | u :: t, x =>
    match askLeave op u (some m) x with
    | (.granted _, x1) => askLeaves m op t x1
    | (.queued id, x1) => askLeaves m op t (setBox m (fun b => { b with leave := b.leave ++ [id] }) x1)
    | (.refused _, x1) => (false, dropLeaves m x1)

/-- The working sheds. -/
def workingSheds (x : Mod) : List Nat := (List.range 8).filter (shedWorks x)

/-- A command begins under leave: refused, it ends LEAVE_REFUSED; queued, it waits; granted, it goes on with `go`. -/
def underLeave (m op : Nat) (units : List Nat) (go : Mod × List Host.Cell → Mod × List Host.Cell) (y : Mod × List Host.Cell) :
    Mod × List Host.Cell :=
  match askLeaves m op units (setBox m (fun b => { b with began := true, leave := [] }) y.1) with
  | (false, x1) => fail m stLeave (x1, y.2)
  | (true, x1) => if (x1.dax.boxes.get m).leave = [] then go (x1, y.2) else (x1, y.2)

/-! ### FLUSH_BY_PORT (04 R138, R140) -/

/-- The flush ends once all replicas have committed its last removal. -/
def finishFlush (m : Nat) (y : Mod × List Host.Cell) : Mod × List Host.Cell :=
  let b := y.1.dax.boxes.get m
  if y.1.tbl.edits.any (fun e => e.mbx == some m) then y
  else complete m stOk (zeros 4 ++ leBytes 4 b.doneN ++ leBytes 8 b.phase) (dropLeaves m y.1, y.2)

/-- The flush begins: every dynamic entry on TARGET with a port time before START_TIME is removed by its home shed. -/
def startFlush (m : Nat) (y : Mod × List Host.Cell) : Mod × List Host.Cell :=
  let x := catchUp (lowestShed y.1) y.1
  let q := (x.dax.boxes.get m).body
  let target := leAt q 0 4
  let fl := leAt q 6 1
  let hit := (x.tbl.ents.get (lowestShed x, 1)).filter (fun e =>
    !isStatic e.dat && leAt e.dat 8 4 == target && decide (counterNs (metaOf x e.key).portTime < counterNs x.now)
      && (bitOf fl 1 || (metaOf x e.key).frozenAt.isNone) && (!bitOf fl 0 || l2Fid e.key == leAt q 4 2))
  let x1 := hit.foldl (fun a e => removeL2 (keyHome a e.key) 5 e (some m) a) x
  finishFlush m (setBox m (fun b => { b with doneN := hit.length, phase := x.now / 1000 }) x1, y.2)

/-- FLUSH_BY_PORT: leave for a bulk flush in every working shed. -/
def flushCmd (m : Nat) (b : Mailbox) (y : Mod × List Host.Cell) : Mod × List Host.Cell :=
  let q := b.body
  let fl := leAt q 6 1
  if b.len ≠ 8 || !destOk (portDefined y.1) (leAt q 0 4) 2 || 4 ≤ fl || leAt q 7 1 ≠ 0 || (bitOf fl 0 && 2 ^ 14 ≤ leAt q 4 2) then fail m stInvalid y
  else underLeave m 5 (workingSheds y.1) (startFlush m) y

/-! ### JOURNAL_READ (04 R141; 12 R401) -/

/-- The first record at or after the oldest one held that begins an edit. -/
def firstPart : List (List Byte) → Nat → Nat
  | [], i => i
  | r :: t, i => if leAt r 0x14 1 = 0 then i else firstPart t (i + 1)

/-- JOURNAL_READ: the records are written to host memory. -/
def journalReadCmd (m : Nat) (b : Mailbox) (y : Mod × List Host.Cell) : Mod × List Host.Cell :=
  let x := y.1
  let q := b.body
  let max := leAt q 4 2
  let addr := leAt q 8 8
  if b.len ≠ 16 || max = 0 || 4096 < max || leAt q 6 2 ≠ 0 || addr % 64 ≠ 0 then fail m stInvalid y
  else
    let oldest := x.tbl.jNext - x.tbl.journal.length
    let from_ := leAt q 0 4
    let wrapped := from_ < oldest
    let start := if wrapped then firstPart x.tbl.journal oldest else from_
    let recs := (x.tbl.journal.drop (start - oldest)).take max
    let next := start + recs.length
    let x1 := if recs = [] then x else emit (.dma addr recs.flatten) x
    complete m stOk ([0, BitVec.ofNat 8 (flag 0 wrapped)] ++ leBytes 2 recs.length ++ leBytes 4 next)
      (journalSeen start (min next x1.tbl.jNext) x1, y.2)

/-! ### Tickets (05 R152; 12 R401) -/

/-- TICKET_READ. -/
def ticketReadCmd (m : Nat) (b : Mailbox) (y : Mod × List Host.Cell) : Mod × List Host.Cell :=
  let q := b.body
  let s := leAt q 0 1
  let t := leAt q 2 2
  if b.len ≠ 4 || 8 ≤ s || leAt q 1 1 ≠ 0 || 2 ^ 15 ≤ t then fail m stInvalid y
  else
    complete m stOk (zeros 4 ++ (match tkt? y.1 s t with
      | some k => tktRecord k
      | none => zeros 48)) y

/-- The tickets of some sheds are removed. -/
def flushTickets (l : List Nat) (x : Mod) : Mod := l.foldl (fun a s => setTkt s (fun c => { c with ways := .const none, bad := [] }) a) x

/-- The sheds a TICKET_FLUSH names. -/
def flushSheds (x : Mod) (b : Nat) : List Nat := if b = 0xFF then workingSheds x else [b]

/-- The ticket flush runs and ends, and each shed counts it (05 R178). -/
def startTicketFlush (m : Nat) (y : Mod × List Host.Cell) : Mod × List Host.Cell :=
  let x := y.1
  let l := flushSheds x (leAt (x.dax.boxes.get m).body 0 1)
  complete m stOk [] (dropLeaves m (l.foldl (fun a s => tally (.otrT s 6) a) (flushTickets l x)), y.2)

/-- TICKET_FLUSH: leave for a ticket-cache flush in each shed named. -/
def ticketFlushCmd (m : Nat) (b : Mailbox) (y : Mod × List Host.Cell) : Mod × List Host.Cell :=
  let s := leAt b.body 0 1
  if b.len ≠ 1 || (8 ≤ s && s ≠ 0xFF) then fail m stInvalid y
  else underLeave m 6 (flushSheds y.1 s) (startTicketFlush m) y

/-! ### COUNTER_READ and CAPTURE_RING (08 R272, R281; 12 R401) -/

/-- COUNTER_READ: the values are written to host memory. Whether a counter's 64-bit value is its frames or its octets is not stated:
a free value decides (log 38). The window opens and ends at this instant. -/
def counterReadCmd (m : Nat) (b : Mailbox) (y : Mod × List Host.Cell) : Mod × List Host.Cell :=
  let x := y.1
  let q := b.body
  let s := leAt q 0 1
  let first := leAt q 4 4
  let n := leAt q 8 2
  let addr := leAt q 0x10 8
  if b.len ≠ 24 || 8 ≤ s || leAt q 1 3 ≠ 0 || 2 ^ 20 ≤ first || n = 0 || 4096 < n || 2 ^ 20 < first + n
      || !allZero (sliceOf q 0x0A 6) || addr % 8 ≠ 0 then fail m stInvalid y
  else
    let d := drawBits 1 x
    let vals := (List.range n).flatMap (fun i => leBytes 8 (x.ctrs.get (.named s (first + i) (d.1 == 1))).value.toNat)
    complete m stOk (zeros 8 ++ leBytes 8 (x.now / 1000) ++ leBytes 8 (x.now / 1000)) (emit (.dma addr vals) d.2, y.2)

/-- Whether a source of KIND 2, 3 or 5 names a ring (08 R272). -/
def ringNamedV2 (x : Mod) (r : Nat) : Bool :=
  (List.range 8).any (fun s =>
    let c := x.cap.sheds.get s
    (c.precise.getLsbD 31 && fieldOf c.precise 27 24 == r) || (c.ostCfg.getLsbD 31 && fieldOf c.ostCfg 27 24 == r))
  || (List.range 128).any (fun g => match (actCfg x).exports.get g with
      | some (_, k) => k == r
      | none => false)

/-- CAPTURE_RING: format and enabling of a capture ring. FORMAT 2 is of version 3.1 and above (12 R387). -/
def captureRingCmd (m : Nat) (b : Mailbox) (y : Mod × List Host.Cell) : Mod × List Host.Cell :=
  let q := b.body
  let r := leAt q 0 1
  let f := leAt q 1 1
  let fl := leAt q 2 1
  if b.len ≠ 4 || 16 ≤ r || !(f == 1 || f == 2) || 2 ≤ fl || leAt q 3 1 ≠ 0 then fail m stInvalid y
  else if f = 2 && !versionAtLeast y.1 3 1 then fail m stInvalid y
  else if f = 1 && fl = 1 && ringNamedV2 y.1 r then fail m stInvalid y
  else complete m stOk [] (setCapRing r (fun c => { c with enable := fl == 1, format := f }) y.1, y.2)

/-- Every replica has written the oldest edit; a flush may end with it. -/
def replicasCommitted (y : Mod × List Host.Cell) : Mod × List Host.Cell :=
  let m := (y.1.tbl.edits.head?.bind (·.mbx))
  let y1 := editCommitted y
  match m with
  | some m =>
    let b := y1.1.dax.boxes.get m
    if b.busy && b.opcode = 0x0013 then finishFlush m y1 else y1
  | none => y1

/-! ### The commands -/

/-- SEARCH. -/
def execSearch (m : Nat) (st : State) : Host.Outcome State Fault Refusal :=
  cmdAll (.search m) (onCommand m 0x0011 (searchCmd m)) st

/-- NEXT. -/
def execNext (m : Nat) (st : State) : Host.Outcome State Fault Refusal :=
  cmdAll (.next m) (onCommand m 0x0012 (tableNextCmd m)) st

/-- FLUSH_BY_PORT. -/
def execFlushByPort (m : Nat) (st : State) : Host.Outcome State Fault Refusal :=
  cmdAll (.flushByPort m) (onCommand m 0x0013 (flushCmd m)) st

/-- JOURNAL_READ. -/
def execJournalRead (m : Nat) (st : State) : Host.Outcome State Fault Refusal :=
  cmdAll (.journalRead m) (onCommand m 0x0014 (journalReadCmd m)) st

/-- TICKET_READ. -/
def execTicketRead (m : Nat) (st : State) : Host.Outcome State Fault Refusal :=
  cmdAll (.ticketRead m) (onCommand m 0x0015 (ticketReadCmd m)) st

/-- TICKET_FLUSH. -/
def execTicketFlush (m : Nat) (st : State) : Host.Outcome State Fault Refusal :=
  cmdAll (.ticketFlush m) (onCommand m 0x0016 (ticketFlushCmd m)) st

/-- COUNTER_READ. -/
def execCounterRead (m : Nat) (st : State) : Host.Outcome State Fault Refusal :=
  cmdAll (.counterRead m) (onCommand m 0x0018 (counterReadCmd m)) st

/-- CAPTURE_RING. -/
def execCaptureRing (m : Nat) (st : State) : Host.Outcome State Fault Refusal :=
  cmdAll (.captureRing m) (onCommand m 0x0030 (captureRingCmd m)) st

/-- CURSOR_EXPIRY. -/
def execCursorExpiry (s cursor : Nat) (st : State) : Host.Outcome State Fault Refusal :=
  cmd (.cursorExpiry s cursor) (cursorExpires s cursor) st

/-- EDIT_REPLICAS_COMMITTED. -/
def execEditReplicasCommitted (st : State) : Host.Outcome State Fault Refusal :=
  cmdAll (.editReplicasCommitted) (replicasCommitted) st

end Sys2Proof.Machine
end

