-- ==== Sys2Proof/Machine/Mesh.lean ====
section
/-! DEFINITION. Sys2Proof/Machine/Mesh.lean: the drawbar mesh: yard streams packed into cells, slots, relays and credits, the
resequencers, drawbar states and rates (06 R201 to R216). -/

namespace Sys2Proof.Machine

/-- A frame's action snapshot as its yard descriptor carries it; the manual gives no layout (06 R202) (log 75). -/
opaque Config.yardDesc : Acts → List Byte

/-- The tag of an express slot: its streams, the first and last slot of each, the guard results due; the manual gives no layout (06 R202)
(log 75). -/
opaque Config.expressTag : List (Nat × Bool × Bool × Option Bool) → List Byte

/-! ### Intermediates (06 R205, R208) -/

/-- Whether a drawbar pair is left out since the last slot-epoch boundary. -/
def pairOut (x : Mod) (a b : Nat) : Bool := a != b && x.mesh.pairsOut.contains (pairOf a b)

/-- The intermediates of source `s` for destination `d`. -/
def interList (x : Mod) (s d : Nat) : List Nat :=
  (s :: (List.range 8).filter (· != s)).filter (fun i =>
    !(x.mesh.unusable.contains i) && !pairOut x s i && (i == d || !pairOut x i d))

/-- The intermediate of cell `k` toward `d`, if any. -/
def interOf (x : Mod) (s d k : Nat) : Option Nat :=
  let l := interList x s d
  if l = [] then none else l[(k + d) % l.length]?

/-- Changes the stage-one cells of a source for an intermediate. -/
def setS1 (s i : Nat) (g : List YardCell → List YardCell) (x : Mod) : Mod :=
  { x with mesh := { x.mesh with s1 := x.mesh.s1.upd (s, i) g } }

/-- Changes the stage-two cells of a shed for a destination. -/
def setS2 (s d : Nat) (g : List YardCell → List YardCell) (x : Mod) : Mod :=
  { x with mesh := { x.mesh with s2 := x.mesh.s2.upd (s, d) g } }

/-! ### Packing (06 R202) -/

/-- The yard descriptor of a frame: 24 bytes, or 40 with a multicast membership. -/
def descSize (x : Mod) (f : Nat) : Nat :=
  match (frame? x f).bind (·.guard) with
  | some g => if g.mcast then 40 else 24
  | none => 24

/-- Payload bytes of a cell in use. -/
def cellFill (x : Mod) (c : YardCell) : Nat :=
  c.parts.foldl (fun a p => a + p.bytes + (if p.starts then descSize x p.frame else 0)) 0

/-- The intermediate at which the newest cell toward `d` still waits, with that cell. -/
def openCell (x : Mod) (s d : Nat) : Option (Nat × YardCell) :=
  let q := x.mesh.seqs.get (s, d) - 1
  (List.range 8).findSome? (fun i => ((x.mesh.s1.get (s, i)).find? (fun c => c.dst == d && c.seq == q)).map (fun c => (i, c)))

/-- A part joins those of a cell: bytes of the frame that the cell ends with, which follow on, are added to its part. -/
def joinPart (l : List CellPart) (p : CellPart) : List CellPart :=
  match l.getLast? with
  | some o =>
    if o.frame = p.frame && !o.ends && !p.starts then l.dropLast ++ [{ o with bytes := o.bytes + p.bytes, ends := p.ends }] else l ++ [p]
  | none => [p]

/-- A part enters the newest waiting cell toward `d`, or a new one; false when no intermediate leads there. -/
def placePart (s d : Nat) (fresh : Bool) (p : CellPart) (x : Mod) : Bool × Mod :=
  match (if fresh then none else openCell x s d) with
  | some (i, c) =>
    (true, setS1 s i (fun l => l.map (fun k => if k.dst = d && k.seq = c.seq then { k with parts := joinPart k.parts p } else k)) x)
  | none =>
    let k := x.mesh.seqs.get (s, d)
    match interOf x s d k.toNat with
    | none => (false, x)
    | some i =>
      let c : YardCell := { stage := 1, src := s, dst := d, int := i, seq := k, parts := [p], creditCells := 0, creditDst := 0 }
      (true, setS1 s i (· ++ [c]) { x with mesh := { x.mesh with seqs := x.mesh.seqs.set (s, d) (k + 1) } })

/-- `n` bytes of a frame from `off` on are packed, `last` that its end is among them: how many were, and the module; `fuel` bounds the
cells. -/
def packBytes (s d f : Nat) (last : Bool) (off : Nat) : Nat → Bool → Nat → Mod → Nat × Mod
  | 0, _, _, x => (0, x)
  | fuel + 1, starts, n, x =>
    let desc := if starts then descSize x f else 0
    let room := match openCell x s d with
      | some (_, c) => 484 - cellFill x c
      | none => 0
    let fresh := room < desc + 1
    let take := min n ((if fresh then 484 else room) - desc)
    let p : CellPart := { frame := f, off := off, bytes := take, starts := starts, ends := last && take == n }
    match placePart s d fresh p x with
    | (false, x1) => (0, x1)
    | (true, x1) =>
      if take = n then (take, x1)
      else
        let r := packBytes s d f last (off + take) fuel false (n - take) x1
        (take + r.1, r.2)

/-- Changes the streams of a source for a destination. -/
def setStreams (s d : Nat) (g : List Strm → List Strm) (x : Mod) : Mod :=
  { x with mesh := { x.mesh with streams := x.mesh.streams.upd (s, d) g } }

/-- Whether a stream's copy is still wanted. -/
def streamLives (x : Mod) (m : Strm) : Bool :=
  match (frame? x m.f).bind (·.copy? m.c) with
  | some c => c.st != .done
  | none => false

/-- Loft credit that was taken for a stream that never begins is whole again. -/
def payBack (s d n : Nat) (x : Mod) : Mod := { x with mesh := { x.mesh with lcredit := x.mesh.lcredit.upd (s, d) (· + n) } }

/-- The streams of `s` for `d`, oldest first, are packed as far as their bytes have arrived and Loft credit allows (06 R206). A
stream whose copy is gone ends where it stands. -/
def packStreams (s d : Nat) : Nat → Mod → Mod
  | 0, x => x
  | n + 1, x =>
    match x.mesh.streams.get (s, d) with
    | [] => x
    | m :: t =>
      let len := match frame? x m.f with
        | some fr => fr.bytes.length
        | none => 0
      if !streamLives x m then
        if m.packed = 0 then packStreams s d n (setStreams s d (fun _ => t) (if m.paid then payBack s d (cellsFor len) x else x))
        else
          let r := packBytes s d m.f true m.packed 1 false 0 x
          packStreams s d n (setStreams s d (fun _ => t) r.2)
      else
        let need := cellsFor len
        if !m.paid && x.mesh.lcredit.get (s, d) < need then x
        else
          let x1 := if m.paid then x
            else crossCells s m.f m.c need (fun i => some (xbarHalf (halfToward s d) i))
              { x with mesh := { x.mesh with lcredit := x.mesh.lcredit.upd (s, d) (· - need) } }
          let have_ := match frame? x1 m.f with
            | some fr => arrivedBytes x1 fr
            | none => 0
          if have_ ≤ m.packed then setStreams s d (fun _ => { m with paid := true } :: t) x1
          else
            let r := packBytes s d m.f (have_ == len) m.packed 32 (m.packed == 0) (have_ - m.packed) x1
            let done := m.packed + r.1
            if done = len then packStreams s d n (setStreams s d (fun _ => t) r.2)
            else setStreams s d (fun _ => { m with paid := true, packed := done } :: t) r.2

/-- The stream copy that a frame's last part toward `d` completes is done. -/
def streamSent (s d : Nat) (p : CellPart) (x : Mod) : Mod :=
  if !p.ends then x
  else
    match frame? x p.frame with
    | none => x
    | some fr =>
      match ((List.range fr.copies.length).zip fr.copies).find? (fun e => e.2.kind == .stream d && e.2.st != .done) with
      | some e => finishCopy p.frame e.1 (0x200 + halfToward s d) x
      | none => x

/-- A cell leaves its source's Loft: it is in flight, and the streams that end in it are done. -/
def cellLeaves (s : Nat) (c : YardCell) (x : Mod) : Mod :=
  let x1 := { x with mesh := { x.mesh with flight := x.mesh.flight.upd (s, c.dst) (· ++ [c]) } }
  c.parts.foldl (fun a p => streamSent s c.dst p a) x1

/-- The word of a yard cell in the relay memory of `s`, toward `d`. -/
def relayWord (s d src : Nat) (seq : BitVec 16) (w : EccWord) : Bool := decide (w = .relay s d src seq)

/-- A cell joins the stage-two queue of `s` for its destination, in relay memory (06 R206). -/
def joinS2 (s : Nat) (c : YardCell) (x : Mod) : Mod := setS2 s c.dst (· ++ [c]) (eccWrite (relayWord s c.dst c.src c.seq) x)

/-- Cells that stay local join the stage-two queues while local credits last (06 R205, R206). -/
def localMove (s : Nat) (x : Mod) : Mod :=
  (x.mesh.s1.get (s, s)).foldl (fun a c =>
    if a.mesh.localC.get (s, c.dst) = 0 then a
    else
      let a1 := setS1 s s (fun l => l.filter (fun k => !(k.dst == c.dst && k.seq == c.seq))) a
      let a2 := { a1 with mesh := { a1.mesh with localC := a1.mesh.localC.upd (s, c.dst) (· - 1) } }
      joinS2 s { c with stage := 2 } (cellLeaves s c a2)) x

/-- Everything of `s` that can be packed is. -/
def packAll (s : Nat) (x : Mod) : Mod :=
  localMove s ((List.range 8).foldl (fun a d => if d = s then a else packStreams s d ((a.mesh.streams.get (s, d)).length + 1) a) x)

/-- A frame's yard streams enter the mesh once its copy list is fixed; copies in a quiesced shed are lost, and so is a stream
whose cells cannot be read (06 R218, 17 R518, R526). -/
def takeStreams (f : Nat) (x : Mod) : Mod :=
  match frame? x f with
  | none => x
  | some fr =>
    let s := shedOfPort fr.port
    let x1 := ((List.range fr.copies.length).zip fr.copies).foldl (fun a e =>
      match e.2.kind with
      | .stream d =>
        if e.2.st != .ready then a
        else if shedWorks a d then
          match readCells s f e.1 a with
          | (none, a1) => setStreams s d (· ++ [{ f := f, c := e.1 }]) (setCopy f e.1 (fun k => { k with st := .queued }) a1)
          | (some _, a1) => finishCopy f e.1 (0x200 + halfToward s d) a1
        else finishCopy f e.1 (0x200 + halfToward s d) a
      | _ => if copyHome fr e.2 != s && e.2.st != .done && !shedWorks a (copyHome fr e.2) then finishCopy f e.1 (copyReq e.2) a else a) x
    packAll s x1

/-! ### Drawbar halves -/

/-- Whether a half carries slots. -/
def halfRuns (k : Half) : Bool := k.st == .full || k.st == .halfRate

/-- The length of a slot (06 R201, R215). -/
def slotTime (k : Half) : Nat := if k.st = .halfRate then 1250 else 625

/-- Payload sent by a half in the last `w`. -/
def sentIn (x : Mod) (s h w : Nat) : Nat :=
  (((x.mesh.halves.get (s, h)).sent.filter (fun e => x.now < e.1 + w)).foldl (fun a e => a + e.2) 0)

/-- Cross-shed payload of a shed in the last `w`, the larger of what it sent and received (06 R216). -/
def crossIn (x : Mod) (s w : Nat) : Nat :=
  max ((List.range 7).foldl (fun a h => a + sentIn x s h w) 0)
    ((List.range 7).foldl (fun a h => a + sentIn x (peerOf s h) (halfToward (peerOf s h) s) w) 0)

/-- Credits that a half takes with its next cell. -/
def takeOwed (s p : Nat) (c : YardCell) (x : Mod) : YardCell × Mod :=
  match x.mesh.owed.get (s, p) with
  | [] => (c, x)
  | (d, n) :: t =>
    let k := min n 65535
    ({ c with creditCells := k, creditDst := d },
     { x with mesh := { x.mesh with owed := x.mesh.owed.set (s, p) (if k < n then (d, n - k) :: t else t) } })

/-- A frame's yard descriptor: its action snapshot, of no layout in the manual, and of a multicast frame the membership in shed `d`, bit i
for line port 128 d + i (06 R202, R218). -/
def descBytes (x : Mod) (f d : Nat) : List Byte :=
  match frame? x f with
  | none => zeros 24
  | some fr =>
    let snap := fit 24 (Config.yardDesc (frameActs fr))
    let member (i : Nat) : Bool := fr.copies.any (fun c => c.port == 128 * d + i && (match c.kind with
      | .multicast => true
      | _ => false))
    if descSize x f = 40 then snap ++ leBytes 16 (((List.range 128).map (fun i => flag i (member i))).foldl (· + ·) 0) else snap

/-- The payload of a cell: descriptors and frame bytes. -/
def payloadOf (x : Mod) (c : YardCell) : List Byte :=
  c.parts.flatMap (fun p => (if p.starts then descBytes x p.frame c.dst else [])
    ++ fit p.bytes (((frame? x p.frame).map (fun fr => fr.bytes.drop p.off)).getD []))

/-- FIRST: where the first frame that starts in a cell does, 0x1FF where none does. -/
def firstStart (x : Mod) : Nat → List CellPart → Nat
  | _, [] => 0x1FF
  | n, p :: t => if p.starts then n else firstStart x (n + p.bytes) t

/-- The 500 bytes of a yard cell, its fields little-endian as a register's (06 R202; log 75). -/
def cellBytes (x : Mod) (c : YardCell) : List Byte :=
  let l := leBytes 2 (at_ 14 2 c.stage + at_ 11 3 c.src + at_ 8 3 c.dst + at_ 5 3 c.int) ++ leBytes 2 c.seq.toNat
    ++ leBytes 2 (at_ 0 9 (cellFill x c)) ++ leBytes 2 (at_ 0 9 (firstStart x 0 c.parts))
    ++ leBytes 4 (at_ 0 16 c.creditCells + at_ 16 3 c.creditDst) ++ fit 484 (payloadOf x c)
  l ++ fcsOf l

/-- The cell that 500 bytes are, none where their CRC-32 does not match. -/
def cellOf (c : YardSlot) : Option YardCell :=
  let w := leAt c.bytes 0 2
  let r := leAt c.bytes 8 4
  if fcsOf (c.bytes.take 496) = sliceOf c.bytes 496 4 then
    some { stage := bitsOf w 15 14, src := bitsOf w 13 11, dst := bitsOf w 10 8, int := bitsOf w 7 5, seq := BitVec.ofNat 16 (leAt c.bytes 2 2),
           parts := c.parts, creditCells := bitsOf r 15 0, creditDst := bitsOf r 18 16 }
  else none

/-- A half's lanes as a superframe of 65,536 slots leaves them (06 R213). -/
def lanesAt (k : Half) (t : Nat) : List LaneTx :=
  if k.frameNo = t / 65536 then k.lanes else k.lanes.map (fun l => { l with stuffed := 0 })

/-- The 500 bytes of a slot go out over a half's lanes; where a lane has stuffed beyond its reserve, what it carries is corrupt: a free
value in place of the CRC-32 (06 R213). -/
def onLanes (s h : Nat) (l : List Byte) (x : Mod) : List Byte × List (List (List Bool)) × Mod :=
  let k := x.mesh.halves.get (s, h)
  let t := x.now / slotTime k
  let lanes := lanesAt k t
  let bad := overStuffed lanes
  let y := if bad then drawBytes 4 x else (l.drop 496, x)
  let b := l.take 496 ++ y.1
  let r := codeSlot lanes b
  (b, r.2, setHalf s h (fun k => { k with lanes := r.1, frameNo := t / 65536 }) y.2)

/-- A cell goes out over a half. -/
def sendCell (s h : Nat) (c : YardCell) (x : Mod) : Mod :=
  let p := peerOf s h
  let r := takeOwed s p c x
  let n := cellFill x c
  let y := onLanes s h (cellBytes x r.1) r.2
  emit (.yard s h { bytes := y.1, parts := c.parts } y.2.1)
    (setHalf s h (fun k => { k with sent := (x.now, n) :: k.sent.filter (fun e => x.now < e.1 + ms 10) }) y.2.2)

/-! ### Express slots (06 R204, R209) -/

/-- The outriders whose streams hold express capacity of half `h` of shed `s`, reserved before this cycle: one reserved in it takes the
next express slot (06 R204). -/
def expressStreams (x : Mod) (s h : Nat) : List (Nat × Frame × Otr) :=
  (heldFrames x).filterMap (fun e => match e.2.otr with
    | some o => if o.across = some (s, h) && decide (o.start < x.now) && (o.st == .running || o.st == .confirmed)
        && (portSt x o.port).tx.any (fun t => t.f == some e.1 && t.copy.isNone) then some (e.1, e.2, o) else none
    | none => none)

/-- The bytes of a stream in one express slot: 496 at 800 Gb/s, and in proportion below it (06 R209). -/
def expressShare (gbps : Nat) : Nat := 496 * min gbps 800 / 800

/-- What the express slot carries of a stream: the bytes that have arrived since the last one, at most its share; the guard result once it
has fallen due (05 R161). -/
def expressPart (x : Mod) (e : Nat × Frame × Otr) : ExpressPart :=
  let n := min (expressShare e.2.2.gbps) (arrivedBytes x e.2.1 - e.2.2.carried)
  { frame := e.1, first := e.2.2.carried == 0, last := e.2.2.carried + n == e.2.1.bytes.length
    guard := if e.2.1.decided then some (e.2.2.st == .confirmed) else none
    bytes := sliceOf e.2.1.bytes e.2.2.carried n }

/-- An express slot that streams hold: a 4-byte tag, of no layout in the manual, and their bytes. -/
def sendExpress (s h : Nat) (l : List (Nat × Frame × Otr)) (x : Mod) : Mod :=
  let parts := l.map (expressPart x)
  let x1 := (l.zip parts).foldl (fun a e => setFrame e.1.1 (fun r => { r with
    otr := some { e.1.2.2 with carried := e.1.2.2.carried + e.2.bytes.length } }) a) x
  let body := fit 4 (Config.expressTag (parts.map (fun p => (p.frame, p.first, p.last, p.guard)))) ++ fit 496 (parts.flatMap (·.bytes))
  let y := onLanes s h body x1
  emit (.express s h parts y.2.1) (tally (.xbr s h 2) y.2.2)

/-- The stage-one cell that half `h` of `s` could send: to its peer as destination, or as intermediate with a relay credit. -/
def readyS1 (x : Mod) (s p : Nat) : Option YardCell :=
  (x.mesh.s1.get (s, p)).find? (fun c => c.dst == p || decide (0 < x.mesh.credit.get (s, p, c.dst)))

/-- A stage-one cell leaves. -/
def sendS1 (s h : Nat) (c : YardCell) (x : Mod) : Mod :=
  let p := peerOf s h
  let x1 := setS1 s p (fun l => l.filter (fun k => !(k.dst == c.dst && k.seq == c.seq))) x
  let x2 := if c.dst = p then x1 else { x1 with mesh := { x1.mesh with credit := x1.mesh.credit.upd (s, p, c.dst) (· - 1) } }
  sendCell s h c (cellLeaves s c (pcEvt s 0x08 h 1 (tally (.xbr s h 0) x2)))

/-- A stage-two cell leaves its relay, and its credit returns. One whose word holds an uncorrectable error is discarded: its resequencer
misses it (06 R211, 17 R518). -/
def sendS2 (s h : Nat) (c : YardCell) (x : Mod) : Mod :=
  let p := peerOf s h
  let y := eccRead (relayWord s p c.src c.seq) x
  let x1 := setS2 s p (fun l => l.drop 1) y.2
  let x2 := if c.src = s then { x1 with mesh := { x1.mesh with localC := x1.mesh.localC.upd (s, p) (· + 1) } } else oweCredit s c.src p 1 x1
  localMove s (if y.1 then eccWrite (relayWord s p c.src c.seq) x2 else sendCell s h c (tally (.xbr s h 1) x2))

/-- DRAWBAR_SLOT: a slot begins: an express slot that a stream holds, or a cell of stage one or two, by the rotating pointer
(06 R203, R204); with none ready an idle cell, which carries credits that are owed. The last slot of a superframe of 65,536 is idle on
every lane (06 R213; DESIGN CHOICE, log 75). -/
def slotNow (s h : Nat) (x : Mod) : Mod :=
  let k := x.mesh.halves.get (s, h)
  let p := peerOf s h
  let t := x.now / slotTime k
  if !halfRuns k || k.switchAt.isSome || k.lastSlot == some t || !shedWorks x s then x
  else
    let x1 := setHalf s h (fun k => { k with lastSlot := some t }) (packAll s x)
    let held := if t % 8 = h then expressStreams x1 s h else []
    let idle : YardCell := { stage := 0, src := s, dst := p, int := s, seq := 0, parts := [], creditCells := 0, creditDst := 0 }
    if t % 65536 = 65535 then x1
    else if held != [] then sendExpress s h held x1
    else
      let lent (x : Mod) : Mod := if t % 8 = h then pcEvt s 0x09 h 1 (tally (.xbr s h 3) x) else x
      match readyS1 x1 s p, (x1.mesh.s2.get (s, p)).head? with
      | some a, some b =>
        if k.ptr2 then setHalf s h (fun k => { k with ptr2 := false }) (lent (sendS2 s h b x1))
        else setHalf s h (fun k => { k with ptr2 := true }) (lent (sendS1 s h a x1))
      | some a, none => lent (sendS1 s h a x1)
      | none, some b => lent (sendS2 s h b x1)
      | none, none => sendCell s h idle x1

/-! ### Resequencing (06 R210 to R212) -/

/-- Changes a resequencer. -/
def setReseq (s src : Nat) (g : Reseq → Reseq) (x : Mod) : Mod :=
  { x with mesh := { x.mesh with reseq := x.mesh.reseq.upd (s, src) g } }

/-- The copies of a frame that wait for its head in shed `s` are ready, and take their references. -/
def headArrives (s f : Nat) (x : Mod) : Mod :=
  match frame? x f with
  | none => x
  | some fr =>
    let n := (fr.copies.filter (fun c => copyHome fr c == s && c.st != .done)).length
    let x1 := addRefs s f n x
    setFrame f (fun r => { r with copies := r.copies.map (fun c =>
      if copyHome r c = s && c.st = .held && c.orig = none then { c with st := .ready } else c) }) x1

/-- A part of a released cell: a frame's first part stores it in the shed, once, and takes the cells of its Loft credit; the later ones
add to it. A further stream of the frame stores nothing, and its credit returns (06 R206). -/
def takePart (s src : Nat) (x : Mod) (p : CellPart) : Mod :=
  match frame? x p.frame with
  | none => x
  | some fr =>
    let len := fr.bytes.length
    let x1 := if !p.starts then x
      else if (held? x s p.frame).isNone then
        headArrives s p.frame (storeFrame s p.frame 3 fr.port ((fr.guard.map (·.acts.cls)).getD 0) src (cellsFor len) p.bytes x)
      else oweCredit s src s (cellsFor len) x
    let x2 := setHeld s p.frame (fun h => { h with got := min len (h.got + p.bytes), whole := h.whole || p.ends }) x1
    let got := ((held? x2 s p.frame).map (·.got)).getD 0
    settleDesc s p.frame (if p.ends then settleCells s p.frame len x2 else writeCells s p.frame got x2)

/-- A cell is released. -/
def releaseCell (s src : Nat) (c : YardCell) (x : Mod) : Mod :=
  let x1 := { x with mesh := { x.mesh with flight := x.mesh.flight.upd (src, s) (·.filter (fun k => k.seq != c.seq)) } }
  c.parts.foldl (takePart s src) x1

/-- The cells held that follow on are released; `n` bounds them. -/
def drainReseq (s src : Nat) : Nat → Mod → Mod
  | 0, x => x
  | n + 1, x =>
    let r := x.mesh.reseq.get (s, src)
    match r.cells.find? (fun c => c.seq == r.next) with
    | none => x
    | some c =>
      drainReseq s src n (releaseCell s src c (setReseq s src (fun r => { r with
        next := r.next + 1, cells := r.cells.filter (fun k => k.seq != c.seq) }) x))

/-- The timer after the expected number advanced. -/
def restartReseq (s src : Nat) (x : Mod) : Mod :=
  setReseq s src (fun r => { r with timer := if r.cells = [] then none else some x.now }) x

/-- A cell reaches its destination's resequencer; one whose sequence arithmetic fails its residue check twice counts as outside the window
(17 R517). -/
def cellArrives (s : Nat) (c : YardCell) (x_ : Mod) : Mod :=
  let y := residue (.reseq s c.src) 0 x_
  let x := y.2
  let r := x.mesh.reseq.get (s, c.src)
  let d := if y.1 then 2 ^ 15 else (c.seq - r.next).toNat
  if d = 0 then
    let x1 := releaseCell s c.src c (setReseq s c.src (fun r => { r with next := r.next + 1 }) x)
    restartReseq s c.src (drainReseq s c.src 1024 x1)
  else if d < 1024 then
    if r.cells.any (fun k => k.seq == c.seq) then x
    else tally (.xbr s c.src 8) (setReseq s c.src (fun r => { r with cells := r.cells ++ [c], timer := some (r.timer.getD x.now) }) x)
  else if r.lost.contains c.seq then setReseq s c.src (fun r => { r with lost := r.lost.filter (· != c.seq) }) x
  else raise (.shed s) evReseqWindow (tally (.xbr s c.src 12) x)

/-- A copy leaves its queue, if it is there. -/
def unqueue (f c : Nat) (k : Copy) (x : Mod) : Mod :=
  setQue k.port k.queue (fun q => { q with ents := q.ents.filter (fun e => !(e.f == f && e.copy == c)) }) x

/-- A copy whose head has not left is dropped; with a trace, its mirrors and the precise record follow, yard loss as their cause (08 R269,
R275). -/
def loseCopy (f c : Nat) (k : Copy) (trace : Bool) (x : Mod) : Mod :=
  let x1 := unqueue f c k x
  let x2 := match trace, frame? x1 f with
    | true, some fr =>
      let x2 := mirrorsReady f c 8 none x1
      if othersLeft fr c then x2 else preciseRecord f fr (some k) 8 fr.bytes.length none x2
    | _, _ => x1
  finishCopy f c (copyReq k) x2

/-- The copies of a frame in shed `s` end: those in transmission stomped after the bytes at hand, the others dropped. -/
def endCopies (s f got : Nat) (trace : Bool) (x : Mod) : Mod :=
  match frame? x f with
  | none => x
  | some fr =>
    ((List.range fr.copies.length).zip fr.copies).foldl (fun a e =>
      if copyHome fr e.2 != s || e.2.st == .done then a
      else if e.2.st == .sending then
        (if (portSt a e.2.port).tx.any (fun t => t.f == some f && t.copy == some e.1 && !t.stomp) then stompTx e.2.port got a.now a else a)
      else loseCopy f e.1 e.2 trace a) x

/-- A frame has lost bytes on its way to shed `s`: bad there (06 R212); one whose head is lost leaves no trace. -/
def loseFrame (s f : Nat) (x : Mod) : Mod :=
  match held? x s f with
  | none => endCopies s f 0 false x
  | some h => if h.whole || h.bad then x else tally (.xbr s h.src 10) (endCopies s f h.got true (setHeld s f (fun h => { h with bad := true }) x))

/-- The Loft credit of a frame whose head is lost returns: it takes no cell here (06 R206; DESIGN CHOICE, log 39). -/
def loseHead (s src : Nat) (p : CellPart) (x : Mod) : Mod :=
  if p.starts then oweCredit s src s (cellsFor (((frame? x p.frame).map (·.bytes.length)).getD 0)) x else x

/-- Whether the cell that a resequencer misses arrives in this same cycle, among the commands that wait: arrival wins ties (06 R211). -/
def cellComes (s src : Nat) (x : Mod) (l : List Instr) : Bool :=
  l.any (fun c => match c with
    | .yardCellReceive t _ k => t == s && (cellOf k).any (fun c => c.stage != 0 && c.dst == s && c.src == src
        && c.seq == (x.mesh.reseq.get (s, src)).next)
    | _ => false)

/-- RESEQ_TIMEOUT: the missing cell is declared lost. -/
def reseqTimesOut (s src : Nat) (x : Mod) : Mod :=
  let r := x.mesh.reseq.get (s, src)
  match r.timer with
  | none => x
  | some t =>
    if r.cells = [] || !passed x.now t (us (actCfg x).reseq / 4) then x
    else
      let q := r.next
      let lost := ((x.mesh.flight.get (src, s)).filter (fun c => c.seq == q)).flatMap (·.parts)
      let log := x.mesh.reseqLog.get s
      let x1 := setReseq s src (fun r => { r with next := q + 1, lost := (q :: r.lost).take 1024 }) x
      let x2 := { x1 with mesh := { x1.mesh with
        reseqLog := x1.mesh.reseqLog.set s (reg [at_ 29 3 src, at_ 16 13 (fieldOf log 28 16 + 1), at_ 0 16 q.toNat])
        flight := x1.mesh.flight.upd (src, s) (·.filter (fun c => c.seq != q)) } }
      let x3 := raise (.shed s) evReseqLoss (pcEvt s 0x0A src 1 (tally (.xbr s src 9) x2))
      let x4 := lost.foldl (fun a p => loseHead s src p (loseFrame s p.frame a)) x3
      restartReseq s src (drainReseq s src 1024 x4)

/-! ### Receiving (06 R205, R206, R213, R214) -/

/-- Credits that a cell from peer `p` carries: of the peer's own pool they are Loft credit, of another's relay credit. -/
def takeCredit (s p : Nat) (c : YardCell) (x : Mod) : Mod :=
  if c.creditCells = 0 then x
  else if c.creditDst = p then { x with mesh := { x.mesh with lcredit := x.mesh.lcredit.upd (s, p) (· + c.creditCells) } }
  else { x with mesh := { x.mesh with credit := x.mesh.credit.upd (s, p, c.creditDst) (· + c.creditCells) } }

/-- YARD_CELL_RECEIVE: a cell that fails its CRC is discarded and counted; a relayed one waits for stage two; one for this shed goes
to its resequencer. -/
def yardCell (s h : Nat) (slot : YardSlot) (x : Mod) : Mod :=
  let p := peerOf s h
  if !halfRuns (x.mesh.halves.get (s, h)) || !shedWorks x s then x
  else
    match cellOf slot with
    | none =>
      tally (.xbr s h 4) (setHalf s h (fun k => { k with
        crcErr := k.crcErr + 1, crcTimes := x.now :: k.crcTimes.filter (fun t => x.now < t + ms 1) }) x)
    | some c =>
      let x1 := takeCredit s p c x
      if c.stage = 0 then x1
      else if c.dst = s then cellArrives s c x1
      else if c.stage = 1 then joinS2 s { c with stage := 2, creditCells := 0, creditDst := 0 } x1
      else x1

/-! ### Slot epochs (06 R208) -/

/-- The pairs with a half that does not carry slots. -/
def deadPairs (x : Mod) : List Nat :=
  (List.range 28).filter (fun k =>
    let e := shedsOfPair k
    !(halfRuns (x.mesh.halves.get (e.1, halfToward e.1 e.2)) && halfRuns (x.mesh.halves.get (e.2, halfToward e.2 e.1))))

/-- The cells of `s` that wait in stage one are spread anew over the intermediates in force. -/
def respread (s : Nat) (x : Mod) : Mod :=
  let all := (List.range 8).flatMap (fun i => x.mesh.s1.get (s, i))
  let x1 := (List.range 8).foldl (fun a i => setS1 s i (fun _ => []) a) x
  all.foldl (fun a c =>
    match interOf a s c.dst c.seq.toNat with
    | some i => setS1 s i (· ++ [{ c with int := i }]) a
    | none => setS1 s c.int (· ++ [c]) a) x1

/-- SLOT_EPOCH_BOUNDARY: the quiesced sheds and the pairs out of service leave the lists of intermediates, and those back return. -/
def slotEpoch (x : Mod) : Mod :=
  let x1 := { x with mesh := { x.mesh with
    unusable := (List.range 8).filter (fun s => !shedWorks x s), pairsOut := deadPairs x } }
  if x1.mesh.unusable = x.mesh.unusable && x1.mesh.pairsOut = x.mesh.pairsOut then x1
  else (List.range 8).foldl (fun a s => respread s a) x1

/-! ### Drawbar failures, rates and stops (06 R214 to R216) -/

/-- The pair of a half. -/
def halfPair (s h : Nat) : Nat := pairOf s (peerOf s h)

/-- Both halves of a pair. -/
def pairHalves (k : Nat) : List (Nat × Nat) :=
  let e := shedsOfPair k
  [(e.1, halfToward e.1 e.2), (e.2, halfToward e.2 e.1)]

/-- A granted drawbar training begins: the lanes' seeds are drawn (06 R213). -/
def beginDrawbarTraining (k : Nat) (x : Mod) : Mod :=
  (pairHalves k).foldl (fun a h =>
    let y := seedLanes a
    setHalf h.1 h.2 (fun o => { o with
      st := .training, express := 0, switchAt := none, peer := peerOf h.1 h.2, lanes := y.1, frameNo := 0 }) y.2)
    { x with mesh := { x.mesh with retrain := x.mesh.retrain.filter (· != k) } }

/-- Whether a pair is in training. -/
def pairTraining (x : Mod) (k : Nat) : Bool := (pairHalves k).any (fun h => (x.mesh.halves.get h).st == .training)

/-- Whether a pair is training or waits for leave. -/
def pairUnderWay (x : Mod) (k : Nat) : Bool := pairTraining x k || x.pwr.queue.any (fun q => q.op == 3 && q.unit == k)

/-- Whether a pair is training, or waits for leave or for a place among the four of its sheds. -/
def pairBusy (x : Mod) (k : Nat) : Bool := pairUnderWay x k || x.mesh.retrain.contains k

/-- Whether a shed has four drawbars in training, those that wait for leave among them (06 R214). -/
def trainingFull (x : Mod) (s : Nat) : Bool :=
  4 ≤ ((List.range 8).filter (fun p => p != s && pairUnderWay x (pairOf s p))).length

/-- Training of a pair is asked for: at most four drawbars of a shed train at a time, and further ones wait (06 R214). -/
def askPair (k : Nat) (x : Mod) : Mod :=
  if pairUnderWay x k then x
  else if trainingFull x (shedsOfPair k).1 || trainingFull x (shedsOfPair k).2 then
    { x with mesh := { x.mesh with retrain := x.mesh.retrain.filter (· != k) ++ [k] } }
  else
    match askLeave 3 k none x with
    | (.granted _, x1) => beginDrawbarTraining k x1
    | (_, x1) => x1

/-- The pairs that wait for a place are asked for, first come first (06 R214). -/
def serveRetrain (x : Mod) : Mod :=
  x.mesh.retrain.foldl (fun a k => askPair k { a with mesh := { a.mesh with retrain := a.mesh.retrain.filter (· != k) } }) x

/-- A direction is taken out of service: raised in both sheds concerned (01 R27), and retrained under leave. -/
def drawbarOut (s h : Nat) (x : Mod) : Mod :=
  let x1 := setHalf s h (fun k => { k with st := .outOfService, express := 0, switchAt := none }) x
  raise (.shed (peerOf s h)) evDrawbarDown (raise (.shed s) evDrawbarDown (askPair (halfPair s h) x1))

/-- DRAWBAR_CRC_LIMIT: more than 64 cells failed their CRC within 1 ms. -/
def crcLimit (s h : Nat) (x : Mod) : Mod :=
  let k := x.mesh.halves.get (s, h)
  if halfRuns k && 64 < (k.crcTimes.filter (fun t => x.now < t + ms 1)).length then drawbarOut s h x else x

/-- HITCH_CLOCK_LOCK_LOSS. -/
def clockLoss (s h : Nat) (x : Mod) : Mod := if halfRuns (x.mesh.halves.get (s, h)) then drawbarOut s h x else x

/-- DRAWBAR_TRAINING_DONE: the pair runs at full rate, its lanes' calibration is saved, and its leave is released (06 R214). -/
def trainingDone (k : Nat) (x : Mod) : Mod :=
  if !pairTraining x k then x
  else
    releaseGrant 3 k ((pairHalves k).foldl (fun a h => setHalf h.1 h.2 (fun o => { o with
      st := .full, fails := 0, gaveUp := false, crcTimes := [], lightAt := some x.now, cal := true }) a) x)

/-- HALF_RATE_ENTER: mesh payload below 1.2 Tb/s and no express stream for 100 us. -/
def enterHalfRate (s h : Nat) (x : Mod) : Mod :=
  let k := x.mesh.halves.get (s, h)
  let quiet := match k.lightAt with
    | some t => passed x.now t (us 100)
    | none => false
  if k.st = .full && k.express = 0 && quiet && k.switchAt.isNone && sentIn x s h (us 100) < 15000000 then
    tally (.xbr s h 5) (setHalf s h (fun k => { k with st := .halfRate, switchAt := some x.now, wantFull := false }) x)
  else x

/-- HALF_RATE_RETURN: mesh payload above 2.4 Tb/s over the last 1 us, or an express request (05 R163). -/
def leaveHalfRate (s h : Nat) (x : Mod) : Mod :=
  let k := x.mesh.halves.get (s, h)
  if k.st = .halfRate && k.switchAt.isNone && (k.wantFull || decide (300000 < sentIn x s h (us 1))) then
    setHalf s h (fun k => { k with st := .full, switchAt := some x.now, wantFull := false, lightAt := some x.now }) x
  else x

/-- RATE_SWITCH_OVER_END: 200 ns have passed. -/
def switchOverEnds (s h : Nat) (x : Mod) : Mod :=
  match (x.mesh.halves.get (s, h)).switchAt with
  | some t => if passed x.now t 200000 then setHalf s h (fun k => { k with switchAt := none }) x else x
  | none => x

/-- Whether a half may be stopped under light load (06 R216): no other pair of either shed is out of service, and its own runs at half rate
both ways, or is out because the peer has stopped its half. -/
def halfMayStop (x : Mod) (s h : Nat) : Bool :=
  let p := peerOf s h
  let k := halfPair s h
  let of_ (t : Nat) : List Nat := ((List.range 8).filter (· != t)).map (pairOf t)
  let peerOut := (x.mesh.halves.get (p, halfToward p s)).st == .stopped
  (peerOut || (pairHalves k).all (fun e => (x.mesh.halves.get e).st == .halfRate))
    && (of_ s ++ of_ p).all (fun j => j == k || !(deadPairs x).contains j)
    && decide (crossIn x s (ms 10) ≤ 4000000000) && decide (crossIn x p (ms 10) ≤ 4000000000) && decide (ms 10 ≤ x.now)

/-- Whether some destination of a shed has no intermediate (06 R208). -/
def someUnreachable (x : Mod) (s : Nat) : Bool :=
  (List.range 8).any (fun d => d != s && shedWorks x d && (interList x s d).isEmpty)

/-- Whether a stopped pair is to be woken: more than 6.4 Tb/s, or a destination without a path (06 R216). -/
def halfMustWake (x : Mod) (s h : Nat) : Bool :=
  let p := peerOf s h
  decide (800000 < crossIn x s (us 1)) || decide (800000 < crossIn x p (us 1)) || someUnreachable x s || someUnreachable x p

/-! ### The commands -/

/-- FRAME_END. -/
def execFrameEnd (f : Nat) (errBlock : Bool) (st : State) : Host.Outcome State Fault Refusal :=
  cmd (.frameEnd f errBlock) (fun x => takeStreams f (frameEnds f errBlock x)) st

/-- GUARD_RESULT. -/
def execGuardResult (f : Nat) (st : State) : Host.Outcome State Fault Refusal :=
  cmd (.guardResult f) (fun x => takeStreams f (guardNow f x)) st

/-- GUARD_REVISION. -/
def execGuardRevision (f : Nat) (st : State) : Host.Outcome State Fault Refusal :=
  cmd (.guardRevision f) (fun x => takeStreams f (guardRevise f x)) st

/-- YARD_CELL_RECEIVE. -/
def execYardCellReceive (s h : Nat) (cell : YardSlot) (st : State) : Host.Outcome State Fault Refusal :=
  cmd (.yardCellReceive s h cell) (yardCell s h cell) st

/-- RESEQ_TIMEOUT. -/
def execReseqTimeout (s src : Nat) (st : State) : Host.Outcome State Fault Refusal :=
  cmd (.reseqTimeout s src) (fun x => if cellComes s src x st.pending then x else reseqTimesOut s src x) st

/-- SLOT_EPOCH_BOUNDARY. -/
def execSlotEpochBoundary (st : State) : Host.Outcome State Fault Refusal :=
  cmd (.slotEpochBoundary) (slotEpoch) st

/-- DRAWBAR_CRC_LIMIT. -/
def execDrawbarCrcLimit (s h : Nat) (st : State) : Host.Outcome State Fault Refusal :=
  cmd (.drawbarCrcLimit s h) (crcLimit s h) st

/-- HITCH_CLOCK_LOCK_LOSS. -/
def execHitchClockLockLoss (s h : Nat) (st : State) : Host.Outcome State Fault Refusal :=
  cmd (.hitchClockLockLoss s h) (clockLoss s h) st

/-- HALF_RATE_ENTER. -/
def execHalfRateEnter (s h : Nat) (st : State) : Host.Outcome State Fault Refusal :=
  cmd (.halfRateEnter s h) (enterHalfRate s h) st

/-- HALF_RATE_RETURN. -/
def execHalfRateReturn (s h : Nat) (st : State) : Host.Outcome State Fault Refusal :=
  cmd (.halfRateReturn s h) (leaveHalfRate s h) st

/-- RATE_SWITCH_OVER_END. -/
def execRateSwitchOverEnd (s h : Nat) (st : State) : Host.Outcome State Fault Refusal :=
  cmd (.rateSwitchOverEnd s h) (switchOverEnds s h) st

/-- DRAWBAR_SLOT. -/
def execDrawbarSlot (s h : Nat) (st : State) : Host.Outcome State Fault Refusal :=
  cmd (.drawbarSlot s h) (slotNow s h) st

end Sys2Proof.Machine
end

