-- ==== Sys2Proof/Machine/Yardmaster.lean ====
section
/-! DEFINITION. Sys2Proof/Machine/Yardmaster.lean: stops and wakes of domains, the wake table, inlets and shedding, thermal
limits (16). -/

namespace Sys2Proof.Machine

/-! ### Stopping (16 R484 to R487) -/

/-- Whether a requester may ask for a stop of a domain at all (16 R484). -/
def mayAsk (x : Mod) (by_ : StopBy) (d : Nat) : Bool :=
  match by_ with
  | .loft => 256 ≤ d && d < 352
  | .drawbar => 352 ≤ d && d < 408
  | .firmware => (d < 128 && !stallConfigured x d) || (128 ≤ d && d < 256 && !stallConfigured x (d - 128))
      || (x.mode.mode == .cold && d != 424)
  | .yardmaster => d < 256
  | .host => x.mode.mode == .diagnostic

/-- Whether the requester's own stop rule holds (06 R197, R216). -/
def ownRuleHolds (x : Mod) (by_ : StopBy) (d : Nat) : Bool :=
  match by_ with
  | .loft => loftBankEmpty x ((d - 256) / 12) ((d - 256) % 12)
  | .drawbar => halfMayStop x ((d - 352) / 7) ((d - 352) % 7)
  | _ => true

/-- Whether a request is exempt from the mode's requirement (01 R33, 16 R484). -/
def stopExempt (x : Mod) (by_ : StopBy) : Bool := by_ == .yardmaster || (by_ == .firmware && x.mode.mode == .cold)

/-- A stop begins, or waits for the step limit (16 R487). -/
def stopOrWait (by_ : StopBy) (d : Nat) (x : Mod) : Mod :=
  if stepFits x (fullLoad d) then beginStop by_ d x
  else { x with pwr := { x.pwr with waits := x.pwr.waits ++ [{ d := d, wake := false, src := 0, by_ := some by_ }] } }

/-- The wake source of a domain that has fired in this very cycle, if one has (16 R486). -/
def firedNow (x : Mod) (d : Nat) : Option Nat :=
  match (x.pwr.doms.get d).fired with
  | some (src, c) => if c = x.cyc then some src else none
  | none => none

/-- The wake source of a domain that is still to fire at this very instant, if one is (16 R486). -/
def wakeComes (st : State) (d : Nat) : Option Nat :=
  st.pending.findSome? (fun c => match c with
    | .domainWakeRequest src e => if e = d then some src else none
    | .drawbarHalfWakeRequest s h => if 352 + 7 * s + h = d && halfMustWake st.mod s h then some 2 else none
    | .diagDomainWake v => if fieldOf v 15 0 = d && st.mod.mode.mode == .diagnostic then some 4 else none
    | _ => none)

/-- A domain is asked to stop: refused with a reason of 16 R497, waiting for the step limit, or STOPPING. A wake source that fires
in the same cycle wins, but over the Yardmaster's own stops. -/
def stopUnless (wake : Option Nat) (by_ : StopBy) (d : Nat) (x : Mod) : Mod :=
  if !mayAsk x by_ d || 447 < d then x
  else
    match domSt x d with
    | .stop => x
    | .stopping => x
    | .waking => if x.pwr.holdup.isSome then refuseStop d 0x12 0 x else refuseStop d 0x06 0 x
    | .run =>
      if x.pwr.holdup.isSome then refuseStop d 0x12 0 x
      else if !stopExempt x by_ && modeRequires x d (some by_) then refuseStop d 0x01 0 x
      else if (domChildren d).any (fun k => domSt x k != .stop) then refuseStop d 0x03 0 x
      else if !ownRuleHolds x by_ d then refuseStop d 0x05 0 x
      else
        match wake.orElse (fun _ => firedNow x d) with
        | some src => if by_ == .yardmaster then stopOrWait by_ d x else refuseStop d 0x02 src x
        | none => stopOrWait by_ d x

/-- A stop asked for with no wake source in sight. -/
def askStop (by_ : StopBy) (d : Nat) (x : Mod) : Mod := stopUnless none by_ d x

/-- A stopped half carries nothing, and takes its pair out of service in both directions (06 R216). -/
def halfStops (s h : Nat) (x : Mod) : Mod :=
  let p := peerOf s h
  let out : Half → Half := fun k => if halfRuns k then { k with st := .outOfService, express := 0, switchAt := none } else k
  setHalf p (halfToward p s) out (setHalf s h (fun k => { k with st := .stopped, express := 0, switchAt := none }) x)

/-- A half woken under light load runs again from its saved calibration, and its pair with it once the peer's half runs; without one
it is trained (06 R214, R216). -/
def halfWakes (s h : Nat) (x : Mod) : Mod :=
  let p := peerOf s h
  let hp := halfToward p s
  let k := pairOf s p
  let saved := (x.mesh.halves.get (s, h)).cal && (x.mesh.halves.get (p, hp)).cal
  let up (t i : Nat) (x : Mod) : Mod := setHalf t i (fun k => { k with st := .full, lightAt := some x.now }) x
  let x1 := setHalf s h (fun k => { k with st := .outOfService }) x
  if !domRuns x (352 + 7 * p + hp) || (x.mesh.halves.get (p, hp)).gaveUp then x1
  else if saved then up s h (up p hp x1)
  else askPair k x1

/-- A shed that wakes counts its drawbars' failed trainings anew (06 R214). -/
def clearFails (s : Nat) (x : Mod) : Mod :=
  (List.range 7).foldl (fun a h =>
    let p := peerOf s h
    let f : Half → Half := fun k => { k with fails := 0, gaveUp := false }
    setHalf p (halfToward p s) f (setHalf s h f a)) x

/-- What a stop loses: a lane group's ports go down, an Ostler group's stores are lost, a drawbar half carries nothing, a shed core
the calibration saved in it (16 R482, R495; 06 R214, R216). -/
def stopEffects (d : Nat) (x : Mod) : Mod :=
  if d < 128 then lanesIdle d x
  else if 416 ≤ d && d < 424 then loseStores (d - 416) x
  else if 352 ≤ d && d < 408 then
    halfStops ((d - 352) / 7) ((d - 352) % 7) x
  else if 408 ≤ d && d < 416 then
    (List.range 7).foldl (fun a h => setHalf (d - 408) h (fun k => { k with cal := false }) a) x
  else x

/-- A stopping domain has drained, and the domains below it have stopped: its clocks stop and it enters STOP; a wake source that fired meanwhile wakes it (16 R485,
R486). -/
def stopDrained (d : Nat) (x : Mod) : Mod :=
  if domSt x d != .stopping || (domChildren d).any (fun k => domSt x k != .stop) then x
  else
    let w := (x.pwr.doms.get d).wakeAft
    let x1 := setDom d (fun o => { o with wakeAft := none }) (stopEffects d (enterStop d x))
    match w with
    | some src => askWake src d x1
    | none => x1

/-- A stop is aborted: the handshakes did not drain in 20 us (reason 0x04), or a wake source fired before the clocks stopped
(reason 0x02), which does not bear on the Yardmaster's own stops (16 R485, R486, R495). -/
def stopAborts (d : Nat) (wake : Option Nat) (x : Mod) : Mod :=
  let o := x.pwr.doms.get d
  if o.st != .stopping then x
  else
    match wake with
    | none =>
      if passed x.now o.since (us 20) then
        logAbort d 0x04 0 (setDom d (fun o => { o with st := .run, since := x.now, by_ := none, wakeAft := none }) x)
      else x
    | some src => if o.by_ = some .yardmaster then x else wakeAborts src d x

/-! ### Waking (16 R483, R486 to R489) -/

/-- A wake source asks for a wake: a drawbar half under 06 R216 first asks for half-wake leave. -/
def wakeSource (src d : Nat) (x : Mod) : Mod :=
  if 447 < d then x
  else if src = 2 && 352 ≤ d && d < 408 && domSt x d == .stop && !hasGrant x 4 (d - 352) then
    match askLeave 4 (d - 352) none x with
    | (.granted _, x1) => askWake src d x1
    | (_, x1) => x1
  else askWake src d x

/-- The straps are sampled when domain 446 wakes (19 R570). -/
def sampleStraps (x : Mod) : Mod :=
  { x with ext := { x.ext with sampled := true, gen4 := x.ext.liveGen4, refclk := x.ext.liveRefclk } }

/-- What the settling of a domain brings with it. -/
def settleEffects (d : Nat) (x : Mod) : Mod :=
  if 416 ≤ d && d < 424 then loadStores (d - 416) x
  else if 256 ≤ d && d < 352 then loftWatch ((d - 256) / 12) x
  else if 352 ≤ d && d < 408 then
    (if hasGrant x 4 (d - 352) then
      releaseGrant 4 (d - 352) (halfWakes ((d - 352) / 7) ((d - 352) % 7) x)
     else x)
  else if 408 ≤ d && d < 416 then clearFails (d - 408) x
  else if 128 ≤ d && d < 256 && (d - 128) % 16 = 15 then releaseGrant 1 ((d - 128) / 16) x
  else if d = 446 then (if x.ext.sampled then x else sampleStraps x)
  else if d = 447 && x.pwr.stage = 3 then { x with pwr := { x.pwr with stage := if x.host.up then 5 else 4, stageAt := x.now } }
  else x

/-- The domains whose parent is `d` and that a wake source asked for meanwhile begin to wake. -/
def wakeChildren (d : Nat) (x : Mod) : Mod :=
  (domChildren d).foldl (fun a k =>
    match (a.pwr.doms.get k).st, (a.pwr.doms.get k).wakeAft with
    | .stop, some src => wakeOrWait src k a
    | _, _ => a) x

/-- A waking domain settles: RUN, counted, its crossings resynchronised, its stop recorded with its end (16 R488, 15 R472,
R475, 09 R295). -/
def wakeSettled (d : Nat) (x : Mod) : Mod :=
  if domSt x d != .waking then x
  else
    let f : Dom → Dom := fun o => { o with
      st := .run, since := x.now, wakeAft := none, stopped := true,
      stops := match o.stops with
        | e :: t => (e.1, x.now) :: t
        | [] => [] }
    wakeChildren d (settleEffects d (resyncDomain d (tally (.pwr 3) (setDom d f x))))

/-- Since when a domain has been in its state. -/
def domSince (x : Mod) (d : Nat) : Nat := (x.pwr.doms.get d).since

/-- Whether the start time of a domain's step of the wake table has come (16 R488, R489). -/
def wakeStepDue (x : Mod) (d : Nat) : Bool :=
  let after (k t : Nat) : Bool := domRuns x k && passed x.now (domSince x k) t
  let psu := if x.pwr.a.good then x.pwr.a.goodAt else x.pwr.b.goodAt
  if domSt x d != .stop || 447 < d then false
  else if d = 424 then x.mode.powered && x.mode.mode == .cold && !x.mode.bootFailed && !x.ext.inReset && x.pwr.holdup.isNone
    && (x.pwr.a.good || x.pwr.b.good) && passed x.now psu (ms 5)
  else if d < 128 then false
  else if d < 256 then after (352 + 7 * ((d - 128) / 16) + 6) (us 500 + us 250 * ((d - 128) % 16))
      && hasGrant x 1 ((d - 128) / 16)
  else if d < 352 then (x.ost.get ((d - 256) / 12)).loaded && after (416 + (d - 256) / 12) (us 100 * ((d - 256) % 12))
      && hasGrant x 1 ((d - 256) / 12)
  else if d < 408 then after (256 + 12 * ((d - 352) / 7) + 11) (us 100 + us 500 * ((d - 352) % 7))
      && hasGrant x 1 ((d - 352) / 7)
  else if d < 416 then domRuns x 447 && ((x.pwr.stage == 6 && passed x.now x.pwr.wAt (ms 2 * (d - 408)))
      || (x.trb.get (d - 408)).st == .returning)
  else if d < 424 then domRuns x (408 + (d - 416)) && hasGrant x 1 (d - 416)
  else if d < 434 then after 424 (us 100 * (d - 425))
  else x.sec.running && passed x.now x.pwr.fwAt (us 100 * (d - 434))

/-- A step of the wake table: its domain begins to wake; a shed core asks for its shed-wake grant first (16 R488, R500). -/
def wakeStep (d : Nat) (x : Mod) : Mod :=
  if !wakeStepDue x d then x
  else if 408 ≤ d && d < 416 && !hasGrant x 1 (d - 408) then
    (if x.pwr.queue.any (fun q => q.op == 1 && q.unit == d - 408) then x
     else
       match askLeave 1 (d - 408) none x with
       | (.granted _, x1) => beginWake d x1
       | (_, x1) => x1)
  else wakeOrWait 0 d x

/-! ### PWR_DIAG_CTL (16 R513) -/

/-- BAR0 offset of PWR_DIAG_CTL. -/
def pwrDiagOff : Nat := 0xE0290

/-- BUSY: the request's domain is waking or stopping, or waits for the step limit. -/
def diagBusy (x : Mod) : Bool :=
  x.pwr.diagBusy && (domSt x x.pwr.diagDom == .waking || domSt x x.pwr.diagDom == .stopping
    || x.pwr.waits.any (fun w => w.d == x.pwr.diagDom))

/-- A write to PWR_DIAG_CTL: Diagnostic only, dropped while BUSY; WAKE and STOP both set do nothing. -/
def diagCtl (v : Word) (x : Mod) : Mod :=
  let d := fieldOf v 15 0
  if x.mode.mode != .diagnostic then logAccess 5 0xF 0 pwrDiagOff x
  else if diagBusy x then logAccess 3 0xF 0 pwrDiagOff x
  else
    let x1 := { x with pwr := { x.pwr with diagDom := d, diagBusy := v.getLsbD 30 != v.getLsbD 29 } }
    if v.getLsbD 30 && !v.getLsbD 29 then wakeSource 4 d x1
    else if v.getLsbD 29 && !v.getLsbD 30 then askStop .host d x1
    else x1

/-! ### Inlets (16 R490, R491, R495, R496, 19 R556) -/

/-- An inlet's state. -/
def inletOf (x : Mod) : Inlet → InletSt
  | .a => x.pwr.a
  | .b => x.pwr.b

/-- Changes an inlet. -/
def setInlet (i : Inlet) (f : InletSt → InletSt) (x : Mod) : Mod :=
  match i with
  | .a => { x with pwr := { x.pwr with a := f x.pwr.a } }
  | .b => { x with pwr := { x.pwr with b := f x.pwr.b } }

/-- Whether telemetry is in range: 85 V to 265 V and 47 Hz to 63 Hz (16 R490). -/
def inRange (dV dHz : Nat) : Bool := 850 ≤ dV && dV ≤ 2650 && 470 ≤ dHz && dHz ≤ 630

/-- An instant kept while a condition holds. -/
def keepSince (now : Nat) (ok : Bool) (o : Option Nat) : Option Nat := if ok then some (o.getD now) else none

/-- Telemetry of a PSU (16 R490); PWR_DRAW is updated (16 R505). -/
def telemetry (i : Inlet) (present : Bool) (dV dHz dW : Nat) (x : Mod) : Mod :=
  let ok := present && inRange dV dHz
  let x1 := setInlet i (fun o => { o with
    present := present, dV := dV, dHz := dHz, dW := dW,
    outSince := keepSince x.now (!ok) o.outSince,
    below180 := keepSince x.now (decide (dV < 1800)) o.below180,
    above185 := keepSince x.now (decide (1850 ≤ dV)) o.above185 }) x
  { x1 with pwr := { x1.pwr with draw := x1.pwr.a.dW + x1.pwr.b.dW } }

/-- Line lane groups in the order of shedding: descending wave, and within a wave descending shed (16 R495). -/
def shedOrder : List Nat :=
  ((List.range 16).reverse).flatMap (fun w => ((List.range 8).reverse).map (fun s => 16 * s + w))

/-- The lane groups of a list stop until what they draw brings `c` to `b`; each counts in PWR_SHED_STOPS. -/
def shedGroups : List Nat → Nat → Nat → Mod → Mod
  | [], _, _, x => x
  | d :: t, c, b, x =>
    if c ≤ b then x
    else if domRuns x d then shedGroups t (c - fullLoad d) b (stopOrWait .yardmaster d (tally (.pwr 7) x))
    else shedGroups t c b x

/-- When C exceeds B the Yardmaster stops line lane groups in its fixed order until C ≤ B (16 R495). -/
def shedLoad (x : Mod) : Mod :=
  if committed x ≤ budget x then x
  else
    let x1 := raise .yard evShedding { x with pwr := { x.pwr with shedding := true } }
    shedGroups shedOrder (committed x) (budget x) x1

/-- When B rises, SHEDDING is cleared and the waves with stopped or untrained groups of configured ports are asked for in
ascending order (16 R496). -/
def budgetRises (x : Mod) : Mod :=
  let want := (List.range 16).filter (fun w => (List.range 8).any (fun s =>
    stallConfigured x (16 * s + w) && (domSt x (16 * s + w) == .stop || x.line.idle.get (16 * s + w))))
  let forward := x.mode.mode == .standalone || x.mode.mode == .paired
  { x with pwr := { x.pwr with shedding := false, waves := if forward then want else x.pwr.waves
                               risen := if forward then want else x.pwr.risen } }

/-- A high-line inlet that has stayed below 180 V for 20 ms enters low line (16 R490, R495). -/
def inletLow (i : Inlet) (x : Mod) : Mod :=
  let o := inletOf x i
  match o.below180 with
  | some t =>
    if o.good && !o.lowLine && passed x.now t (ms 20) then
      let x1 := raise .yard evInletChange (setInlet i (fun o => { o with lowLine := true }) x)
      if budget x1 < committed x1 then shedLoad x1 else x1
    else x
  | none => x

/-- A low-line inlet that has stayed at 185 V or more for 1 s returns to high line (16 R490, R496). -/
def inletHigh (i : Inlet) (x : Mod) : Mod :=
  let o := inletOf x i
  match o.above185 with
  | some t =>
    if o.good && o.lowLine && passed x.now t (sec 1) then
      let x1 := setInlet i (fun o => { o with lowLine := false }) x
      raise .yard evInletChange (if budget x < budget x1 then budgetRises x1 else x1)
    else x
  | none => x

/-! ### Thermal limits (16 R498) -/

/-- The state a reading leads to, each threshold left 5 °C below it; temperatures in 0.125 °C. -/
def thermNext (st t : Nat) : Nat :=
  let entered := if 880 ≤ t then 3 else if 800 ≤ t then 2 else if 760 ≤ t then 1 else 0
  let kept := if 840 ≤ t then 3 else if 760 ≤ t then 2 else if 720 ≤ t then 1 else 0
  max entered (min st kept)

end Sys2Proof.Machine
end

