-- ==== Sys2Proof/Machine/Pairing.lean ====
section
/-! DEFINITION. Sys2Proof/Machine/Pairing.lean: the coupler link, heartbeats, the lease, loss of partner, sync records and the
handover of generation (11). -/

namespace Sys2Proof.Machine

/-- Changes the pairing state. -/
def setCpl (f : Cpl → Cpl) (x : Mod) : Mod := { x with cpl := f x.cpl }

/-- Whether the coupler block runs and the module is past its start. -/
def couplerRuns (x : Mod) : Bool :=
  domRuns x 442 && (match x.mode.mode with
    | .standalone | .paired | .quiesced | .diagnostic => true
    | .cold | .harnessing => false)

/-- Whether a heartbeat path has its link. -/
def pathLinked (x : Mod) : Path → Bool
  | .coupler => x.cpl.link
  | .mgmt => x.ext.mgmtLink

/-- A pairing event, with the pair notification of 12 R392 (log 26). -/
def raisePair (e : Evt) (x : Mod) : Mod :=
  let x1 := raise .yard e x
  notify { kind := 5, level := 0, sev := 0xFF, source := 0, time := x.now / 1000,
           detail := fit 16 (leBytes 2 (evtBits (x1.evts.get (.yard, 17)))) } x1

/-! ### The coupler link (11 R350) -/

/-- The coupler goes down: port 1036 is down, and its frames are dropped (07 R234). -/
def couplerDown (x : Mod) : Mod :=
  if !x.cpl.link then x
  else
    let x1 := flushQueues 1036 1 7 (abortTx 1036 (endCut 1036 (cutReception 1036 x)))
    setCpl (fun c => { c with link := false }) (setPort 1036 (fun _ => {}) x1)

/-- Training of the coupler is asked for under leave. -/
def askCoupler (x : Mod) : Mod :=
  if x.cpl.link || x.cpl.stayDown || x.cpl.training || hasGrant x 9 0 || x.pwr.queue.any (fun q => q.op == 9) then x
  else
    match askLeave 9 0 none x with
    | (.granted _, x1) => setCpl (fun c => { c with training := true }) x1
    | (_, x1) => x1

/-- The mailbox whose PAIR_RESTART, with its leave, waits for the training to end. -/
def pairRestartBox (x : Mod) : Option Nat := findBox (fun _ b => b.began && b.opcode == 0x0060 && b.busy && b.leave == []) x

/-- A PAIR_RESTART in progress ends. -/
def endPairRestart (y : Mod × List Host.Cell) : Mod × List Host.Cell :=
  match pairRestartBox y.1 with
  | some m => complete m stOk [] (dropLeaves m y.1, y.2)
  | none => y

/-- Coupler training completes: the link is up. -/
def couplerTrained (y : Mod × List Host.Cell) : Mod × List Host.Cell :=
  if !y.1.cpl.training then y
  else
    endPairRestart (releaseGrant 9 0 (setPort 1036 (fun s => { s with up := true, idleAt := y.1.now })
      (setCpl (fun c => { c with link := true, training := false, fails := 0 }) y.1)), y.2)

/-- Coupler training fails: tried again under leave, or after three in a row the link stays down. -/
def couplerFails (y : Mod × List Host.Cell) : Mod × List Host.Cell :=
  let x := y.1
  if !x.cpl.training then y
  else
    let n := x.cpl.fails + 1
    let x1 := setCpl (fun c => { c with training := false, fails := n, stayDown := decide (3 ≤ n) }) x
    if 3 ≤ n then endPairRestart (releaseGrant 9 0 x1, y.2)
    else if (pairRestartBox x).isSome then (setCpl (fun c => { c with training := true }) x1, y.2)
    else (askCoupler (releaseGrant 9 0 x1), y.2)

/-- CRC failures or a lost clock lane take the link down; the module retrains it under leave. -/
def couplerLost (x : Mod) : Mod := if x.cpl.link then askCoupler (couplerDown x) else x

/-- The coupler is retrained for a PAIR_RESTART that has its leave; a training of the module's own, or its request for one, ends. -/
def retrainCoupler (x : Mod) : Mod :=
  let own (op : Nat) (mbx : Option Nat) : Bool := op == 9 && mbx.isNone
  let x1 := couplerDown x
  setCpl (fun c => { c with training := true, stayDown := false, fails := 0 }) { x1 with pwr := { x1.pwr with
    grants := x1.pwr.grants.filter (fun g => !own g.op g.mbx)
    queue := x1.pwr.queue.filter (fun q => !own q.op q.mbx) } }

/-- PAIR_RESTART (12 R401): the coupler is retrained under leave; refused, nothing has changed (12 R389). -/
def pairRestartCmd (m : Nat) (b : Mailbox) (y : Mod × List Host.Cell) : Mod × List Host.Cell :=
  let x := y.1
  if b.len ≠ 0 then fail m stInvalid y
  else if !(x.mode.mode == .standalone || x.mode.mode == .paired) then fail m stWrongMode y
  else
    underLeave m 9 [0] (fun z => (retrainCoupler z.1, z.2)) y

/-! ### The lease (11 R356 to R361) -/

/-- LEASE in picoseconds. -/
def leaseTime (x : Mod) : Nat := ms (pairOf_ x).leaseMs

/-- Whether this module is the elected one: the higher PRIORITY, and between equals ROLE 0. -/
def elected (x : Mod) (p : Partner) : Bool :=
  p.prio < (pairOf_ x).prio || (p.prio == (pairOf_ x).prio && (pairOf_ x).role == 0)

/-- Whether the current lease has ended in this module's own view. -/
def leaseEnded (x : Mod) : Bool :=
  if x.cpl.holder || x.cpl.ownLease then x.cpl.ownEnd ≤ x.now
  else match x.cpl.viewEnd with
    | some t => t ≤ x.now
    | none => false

/-- Whether this module may take the reins now (11 R359): at pairing the elected module, later the one whose partner's lease has
reached its view end. -/
def mayTake (x : Mod) : Bool :=
  x.mode.mode == .paired && x.dax.up && !x.cpl.holder && !x.cpl.stopRenew && x.pwr.holdup.isNone &&
  match x.cpl.partner with
  | none => false
  | some p => !p.holder && (match x.cpl.viewEnd with
      | some t => t ≤ x.now
      | none => !x.cpl.ownLease && elected x p)

/-- The module takes the reins when it may. -/
def tryTake (x : Mod) : Mod :=
  if mayTake x then
    raisePair evReinsTaken (tally (.cpl 5) (setCpl (fun c => { c with
      holder := true, ownLease := true, leaseNum := c.leaseNum + 1, ownEnd := x.now + leaseTime x, renewDue := x.now
      viewEnd := none, sent := [] }) x))
  else x

/-! ### Loss of partner (11 R355, R363) -/

/-- The stream records of the lowest working shed's replica that generate. -/
def genRecords (x : Mod) : List (List Byte) :=
  ((x.tbl.ents.get (lowestShed x, 0x0E)).map (·.dat)).filter (fun r => bitOf (leAt r 2 1) 0)

/-- Generation of the partner's handles is taken over: each continues 32 past the highest sequence received, or at 0. A handle
this module still generates goes on (11 R364). -/
def takeOver (x : Mod) : Mod :=
  (genRecords x).foldl (fun a r =>
    let h := leAt r 0 2
    let g := a.cpl.gens.get h
    if leAt r 3 1 % 2 = (pairOf_ x).role then a
    else if g.keeps then setGen h (fun g => { g with keeps := false, sentAt := none }) a
    else tally (.cpl 11) (setGen h (fun g => { g with next := match g.partnerMax with
      | some q => q + 32
      | none => 0 }) a)) x

/-- The entries learned over the coupler go, and the other synced entries age from now on. -/
def forgetPartner (x : Mod) : Mod :=
  let l := (x.tbl.ents.get (lowestShed x, 1)).filter (fun e => !isStatic e.dat)
  l.foldl (fun a e =>
    if leAt e.dat 8 4 = 1036 then removeL2 (keyHome a e.key) 3 e none a
    else if (metaOf a e.key).synced then setMeta e.key (fun m => { m with hit := ageTick a }) a else a) x

/-- Sync records and resyncs end with the pair. -/
def endSync (x : Mod) : Mod :=
  setCpl (fun c => { c with unsent := [], unacked := [], resyncOut := false, resyncIn := false, resyncSeen := [] })
    (releaseGrant 10 0 { x with pwr := { x.pwr with queue := x.pwr.queue.filter (fun q => q.op != 10) } })

/-- Loss of partner (11 R355). In the drain toward Quiesced the module enters Quiesced all the same, and the event is still logged
(01 R28). -/
def partnerLost (x : Mod) : Mod :=
  let from' : Nat := if x.cpl.holder || x.cpl.ownLease then x.cpl.ownEnd else x.cpl.viewEnd.getD x.now
  let x1 := if x.mode.drainEnd.isSome then x else enterMode .standalone 5 x
  let x2 := raisePair evPartnerLost (setCpl (fun c => { c with
    consec := 0, stewardFrom := some from', stopRenew := true, keyDiffs := 0, mismatch := none }) x1)
  takeOver (flushQueues 1036 1 7 (forgetPartner (endSync x2)))

/-- Whether a path is lost. -/
def pathIsLost (x : Mod) (p : Path) : Bool := !(x.cpl.paths.get p).up

/-- Loss of partner is declared where R355 says so. -/
def lossCheck (x : Mod) : Mod :=
  let a := pathIsLost x .coupler
  let b := pathIsLost x .mgmt
  if x.mode.mode == .paired && ((a && b) || ((a || b) && leaseEnded x)) then partnerLost x else x

/-- 3 ms pass with no valid heartbeat on a path (11 R354). -/
def pathLoses (p : Path) (x : Mod) : Mod :=
  let s := x.cpl.paths.get p
  match s.lastRx with
  | some t =>
    if s.up && passed x.now t (ms 3) then
      lossCheck (raisePair evPathLost (setCpl (fun c => { c with
        paths := c.paths.upd p (fun s => { s with up := false })
        consec := match p with
          | .coupler => 0
          | .mgmt => c.consec }) x))
    else x
  | none => x

/-- Whether a heartbeat is valid (11 R354). -/
def heartbeatValid (x : Mod) (p : Path) (l : List Byte) : Bool :=
  leAt l 1 1 == 4 && (leAt l 2 1 / 16 % 2 != (pairOf_ x).role) && (match (x.cpl.paths.get p).rxSeq with
    | some q => serialNewer (BitVec.ofNat 32 (leAt l 4 4)) q
    | none => true)

/-- Whether a valid heartbeat of a path is among the commands of this instant that wait: arrival wins ties (11 R354). -/
def heartComes (p : Path) (x : Mod) (l : List Instr) : Bool :=
  l.any (fun c => match c with
    | .heartbeatReceive q b => q == p && heartbeatValid x p b
    | _ => false)

/-- The holder's own lease end passes: it gives the reins up (11 R358). -/
def leaseEnds (x : Mod) : Mod :=
  if x.cpl.holder && decide (x.cpl.ownEnd ≤ x.now) then
    lossCheck (raisePair evReinsLost (tally (.cpl 6) (setCpl (fun c => { c with holder := false, stopRenew := false }) x)))
  else x

/-- The partner's lease ends in this module's view (11 R355, R359). -/
def leaseViewEnds (x : Mod) : Mod :=
  match x.cpl.viewEnd with
  | some t => if t ≤ x.now then tryTake (lossCheck x) else x
  | none => x

/-! ### Heartbeats (11 R351 to R354) -/

/-- The sequence of the ACTIVE bank and its digest. -/
def activePair (x : Mod) : Word × Digest :=
  match x.tt.active with
  | some b => ((x.tt.banks.get b).seq, (x.tt.banks.get b).digest)
  | none => (0, 0)

/-- QUIET: no L2 learn, move or delete committed in the last 10 ms. -/
def quietNow (x : Mod) : Bool :=
  match x.cpl.lastL2 with
  | some t => passed x.now t (ms 10)
  | none => true

/-- The latest journal index. -/
def journalIndex (x : Mod) : Word := BitVec.ofNat 32 x.tbl.jNext - 1

/-- A heartbeat's bytes (11 R353); under version 4.0 it ends before KEY_DIGEST. -/
def heartbeatBytes (x : Mod) (p : Path) : List Byte :=
  let c := x.cpl
  let k := pairOf_ x
  let flags := flag 0 (p == .mgmt) + flag 1 x.pwr.holdup.isSome + flag 2 c.holder + flag 3 (activationOn x)
    + at_ 4 1 k.role + flag 5 (quietNow x)
  let a := activePair x
  [1, 4, BitVec.ofNat 8 flags, BitVec.ofNat 8 x.mode.mode.code] ++ leBytes 4 ((c.paths.get p).txSeq + 1).toNat
    ++ leBytes 4 c.leaseNum.toNat ++ leBytes 4 (if c.holder then c.renewSeq.toNat else 0) ++ leBytes 4 c.rxRenew.toNat
    ++ [BitVec.ofNat 8 k.prio, 0, 0, 0] ++ leBytes 4 a.1.toNat ++ leBytes 4 (journalIndex x).toNat
    ++ leBytes 4 c.syncSeq.toNat ++ leBytes 4 c.syncAck.toNat ++ zeros 8 ++ digestBytes a.2 ++ digestBytes x.tbl.editDig
    ++ digestBytes (learnedDigest x) ++ (if c.negMinor = some 0 then [] else digestBytes (keyDigest x))

/-- A heartbeat goes out on a path. -/
def sendHeartbeat (p : Path) (x : Mod) : Mod :=
  emit (.heartbeat p (heartbeatBytes x p)) (setCpl (fun c => { c with
    paths := c.paths.upd p (fun s => { s with txSeq := s.txSeq + 1, txLast := some x.now }) }) x)

/-- HEARTBEAT_SEND: every 1 ms on a path with its link, while pairing is enabled. -/
def heartbeatDue (x : Mod) (p : Path) : Bool :=
  couplerRuns x && (pairOf_ x).enabled && pathLinked x p && (match (x.cpl.paths.get p).txLast with
    | some t => passed x.now t (ms 1)
    | none => true)

/-- The holder renews: a new RENEW_SEQ in heartbeats on both paths (11 R357). -/
def renewLease (x : Mod) : Mod :=
  if x.cpl.holder && x.dax.up && !x.cpl.stopRenew && x.mode.mode == .paired && decide (x.cpl.renewDue ≤ x.now) && decide (x.now < x.cpl.ownEnd) then
    let x1 := tally (.cpl 3) (setCpl (fun c => { c with
      renewSeq := c.renewSeq + 1, sent := c.sent ++ [(c.renewSeq + 1, x.now)], renewDue := c.renewDue + ms (pairOf_ x).renewMs }) x)
    [Path.coupler, Path.mgmt].foldl (fun a p => if pathLinked a p then sendHeartbeat p a else a) x1
  else x

/-- What a heartbeat says of its sender. -/
def partnerOf (l : List Byte) : Partner :=
  let fl := leAt l 2 1
  { mode := leAt l 3 1 % 16, minor := leAt l 0 1, dying := bitOf fl 1, holder := bitOf fl 2, activating := bitOf fl 3
    role := fl / 16 % 2, quiet := bitOf fl 5, leaseNum := BitVec.ofNat 32 (leAt l 8 4), renewSeq := BitVec.ofNat 32 (leAt l 0x0C 4)
    prio := leAt l 0x14 1, ttSeq := BitVec.ofNat 32 (leAt l 0x18 4), journal := BitVec.ofNat 32 (leAt l 0x1C 4)
    syncSeq := BitVec.ofNat 32 (leAt l 0x20 4), syncAck := BitVec.ofNat 32 (leAt l 0x24 4), ttDigest := digestOf (sliceOf l 0x30 32)
    editDigest := digestOf (sliceOf l 0x50 32), learnDigest := digestOf (sliceOf l 0x70 32), keyDigest := digestOf (sliceOf l 0x90 32) }

/-- An invalid heartbeat: counted, and a partner of another major version or of the same ROLE is refused, which is raised when the
refusal begins (11 R351, R352). -/
def heartbeatRejected (p : Path) (l : List Byte) (x : Mod) : Mod :=
  let why := if leAt l 1 1 ≠ 4 then 1 else if leAt l 2 1 / 16 % 2 = (pairOf_ x).role then 2 else x.cpl.refusal
  let x1 := tally (.cpl 2) (setCpl (fun c => { c with consec := if p == .coupler then 0 else c.consec, refusal := why }) x)
  if why = x.cpl.refusal then x1
  else if why = 1 then raisePair evVersionRefused x1 else raisePair evRoleClash x1

/-- A renewal acknowledged extends the holder's lease to LEASE after it was sent (11 R357). -/
def takeAck (ack : Word) (x : Mod) : Mod :=
  match x.cpl.sent.find? (fun e => e.1 == ack) with
  | some (_, t) =>
    if x.cpl.holder && decide (x.now ≤ x.cpl.ownEnd) then
      tally (.cpl 4) (setCpl (fun c => { c with ownEnd := t + leaseTime x
                                                sent := c.sent.filter (fun e => decide (t < e.2)) }) x)
    else x
  | none => x

/-- Both claim the reins: the higher LEASE_NUM stands, between equals ROLE 0 (11 R359). -/
def bothClaim (p : Partner) (x : Mod) : Mod :=
  if x.cpl.holder && p.holder && (decide (x.cpl.leaseNum < p.leaseNum) || (x.cpl.leaseNum == p.leaseNum && (pairOf_ x).role == 1)) then
    raisePair evReinsClash (tally (.cpl 6) (setCpl (fun c => { c with
      holder := false, ownLease := false, viewEnd := some (x.now + leaseTime x + ms 1) }) x))
  else x

/-- A renewal of the partner's lease arrives: its end in this module's view is LEASE + GUARD later (11 R357). -/
def takeRenewal (p : Partner) (x : Mod) : Mod :=
  let new := p.holder && (serialNewer p.renewSeq x.cpl.rxRenew || decide (x.cpl.leaseNum < p.leaseNum))
  setCpl (fun c => { c with
    viewEnd := if new && !c.holder then some (x.now + leaseTime x + ms 1) else c.viewEnd
    ownLease := if new && !c.holder then false else c.ownLease
    rxRenew := if new then p.renewSeq else c.rxRenew
    leaseNum := if c.leaseNum < p.leaseNum then p.leaseNum else c.leaseNum }) x

/-- The handover records go out at the entry to Paired: one for each handle of the partner that this module gave numbers while not
Paired (11 R364). -/
def sendHandovers (x : Mod) : Mod :=
  (genRecords x).foldl (fun a r =>
    let h := leAt r 0 2
    let g := a.cpl.gens.get h
    if leAt r 3 1 % 2 = (pairOf_ x).role || !g.soloUsed then a
    else emit (.handover h g.next.toNat) (setGen h (fun g => { g with keeps := true, sentAt := some a.now }) a)) x

/-- The module enters Paired (11 R352): 3 valid heartbeats in a row on the coupler path. -/
def enterPaired (p : Partner) (x : Mod) : Mod :=
  let x1 := enterMode .paired 4 (setCpl (fun c => { c with
    negMinor := some (min 1 p.minor), everPaired := true, stopRenew := false, ownLease := c.holder, stewardFrom := none
    viewEnd := match c.viewEnd with
      | some t => if t ≤ x.now then none else some t
      | none => none
    keyDiffs := 0, mismatch := none, mmRaised := false, editRaised := false, learnRaised := false }) x)
  sendHandovers (raisePair evPaired x1)

/-! ### Bulk resync (11 R369) -/

/-- The sync records of every dynamic entry this module learned itself. -/
def ownLearned (x : Mod) : List (List Byte) :=
  ((x.tbl.ents.get (lowestShed x, 1)).filter (fun e => !isStatic e.dat && leAt e.dat 8 4 != 1036 && !(metaOf x e.key).synced)).map
    (fun e => [0, BitVec.ofNat 8 (flag 0 (leAt e.dat 8 4 / 2 ^ 30 == 1 && (pairOf_ x).twinLag.contains (leAt e.dat 8 4 % 2 ^ 30)))]
      ++ leBytes 2 (l2Fid e.key) ++ sliceOf e.key 0 6 ++ zeros 2 ++ leBytes 4 (leAt e.dat 8 4))

/-- The bulk resync begins under its grant. -/
def beginResync (x : Mod) : Mod := setCpl (fun c => { c with unsent := ownLearned x, unacked := [] }) x

/-- A bulk resync of this module's entries is asked for under leave. -/
def askResync (x : Mod) : Mod :=
  if x.cpl.resyncOut then x
  else
    match askLeave 10 0 none (setCpl (fun c => { c with resyncOut := true }) x) with
    | (.granted _, x1) => beginResync x1
    | (.queued _, x1) => x1
    | (.refused _, x1) => setCpl (fun c => { c with resyncOut := false }) x1

/-- The bulk resync ends: RESYNC returns to 0; synced entries that did not come again are gone. -/
def resyncEnds (x : Mod) : Mod :=
  let outOk := !x.cpl.resyncOut || (hasGrant x 10 0 && x.cpl.unsent == [])
  if !(x.cpl.resyncOut || x.cpl.resyncIn) || !outOk then x
  else
    let gone := if x.cpl.resyncIn then (x.tbl.ents.get (lowestShed x, 1)).filter (fun e =>
        !isStatic e.dat && (metaOf x e.key).synced && !x.cpl.resyncSeen.contains e.key) else []
    let x1 := gone.foldl (fun a e => removeL2 (keyHome a e.key) 3 e none a) x
    setCpl (fun c => { c with resyncOut := false, resyncIn := false, resyncSeen := [] }) (releaseGrant 10 0 x1)

/-! ### Comparisons (11 R370, 10 R340) -/

/-- The timetable pairs: since when they differ. -/
def compareTt (p : Partner) (x : Mod) : Mod :=
  if activePair x = (p.ttSeq, p.ttDigest) then setCpl (fun c => { c with mismatch := none, mmRaised := false }) x
  else setCpl (fun c => { c with mismatch := some (c.mismatch.getD x.now) }) x

/-- The edit digests, compared when the journal indices and timetable sequences are equal. -/
def compareEdits (p : Partner) (x : Mod) : Mod :=
  if p.journal ≠ journalIndex x || p.ttSeq ≠ (activePair x).1 then x
  else if p.editDigest = x.tbl.editDig then setCpl (fun c => { c with editRaised := false }) x
  else if x.cpl.editRaised then x
  else raisePair evEditMismatch (setCpl (fun c => { c with editRaised := true }) x)

/-- The key digests: after 3 differences in a row, LEARN_MISMATCH and a bulk resync from both sides. -/
def compareKeys (p : Partner) (x : Mod) : Mod :=
  if x.cpl.negMinor ≠ some 1 || !p.quiet || !quietNow x || x.cpl.syncAck ≠ p.syncSeq || p.syncAck ≠ x.cpl.syncSeq then x
  else if p.keyDigest = keyDigest x then setCpl (fun c => { c with keyDiffs := 0, learnRaised := false }) x
  else
    let x1 := setCpl (fun c => { c with keyDiffs := c.keyDiffs + 1 }) x
    if x1.cpl.keyDiffs < 3 || x.cpl.learnRaised then x1
    else askResync (setCpl (fun c => { c with resyncIn := true, resyncSeen := [] })
      (raisePair evLearnMismatch (setCpl (fun c => { c with learnRaised := true }) x1)))

/-- A valid heartbeat is taken in. -/
def heartbeatTaken (p : Path) (l : List Byte) (x : Mod) : Mod :=
  let q := partnerOf l
  let cplPath := p == .coupler
  let ackd := q.syncAck
  let x1 := tally (.cpl (if cplPath then 0 else 1)) (setCpl (fun c => { c with
    paths := c.paths.upd p (fun s => { s with lastRx := some x.now, up := true, rxSeq := some (BitVec.ofNat 32 (leAt l 4 4)) })
    consec := if cplPath then c.consec + 1 else c.consec
    partner := some q
    refusal := 0
    partnerDying := c.partnerDying && q.dying
    unacked := c.unacked.filter (fun e => serialNewer e.1 ackd) }) x)
  let x2 := takeRenewal q (takeAck (BitVec.ofNat 32 (leAt l 0x10 4)) (bothClaim q x1))
  let x3 := if cplPath && 3 ≤ x2.cpl.consec && x2.mode.mode == .standalone && !inTransition x2 && (pairOf_ x2).enabled then
      enterPaired q x2 else x2
  if x3.mode.mode == .paired then tryTake (compareKeys q (compareEdits q (compareTt q x3))) else x3

/-- A heartbeat arrives and is judged. -/
def heartbeatArrives (p : Path) (l : List Byte) (x : Mod) : Mod :=
  if !couplerRuns x || !(pairOf_ x).enabled || !pathLinked x p then x
  else if heartbeatValid x p l then heartbeatTaken p l x else heartbeatRejected p l x

/-- A dying gasp arrives (11 R372). -/
def gaspArrives (p : Path) (x : Mod) : Mod :=
  if !couplerRuns x || !pathLinked x p then x
  else raisePair evPartnerDying (setCpl (fun c => { c with partnerDying := true }) x)

/-- REINS_HANDOVER (11 R358): the holder stops renewing. -/
def reinsHandoverCmd (m : Nat) (b : Mailbox) (y : Mod × List Host.Cell) : Mod × List Host.Cell :=
  let x := y.1
  if b.len ≠ 0 then fail m stInvalid y
  else if !(x.mode.mode == .standalone || x.mode.mode == .paired) then fail m stWrongMode y
  else complete m stOk [BitVec.ofNat 8 (flag 0 x.cpl.holder)]
    (if x.cpl.holder then setCpl (fun c => { c with stopRenew := true }) x else x, y.2)

/-! ### Sync records (11 R368, R369) -/

/-- The next sync record goes to the partner; beyond 65,536 not acknowledged a bulk resync runs. -/
def sendSync (x : Mod) : Mod :=
  if x.mode.mode != .paired || !x.cpl.link || !couplerRuns x || !x.dax.up then x
  else
    match x.cpl.unsent with
    | [] => x
    | r :: t =>
      let seq := x.cpl.syncSeq + 1
      let x1 := emit (.sync (leBytes 4 seq.toNat ++ r)) (tally (.cpl 8) (setCpl (fun c => { c with
        unsent := t, syncSeq := seq, unacked := c.unacked ++ [(seq, r)] }) x))
      if 65536 < x1.cpl.unacked.length then askResync x1 else x1

/-- The DEST of a sync record in this module's numbering. -/
def mappedDest (x : Mod) (w : Nat) : Nat :=
  if w / 2 ^ 30 = 1 && (pairOf_ x).twinLag.contains (w % 2 ^ 30) then w else 1036

/-- A sync record arrives: a learn request or delete in the key's home shed. A gap in SYNC_SEQ raises SYNC_GAP, and a bulk resync
is awaited. -/
def syncArrives (l : List Byte) (x : Mod) : Mod :=
  if x.mode.mode != .paired || !x.cpl.link || !couplerRuns x then x
  else
    let seq := BitVec.ofNat 32 (leAt l 0 4)
    let gap := seq != x.cpl.syncAck + 1
    if gap && !x.cpl.resyncIn then
      raisePair evSyncGap (setCpl (fun c => { c with resyncIn := true, resyncSeen := [], syncAck := seq }) x)
    else
      let fid := leAt l 6 2 % 2 ^ 14
      let mac := BitVec.ofNat 48 (beAt l 8 6)
      let s := homeOf x fid mac
      let r : Learn := { src := s, dest := mappedDest x (leAt l 0x10 4), fid := fid, mac := mac, time := x.now, sync := true
                         del := leAt l 4 1 == 2 }
      let x1 := tally (.cpl 9) (setCpl (fun c => { c with
        syncAck := seq, resyncSeen := if c.resyncIn then r.key :: c.resyncSeen else c.resyncSeen }) x)
      if 4096 ≤ (x1.tbl.learns.get s).length then raise (.shed s) evLearnDrop (tally (.lkp s 1) x1)
      else enqueueLearn s { r with came := x.now } x1

/-! ### Handover of generation and recovery (11 R364, R366) -/

/-- A handover record arrives at the module of GEN_ROLE: it resumes the handle and acknowledges. -/
def handoverArrives (h : Nat) (q : BitVec 16) (x : Mod) : Mod :=
  let mine := (genRecords x).any (fun r => leAt r 0 2 == h && leAt r 3 1 % 2 == (pairOf_ x).role)
  if x.mode.mode != .paired || !x.cpl.link || !mine then x
  else
    emit (.handoverAck h) (tally (.cpl 11) (setGen h (fun g => { g with
      next := (if serialNewer q g.next then q else g.next) + 32 }) x))

/-- The acknowledgement of a handover record arrives: this module stops generating the handle. -/
def handoverAcked (h : Nat) (x : Mod) : Mod :=
  if x.mode.mode == .paired && (x.cpl.gens.get h).keeps then
    setGen h (fun g => { g with keeps := false, sentAt := none, soloUsed := false }) x
  else x

/-- A handover record not acknowledged within 10 ms is sent again. -/
def handoverResent (h : Nat) (x : Mod) : Mod :=
  let g := x.cpl.gens.get h
  match g.sentAt with
  | some t =>
    if g.keeps && x.mode.mode == .paired && x.cpl.link && passed x.now t (ms 10) then
      emit (.handover h g.next.toNat) (setGen h (fun g => { g with sentAt := some x.now }) x)
    else x
  | none => x

/-- Whether a frame is offered to a recovery context by a command of this instant that waits: arrival wins ties (11 R366). -/
def offerComes (h : Nat) (x : Mod) (l : List Instr) : Bool :=
  l.any (fun c => match c with
    | .frameEnd f _ => (frame? x f).any (fun fr => fr.kept.any (fun k => k.handle == h) && willOffer fr)
    | _ => false)

/-- RESET_MS passes with no pass on a recovery context: TAKE_ANY is set (11 R366). -/
def recoveryResets (h : Nat) (x : Mod) : Mod :=
  let c := x.cpl.recs.get h
  let r := ((x.tbl.ents.get (lowestShed x, 0x0E)).map (·.dat)).find? (fun r => leAt r 0 2 == h && bitOf (leAt r 2 1) 1)
  match c.lastPass, r with
  | some t, some r =>
    if !c.takeAny && passed x.now t (ms (leAt r 0x14 2)) then
      tally (.cpl 15) (setCpl (fun k => { k with recs := k.recs.set h { c with takeAny := true } }) x)
    else x
  | _, _ => x

/-! ### The commands -/

/-- HEARTBEAT_SEND. -/
def execHeartbeatSend (path : Path) (st : State) : Host.Outcome State Fault Refusal :=
  cmd (.heartbeatSend path) (fun x => if heartbeatDue x path then sendHeartbeat path x else x) st

/-- PATH_LOST. -/
def execPathLost (path : Path) (st : State) : Host.Outcome State Fault Refusal :=
  cmd (.pathLost path) (fun x => if heartComes path x st.pending then x else pathLoses path x) st

/-- LEASE_END. -/
def execLeaseEnd (st : State) : Host.Outcome State Fault Refusal :=
  cmd (.leaseEnd) (leaseEnds) st

/-- DYING_GASP. -/
def execDyingGasp (path : Path) (st : State) : Host.Outcome State Fault Refusal :=
  cmd (.dyingGasp path) (gaspArrives path) st

/-- COUPLER_TRAINING_DONE. -/
def execCouplerTrainingDone (st : State) : Host.Outcome State Fault Refusal :=
  cmdAll (.couplerTrainingDone) (couplerTrained) st

/-- COUPLER_TRAINING_FAIL. -/
def execCouplerTrainingFail (st : State) : Host.Outcome State Fault Refusal :=
  cmdAll (.couplerTrainingFail) (couplerFails) st

/-- COUPLER_LINK_DOWN. -/
def execCouplerLinkDown (st : State) : Host.Outcome State Fault Refusal :=
  cmd (.couplerLinkDown) (couplerLost) st

/-- SYNC_RECORD_SEND. -/
def execSyncRecordSend (st : State) : Host.Outcome State Fault Refusal :=
  cmd (.syncRecordSend) (sendSync) st

/-- SYNC_RECORD_RECEIVE. -/
def execSyncRecordReceive (bytes : List Byte) (st : State) : Host.Outcome State Fault Refusal :=
  cmd (.syncRecordReceive bytes) (syncArrives bytes) st

/-- BULK_RESYNC_DONE. -/
def execBulkResyncDone (st : State) : Host.Outcome State Fault Refusal :=
  cmd (.bulkResyncDone) (resyncEnds) st

/-- GEN_HANDOVER_RECORD. -/
def execGenHandoverRecord (handle : Nat) (nextSeq : BitVec 16) (st : State) : Host.Outcome State Fault Refusal :=
  cmd (.genHandoverRecord handle nextSeq) (handoverArrives handle nextSeq) st

/-- GEN_HANDOVER_ACK. -/
def execGenHandoverAck (handle : Nat) (st : State) : Host.Outcome State Fault Refusal :=
  cmd (.genHandoverAck handle) (handoverAcked handle) st

/-- GEN_HANDOVER_RESEND. -/
def execGenHandoverResend (handle : Nat) (st : State) : Host.Outcome State Fault Refusal :=
  cmd (.genHandoverResend handle) (handoverResent handle) st

/-- RECOVERY_RESET. -/
def execRecoveryReset (handle : Nat) (st : State) : Host.Outcome State Fault Refusal :=
  cmd (.recoveryReset handle) (fun x => if offerComes handle x st.pending then x else recoveryResets handle x) st

/-- PAIR_RESTART. -/
def execPairRestart (m : Nat) (st : State) : Host.Outcome State Fault Refusal :=
  cmdAll (.pairRestart m) (onCommand m 0x0060 (pairRestartCmd m)) st

/-- REINS_HANDOVER. -/
def execReinsHandover (m : Nat) (st : State) : Host.Outcome State Fault Refusal :=
  cmdAll (.reinsHandover m) (onCommand m 0x0061 (reinsHandoverCmd m)) st

end Sys2Proof.Machine
end

