-- ==== Sys2Proof/Machine/Quiesce.lean ====
section
/-! DEFINITION. Sys2Proof/Machine/Quiesce.lean: training waves of the line lanes, rounds of drawbar training, sheds quiesced by a
Fatal event and their return (16 R501, R502; 06 R214; 17 R526, R527). -/

namespace Sys2Proof.Machine

/-- Changes a shed's standing. -/
def setTrb (s : Nat) (f : ShedTrb → ShedTrb) (x : Mod) : Mod := { x with trb := x.trb.upd s f }

/-- Changes the Yardmaster. -/
def setPwr (f : Pwr → Pwr) (x : Mod) : Mod := { x with pwr := f x.pwr }

/-! ### Start-up stages (16 R499, R507) -/

/-- The start-up enters a stage. -/
def setStage (n : Nat) (x : Mod) : Mod :=
  setPwr (fun p => { p with stage := n, stageAt := x.now
                            frozenMs := if n = 14 then some (min (nowMs x) 0xFFFF) else p.frozenMs }) x

/-- Stages 12 and 13 end once the module is Paired and one module holds the reins. -/
def stageCheck (x : Mod) : Mod :=
  let x1 := if x.pwr.stage = 12 && x.mode.mode == .paired then setStage 13 x else x
  if x1.pwr.stage = 13 && (x1.cpl.holder || x1.cpl.viewEnd.isSome) then setStage 14 x1 else x1

/-! ### Waves (16 R502) -/

/-- The lane groups of configured ports that wave `w` trains. -/
def waveGroups (x : Mod) (w : Nat) : List Nat :=
  ((List.range 8).filter (fun s => shedWorks x s && stallConfigured x (16 * s + w))).map (fun s => 16 * s + w)

/-- A granted wave begins: its lane groups wake, and their lanes are held idle no longer. The wake source is 5 of a wave that a
risen B brings back, and 3 of the others (16 R486, R496). -/
def beginWave (w : Nat) (x : Mod) : Mod :=
  (waveGroups x w).foldl (fun a g => askWake (if x.pwr.risen.contains w then 5 else 3) g (lanesTrain g a))
    (setPwr (fun p => { p with wave := some (w, x.now), waves := p.waves.filter (· != w), risen := p.risen.filter (· != w) }) x)

/-- A returning shed whose last wave has ended is back: RETURNED (17 R526). -/
def returned (x : Mod) : Mod :=
  (List.range 8).foldl (fun a s =>
    if (a.trb.get s).st == .returning && (a.trb.get s).step == 7 then
      raise (.shed s) evReturned (setTrb s (fun t => { t with st := .forwarding, step := 0 }) a) else a) x

/-- No wave is left: returning sheds are back, and start-up goes on to the coupler, which a module without pairing skips. -/
def wavesDone (x : Mod) : Mod :=
  let x1 := returned (setPwr (fun p => { p with waves := [] }) x)
  if x1.pwr.stage ≠ 11 then x1
  else if (pairOf_ x1).enabled then askCoupler (setStage 12 x1) else setStage 14 x1

/-- The next wave is asked for. A refused wave ends them; its lane groups are asked for again when B rises (16 R496, R503). -/
def askWave (x : Mod) : Mod :=
  if x.pwr.wave.isSome || x.pwr.queue.any (fun q => q.op == 2) then x
  else
    match x.pwr.waves with
    | [] => wavesDone x
    | w :: _ =>
      match askLeave 2 w none x with
      | (.granted _, x1) => beginWave w x1
      | (.queued _, x1) => x1
      | (.refused _, x1) => wavesDone x1

/-- The waves with lane groups to be trained, in ascending order, are asked for. -/
def addWaves (want : Nat → Bool) (x : Mod) : Mod :=
  askWave (setPwr (fun p => { p with waves := (List.range 16).filter (fun w => want w || p.waves.contains w) }) x)

/-- The waves of every configured lane group. -/
def allWaves (x : Mod) : Mod := addWaves (fun w => waveGroups x w != []) x

/-- LANE_WAVE_END: 450 ms after its grant a wave ends and releases it. -/
def waveEnds (x : Mod) : Mod :=
  match x.pwr.wave with
  | some (w, t) =>
    if passed x.now t (ms 450) then askWave (releaseGrant 2 w (setPwr (fun p => { p with wave := none }) x)) else x
  | none => x

/-! ### Rounds of drawbar training (16 R501, 06 R214) -/

/-- The matching of a pair. -/
def matchingOf (k : Nat) : Nat :=
  let e := shedsOfPair k
  if e.2 = 7 then e.1 else 4 * (e.1 + e.2) % 7

/-- The pairs of a round. -/
def roundPairs (r : Nat) : List Nat := (List.range 28).filter (fun k => if r = 1 then matchingOf k ≤ 3 else 4 ≤ matchingOf k)

/-- The domains of a pair's two halves run. -/
def pairPowered (x : Mod) (k : Nat) : Bool := (pairHalves k).all (fun e => domRuns x (352 + 7 * e.1 + e.2))

/-- The pairs of a round, of one shed or of all. -/
def roundOf (x : Mod) (s : Option Nat) (r : Nat) : List Nat :=
  (roundPairs r).filter (fun k => pairPowered x k && (match s with
    | some s => (shedsOfPair k).1 == s || (shedsOfPair k).2 == s
    | none => true))

/-- A round begins. -/
def startRound (s : Option Nat) (r : Nat) (x : Mod) : Mod := (roundOf x s r).foldl (fun a k => askPair k a) x

/-- Whether a round has ended. -/
def roundOver (x : Mod) (s : Option Nat) (r : Nat) : Bool := (roundOf x s r).all (fun k => !pairBusy x k)

/-- The rounds of start-up. -/
def startRounds (x : Mod) : Mod :=
  if x.pwr.stage ≠ 7 || !roundOver x none x.pwr.round then x
  else if x.pwr.round = 1 then startRound none 2 (setPwr (fun p => { p with round := 2 }) x)
  else setStage 8 (setPwr (fun p => { p with round := 0 }) x)

/-! ### Quiesced sheds (17 R526, R527) -/

/-- A frame goes no further: its copies not in transmission are done. -/
def abandonFrame (f : Nat) (x : Mod) : Mod :=
  match frame? x f with
  | none => x
  | some fr =>
    let x1 := ((List.range fr.copies.length).zip fr.copies).foldl (fun a e =>
      if e.2.st == .done || e.2.st == .sending then a else finishCopy f e.1 (copyReq e.2) (unqueue f e.1 e.2 a)) x
    let x2 := setFrame f (fun r => { r with refused := true, decided := true }) x1
    tidyFrame f ((List.range 8).foldl (fun a s => settleDesc s f a) x2)

/-- Every frame a shed holds is dropped, and stomped where its head has left. -/
def dropShedFrames (s : Nat) (x : Mod) : Mod :=
  let l := (heldFrames x).filter (fun e => (held? x s e.1).isSome || (shedOfPort e.2.port == s && !e.2.ended))
  l.foldl (fun a e =>
    let got := match held? a s e.1 with
      | some h => if h.src = s || shedOfPort e.2.port = s then arrivedBytes a e.2 else h.got
      | none => 0
    let a1 := endCopies s e.1 got false a
    if shedOfPort e.2.port = s then abandonFrame e.1 (if e.2.ended then a1 else stompSending e.1 a1) else tidyFrame e.1 a1) x

/-- The shed's cells and its part of the mesh are empty. -/
def clearShed (s : Nat) (x : Mod) : Mod :=
  let x1 := setLoft s (fun l => { l with cells := .const {}, held := .const none, uses := .const {}, retry := [], noAlloc := none, lowAt := none }) x
  { x1 with mesh := { x1.mesh with
    s1 := x1.mesh.s1.dropIf (fun k => k.1 == s)
    s2 := x1.mesh.s2.dropIf (fun k => k.1 == s)
    streams := x1.mesh.streams.dropIf (fun k => k.1 == s)
    reseq := x1.mesh.reseq.dropIf (fun k => k.1 == s)
    owed := x1.mesh.owed.dropIf (fun k => k.1 == s) } }

/-- What a shed's operations were granted is released, and its queued requests end. -/
def dropShedLeave (s : Nat) (x : Mod) : Mod :=
  let mine (op unit : Nat) : Bool := op != 2 && (leaveSheds op unit).contains s
  setPwr (fun p => { p with grants := p.grants.filter (fun g => g.mbx.isSome || !mine g.op g.unit)
                            queue := p.queue.filter (fun q => q.mbx.isSome || !mine q.op q.unit) }) x

/-- The steps of a quiesce: frames dropped, lanes idle, home duty moved. -/
def quiesceData (s : Nat) (x : Mod) : Mod :=
  let x1 := (List.range 16).foldl (fun a t => lanesIdle (16 * s + t) a) (dropShedFrames s x)
  adoptEntries s (dropShedLeave s (clearShed s x1))

/-- A Fatal event of a shed: it is quiesced, and held at the fourth within 1 h. -/
def quiesceShed (s : Nat) (thermal : Bool) (x : Mod) : Mod :=
  let t := x.trb.get s
  let fatals := x.now :: t.fatals.filter (fun a => x.now < a + sec 3600)
  let was := t.st == .quiesced || t.st == .held
  let held := 4 ≤ fatals.length || t.st == .held
  let x1 := setTrb s (fun t => { t with
    st := if held then .held else .quiesced, since := x.now, step := 0, round := 0, fatals := fatals, thermal := thermal || (was && t.thermal) })
    (if was then x else quiesceData s x)
  let x2 := if was then x1 else raise (.shed s) evQuiesced x1
  if held && t.st != .held then raise (.shed s) evReturnHeld x2 else x2

/-- A Fatal event is raised in a shed's log and quiesces it. -/
def fatal (s : Nat) (e : Evt) (x : Mod) : Mod := quiesceShed s (e == evShedThermCrit) (raise (.shed s) e x)

/-! ### The return (17 R526) -/

/-- A return fails: RETURN_FAIL, and the shed stays quiesced. -/
def returnFails (s : Nat) (x : Mod) : Mod := fatal s evReturnFail x

/-- The domains of a shed, each before its parent. -/
def shedDomains (s : Nat) : List Nat :=
  (List.range 16).map (16 * s + ·) ++ (List.range 16).map (128 + 16 * s + ·) ++ (List.range 12).map (256 + 12 * s + ·)
    ++ (List.range 7).map (352 + 7 * s + ·) ++ [416 + s, 408 + s]

/-- The domains of a shed that run are stopped. -/
def stopShed (s : Nat) (x : Mod) : Mod :=
  (shedDomains s).foldl (fun a d => if domRuns a d && !a.pwr.waits.any (fun w => w.d == d && !w.wake) then stopOrWait .firmware d a else a) x

/-- The return of a shed begins: its domains stop. -/
def beginReturn (s : Nat) (x : Mod) : Mod :=
  stopShed s (setTrb s (fun t => { t with st := .returning, step := 1, round := 0, loads := 0 }) x)

/-- SHED_RETURN_HOLD_END: the hold of 100 ms has passed and the cause permits the return: a thermal one below 105 °C. -/
def holdEnds (s : Nat) (x : Mod) : Mod :=
  let t := x.trb.get s
  if t.st == .quiesced && passed x.now t.since (ms 100) && (!t.thermal || decide ((x.pwr.therm.get s).temp.toNat < 840)) then
    beginReturn s x
  else x

/-- Leave for an operation of a return; a refusal fails it. -/
def returnLeave (op s : Nat) (x : Mod) : Mod :=
  match askLeave op s none x with
  | (.refused _, x1) => returnFails s x1
  | (_, x1) => x1

/-- The return goes on by one step when the one in progress has ended. -/
def returnStep (s : Nat) (x : Mod) : Mod :=
  let t := x.trb.get s
  let goTo (n r : Nat) (x : Mod) : Mod := setTrb s (fun t => { t with step := n, round := r }) x
  if t.st != .returning then x
  else if t.step = 1 then
    (if (shedDomains s).all (fun d => domSt x d == .stop) then returnLeave 1 s (goTo 2 0 x) else stopShed s x)
  else if t.step = 2 then
    (if domRuns x (128 + 16 * s + 15) then startRound (some s) 1 (goTo 3 1 x) else x)
  else if t.step = 3 then
    (if !roundOver x (some s) t.round then x
     else if t.round = 1 then startRound (some s) 2 (goTo 3 2 x)
     else if x.tt.active.isNone then goTo 5 0 x
     else returnLeave 5 s (goTo 4 0 x))
  else x

/-- Every return goes on as far as it can. -/
def returnsGoOn (x : Mod) : Mod := (List.range 8).foldl (fun a s => (List.range 4).foldl (fun b _ => returnStep s b) a) x

/-- The replicas of a returning shed take the contents of the lowest working shed; the edits that one has written are written here
too, and cursors of the shed keep what stands elsewhere than before (04 R139). Mirror sessions are a shed's own. -/
def copyReplica (s : Nat) (x : Mod) : Mod :=
  let p := lowestShed x
  if !shedWorks x p then x
  else
    let ents := ((List.range 17).filter (fun t => t != 0 && t != 0x0D)).foldl (fun m t => m.set (s, t) (m.get (p, t))) x.tbl.ents
    let x1 := { x with tbl := { x.tbl with ents := ents, edits := x.tbl.edits.map (fun e =>
        if e.done.contains p && !e.done.contains s then { e with done := e.done ++ [s] } else e) } }
    ((List.range 17).filter (fun t => t != 0 && t != 0x0D)).foldl (fun a t =>
      cursorReplaced s t (x.tbl.ents.get (s, t)) (ents.get (s, t)) a) x1

/-- The shed's part of the mesh starts anew with its peers: resequencers expect the sources' next numbers, credits are whole. -/
def rejoinMesh (s : Nat) (x : Mod) : Mod :=
  let m := x.mesh
  let reseq := (List.range 8).foldl (fun r d =>
    (r.set (s, d) { next := m.seqs.get (d, s) }).set (d, s) { next := m.seqs.get (s, d) }) m.reseq
  { x with mesh := { m with
    reseq := reseq
    credit := m.credit.dropIf (fun k => k.1 == s || k.2.1 == s || k.2.2 == s)
    owed := m.owed.dropIf (fun k => k.1 == s || k.2 == s)
    localC := m.localC.dropIf (fun k => k.1 == s || k.2 == s)
    lcredit := m.lcredit.dropIf (fun k => k.1 == s || k.2 == s)
    flight := m.flight.dropIf (fun k => k.1 == s || k.2 == s) } }

/-- SHED_STATE_COPY_DONE: the incremental table state is copied; the shed works again, and its lane groups train in waves. -/
def copyDone (s : Nat) (x : Mod) : Mod :=
  let t := x.trb.get s
  if !(t.st == .returning && t.step == 5) then x
  else
    let x1 := setTkt s (fun c => { c with ways := .const none, bad := [] }) (rejoinMesh s (copyReplica s x))
    let x2 := setTrb s (fun t => { t with step := 7 }) { x1 with que := { x1.que with meters := x1.que.meters.dropIf (fun k => k.1 == s) } }
    let x3 := adoptEntries s x2
    if x3.mode.mode == .standalone || x3.mode.mode == .paired then addWaves (fun w => stallConfigured x3 (16 * s + w)) x3
    else returned x3

/-- A held shed is returned (17 R527): by a bit of TRB_SHED_RESTORE, or by wake source 6. -/
def restoreShed (s : Nat) (x : Mod) : Mod :=
  match (x.trb.get s).st with
  | .held => beginReturn s x
  | .quiesced => x
  | _ => x

/-! ### Drawbar trainings that end (06 R214) -/

/-- Whether two sheds reach each other, directly or through one working shed. -/
def shedsReach (x : Mod) (a b : Nat) : Bool :=
  let dead := deadPairs x
  let ok (p q : Nat) : Bool := !dead.contains (pairOf p q)
  ok a b || (List.range 8).any (fun i => i != a && i != b && shedWorks x i && ok a i && ok i b)

/-- Working drawbars of a shed. -/
def drawbarsUp (x : Mod) (s : Nat) : Nat := ((List.range 8).filter (fun p => p != s && !(deadPairs x).contains (pairOf s p))).length

/-- A pair that gave up leaves some shed without a path: a Fatal event in the shed of the two with fewer working drawbars, the
higher-numbered between equals. -/
def lastDirection (k : Nat) (x : Mod) : Mod :=
  let e := shedsOfPair k
  if shedWorks x e.1 && shedWorks x e.2 && !shedsReach x e.1 e.2 then
    fatal (if drawbarsUp x e.1 < drawbarsUp x e.2 then e.1 else e.2) { evDrawbarDown with sev := 3 } x
  else x

/-- What follows a training's end: the pairs that waited for a place, and the next round. -/
def drawbarsGoOn (x : Mod) : Mod := returnsGoOn (startRounds (serveRetrain x))

/-- DRAWBAR_TRAINING_FAIL: tried again under leave; after three in a row the pair stays out of service until the shed's next wake.
DRAWBAR_DOWN is raised unless it was when the pair was taken out of service. -/
def trainingFails (k : Nat) (x : Mod) : Mod :=
  if !pairTraining x k then x
  else
    let n := (pairHalves k).foldl (fun a h => max a ((x.mesh.halves.get h).fails + 1)) 0
    let e := shedsOfPair k
    let x1 := (pairHalves k).foldl (fun a h => setHalf h.1 h.2 (fun o => { o with
      st := .outOfService, fails := n, gaveUp := decide (3 ≤ n) }) a) (releaseGrant 3 k x)
    if n < 3 then serveRetrain (askPair k x1)
    else
      let first := x.pwr.stage ≤ 8 || (x.trb.get e.1).st == .returning || (x.trb.get e.2).st == .returning
      let x2 := if first then raise (.shed e.2) evDrawbarDown (raise (.shed e.1) evDrawbarDown x1) else x1
      drawbarsGoOn (if x.pwr.stage ≤ 8 then x2 else lastDirection k x2)

/-- DRAWBAR_TRAINING_DONE. -/
def execDrawbarTrainingDone (pair : Nat) (st : State) : Host.Outcome State Fault Refusal :=
  cmd (.drawbarTrainingDone pair) (fun x => drawbarsGoOn (trainingDone pair x)) st

/-! ### The commands -/

/-- HEARTBEAT_RECEIVE. -/
def execHeartbeatReceive (path : Path) (bytes : List Byte) (st : State) : Host.Outcome State Fault Refusal :=
  cmd (.heartbeatReceive path bytes) (fun x => stageCheck (heartbeatArrives path bytes x)) st

/-- LEASE_RENEWAL. -/
def execLeaseRenewal (st : State) : Host.Outcome State Fault Refusal :=
  cmd (.leaseRenewal) (fun x => stageCheck (renewLease x)) st

/-- LEASE_VIEW_END. -/
def execLeaseViewEnd (st : State) : Host.Outcome State Fault Refusal :=
  cmd (.leaseViewEnd) (fun x => stageCheck (leaseViewEnds x)) st

/-- LANE_WAVE_END. -/
def execLaneWaveEnd (st : State) : Host.Outcome State Fault Refusal :=
  cmd (.laneWaveEnd) (waveEnds) st

/-- SHED_RETURN_HOLD_END. -/
def execShedReturnHoldEnd (s : Nat) (st : State) : Host.Outcome State Fault Refusal :=
  cmd (.shedReturnHoldEnd s) (holdEnds s) st

/-- SHED_STATE_COPY_DONE. -/
def execShedStateCopyDone (s : Nat) (st : State) : Host.Outcome State Fault Refusal :=
  cmd (.shedStateCopyDone s) (copyDone s) st

/-- SHED_RESTORE. -/
def execShedRestore (v : Word) (st : State) : Host.Outcome State Fault Refusal :=
  cmd (.shedRestore v) (fun x => (List.range 8).foldl (fun a s => if v.getLsbD s then restoreShed s a else a) x) st

end Sys2Proof.Machine
end

