-- ==== Sys2Proof/Machine/ContentCheck.lean ====
section
/-! DEFINITION. Sys2Proof/Machine/ContentCheck.lean: checks 7 and 8 of a verification, over what the sections of an image say: every rule
that the chapters place on a timetable (10 R329). The sections' byte layouts, which the manual does not give, are judged apart (log 8). -/

namespace Sys2Proof.Machine

/-- The replica of a table in shed `s` after a flip: the image's records placed in order. -/
def imageTable (c : TtContent) (s tab : Nat) : List Ent :=
  (c.records.filter (fun r => r.1 == tab && (tab != 0x0D || leAt r.2 0 1 == s))).foldl (fun l r =>
    (putRecord tab (keyOf tab r.2) (storedRec tab r.2) l).1) []

/-- Whether an image defines a port (00 R4). -/
def TtContent.has (c : TtContent) (p : Nat) : Bool := if p < 1024 then (c.port p).isSome else portValid p

/-- The first item of a list that breaks a rule, as section and ITEM, which saturates (10 R346). -/
def firstBad {α : Type} (sec : Nat) (ok : α → Bool) (l : List α) : Option (Nat × Nat) :=
  (l.findIdx? (fun a => !ok a)).map (fun i => (sec, min i 0xFFFF))

/-! ### Section 0x01: ports -/

/-- Whether a line port keeps the breakout rules: a lane rate and a width of 02 R34, aligned to its width and sharing no lane (02 R35). -/
def portPlaced (c : TtContent) (p w : Nat) : Bool :=
  let rate := c.rates.get (stallOf p)
  1 ≤ rate && rate ≤ 3 && [1, 2, 4, 8].contains w && p % w == 0
    && (c.ports.filter (fun e => e.1 < 1024 && decide (e.1 < p + w) && decide (p < e.1 + e.2.width))).length == 1

/-- Whether a port's settings stand in their ranges (02 R44, R60, R65, R73; 03 R84, R92; 07 R232; 08 R268). -/
def portSettingsOk (k : PortCfg) : Bool :=
  let off (n : Nat) : Bool := n == 0 || n == 30 || n == 50
  let sampler (s : Option Sampler) : Bool := s.all (fun s => 1 ≤ s.n && s.n < 2 ^ 24 && s.trunc ≤ 384)
  1518 ≤ k.maxLen && k.maxLen ≤ 12288 && k.fc ≤ 2 && (!k.lpi || k.lpiCap) && 1 ≤ k.lpiIdleUs && k.lpiIdleUs ≤ 1000
    && k.replayWin ≤ 2 ^ 30 && off k.confOff && k.rxChan.all (fun e => e.2.1 ≤ 2 ^ 30 && off e.2.2)
    && k.validate ≤ 2 && k.truncPol ≤ 2 && k.confPol ≤ 2 && k.profile < 16 && k.aclClass < 4 && k.portMeta < 2 ^ 16
    && k.defVid < 4096 && k.defPcp < 8 && k.pcpClass.all (· < 8) && k.colour.all (· < 3) && k.vrf.all (· < 4096)
    && k.queueMap.all (· < 12) && k.inMirror.all (· < 16) && sampler k.inSampler && sampler k.egSampler

/-- Section 0x01 by port. -/
def portBad (c : TtContent) : Option (Nat × Nat) :=
  firstBad 0x01 (fun e => portSettingsOk e.2 && (if e.1 < 1024 then portPlaced c e.1 e.2.width else portValid e.1)) c.ports

/-! ### Sections 0x02 to 0x04: parser, ACL, FIDs -/

/-- Whether an extractor is one of 03 R91. -/
def extractorOk (e : Extractor) : Bool := e.typ < 64 && e.occ ≤ 15 && e.off ≤ 255 && 1 ≤ e.width && e.width ≤ 4

/-- Whether a parse profile keeps 03 R80 and R91. -/
def profileOk (k : Profile) : Bool :=
  1 ≤ k.hdrLimit && k.hdrLimit ≤ 16 && 64 ≤ k.byteLimit && k.byteLimit ≤ 384 && k.byteLimit % 8 == 0 && k.exts.length ≤ 64
    && (k.exts ++ k.hashA ++ k.hashB).all extractorOk

/-- Whether a chunk's selector code is one of 03 R95. -/
def selectorOk (code : Nat) : Bool := code < 0xC8 || code == 0xFF

/-- Sections 0x02 to 0x04 but for their table records: profiles; slices of groups 0 to 3, key profiles and their selection; FIDs with an age
time of 1 to 8,796 s, a move hold of at most 100 ms and a flap hold of 1 to 3,600 s (03 R94, R95; 04 R111, R128, R129, R131). -/
def parserBad (c : TtContent) : Option (Nat × Nat) :=
  (firstBad 0x02 (fun i => profileOk (c.profiles.get i)) (List.range 16)).or <|
  (firstBad 0x03 (fun i => (c.acl.slice.get i).all (· < 4)) (List.range 16)).or <|
  (firstBad 0x03 (fun i => (c.acl.keys.get i).length ≤ 40 && (c.acl.keys.get i).all selectorOk) (List.range 16)).or <|
  (firstBad 0x03 (fun (e : (Nat × Nat × Nat) × Option Nat) => e.2.all (· < 16)) c.acl.select.ents).or <|
  (firstBad 0x04 (fun (e : Nat × Nat) => e.1 < 4096 && e.2 < 2 ^ 14) c.fidMap.ents).or <|
  (firstBad 0x04 (fun e => e.1 < 2 ^ 14 && 1 ≤ e.2.age && e.2.age ≤ 8796 && e.2.vrf.all (· < 4096)) c.fids).or <|
  (if c.holdUs ≤ 100000 && 1 ≤ c.flapS && c.flapS ≤ 3600 then none else some (0x04, 0))

/-! ### Table records -/

/-- The section that holds the records of a table (10 R322; the rewrite templates', which the manual does not name, with the ACL's, log 8). -/
def sectionOf (tab : Nat) : Nat :=
  match tab with
  | 1 => 0x04
  | 2 => 0x05
  | 3 => 0x06
  | 4 => 0x07
  | 5 | 6 => 0x08
  | 7 | 8 | 9 => 0x09
  | 0x0D => 0x0E
  | 0x0E => 0x12
  | 0x0F | 0x10 => 0x03
  | _ => tab

/-- Whether a table record keeps its layout, its ranges and its reserved bytes and names no port that the image does not define, and whether
every entry it names is in the image (03 R101, 04 R112, R123, 07 R245, R255, R256). An L2 record of an image is static. -/
def imageRecordOk (c : TtContent) (v : View) (r : Nat × List Byte) : Bool :=
  recordOk c.has r.1 r.2 && !refsBad v r.1 r.2 && refsThere v r.1 r.2 && (r.1 != 1 || isStatic r.2)
    && !(r.1 == 0x0E && handleTaken v (keyOf 0x0E r.2) r.2)

/-- The tables of an image by section, in the order of the sections. -/
def tabOrder : List Nat := [0x0F, 0x10, 1, 2, 3, 4, 5, 6, 7, 8, 9, 0x0A, 0x0B, 0x0C, 0x0D, 0x0E]

/-- The first record of an image that fails, by table. -/
def recordsBad (c : TtContent) : Option (Nat × Nat) :=
  let v : View := imageTable c 0
  tabOrder.findSome? (fun t => firstBad (sectionOf t) (imageRecordOk c v) (c.records.filter (fun r => r.1 == t)))

/-! ### Sections 0x0D, 0x0F and 0x12: queues, Loft, pairing -/

/-- The line ports whose frames may reach a queue of a port (07 R235). -/
def feeders (c : TtContent) (p : Nat) : List PortCfg :=
  (c.ports.filter (fun e => e.1 < 1024 && (1032 ≤ p || shedOfPort e.1 == shedOfPort p))).map (·.2)

/-- Whether a scheduler node keeps its ranges; one that enables WRED names a profile of the image (07 R251), and a lossless queue has a class
that every port counted runs PFC on (07 R235). -/
def imageNodeOk (c : TtContent) (e : (Nat × Nat × Nat) × Node) : Bool :=
  let k := e.2
  let pfc (cls : Nat) (p : PortCfg) : Bool := p.fc == 2 && p.pfcEn.getLsbD cls
  c.has e.1.1 && k.group < 4 && k.prio < 8 && 1 ≤ k.weight && k.weight ≤ 255 && k.classSet < 256 && k.qlimit ≤ 196608
    && k.rate ≤ 1600000 && 64 ≤ k.burst && k.burst < 2 ^ 24 && decide (-32 ≤ k.overhead) && decide (k.overhead ≤ 96)
    && k.wred.all (fun i => c.records.any (fun r => r.1 == 0x0C && leAt r.2 0 1 == i))
    && (!k.lossless || (List.range 8).any (fun cls => bitOf k.classSet cls && (feeders c e.1.1).all (pfc cls)))

/-- Whether a Loft pair keeps its ranges, XON below XOFF where it is under flow control (06 R194, R195). -/
def loftPairOk (c : TtContent) (e : (Nat × Nat) × LoftPair) : Bool :=
  e.2.min ≤ 4096 && e.2.headroom ≤ 8192 && e.2.alpha ≤ 10 && e.1.2 < 8
    && ((c.port e.1.1).all (fun k => !flowControlled k e.1.2 || decide (e.2.xon < e.2.xoff)))

/-- Whether every pair of a port that is under flow control is listed (06 R194). -/
def pairsListed (c : TtContent) (e : Nat × PortCfg) : Bool :=
  1024 ≤ e.1 || (List.range 8).all (fun cls => !flowControlled e.2 cls || c.loft.any (fun l => l.1 == (e.1, cls)))

/-- Section 0x0F: its pairs, the sum of MIN and HEADROOM in each shed's Loft, and the pairs it must list. -/
def loftBad (c : TtContent) : Option (Nat × Nat) :=
  (firstBad 0x0F (loftPairOk c) c.loft).or <|
  (if (List.range 8).all (fun s => decide (guaranteed c s ≤ 147456)) then none else some (0x0F, 0)).or <|
  (firstBad 0x0F (pairsListed c) c.ports)

/-- Section 0x12: ROLE, PRIORITY, LEASE of 20 to 1,000 ms and RENEW of 2 ms to half of it, twin groups that are LAGs of the image
(11 R352, R356, R368). -/
def pairingOk (c : TtContent) : Bool :=
  let k := c.pair
  k.role < 2 && k.prio < 256 && 20 ≤ k.leaseMs && k.leaseMs ≤ 1000 && 2 ≤ k.renewMs && 2 * k.renewMs ≤ k.leaseMs
    && k.twinLag.all (fun g => c.records.any (fun r => r.1 == 6 && leAt r.2 0 4 == g && leAt r.2 4 1 == 1))
    && k.shared.all (fun a => a.length == 4 || a.length == 16)

/-! ### The two checks -/

/-- Check 7: the section and the item that fail first, by section (log 8). -/
def contentBad (c : TtContent) : Option (Nat × Nat) :=
  (portBad c).or <| (parserBad c).or <| (recordsBad c).or <|
  (firstBad 0x0D (imageNodeOk c) c.nodes).or <|
  (if c.qlimit ≤ 196608 then none else some (0x0D, 0)).or <|
  (loftBad c).or (if pairingOk c then none else some (0x12, 0))

/-- The entries that a table holds at most (04 R111; 11 R362). The indexed tables are bounded by their indices. -/
def tableCap (tab : Nat) : Nat :=
  match tab with
  | 1 => 1048576
  | 2 => 2097152
  | 3 => 1048576
  | 4 => 262144
  | 7 => 64
  | 8 => 16384
  | 0x0E => 65536
  | 0x0F => 65536
  | _ => 262144

/-- Check 8: a table with more records than its capacity, or groups with more than 131,072 member slots; the item is the first beyond. -/
def capacityBad (c : TtContent) : Option (Nat × Nat) :=
  let tooMany (tab : Nat) : Option (Nat × Nat) :=
    if tableCap tab < (c.records.filter (fun r => r.1 == tab)).length then some (sectionOf tab, min (tableCap tab) 0xFFFF) else none
  (tabOrder.findSome? tooMany).or
    (if 131072 < ((c.records.filter (fun r => r.1 == 6)).foldl (fun n r => n + leAt r.2 6 2) 0) then some (0x08, 0) else none)

end Sys2Proof.Machine
end

