-- ==== Sys2Proof/Machine/Verify.lean ====
section
/-! DEFINITION. Sys2Proof/Machine/Verify.lean: the verification of a bank and the banks at a start (10 R321 to R325, R329, R330, R339;
18 R540). -/

namespace Sys2Proof.Machine

/-! ### Verification (10 R329) -/

/-- One entry of the section table (10 R322). -/
structure SecEnt where
  id   : Nat
  ver  : Nat
  flags : Nat
  off  : Nat
  size : Nat
  rsv  : Nat
  deriving DecidableEq, Repr

/-- Entry `i` of an image's section table. -/
def secEnt (im : List Byte) (i : Nat) : SecEnt :=
  let o := 0x100 + 16 * i
  { id := leAt im o 2, ver := leAt im (o + 2) 1, flags := leAt im (o + 3) 1, off := leAt im (o + 4) 4,
    size := leAt im (o + 8) 4, rsv := leAt im (o + 12) 4 }

/-- Whether a section ID is known (10 R322). -/
def secKnown (id : Nat) : Bool := (1 ≤ id && id ≤ 0x12) || (0x20 ≤ id && id ≤ 0x3F)

/-- Whether two sections overlap. -/
def secOverlap (a b : SecEnt) : Bool := a.off < b.off + b.size && b.off < a.off + a.size

/-- Check 2 on one entry among all: the result of its failure (10 R322, R324). -/
def secEntBad (len : Nat) (all : List SecEnt) (e : SecEnt) : Option Nat :=
  if e.rsv ≠ 0 || 1 < e.flags || e.off % 8 ≠ 0 || e.off < 0x500 || len < e.off + e.size
      || 1 < (all.filter (fun o => o.id == e.id)).length
      || (all.filter (fun o => o.id != e.id)).any (secOverlap e) then some ttSection
  else if e.flags = 1 && !secKnown e.id then some ttSection
  else if e.flags = 1 && e.id ≤ 0x12 && !Config.knownVersion e.id e.ver then some ttSectionVersion
  else none

/-- The first entry that fails check 2. -/
def secTableBad (len : Nat) (all : List SecEnt) : List SecEnt → Option (Nat × Nat × Nat)
  | [] => none
  | e :: t =>
    match secEntBad len all e with
    | some r => some (r, e.id, 0)
    | none => secTableBad len all t

/-- Check 1 (10 R321, R324). -/
def headerBad (im : List Byte) (opened : Nat) : Option Nat :=
  let fmt := leAt im 4 2
  let flags := leAt im 6 2
  let len := leAt im 0x10 8
  if sliceOf im 0 4 ≠ [0x59, 0x45, 0x54, 0x54] then some ttFormat
  else if len < 0x500 || 0x20000000 < len || len ≠ opened then some ttLength
  else if !(fmt == 6 || fmt == 7) || 1 < flags || leAt im 0x0E 2 ≠ 0 || leAt im 0x1E 2 ≠ 0
      || !allZero (sliceOf im 0x2C 20) || !allZero (sliceOf im 0xD2 46)
      || (flags == 0 && !allZero (sliceOf im 0x60 114))
      || (fmt == 6 && (flags != 0 || !allZero (sliceOf im 0x20 12))) then some ttFormat
  else none

/-- Check 2: the whole section table. Section 0x01 is mandatory; DEDUCED (log 8): one of an unknown VERSION, which is ignored, is absent. -/
def sectionsBad (im : List Byte) : Option (Nat × Nat × Nat) :=
  let n := leAt im 0x0C 2
  if n < 1 || 64 < n then some (ttSection, 0, 0)
  else
    let all := (List.range n).map (secEnt im)
    if !allZero (sliceOf im (0x100 + 16 * n) (16 * (64 - n))) then some (ttSection, 0, 0)
    else
      match secTableBad (leAt im 0x10 8) all all with
      | some r => some r
      | none => if all.any (fun e => e.id == 1 && Config.knownVersion 1 e.ver) then none else some (ttSection, 1, 0)

/-- The ID of the last unknown section that was ignored, or 0 (10 R324, R346). -/
def lastIgnored (im : List Byte) : Nat :=
  ((List.range (leAt im 0x0C 2)).map (secEnt im)).foldl (fun a e =>
    if !secKnown e.id || (e.id ≤ 0x12 && !Config.knownVersion e.id e.ver) then e.id else a) 0

/-- The digest of an image (10 R323). -/
def imageDigest (im : List Byte) : Digest := Config.shake256 (im.take 0x40 ++ zeros 0x92 ++ im.drop 0xD2)

/-- Check 4 under the signing policy (18 R540): the failure, or whether the signature was checked. -/
def signatureCheck (enrol : Option Enrol) (im : List Byte) : Option Nat × Bool :=
  let signed := leAt im 4 2 == 7 && leAt im 6 2 == 1
  let policy := match enrol with
    | some e => e.policy
    | none => 0
  let key := match enrol with
    | some e => e.ttKey
    | none => none
  if !signed then (if policy = 1 then (some ttUnsigned, false) else (none, false))
  else
    match key with
    | some k =>
      if Config.ed448Verify k (sliceOf im 0x40 32) (sliceOf im 0x60 114) then (none, true) else (some ttSignature, false)
    | none => if policy = 1 then (some ttSignature, false) else (none, false)

/-- Check 6 (10 R325). -/
def macBad (im : List Byte) : Bool :=
  let n := beAt im 0x18 6
  bitOf (leAt im 0x18 1) 0 || n == 0 || 2 ^ 48 ≤ n + 1037

/-- Verification of a bank: result, section, item, and whether its signature was checked (10 R329). `start` skips check 5
(10 R339). -/
def verifyImage (x : Mod) (im : List Byte) (opened : Nat) (start : Bool) : (Nat × Nat × Nat) × Bool :=
  match headerBad im opened with
  | some r => ((r, 0, 0), false)
  | none =>
    match sectionsBad im with
    | some r => (r, false)
    | none =>
      if imageDigest im ≠ digestOf (sliceOf im 0x40 32) then ((ttDigest, 0, 0), false)
      else
        match (signatureCheck x.sec.enrol im).1 with
        | some r => ((r, 0, 0), false)
        | none =>
          let stale := match x.tt.active with
            | some a => !start && !serialNewer (BitVec.ofNat 32 (leAt im 8 4)) (x.tt.banks.get a).seq
            | none => false
          if stale then ((ttStale, 0, 0), false)
          else if macBad im then ((ttMac, 0, 0), false)
          else
            match Config.contentCheck im with
            | some r => (r, false)
            | none =>
              let c := Config.ttContent im
              match contentBad c with
              | some (sec, item) => ((ttContentBad, sec, item), false)
              | none =>
                match capacityBad c with
                | some (sec, item) => ((ttCapacity, sec, item), false)
                | none => ((ttOk, lastIgnored im, 0), (signatureCheck x.sec.enrol im).2)

/-- The bytes of a bank's image. -/
def bankImage (x : Mod) (mem : List Host.Cell) (b : Nat) : List Byte :=
  Memory.reads mem (bankBase b) (x.tt.banks.get b).len

/-- The verification of a bank ends (10 R329): VALID with what its image says, or INVALID; reported. -/
def endVerify (b : Nat) (start : Bool) (mem : List Host.Cell) (x : Mod) : Mod :=
  let im := bankImage x mem b
  let v := verifyImage x im (x.tt.banks.get b).len start
  let f : Bank → Bank := fun k =>
    if v.1.1 = ttOk then
      { k with st := .valid, seq := BitVec.ofNat 32 (leAt im 8 4), digest := digestOf (sliceOf im 0x40 32),
               sigChecked := v.2, mac := BitVec.ofNat 48 (beAt im 0x18 6), content := some (Config.ttContent im) }
    else { k with st := .invalid, content := none }
  reportBank b v.1.1 v.1.2.1 v.1.2.2 (setBank b f x)

/-- At start: a bank left WRITING or VERIFYING enters INVALID, one left ACTIVE or RETIRING becomes VALID (10 R339). -/
def settleBank (k : Bank) : Bank :=
  match k.st with
  | .writing | .verifying => { k with st := .invalid, content := none }
  | .active | .retiring => { k with st := .valid }
  | _ => k

/-- The banks whose outcome this start reports: those verified again and those that were aborted, bank A first. -/
def startList (x : Mod) : List Nat :=
  [0, 1].filter (fun b =>
    match (x.tt.banks.get b).st with
    | .empty | .invalid => false
    | _ => true)

/-- Reports the ABORTED banks at the front of this start's list (10 R339 step 3). -/
def reportAborted : List Nat → Mod → Mod
  | [], x => { x with tt := { x.tt with startVerify := [], startDone := true } }
  | b :: t, x =>
    if (x.tt.banks.get b).st == .invalid then reportAborted t (reportBank b ttAborted 0 0 x)
    else { x with tt := { x.tt with startVerify := b :: t } }

/-- The verification of both banks begins at start (10 R339). -/
def beginStartVerify (x : Mod) : Mod :=
  let l := startList x
  reportAborted l { x with tt := { x.tt with
    banks := (x.tt.banks.set 0 (settleBank (x.tt.banks.get 0))).set 1 (settleBank (x.tt.banks.get 1))
    active := none
    act := none
    retireT := none
    startDone := false } }

/-- VERIFICATION_DONE: of a bank being verified, or of the next bank of this start. -/
def verificationEnds (b : Nat) (y : Mod × List Host.Cell) : Mod × List Host.Cell :=
  let x := y.1
  match x.tt.startVerify with
  | k :: t => if k = b then (reportAborted t (endVerify b true y.2 x), y.2) else y
  | [] => if (x.tt.banks.get b).st == .verifying then (endVerify b false y.2 x, y.2) else y

/-! ### The command -/

/-- VERIFICATION_DONE. -/
def execVerificationDone (bank : Nat) (st : State) : Host.Outcome State Fault Refusal :=
  cmdAll (.verificationDone bank) (verificationEnds bank) st

end Sys2Proof.Machine
end

