-- ==== Sys2Proof/Machine/Activation.lean ====
section
/-! DEFINITION. Sys2Proof/Machine/Activation.lean: activation, flip and drain of timetables, the choice at start, the digest checks
(10 R332 to R340; 04 R143; 02 R36). -/

namespace Sys2Proof.Machine

/-! ### The tables of an image -/

/-- Whether an image holds an entry of an indexed table. -/
def imageHas (c : TtContent) (tab n i : Nat) : Bool := c.records.any (fun r => r.1 == tab && keyOf tab r.2 == leBytes n i)

/-- Whether an image defines a FID: FID 0, one its VID map gives, one with settings. -/
def fidDefined (c : TtContent) (f : Nat) : Bool := f == 0 || c.fidMap.ents.any (fun e => e.2 == f) || (c.fid? f).isSome

/-- Whether a dynamic L2 entry is kept under a new image (04 R143). -/
def keptEntry (c : TtContent) (e : Ent) : Bool :=
  let w := leAt e.dat 8 4
  let i := w % 2 ^ 30
  !isStatic e.dat && fidDefined c (l2Fid e.key) && !(c.fid (l2Fid e.key)).flush &&
  match w / 2 ^ 30 with
  | 0 => 1024 ≤ i || (c.port i).isSome
  | 1 => imageHas c 6 4 i
  | 2 => imageHas c 0x0A 2 i
  | _ => true

/-- The L2 table after a flip: the image's entries, and the dynamic ones that are kept. -/
def flippedL2 (c : TtContent) (s : Nat) (l : List Ent) : List Ent :=
  let new := imageTable c s 1
  (l.filter (fun e => keptEntry c e && !(new.any (fun n => n.key == e.key)))).foldl (fun t e => (putRecord 1 e.key e.dat t).1) new

/-- The replicas of the working sheds after a flip. -/
def flippedTables (x : Mod) (c : TtContent) : Map (Nat × Nat) (List Ent) :=
  (workingSheds x).foldl (fun m s => ((List.range 17).filter (· != 0)).foldl (fun m t =>
    m.set (s, t) (if t = 1 then flippedL2 c s (x.tbl.ents.get (s, 1)) else imageTable c s t)) m) x.tbl.ents

/-- The tables kept for frames of the old epoch: the replicas as they stood; the mirror sessions of every shed. -/
def oldTables (x : Mod) : Map Nat (List Ent) :=
  ((List.range 17).filter (· != 0)).foldl (fun m t => m.set t
    (if t = 0x0D then (List.range 8).flatMap (fun s => x.tbl.ents.get (s, t)) else x.tbl.ents.get (lowestShed x, t))) (.const [])

/-! ### What a flip changes -/

/-- Whether a stall's lane rate or breakout differs. -/
def stallChanged (a b : TtContent) (g : Nat) : Bool :=
  a.rates.get g != b.rates.get g ||
    (List.range 8).any (fun i => (a.port (8 * g + i)).map (·.width) != (b.port (8 * g + i)).map (·.width))

/-- The scheduler nodes set by either timetable or edited by the host. -/
def nodeKeys (x : Mod) (a b : TtContent) : List (Nat × Nat × Nat) :=
  (x.que.nodes.ents.map (·.1) ++ a.nodes.map (·.1) ++ b.nodes.map (·.1)).eraseDups

/-- The nodes take the new timetable's settings: edits made since are discarded, shapers keep or fill (07 R239, R244). -/
def flipNodes (a b : TtContent) (x : Mod) : Mod :=
  let x1 := (nodeKeys x a b).foldl (fun y k =>
    let n := b.node k.1 k.2.1 k.2.2
    if nodeOf y k.1 k.2.1 k.2.2 = n then y else changeNode k.1 k.2.1 k.2.2 n y) x
  let fresh (p : Nat) : Bool := p < 1024 && (a.port p).isNone && (b.port p).isSome
  { x1 with que := { x1.que with
    nodes := .const none
    ptr := x1.que.ptr.dropIf (fun k => fresh k.1)
    shapers := x1.que.shapers.mapEnts (fun k h => if fresh k.1 then { h with def_ := 0 } else h) } }

/-- Meters whose record differs start full. -/
def flipMeters (x : Mod) (tabs : Map (Nat × Nat) (List Ent)) : Map (Nat × Nat) (Option MeterSt) :=
  let s := lowestShed x
  let rec_ (l : List Ent) (i : Nat) : Option (List Byte) := (l.find? (fun e => leNat e.key == i)).map (·.dat)
  x.que.meters.dropIf (fun k => rec_ (x.tbl.ents.get (s, 0x0B)) k.2 != rec_ (tabs.get (s, 0x0B)) k.2)

/-- The lane groups and pipelines of stalls without a configured port are stopped (16 R484). -/
def stopUnconfigured (x : Mod) : Mod :=
  ((List.range 128).filter (fun g => !stallConfigured x g)).foldl (fun a g =>
    let a1 := if domRuns a g then stopOrWait .firmware g a else a
    if domRuns a1 (128 + g) then stopOrWait .firmware (128 + g) a1 else a1) x

/-- The banks' states, the epoch and the digests change. -/
def flipBanks (a : Activation) (t : Nat) (x : Mod) : Mod :=
  let old := x.tt.active
  let b := x.tt.banks.get a.bank
  let epoch : BitVec 2 := if a.mbx.isNone then 0 else x.tt.epoch + 1
  let x1 := match old with
    | some o => setBank o (fun k => { k with st := .retiring }) x
    | none => x
  let x2 := setBank a.bank (fun k => { k with st := .active }) x1
  setTt (fun tt => { tt with
    active := some a.bank, lastActive := some a.bank, act := none, epoch := epoch, oldEpoch := x.tt.epoch
    flipNs := BitVec.ofNat 64 t, retireT := if old.isSome then some x.now else tt.retireT
    sheds := (workingSheds x).foldl (fun m s => m.upd s (fun k => { k with digest := b.digest, loaded := true, epoch := epoch })) tt.sheds }) x2

/-- The flip (10 R333 step 5): banks, epoch and tables; the journal and the edit digest restart (04 R143). Frames held for a port that
the new breakout removes are dropped as for a port that no longer exists, and the lanes that change fall idle (02 R36, 07 R234). -/
def flip (a : Activation) (t : Nat) (x : Mod) : Mod :=
  let oldC := actCfg x
  let newC := ((x.tt.banks.get a.bank).content).getD {}
  let changed := (List.range 128).filter (fun g => stallChanged oldC newC g)
  let x0 := (workingSheds x).foldl (fun b s => catchUp s b) x
  let gone := (oldC.ports.map (·.1)).filter (fun p => (newC.port p).isNone)
  let x1 := changed.foldl (fun b g => lanesIdle g b) (gone.foldl (fun b p => portGoesDown p 2 9 b) x0)
  let tabs := flippedTables x1 newC
  let xc := (workingSheds x1).foldl (fun b s => cursorReplaced s 1 (b.tbl.ents.get (s, 1)) (tabs.get (s, 1)) b) x1
  let dead := (x1.tbl.ents.get (lowestShed x1, 1)).filter (fun e => !((tabs.get (lowestShed x1, 1)).any (fun n => n.key == e.key)))
  let meters := flipMeters x1 tabs
  let x2 := flipBanks a t (flipNodes oldC newC (dead.foldl (fun b e => dropMeta e.key b) xc))
  let x3 := { x2 with
    tbl := { x2.tbl with ents := tabs, old := if x.tt.active.isSome then oldTables x1 else x2.tbl.old
                         journal := [], jNext := 0, jRead := 0, jSeen := [], editDig := (x.tt.banks.get a.bank).digest }
    que := { x2.que with meters := meters } }
  let x4 := (workingSheds x3).foldl (fun b s => advanceGen s (askGen s b)) x3
  let x5 := raise .yard evActivated x4
  let x6 := stopUnconfigured (notify (ttNote x5) x5)
  if a.mbx.isSome && (x6.mode.mode == .standalone || x6.mode.mode == .paired) then
    addWaves (fun w => changed.any (fun g => g % 16 == w && stallConfigured x6 g)) x6
  else x6

/-! ### Activation (10 R332, R333) -/

/-- The body of an activate reply. -/
def activateReply (result : Nat) (epoch : BitVec 2) (t : Nat) : List Byte :=
  [BitVec.ofNat 8 result, BitVec.ofNat 8 epoch.toNat] ++ zeros 6 ++ leBytes 8 t

/-- The leave of an activation is given back. -/
def dropActLeave (a : Activation) (x : Mod) : Mod :=
  match a.mbx with
  | some m => dropLeaves m x
  | none => setPwr (fun p => { p with
      grants := p.grants.filter (fun g => !(g.op == 5 && g.mbx.isNone && !((x.trb.get g.unit).st == .returning)))
      queue := p.queue.filter (fun q => !(q.op == 5 && q.mbx.isNone && !((x.trb.get q.unit).st == .returning))) }) x

/-- An activation fails: the old bank stays ACTIVE and the new one VALID, ACTIVATE_FAIL. At start 01 R26 gives the failure no row: the
module enters Quiesced as one with no valid timetable does, CAUSE 0x3 (DESIGN CHOICE, log 72). -/
def activationFails (a : Activation) (status result : Nat) (y : Mod × List Host.Cell) : Mod × List Host.Cell :=
  let x1 := raise .yard evActivateFail (dropActLeave a (setTt (fun t => { t with act := none }) y.1))
  let x2 := notify (ttNote x1) x1
  match a.mbx with
  | some m => complete m status (if status = stOk then activateReply result 0 0 else []) (x2, y.2)
  | none => (setStage 14 (enterMode .quiesced 3 x2), y.2)

/-- The tests of 10 R333, and the leave for the loads. -/
def tryActivate (m : Nat) (y : Mod × List Host.Cell) : Mod × List Host.Cell :=
  let x := setBox m (fun b => { b with began := true, phase := 0 }) y.1
  let q := (x.dax.boxes.get m).body
  let k := leAt q 0 1
  let bank := x.tt.banks.get k
  let stale := match x.tt.active with
    | some o => !serialNewer bank.seq (x.tt.banks.get o).seq
    | none => false
  let refuse (r : Nat) : Mod × List Host.Cell := complete m stOk (activateReply r 0 0) (x, y.2)
  if draining x then (setBox m (fun b => { b with phase := 0x300 }) x, y.2)
  else if bank.st != .valid then refuse ttNotValid
  else if bank.seq ≠ BitVec.ofNat 32 (leAt q 4 4) || bank.digest ≠ digestOf (sliceOf q 8 32) then refuse ttMismatch
  else if stale then refuse ttStale
  else
    let a : Activation := { bank := k, mbx := some m }
    match askLeaves m 5 (workingSheds x) (setBox m (fun b => { b with leave := [] }) (setTt (fun t => { t with act := some a }) x)) with
    | (false, x1) => activationFails a stLeave 0 (x1, y.2)
    | (true, x1) =>
      (if (x1.dax.boxes.get m).leave = [] then setTt (fun t => { t with act := some { a with loading := true } }) x1 else x1, y.2)

/-- TT_ACTIVATE. -/
def ttActivateCmd (m : Nat) (b : Mailbox) (y : Mod × List Host.Cell) : Mod × List Host.Cell :=
  let x := y.1
  let q := b.body
  if b.len ≠ 40 || 1 < leAt q 0 1 || leAt q 1 3 ≠ 0 then fail m stInvalid y
  else
    match x.mode.mode with
    | .standalone | .paired | .quiesced => if activationOn x then fail m stBusy y else tryActivate m y
    | _ => fail m stWrongMode y

/-- Once every working shed has confirmed, T is chosen, at least 50 us later but at the start, which takes no step 4 (10 R333, R339); how
much later is free. -/
def announceFlip (x : Mod) : Mod :=
  match x.tt.act with
  | some a =>
    if a.loading && a.flipT.isNone && (workingSheds x).all (fun s => a.okAt.get s) then
      let d := drawNat x
      setTt (fun t => { t with act := some { a with flipT := some (x.now / 1000 + (if a.mbx.isSome then 50000 else 0) + d.1) } }) d.2
    else x
  | none => x

/-- The grant for a load is released. -/
def dropLoadGrant (s : Nat) (mbx : Option Nat) (x : Mod) : Mod :=
  setPwr (fun p => { p with grants := p.grants.filter (fun g => !(g.op == 5 && g.unit == s && g.mbx == mbx)) }) x

/-- Whether a load of shed `s` has its grant. -/
def loadGranted (x : Mod) (s : Nat) (mbx : Option Nat) : Bool := x.pwr.grants.any (fun g => g.op == 5 && g.unit == s && g.mbx == mbx)

/-- A returning shed has loaded the ACTIVE bank: its digest matches, or it loads again once (10 R338). -/
def returnLoad (s : Nat) (d : Digest) (x : Mod) : Mod :=
  match x.tt.active with
  | none => x
  | some b =>
    let bank := x.tt.banks.get b
    if !loadGranted x s none then x
    else if d = bank.digest then
      let c := bank.content.getD {}
      let x1 := setTrb s (fun t => { t with step := 5 }) (dropLoadGrant s none x)
      let x2 := setShedTt s (fun k => { k with digest := d, loaded := true, epoch := x.tt.epoch }) x1
      { x2 with tbl := { x2.tbl with ents := ((List.range 17).filter (· != 0)).foldl (fun m t => m.set (s, t) (imageTable c s t)) x2.tbl.ents } }
    else if (x.trb.get s).loads = 0 then setTrb s (fun t => { t with loads := 1 }) x
    else returnFails s (raise .yard evShedDiverge (dropLoadGrant s none x))

/-- SHED_LOAD_DONE: a shed has loaded the bank, with the digest it computed. -/
def shedLoaded (s : Nat) (d : Digest) (y : Mod × List Host.Cell) : Mod × List Host.Cell :=
  let x := y.1
  if (x.trb.get s).st == .returning && (x.trb.get s).step == 4 then (returnLoad s d x, y.2)
  else
    match x.tt.act with
    | none => y
    | some a =>
      if !a.loading || !shedWorks x s || a.okAt.get s || !loadGranted x s a.mbx then y
      else if d = (x.tt.banks.get a.bank).digest then
        (announceFlip (dropLoadGrant s a.mbx (setTt (fun t => { t with act := some { a with okAt := a.okAt.set s true } }) x)), y.2)
      else if a.loads.get s = 0 then (setTt (fun t => { t with act := some { a with loads := a.loads.set s 1 } }) x, y.2)
      else activationFails a stOk ttShedDigest (raise .yard evShedDiverge x, y.2)

/-- TIMETABLE_FLIP: at T. The answer is sent; at start the module enters Standalone and its waves begin. -/
def flipNow (y : Mod × List Host.Cell) : Mod × List Host.Cell :=
  let x := y.1
  match x.tt.act with
  | none => y
  | some a =>
    match a.flipT with
    | none => y
    | some t =>
      if x.now / 1000 < t then y
      else
        let x1 := flip a t (dropActLeave a x)
        match a.mbx with
        | some m => complete m stOk (activateReply ttOk x1.tt.epoch t) (x1, y.2)
        | none => (allWaves (setStage 11 (enterMode .standalone 2 x1)), y.2)

/-! ### The drain (10 R336, R337) -/

/-- The frames of a bank that is no longer ACTIVE. -/
def oldFrames (x : Mod) : List (Nat × Frame) := (heldFrames x).filter (fun e => e.2.bank != x.tt.active)

/-- Whether the first byte of a frame has entered egress encode. -/
def onItsWay (fr : Frame) : Bool :=
  fr.copies.any (fun c => c.st == .sending || c.txAt.isSome) || (match fr.otr with
    | some o => o.st == .running || o.st == .confirmed
    | none => false)

/-- The shed that holds a frame. -/
def holderShed (x : Mod) (f : Nat) (fr : Frame) : Nat :=
  ((List.range 8).find? (fun s => (held? x s f).isSome)).getD (shedOfPort fr.port)

/-- Every frame of the old tag that is not on its way is dropped and counted. -/
def dropOld (x : Mod) : Mod :=
  (oldFrames x).foldl (fun a e =>
    if onItsWay e.2 then a
    else abandonFrame e.1 (setShedTt (holderShed a e.1 e.2) (fun k => { k with retireDrop := k.retireDrop + 1 }) a)) x

/-- The bank that retires is VALID again, and what waited for the drain goes on. -/
def retire (timeout : Bool) (t : Nat) (y : Mod × List Host.Cell) : Mod × List Host.Cell :=
  let x := y.1
  let x0 := if timeout then raise .yard evDrainTimeout (dropOld x) else x
  let x1 := [0, 1].foldl (fun a b => if (a.tt.banks.get b).st == .retiring then setBank b (fun k => { k with st := .valid }) a else a) x0
  let x2 := setTt (fun tt => { tt with retireT := none, drainTimeout := timeout, drainUs := min 5000 ((x.now - t) / us 1) }) x1
  let x3 := { x2 with tbl := { x2.tbl with old := .const [] } }
  let y4 := x3.tbl.quar.foldl (fun z q => quarantineEnds q.meter q.idx z) (x3, y.2)
  match heldActivation y4.1 with
  | some m => tryActivate m y4
  | none => y4

/-- DRAIN_END: every shed reports zero frames of the old tag, or 5 ms have passed since T. -/
def drainEnds (y : Mod × List Host.Cell) : Mod × List Host.Cell :=
  match y.1.tt.retireT with
  | none => y
  | some t =>
    if oldFrames y.1 = [] then retire false t y
    else if passed y.1.now t (ms 5) then retire true t y
    else y

/-! ### Checks (10 R338, R340) -/

/-- SHED_DIGEST_CHECK: every 1 s the digests of the sheds that hold the bank are compared with the ACTIVE bank's. -/
def checkDigests (x : Mod) : Mod :=
  let free := match x.tt.digestAt with
    | some t => passed x.now t (sec 1)
    | none => true
  match x.tt.active with
  | some b =>
    if !x.dax.up || !free then x
    else
      let x1 := setTt (fun t => { t with digestAt := some x.now }) x
      if (List.range 8).any (fun s => shedWorks x s && (x.tt.sheds.get s).digest != (x.tt.banks.get b).digest) then
        raise .yard evShedDiverge x1 else x1
  | none => x

/-- PARTNER_MISMATCH: the ACTIVE pairs have differed for more than 1 s, and neither module activates. -/
def partnerMismatches (x : Mod) : Mod :=
  let other := match x.cpl.partner with
    | some p => p.activating
    | none => false
  match x.cpl.mismatch with
  | some t =>
    if x.mode.mode == .paired && t + sec 1 < x.now && !x.cpl.mmRaised && !activationOn x && !other then
      let x1 := raise .yard evPartnerMismatch (setCpl (fun c => { c with mmRaised := true }) x)
      notify (ttNote x1) x1
    else x
  | none => x

/-! ### The start activation (10 R339) -/

/-- Leave for the loads of the start, shed by shed. -/
def startLoads (a : Activation) : List Nat → Mod × List Host.Cell → Mod × List Host.Cell
  | [], y => y
  | s :: t, y =>
    match askLeave 5 s none y.1 with
    | (.refused _, x1) => activationFails a stOk 0 (x1, y.2)
    | (_, x1) => startLoads a t (x1, y.2)

/-- The bank that activates at start, and whether the two sequences are equal or unordered. -/
def startChoice (x : Mod) : Option (Nat × Bool) :=
  let ok (b : Nat) : Bool := (x.tt.banks.get b).st == .valid
  let q (b : Nat) : Word := (x.tt.banks.get b).seq
  match ok 0, ok 1 with
  | true, true =>
    if serialNewer (q 0) (q 1) then some (0, false)
    else if serialNewer (q 1) (q 0) then some (1, false)
    else some (x.tt.lastActive.getD 0, true)
  | true, false => some (0, false)
  | false, true => some (1, false)
  | false, false => none

/-- START_ACTIVATION: the chosen bank loads, or the module enters Quiesced. -/
def startActivates (y : Mod × List Host.Cell) : Mod × List Host.Cell :=
  let x := y.1
  if x.mode.mode != .harnessing || x.pwr.stage ≠ 9 || !x.tt.startDone || x.tt.act.isSome then y
  else
    match startChoice x with
    | none =>
      let x1 := raise .yard evNoneValid x
      (setStage 14 (enterMode .quiesced 3 (notify (ttNote x1) x1)), y.2)
    | some (b, unordered) =>
      let x1 := if unordered then raise .yard evSeqUnordered x else x
      let a : Activation := { bank := b, mbx := none, loading := true }
      startLoads a (workingSheds x1) (setStage 10 (setTt (fun t => { t with act := some a }) x1), y.2)

/-! ### The commands -/

/-- DRAWBAR_TRAINING_FAIL. -/
def execDrawbarTrainingFail (pair : Nat) (st : State) : Host.Outcome State Fault Refusal :=
  cmd (.drawbarTrainingFail pair) (fun x => announceFlip (trainingFails pair x)) st

/-- TT_ACTIVATE. -/
def execTtActivate (m : Nat) (st : State) : Host.Outcome State Fault Refusal :=
  cmdAll (.ttActivate m) (onCommand m 0x0023 (ttActivateCmd m)) st

/-- SHED_LOAD_DONE. -/
def execShedLoadDone (s : Nat) (digest : Digest) (st : State) : Host.Outcome State Fault Refusal :=
  cmdAll (.shedLoadDone s digest) (shedLoaded s digest) st

/-- TIMETABLE_FLIP. -/
def execTimetableFlip (st : State) : Host.Outcome State Fault Refusal :=
  cmdAll (.timetableFlip) (flipNow) st

/-- DRAIN_END. -/
def execDrainEnd (st : State) : Host.Outcome State Fault Refusal :=
  cmdAll (.drainEnd) (drainEnds) st

/-- SHED_DIGEST_CHECK. -/
def execShedDigestCheck (st : State) : Host.Outcome State Fault Refusal :=
  cmd (.shedDigestCheck) (checkDigests) st

/-- PARTNER_MISMATCH. -/
def execPartnerMismatch (st : State) : Host.Outcome State Fault Refusal :=
  cmd (.partnerMismatch) (partnerMismatches) st

/-- START_ACTIVATION. -/
def execStartActivation (st : State) : Host.Outcome State Fault Refusal :=
  cmdAll (.startActivation) (startActivates) st

end Sys2Proof.Machine
end

