-- ==== Sys2Proof/Machine/TimeOps.lean ====
section
/-! DEFINITION. Sys2Proof/Machine/TimeOps.lean: changing the time unit, its servo's states, the timing inputs and outputs, and the
Daxdy time messages (09 R293, R301 to R319; 12 R402). -/

namespace Sys2Proof.Machine

/-- Changes the time unit. -/
def setTim (f : Tim → Tim) (x : Mod) : Mod := { x with tim := f x.tim }

/-! ### Set, step and frequency (09 R303 to R305) -/

/-- One second in units of 2^−16 ns. -/
def secUnits : Int := 65536000000000

/-- Whether a time in units of 2^−16 ns stands within the 48-bit seconds. -/
def inTime (u : Int) : Bool := 0 ≤ u && u < 281474976710656 * secUnits

/-- The frequency range of ±500,000 ppb in 2^−8 ppb. -/
def freqOk (f : BitVec 32) : Bool := -128000000 ≤ f.toInt && f.toInt ≤ 128000000

/-- Whether an operation is invalid (09 R303). -/
def timeInvalid (x : Mod) : TimeOp → Bool
  | .set _ ns => 1000000000 ≤ ns.toNat
  | .step off => !inTime (unitsAt x x.now + off.toInt)
  | .freq f => !freqOk f

/-- What the threshold test refuses of an operation, if it does: the value TIM_REFUSED records (09 R304, R317). -/
def jumpRefused (x : Mod) (r : TimeReq) : Option (BitVec 64) :=
  match r.op with
  | .set _ _ => none
  | .step off => if !r.force && x.tim.isSet && x.tim.jump * 65536 < off.toInt.natAbs then some off else none
  | .freq f =>
    let d := f.toInt - x.tim.freq.toInt
    if !r.force && x.tim.jump * 256 < d.natAbs then some (BitVec.ofInt 64 d) else none

/-- Whether an operation is a step. -/
def TimeOp.isStep : TimeOp → Bool
  | .step _ => true
  | _ => false

/-- An operation ends with a RESULT; a TIME_STEP command is answered (09 R316, 12 R402). -/
def endTimeOp (r : TimeReq) (result : Nat) (y : Mod × List Host.Cell) : Mod × List Host.Cell :=
  let z := (setTim (fun t => { t with result := result }) y.1, y.2)
  match r.mbx with
  | some m => complete m stOk [BitVec.ofNat 8 result] z
  | none => z

/-- The offset or change is refused: TIM_REFUSED holds it and JUMP_REFUSED is raised. -/
def refuseJump (v : BitVec 64) (x : Mod) : Mod := raise .yard evJumpRefused (setTim (fun t => { t with refused := v }) x)

/-- The unit begins an operation: it is refused as not owned, invalid or above the threshold, in this order, or stands until it
takes effect (09 R303 to R305). -/
def beginTimeOp (r : TimeReq) (y : Mod × List Host.Cell) : Mod × List Host.Cell :=
  let x := y.1
  if !r.servo && !r.force && x.tim.source ≠ 0 then endTimeOp r 3 y
  else if timeInvalid x r.op then endTimeOp r 2 y
  else
    match jumpRefused x r with
    | some v => endTimeOp r 1 (refuseJump v x, y.2)
    | none => (setTim (fun t => { t with op := some r }) x, y.2)

/-- The unit goes on to the operations that wait, in the order of acceptance. -/
def nextTimeOp : Nat → Mod × List Host.Cell → Mod × List Host.Cell
  | 0, y => y
  | n + 1, y =>
    match y.1.tim.op, y.1.tim.queue with
    | none, r :: t => nextTimeOp n (beginTimeOp r (setTim (fun k => { k with queue := t }) y.1, y.2))
    | _, _ => y

/-- Whether two requests, of the host and of the servo, arrived in one cycle. -/
def TimeReq.meets (a b : TimeReq) : Bool := a.servo != b.servo && a.at_ / 625 == b.at_ / 625

/-- A request joins those that have not taken effect, in the order of acceptance: before the other requester's of its own cycle where the
pointer has it first (09 R303). -/
def joinReqs (r : TimeReq) (first : Bool) (l : List TimeReq) : List TimeReq :=
  if first then l.takeWhile (fun k => !k.meets r) ++ r :: l.dropWhile (fun k => !k.meets r) else l ++ [r]

/-- An operation is accepted; of the host's and the servo's of one cycle the pointer says which is first, and moves past it. One that stood
as the next and comes second now is judged again in its turn. -/
def acceptTimeOp (r : TimeReq) (y : Mod × List Host.Cell) : Mod × List Host.Cell :=
  let t := y.1.tim
  let tie := (t.op.toList ++ t.queue).any (fun k => k.meets r)
  let first := t.ptr == r.servo
  let again := tie && first && t.op.any (fun k => k.meets r)
  let z := (setTim (fun t => { t with
    op := if again then none else t.op
    queue := joinReqs r (tie && first) (if again then t.op.toList ++ t.queue else t.queue)
    ptr := if tie then !t.ptr else t.ptr }) y.1, y.2)
  nextTimeOp z.1.tim.queue.length z

/-- A request of the host, or of the servo while it acquires or is locked: a servo that is off or in holdover corrects nothing (09 R306). -/
def askTimeOp (r : TimeReq) (y : Mod × List Host.Cell) : Mod × List Host.Cell :=
  if r.servo && y.1.tim.servo ≠ 1 && y.1.tim.servo ≠ 2 then y else acceptTimeOp r y

/-! ### Pulse outputs (09 R308, R309, R318) -/

/-- Changes one pulse output. -/
def setPulse (o : Nat) (f : Pulse → Pulse) (x : Mod) : Mod := setTim (fun t => { t with outs := t.outs.upd o f }) x

/-- Start time of a pulse output in units of 2^−16 ns. -/
def Pulse.start (p : Pulse) : Int :=
  ((((p.secHi.toNat % 65536) * 2 ^ 32 + p.secLo.toNat) * 1000000000 + p.startNs.toNat % 2 ^ 30) * 65536 : Nat)

/-- PERIODIC of TIM_PO_CFG. -/
def Pulse.periodic (p : Pulse) : Bool := bitOf p.cfg.toNat 30

/-- The width in units of 16 ns. -/
def Pulse.width (p : Pulse) : Nat := fieldOf p.cfg 23 0

/-- The period in units of 2^−16 ns. -/
def Pulse.step (p : Pulse) : Int := (p.period.toNat % 2 ^ 30 * 65536 : Nat)

/-- The earliest start + k × period that is not before `u`. -/
def Pulse.fromTime (p : Pulse) (u : Int) : Int :=
  if u ≤ p.start || p.step = 0 then p.start else p.start + (u - p.start + p.step - 1) / p.step * p.step

/-- A pulse is driven: the output's edge, and its end one width on. While domain 438 is stopped the outputs are not driven
(16 R481, 19 R571). -/
def drivePulse (o : Nat) (x : Mod) : Mod :=
  let p := x.tim.outs.get o
  if !domRuns x 438 then x
  else emit (.pulse o (!bitOf p.cfg.toNat 29)) (setPulse o (fun p => { p with high := some (x.now + p.width * 16000) }) x)

/-- The pulse in progress on an output ends. -/
def endPulse (o : Nat) (x : Mod) : Mod :=
  let p := x.tim.outs.get o
  match p.high with
  | some t => if t ≤ x.now then emit (.pulse o (bitOf p.cfg.toNat 29)) (setPulse o (fun p => { p with high := none }) x) else x
  | none => x

/-- TIM_PO_CFG of an output takes a new value (09 R308). -/
def armPulse (o : Nat) (v : Word) (x : Mod) : Mod :=
  let u := unitsAt x x.now
  let p0 := { x.tim.outs.get o with cfg := v &&& 0x60FFFFFF#32, armed := false, invalid := false, next := none }
  if !bitOf v.toNat 31 || p0.width = 0 then setPulse o (fun _ => p0) x
  else if p0.periodic && p0.period.toNat % 2 ^ 30 ≤ p0.width * 16 then setPulse o (fun _ => { p0 with invalid := true }) x
  else if !p0.periodic && p0.start < u then raise .yard evPulseMissed (setPulse o (fun _ => p0) x)
  else setPulse o (fun _ => { p0 with armed := true, next := some (if p0.periodic then p0.fromTime u else p0.start) }) x

/-- The next edge of an output after one fired at `u`: a one-shot is disarmed. -/
def afterPulse (o : Nat) (u : Int) (x : Mod) : Mod :=
  setPulse o (fun p => if p.periodic then { p with next := some (p.fromTime (u + 1)) } else { p with armed := false, next := none }) x

/-- PULSE_OUTPUT_FIRE: a scheduled edge has come. -/
def firePulse (o : Nat) (x : Mod) : Mod :=
  match (x.tim.outs.get o).next with
  | some t => if t ≤ unitsAt x x.now then afterPulse o t (drivePulse o x) else x
  | none => x

/-- The outputs after the unit moved from `u` to `v` (09 R309): past due edges one pulse is fired at once; a periodic output
whose edges are repeated fires them again. -/
def movePulse (u v : Int) (x : Mod) (o : Nat) : Mod :=
  match (x.tim.outs.get o).next with
  | some t =>
    if t ≤ v then afterPulse o v (drivePulse o x)
    else if v < u then setPulse o (fun p => { p with next := some (if p.periodic then p.fromTime v else t) }) x
    else x
  | none => x

/-! ### An operation takes effect (09 R303, R304) -/

/-- The servo's lock ends a span of its history at the frequency in force (09 R306). -/
def markLock (x : Mod) : Mod :=
  if x.tim.servo = 2 then
    setTim (fun t => { t with hist := match t.hist with
      | (a, b, f) :: l => if b = 0 then (a, x.now, f) :: l else (a, b, f) :: l
      | [] => [] }) x
  else x

/-- A span of lock begins when the servo is locked. -/
def openLock (x : Mod) : Mod :=
  if x.tim.servo = 2 then setTim (fun t => { t with hist := (x.now, 0, t.freq) :: t.hist }) x else x

/-- The servo stands at a state of TIM_STATUS.SERVO. -/
def enterServo (st : Nat) (x : Mod) : Mod := openLock (setTim (fun t => { t with servo := st }) (markLock x))

/-- Acquiring or locked: which of the two is the servo's own, a free value (log 15). -/
def servoSteers (x : Mod) : Mod :=
  let d := drawNat x
  enterServo (1 + d.1 % 2) d.2

/-- The unit reads `u` from now on, and the outputs follow it. -/
def moveUnit (u : Int) (x : Mod) : Mod :=
  let before := unitsAt x x.now
  (List.range 8).foldl (movePulse before u) (setTim (fun t => { t with base := todOf u, at_ := x.now, isSet := true }) x)

/-- The frequency adjustment is `f` from now on. -/
def moveFreq (f : BitVec 32) (x : Mod) : Mod :=
  openLock (setTim (fun t => { t with base := todOf (unitsAt x x.now), at_ := x.now, freq := f }) (markLock x))

/-- An operation's effect. After a forced operation that is not the servo's, the servo re-acquires; one that holds because its parent's
offset was too large leaves holdover only by a forced step, one in holdover without a parent stays in it (09 R305, R306; log 40). -/
def landTimeOp (r : TimeReq) (x : Mod) : Mod :=
  let x1 := match r.op with
    | .set sec ns => moveUnit ((sec.toNat * 1000000000 + ns.toNat : Nat) * 65536) x
    | .step off => moveUnit (unitsAt x x.now + off.toInt) x
    | .freq f => moveFreq f x
  if r.servo then (if x1.tim.servo = 1 then servoSteers x1 else x1)
  else if r.force && x1.tim.source ≠ 0 && (x1.tim.servo = 1 || x1.tim.servo = 2 || (x1.tim.servo = 4 && r.op.isStep)) then enterServo 1 x1
  else x1

/-- TIME_OP_TAKE_EFFECT: the operation accepted takes effect, at the latest 1 us after its acceptance, and the unit goes on. A step
that has come to leave the range of the seconds is invalid. -/
def timeOpLands (y : Mod × List Host.Cell) : Mod × List Host.Cell :=
  match y.1.tim.op with
  | some r =>
    let x := setTim (fun t => { t with op := none }) y.1
    let z := if timeInvalid x r.op then endTimeOp r 2 (x, y.2) else endTimeOp r 0 (landTimeOp r x, y.2)
    nextTimeOp z.1.tim.queue.length z
  | none => y

/-! ### Reference and servo (09 R293, R306) -/

/-- REF_LOCK. The 10 MHz input is taken while domain 439 runs (16 R481, 19 R571). -/
def refLocks (x : Mod) : Mod := due (domRuns x 439) (setTim (fun t => { t with refLock := true })) x

/-- REF_LOSS. -/
def refLost (x : Mod) : Mod :=
  due x.tim.refLock (fun x => raise .yard evRefLoss (setTim (fun t => { t with refLock := false }) x)) x

/-- The spans of lock within the last `left` picoseconds of lock: their total and the sum of frequency × time. -/
def lockSum : List (Nat × Nat × BitVec 32) → Nat → Nat × Int
  | [], _ => (0, 0)
  | (a, b, f) :: l, left =>
    let d := min (b - a) left
    let r := lockSum l (left - d)
    (r.1 + d, r.2 + d * f.toInt)

/-- The mean frequency of the last 16 s of lock; the frequency in force where there was no lock. -/
def holdFreq (x : Mod) : BitVec 32 :=
  let r := lockSum (markLock x).tim.hist (sec 16)
  if r.1 = 0 then x.tim.freq else BitVec.ofInt 32 (r.2 / r.1)

/-- The servo that acquires or is locked enters holdover. -/
def holdNow (x : Mod) : Mod :=
  due (x.tim.source ≠ 0 && (x.tim.servo = 1 || x.tim.servo = 2)) (fun x =>
    raise .yard evHoldover (moveFreq (holdFreq x) (enterServo 3 x))) x

/-- Whether PPS in, stamped as input 4, has given no edge for 1.1 s (09 R306). -/
def ppsSilent (x : Mod) : Bool := (x.tim.ins.get 4).lastAt.all (fun t => decide (t + ms 1100 ≤ x.now))

/-- SERVO_HOLDOVER_ENTER: the parent has changed or is silent; a servo on PPS in has had no edge for 1.1 s. -/
def holdoverEnters (x : Mod) : Mod := due (x.tim.source ≠ 2 || ppsSilent x) holdNow x

/-- Whether the PTP instance that steers runs in holdover because no module is steward (11 R360). -/
def ptpHeld (x : Mod) : Bool := x.tim.source = 1 && stewardLess x

/-- While no module is steward, the steering PTP instance runs in holdover. -/
def heldFollows (x : Mod) : Mod := if ptpHeld x then holdNow x else x

/-- SERVO_HOLDOVER_EXIT: a new parent has given four offsets with the median `o`. Within the threshold the servo steers again; above
it, it stays, and JUMP_REFUSED is raised once. While no module is steward a PTP servo stays in holdover (11 R360). -/
def holdoverExits (o : BitVec 64) (x : Mod) : Mod :=
  if (x.tim.servo ≠ 3 && x.tim.servo ≠ 4) || ptpHeld x then x
  else if o.toInt.natAbs ≤ x.tim.jump * 65536 then servoSteers x
  else if x.tim.servo = 3 then refuseJump o (enterServo 4 x)
  else x

/-! ### PPS out and capture inputs (09 R310, R311, R318) -/

/-- PPS_OUT_EDGE: NS is 0 and the unit has been set, so PPS out rises. -/
def ppsRises (x : Mod) : Mod :=
  due (domRuns x 438 && x.tim.isSet && (todNow x).ns = 0 && x.tim.ppsOut.isNone) (fun x =>
    let w := if x.tim.ppsMs = 0 then us 1 else ms x.tim.ppsMs
    emit (.pps true) (setTim (fun t => { t with ppsOut := some (x.now + w) }) x)) x

/-- The PPS pulse in progress ends. -/
def ppsFalls (x : Mod) : Mod :=
  match x.tim.ppsOut with
  | some t => if t ≤ x.now then emit (.pps false) (setTim (fun k => { k with ppsOut := none }) x) else x
  | none => x

/-- Changes one capture input. -/
def setCapIn (c : Nat) (f : CapIn → CapIn) (x : Mod) : Mod := setTim (fun t => { t with ins := t.ins.upd c f }) x

/-- Whether an input stamps an edge (09 R318). -/
def CapIn.takes (k : CapIn) (rising : Bool) : Bool := k.en && bitOf k.edge (if rising then 0 else 1)

/-- CAPTURE_INPUT_EDGE: a selected edge is merged with one less than 50 ns before, stamped, or lost. -/
def captureEdge (c : Nat) (rising : Bool) (x : Mod) : Mod :=
  let k := x.tim.ins.get c
  let near := match k.lastAt with
    | some t => x.now < t + 50000
    | none => false
  if !domRuns x 439 || !k.takes rising || near then x
  else
    let w := stampWords (unitsAt x x.now)
    if k.fifo.length < 4 then
      setCapIn c (fun k => { k with lastAt := some x.now, fifo := k.fifo ++ [(w.2, w.1, 0, rising)] }) x
    else setCapIn c (fun k => { k with lastAt := some x.now, ovf := true, lostAt := some x.cyc }) x

/-- The answer to a register read. -/
def answer (v : Nat) (x : Mod) : Mod := { x with rdata := BitVec.ofNat 32 v }

/-- The registers a read latches. -/
def latchRest (l : LatchId) (v : List Nat) (x : Mod) : Mod := { x with latch := x.latch.set l (v.map (BitVec.ofNat 32)) }

/-- CAPTURE_STAMP_POP: the head stamp is read, and its seconds and edge are latched. -/
def popCapture (c : Nat) (x : Mod) : Mod :=
  match (x.tim.ins.get c).fifo with
  | [] => answer 0x3FFFFFFF (latchRest (.capSec c) [0, 0] x)
  | (ns, s, _, r) :: t =>
    answer ns (latchRest (.capSec c) [s % 2 ^ 32, s / 2 ^ 32 + flag 16 r] (setCapIn c (fun k => { k with fifo := t }) x))

/-- TIM_CAP_CFG takes a new value: EN and EDGE, and CLR_OVF clears OVF, but for a stamp lost in this cycle (09 R318). -/
def capCfgLands (c : Nat) (v : Word) (x : Mod) : Mod :=
  setCapIn c (fun k => { k with en := bitOf v.toNat 31, edge := fieldOf v 30 29,
                                ovf := k.ovf && (!bitOf v.toNat 27 || k.lostAt == some x.cyc) }) x

/-- CAPTURE_OVF_CLEAR: a write of TIM_CAP_CFG with CLR_OVF. -/
def capOvfClear (c : Nat) (v : Word) (x : Mod) : Mod := due (bitOf v.toNat 27) (capCfgLands c v) x

/-! ### Return queues and reads (09 R301, R312, R319) -/

/-- TSQ_POP: the head entry is read, and its other words are latched. -/
def popTsq (g : Nat) (x : Mod) : Mod :=
  match (x.tim.tsqs.get g).ents with
  | [] => answer 0 (latchRest (.tsqData g) [0, 0] x)
  | e :: t =>
    answer (e.id * 65536 + e.port % 8 * 8192 + 1)
      (latchRest (.tsqData g) [e.ns, e.sec % 2 ^ 32] (setTim (fun k => { k with tsqs := k.tsqs.upd g (fun q => { q with ents := t }) }) x))

/-- TSQ_OVF_CLEAR: a write of TIM_TSQ_STATUS; CLR_OVF clears OVF, but for an entry lost in this cycle (09 R319). -/
def tsqOvf (g : Nat) (v : Word) (x : Mod) : Mod :=
  due (bitOf v.toNat 30) (setTim (fun k => { k with tsqs := k.tsqs.upd g (fun q => { q with ovf := q.ovf && q.lostAt == some x.cyc }) })) x

/-- TIME_NOW_READ: the unit is read at one instant; the seconds and FRAC are latched (09 R312). The host-bus island samples twice,
1 ns apart: where a 4 ns boundary of the value falls between the two samples, it samples again and the retry counts (15 R468, log
81). -/
def readNow (x : Mod) : Mod :=
  let t := todNow x
  let x1 := if x.now / 4000 = (x.now - 1000) / 4000 then x else tally (.isl .yard 3) x
  answer (t.ns.toNat + t.frac.toNat / 16384 * 2 ^ 30)
    (latchRest .nowSec [t.sec.toNat % 2 ^ 32, t.sec.toNat / 2 ^ 32 + t.frac.toNat * 65536] x1)

/-! ### Daxdy messages (12 R402) -/

/-- TIME_PORT. -/
def timePortCmd (m : Nat) (b : Mailbox) (y : Mod × List Host.Cell) : Mod × List Host.Cell :=
  let q := b.body
  let p := leAt q 0 2
  let k := leAt q 2 1
  let i := (BitVec.ofNat 8 (leAt q 3 1)).toInt
  let adj (o : Nat) : Int := (BitVec.ofNat 32 (leAt q o 4)).toInt
  if b.len ≠ 12 || 1024 ≤ p || !portDefined y.1 p || bitOf k 3 || bitsOf k 7 6 ≠ 0 || i < -7 || 4 < i then fail m stInvalid y
  else complete m stOk [] ({ y.1 with dax := { y.1.dax with ptpPorts := y.1.dax.ptpPorts.set p (some
    { mode := bitsOf k 1 0, oneStep := bitOf k 2, instNo := bitsOf k 5 4, logSync := i, inAdj := adj 4, egAdj := adj 8 }) } }, y.2)

/-- TIME_STEP. FORCE is defined from version 3.2; below it the bit is reserved. -/
def timeStepCmd (m : Nat) (b : Mailbox) (y : Mod × List Host.Cell) : Mod × List Host.Cell :=
  let q := b.body
  let new := y.1.dax.version == some (3, 2)
  if b.len ≠ 16 || leAt q 0 1 / 2 ≠ 0 || !allZero (sliceOf q 1 7) || (!new && leAt q 0 1 ≠ 0) then fail m stInvalid y
  else acceptTimeOp { op := .step (BitVec.ofNat 64 (leAt q 8 8)), servo := false, force := bitOf (leAt q 0 1) 0, at_ := y.1.now,
                      mbx := some m } (setBox m (fun b => { b with began := true }) y.1, y.2)

/-- PTP_CONFIG: one instance is set; a second steering instance is invalid. -/
def ptpConfigCmd (m : Nat) (b : Mailbox) (y : Mod × List Host.Cell) : Mod × List Host.Cell :=
  let q := b.body
  let i := leAt q 0 1
  let fl := leAt q 3 1
  let other := (List.range 4).any (fun j => j ≠ i && (y.1.dax.ptp.get j).steers)
  if b.len ≠ 8 || 4 ≤ i || 4 ≤ leAt q 2 1 || fl / 8 ≠ 0 || leAt q 7 1 ≠ 0 || (bitOf fl 1 && other) then fail m stInvalid y
  else
    let inst : PtpInst := { enable := bitOf fl 0, steers := bitOf fl 1, gmCap := bitOf fl 2, domain := leAt q 1 1,
                            profile := leAt q 2 1, prio1 := leAt q 4 1, prio2 := leAt q 5 1, clkClass := leAt q 6 1 }
    complete m stOk [] ({ y.1 with dax := { y.1.dax with ptp := y.1.dax.ptp.set i inst } }, y.2)

/-! ### Posted writes of the yard TIM page (09 R313 to R318; 13 R413) -/

/-- TIM_CFG.SOURCE changes: the servo is off for the host and acquires for PTP and PPS in. -/
def setSource (v : Nat) (x : Mod) : Mod :=
  if v = 3 || v = x.tim.source then x
  else enterServo (if v = 0 then 0 else 1) (setTim (fun t => { t with source := v }) x)

/-- A write of TIM_OP: the operation its OP names. -/
def timOpWrite (v : Word) (y : Mod × List Host.Cell) : Mod × List Host.Cell :=
  let a := y.1.tim.args
  let req (o : TimeOp) : TimeReq := { op := o, servo := false, force := bitOf v.toNat 3, at_ := y.1.now }
  match fieldOf v 2 0 with
  | 1 => acceptTimeOp (req (.set ((a.2.2.setWidth 16 ++ a.2.1).setWidth 48) (a.1.setWidth 30))) y
  | 2 => acceptTimeOp (req (.step (a.2.1 ++ a.1))) y
  | 3 => acceptTimeOp (req (.freq a.1)) y
  | _ => y

/-- Whether TIM_OP.BUSY reads 1. -/
def timBusy (x : Mod) : Bool := x.tim.op.isSome || !x.tim.queue.isEmpty || x.tim.posted.isSome

/-- A write of a register of the yard TIM page at an offset in the page takes effect in the always-on domain. -/
def timLands (off : Nat) (v : Word) (y : Mod × List Host.Cell) : Mod × List Host.Cell :=
  let n := v.toNat
  let on (f : Mod → Mod) : Mod × List Host.Cell := (f y.1, y.2)
  if off = 0x020 then on (fun x => setSource (fieldOf v 31 30)
    (setTim (fun t => { t with ppsMs := min (fieldOf v 29 20) 500 }) x))
  else if off = 0x02C then on (setTim (fun t => { t with jump := if n % 2 ^ 30 = 0 then t.jump else min (n % 2 ^ 30) 1000000000 }))
  else if off = 0x030 then on (setTim (fun t => { t with args := (v, t.args.2.1, t.args.2.2) }))
  else if off = 0x034 then on (setTim (fun t => { t with args := (t.args.1, v, t.args.2.2) }))
  else if off = 0x038 then on (setTim (fun t => { t with args := (t.args.1, t.args.2.1, v) }))
  else if off = 0x03C then timOpWrite v y
  else if 0x100 ≤ off && off < 0x200 then
    let o := (off - 0x100) / 0x20
    match off % 0x20 with
    | 0x00 => on (armPulse o v)
    | 0x04 => on (setPulse o (fun p => { p with startNs := v &&& 0x3FFFFFFF#32 }))
    | 0x08 => on (setPulse o (fun p => { p with secLo := v }))
    | 0x0C => on (setPulse o (fun p => { p with secHi := v &&& 0xFFFF#32 }))
    | 0x10 => on (setPulse o (fun p => { p with period := v &&& 0x3FFFFFFF#32 }))
    | _ => y
  else if 0x200 ≤ off && off < 0x250 && off % 0x10 = 0 then on (capCfgLands ((off - 0x200) / 0x10) v)
  else y

/-- POSTED_WRITE_LAND: the PW write in flight lands. -/
def postedLands (y : Mod × List Host.Cell) : Mod × List Host.Cell :=
  match y.1.tim.posted with
  | some (off, v, _) => timLands off v (setTim (fun t => { t with posted := none }) y.1, y.2)
  | none => y

/-! ### The commands -/

/-- TIME_UNIT_SET. -/
def execTimeUnitSet (servo force : Bool) (sec : BitVec 48) (ns : BitVec 30) (st : State) : Host.Outcome State Fault Refusal :=
  cmdAll (.timeUnitSet servo force sec ns) (fun y => askTimeOp { op := .set sec ns, servo := servo, force := force, at_ := y.1.now } y) st

/-- TIME_UNIT_STEP. -/
def execTimeUnitStep (servo force : Bool) (off : BitVec 64) (st : State) : Host.Outcome State Fault Refusal :=
  cmdAll (.timeUnitStep servo force off) (fun y => askTimeOp { op := .step off, servo := servo, force := force, at_ := y.1.now } y) st

/-- TIME_UNIT_FREQUENCY. -/
def execTimeUnitFrequency (servo force : Bool) (freq : BitVec 32) (st : State) : Host.Outcome State Fault Refusal :=
  cmdAll (.timeUnitFrequency servo force freq) (fun y => askTimeOp { op := .freq freq, servo := servo, force := force, at_ := y.1.now } y) st

/-- TIME_OP_TAKE_EFFECT. -/
def execTimeOpTakeEffect (st : State) : Host.Outcome State Fault Refusal :=
  cmdAll (.timeOpTakeEffect) (timeOpLands) st

/-- REF_LOCK. -/
def execRefLock (st : State) : Host.Outcome State Fault Refusal :=
  cmd (.refLock) (refLocks) st

/-- REF_LOSS. -/
def execRefLoss (st : State) : Host.Outcome State Fault Refusal :=
  cmd (.refLoss) (refLost) st

/-- SERVO_HOLDOVER_ENTER. -/
def execServoHoldoverEnter (st : State) : Host.Outcome State Fault Refusal :=
  cmd (.servoHoldoverEnter) (holdoverEnters) st

/-- SERVO_HOLDOVER_EXIT. -/
def execServoHoldoverExit (median : BitVec 64) (st : State) : Host.Outcome State Fault Refusal :=
  cmd (.servoHoldoverExit median) (holdoverExits median) st

/-- PULSE_OUTPUT_ARM. -/
def execPulseOutputArm (o : Nat) (v : Word) (st : State) : Host.Outcome State Fault Refusal :=
  cmd (.pulseOutputArm o v) (armPulse o v) st

/-- PULSE_OUTPUT_FIRE. -/
def execPulseOutputFire (o : Nat) (st : State) : Host.Outcome State Fault Refusal :=
  cmd (.pulseOutputFire o) (firePulse o) st

/-- PPS_OUT_EDGE. -/
def execPpsOutEdge (st : State) : Host.Outcome State Fault Refusal :=
  cmd (.ppsOutEdge) (ppsRises) st

/-- CAPTURE_INPUT_EDGE. -/
def execCaptureInputEdge (c : Nat) (rising : Bool) (st : State) : Host.Outcome State Fault Refusal :=
  cmd (.captureInputEdge c rising) (captureEdge c rising) st

/-- CAPTURE_STAMP_POP. -/
def execCaptureStampPop (c : Nat) (st : State) : Host.Outcome State Fault Refusal :=
  cmd (.captureStampPop c) (popCapture c) st

/-- CAPTURE_OVF_CLEAR. -/
def execCaptureOvfClear (c : Nat) (v : Word) (st : State) : Host.Outcome State Fault Refusal :=
  cmd (.captureOvfClear c v) (capOvfClear c v) st

/-- TIME_NOW_READ. -/
def execTimeNowRead (st : State) : Host.Outcome State Fault Refusal :=
  cmd (.timeNowRead) (readNow) st

/-- TIME_PORT. -/
def execTimePort (m : Nat) (st : State) : Host.Outcome State Fault Refusal :=
  cmdAll (.timePort m) (onCommand m 0x0040 (timePortCmd m)) st

/-- TIME_STEP. -/
def execTimeStep (m : Nat) (st : State) : Host.Outcome State Fault Refusal :=
  cmdAll (.timeStep m) (onCommand m 0x0041 (timeStepCmd m)) st

/-- PTP_CONFIG. -/
def execPtpConfig (m : Nat) (st : State) : Host.Outcome State Fault Refusal :=
  cmdAll (.ptpConfig m) (onCommand m 0x0042 (ptpConfigCmd m)) st

/-- POSTED_WRITE_LAND. -/
def execPostedWriteLand (st : State) : Host.Outcome State Fault Refusal :=
  cmdAll (.postedWriteLand) (postedLands) st

end Sys2Proof.Machine
end

