-- ==== Sys2Proof/Machine/Counters.lean ====
section
/-! DEFINITION. Sys2Proof/Machine/Counters.lean: the harvest of counters, the wide pairs with their selectors, and the reads that
latch or pop (02 R49 to R53, R74; 13 R410 to R412; 04 R147; 17 R524, R529). -/

namespace Sys2Proof.Machine

/-! ### Spill and harvest (02 R49, R50) -/

/-- The stall whose LNE_EVT tells of a counter's spills, if the counter is a stall's. Those of QUE counters tell there too: 07 R260 puts
QUE in place of LNE in 02 R49 and R50, and QUE_EVT has no SPILL_COUNT and no SPILL_LATE (DESIGN CHOICE, log 70). -/
def spillStall : CtrId → Option Nat
  | .lne g _ _ => some g
  | .prs g _ _ => some g
  | .otr g _ _ => some g
  | .que p _ _ => if p < 1024 then some (stallOf p) else none
  | _ => none

/-- COUNTER_SPILL: the accumulator has reached 2^35. -/
def spillNow (c : CtrId) (x : Mod) : Mod :=
  let k := x.ctrs.get c
  due (2 ^ 35 ≤ k.acc && !k.spilled) (fun x =>
    let x1 := { x with ctrs := x.ctrs.set c { k with spilled := true } }
    match spillStall c with
    | some g => { x1 with spills := x1.spills.upd g (· + 1) }
    | none => x1) x

/-- COUNTER_HARVEST: 2^35 moves from the accumulator to the harvest word; a harvest whose residue check fails twice is dropped, and stays
due (17 R517). -/
def harvestNow (c : CtrId) (x : Mod) : Mod :=
  due (x.ctrs.get c).spilled (fun x =>
    let y := residue (.harvest c) 0 (readHarvest c x)
    let x1 := y.2
    if y.1 then x1 else { x1 with ctrs := x1.ctrs.upd c (fun k =>
      { k with acc := k.acc - 2 ^ 35, hw := k.hw + BitVec.ofNat 64 (2 ^ 35), spilled := false, late := false }) }) x

/-- SPILL_LATE: the accumulator has reached 2^36 − 1 before its harvest. -/
def spillLateNow (c : CtrId) (x : Mod) : Mod :=
  let k := x.ctrs.get c
  due (k.acc = 2 ^ 36 - 1 && !k.late) (fun x =>
    let x1 := { x with ctrs := x.ctrs.set c { k with late := true } }
    match spillStall c with
    | some g => raise (.stall g) evSpillLate x1
    | none => x1) x

/-! ### Registers behind a stopped island (13 R410, R413; 15 R470) -/

/-- The island a register lies in, where its domain may stop: the stall's pipeline, the shed core, the Ostler group. -/
def offIsland (off : Nat) : Option Nat :=
  if off < 0x1000000 || 0x9000000 ≤ off then none
  else
    let s := off / 0x1000000 - 1
    let o := off % 0x1000000
    if 0xC00000 ≤ o then none
    else if 0x800000 ≤ o then some (0xA00 + 16 * s + (o - 0x800000) / 0x40000)
    else if o / 0x10000 = 9 then some (0x800 + s)
    else some (0x600 + s)

/-- Whether the register at an offset can be reached: its island runs, or it is a MOD register and domain 446 runs. -/
def reachable (x : Mod) (off : Nat) : Bool :=
  match offIsland off with
  | some i => domRuns x (islandDomain i)
  | none => off / 0x4000 != 0x44 || domRuns x 446

/-- Runs an access where the register's island runs; else it times out: `kind` 0 a read, which returns 0, 1 a write, which is
lost. The MOD registers live in domain 446, which has no island of its own (19, 15 R463). -/
def reach (off kind : Nat) (f : Mod → Mod) (x : Mod) : Mod :=
  match offIsland off with
  | some i => if domRuns x (islandDomain i) then f x else handshakeTimesOut 0x200 (BitVec.ofNat 12 i) kind off x
  | none =>
    if off / 0x4000 = 0x44 && !domRuns x 446 then (if kind = 0 then logAccess 6 0xF 0 off { x with rdata := 0 } else x) else f x

/-! ### Wide pairs (02 R52, R53; 13 R412) -/

/-- The BAR0 offset of a pair's low register. -/
def pairOff : PairId → Nat
  | .lne g => levelBase (.stall g) + 0x104
  | .prs g => levelBase (.stall g) + 0x4104
  | .otr g => levelBase (.stall g) + 0x8104
  | .que g => levelBase (.stall g) + 0xC104
  | .lkp s => levelBase (.shed s) + 0x20304
  | .otrT s => levelBase (.shed s) + 0x30104
  | .lft s => levelBase (.shed s) + 0x40104
  | .xbr s => levelBase (.shed s) + 0x50104
  | .cpl => 0xA0104
  | .ost s => levelBase (.shed s) + 0x90104
  | .isl l => levelBase l + evtPage l 5 + 0x104
  | .pwr => 0xE0104
  | .capPc s => levelBase (.shed s) + 0x70104
  | .snapTime => 0x70100
  | .ringBase n => ringOff n + 0x08
  | .ringWb n => ringOff n + 0x10

/-- The writable bits of a pair's selector, if it has one. -/
def selMask : PairId → Option Nat
  | .lne _ | .prs _ | .otr _ | .xbr _ | .ost _ => some 0x77F
  | .que _ => some 0x7F7F
  | .lkp _ | .otrT _ | .lft _ | .cpl | .isl _ | .pwr => some 0x7F
  | .capPc _ => some 0x10F
  | _ => none

/-- Whether a port starts at lane-in-stall `p` of stall `g` (02 R72). -/
def portStarts (x : Mod) (g p : Nat) : Bool := (cfgPorts x).any (fun k => k.1 == 8 * g + p)

/-- Whether a counter index is listed for a block. -/
def ctrListed : PairId → Nat → Bool
  | .lne _, i => i ≤ 28 || (32 ≤ i && i ≤ 58) || (64 ≤ i && i ≤ 79)
  | .prs _, i => i ≤ 13 || (16 ≤ i && i ≤ 19)
  | .otr _, i => i ≤ 15
  | .que _, i => i ≤ 9
  | .lkp _, i => i ≤ 14
  | .otrT _, i => i ≤ 7
  | .lft _, i => i ≤ 6
  | .xbr _, i => i ≤ 5 || (8 ≤ i && i ≤ 12)
  | .cpl, i => i ≤ 15
  | .ost _, i => i ≤ 5
  | .isl _, i => i ≤ 4
  | .pwr, i => i ≤ 7
  | _, _ => false

/-- The counter a pair's selector names, if it names one (02 R74). -/
def pairCtr (x : Mod) (p : PairId) : Option CtrId :=
  let w := (x.pairs.get p).sel
  let i := fieldOf w 6 0
  let k := fieldOf w 10 8
  if !ctrListed p i then none
  else
    match p with
    | .lne g => if portStarts x g k then some (.lne g k i) else none
    | .prs g => if portStarts x g k then some (.prs g k i) else none
    | .otr g => if portStarts x g k then some (.otr g k i) else none
    | .que g => if portStarts x g k then some (.que (8 * g + k) (fieldOf w 14 11) i) else none
    | .lkp s => some (.lkp s i)
    | .otrT s => some (.otrT s i)
    | .lft s => some (.lft s i)
    | .xbr s => if i < 8 && k = 7 then none else some (.xbr s k i)
    | .cpl => some (.cpl i)
    | .ost s => if k < 4 then some (.ost s k i) else none
    | .isl l => some (.isl l i)
    | .pwr => some (.pwr i)
    | _ => none

/-- The current 64-bit value of a pair. -/
def pairValue (x : Mod) (p : PairId) : BitVec 64 :=
  match p with
  | .capPc s =>
    let w := (x.pairs.get p).sel
    let n := fieldOf w 3 0
    if bitOf w.toNat 8 then ((x.cap.sheds.get s).snap.get n).setWidth 64 else (((x.cap.sheds.get s).pcs.get n).val).setWidth 64
  | .snapTime => x.cap.snapTime
  | .ringBase n => BitVec.ofNat 64 (x.host.rings.get n).base
  | .ringWb n => BitVec.ofNat 64 (x.host.rings.get n).wb
  | _ =>
    match pairCtr x p with
    | some c => (x.ctrs.get c).value
    | none => 0

/-- Changes one pair. -/
def setPair (p : PairId) (f : PairSt → PairSt) (x : Mod) : Mod := { x with pairs := x.pairs.upd p f }

/-- The harvest word behind a pair is read (17 R518). -/
def readPair (p : PairId) (x : Mod) : Mod :=
  match p with
  | .capPc _ => x
  | .snapTime => x
  | .ringBase _ => x
  | .ringWb _ => x
  | _ =>
    match pairCtr x p with
    | some c => readHarvest c x
    | none => x

/-- A read of the low register: the value at one instant; its high half is latched. -/
def readLow (p : PairId) (x : Mod) : Mod :=
  reach (pairOff p) 0 (fun x_ =>
    let x := readPair p x_
    let v := pairValue x p
    { setPair p (fun k => { k with latch := some (v.extractLsb' 32 32) }) x with rdata := v.setWidth 32 }) x

/-- Whether a pair's selection names what its value is: a counter that is listed, at a port that starts there (02 R74); pairs without
a selection always do. -/
def pairNames (x : Mod) (p : PairId) : Bool :=
  match p with
  | .capPc _ => true
  | .snapTime => true
  | .ringBase _ => true
  | .ringWb _ => true
  | _ => (pairCtr x p).isSome

/-- A write of the selector: the latch and a held low half are discarded. -/
def writeSel (p : PairId) (v : Word) (x : Mod) : Mod :=
  match selMask p with
  | some m => reach (pairOff p - 4) 1 (setPair p (fun _ => { sel := v &&& BitVec.ofNat 32 m })) x
  | none => x

/-- Whether a pair takes writes now: not with a selection that names no counter; a ring's pairs while it is not enabled, and
CAP_PC while SNAP is 0 (02 R74, 08 R284, 13 R423). `true` in the second: a refused write is a lock violation. -/
def pairOpen (x : Mod) (p : PairId) : Bool × Bool :=
  match p with
  | .capPc _ => (!bitOf (x.pairs.get p).sel.toNat 8, true)
  | .snapTime => (true, false)
  | .ringBase n => (!(x.host.rings.get n).enable, true)
  | .ringWb n => (!(x.host.rings.get n).enable, true)
  | _ => ((pairCtr x p).isSome, false)

/-- The level and block whose LOCK_VIOLATION a refused pair write raises. -/
def pairLock : PairId → Level × Nat
  | .capPc s => (.shed s, 12)
  | _ => (.yard, 19)

/-- A write to a pair that is not open. -/
def refusePair (p : PairId) (off : Nat) (x : Mod) : Mod :=
  if (pairOpen x p).2 then raiseLock (pairLock p).1 (pairLock p).2 0 off x else x

/-- A write of the low register is held. -/
def holdLow (p : PairId) (v : Word) (x : Mod) : Mod :=
  reach (pairOff p) 1 (fun x =>
    if (pairOpen x p).1 then setPair p (fun k => { k with held := some v }) x else refusePair p (pairOff p) x) x

/-- A 64-bit value is committed to a pair. -/
def commitPair (p : PairId) (v : BitVec 64) (x : Mod) : Mod :=
  match p with
  | .capPc s => setPc s (fieldOf (x.pairs.get p).sel 3 0) (fun c => { c with val := v.setWidth 48 + BitVec.ofNat 48 (freshIn x.cyc c.cyc c.fresh) }) x
  | .snapTime => { x with cap := { x.cap with snapTime := v } }
  | .ringBase n => setRing n (fun r => { r with base := v.toNat }) x
  | .ringWb n => setRing n (fun r => { r with wb := v.toNat / 8 * 8 }) x
  | _ =>
    match pairCtr x p with
    | some c => eccWrite (fun w => decide (w = .harvest c)) { x with ctrs := x.ctrs.upd c (Counter.written x.cyc v) }
    | none => x

/-- A write of the high register commits both halves; without a held low half it commits a low half of 0, logged with
KIND 4. -/
def commitHigh (p : PairId) (v : Word) (x : Mod) : Mod :=
  reach (pairOff p + 4) 1 (fun x =>
    if (pairOpen x p).1 then
      let x1 := setPair p (fun k => { k with held := none }) x
      match (x.pairs.get p).held with
      | some lo => commitPair p (v ++ lo) x1
      | none => logAccess 4 0xF 0 (pairOff p + 4) (commitPair p (v ++ 0#32) x1)
    else refusePair p (pairOff p + 4) x) x

/-! ### Reads that latch or pop -/

/-- The records at the front of a log whose store cannot be read are discarded and counted in LOST (17 R518). -/
def skipSpoilt (l : Level) : List TRec → Mod → Mod
  | [], x => x
  | r :: t, x =>
    let w (e : EccWord) : Bool := decide (e = .trouble l r.seq)
    let y := eccRead w x
    if y.1 then
      let x1 := eccWrite w y.2
      skipSpoilt l t { x1 with logs := x1.logs.upd l (fun k => k.change x1.cyc (·.discard r.seq)) }
    else y.2

/-- TRB_REC0 of a level: the oldest record is popped, the other words latched; before a new record of the same cycle (17 R524,
R529). -/
def popRecord (l : Level) (x_ : Mod) : Mod :=
  let x := skipSpoilt l ((x_.logs.get l).met x_.cyc).recs x_
  let t := x.logs.get l
  match (t.met x.cyc).recs with
  | [] => answer 0 (latchRest (.troubleRec l) [0, 0, 0] x)
  | r :: rest =>
    answer (r.seq.toNat * 65536 + r.sev % 8 * 8192 + 4096 + r.code % 512)
      (latchRest (.troubleRec l) [r.time % 2 ^ 32, r.time / 2 ^ 32, r.detail.toNat]
        { x with logs := x.logs.set l (t.change x.cyc (fun k => { k with recs := rest })) })

/-- The BAR0 offset of the register whose read latches a group. -/
def latchOff : LatchId → Nat
  | .flapLog s => levelBase (.shed s) + 0x20500
  | .freeLog s => levelBase (.shed s) + 0x40200
  | .mcheckLog s => levelBase (.shed s) + 0x90200
  | .xerrLog l => levelBase l + evtPage l 5 + 0x200
  | .accessLog => 0xC0010
  | .pwrLog i => 0xE0200 + 8 * i
  | .mono => 0x80010
  | .refused => 0x80040
  | .flip => 0x90020
  | .retireDrop s => levelBase (.shed s) + 0x80030
  | .nowSec => 0x80000
  | .capSec c => 0x80204 + 0x10 * c
  | .tsqData g => levelBase (.stall g) + 0x10010
  | .troubleRec l => levelBase l + evtPage l 0 + 0x20

/-- OST_MCHECK_LOG0 and LOG1 (14 R460). -/
def mcheckWords (k : MLog) : List Nat :=
  [at_ 30 2 k.engine + at_ 27 3 k.kind + flag 26 k.rewritten + k.count.toNat * 2 ^ 14 + k.uaddr.toNat,
   k.naddr.toNat * 65536 + k.entry.toNat]

/-- The words of a latched group as they stand now, the first included. -/
def groupWords (x : Mod) : LatchId → List Nat
  | .flapLog s => (x.tbl.flapLog.get s).map (·.toNat)
  | .freeLog s => [(x.loft.get s).log0.toNat, (x.loft.get s).log1.toNat]
  | .mcheckLog s => mcheckWords (x.ost.get s).mlog
  | .xerrLog l =>
    let e := x.isl.xerr.get l
    [at_ 28 4 e.kind + e.near.toNat * 4096 + e.far.toNat, e.count.toNat]
  | .accessLog =>
    let a := x.host.access
    [at_ 28 4 a.kind + at_ 24 4 a.be + a.count.toNat, at_ 30 2 a.bar + a.off % 2 ^ 28]
  | .pwrLog i =>
    let e := x.pwr.log.get i
    [at_ 16 16 e.domain + at_ 8 8 e.reason + at_ 6 2 e.kind, at_ 24 8 e.refuser + at_ 16 8 e.op + at_ 0 16 e.timeMs]
  | .mono => [x.now / 1000 % 2 ^ 32, x.now / 1000 / 2 ^ 32 % 2 ^ 32]
  | .refused => [x.tim.refused.toNat % 2 ^ 32, x.tim.refused.toNat / 2 ^ 32]
  | .flip => [x.tt.flipNs.toNat % 2 ^ 32, x.tt.flipNs.toNat / 2 ^ 32]
  | .retireDrop s =>
    let n := (x.tt.sheds.get s).retireDrop.toNat
    [n % 2 ^ 32, n / 2 ^ 32]
  | _ => []

/-- A read of the first register of a latched group: it answers, and the others are latched. -/
def readLatch (l : LatchId) (x : Mod) : Mod :=
  reach (latchOff l) 0 (fun x =>
    match l with
    | .nowSec => readNow x
    | .capSec c => popCapture c x
    | .tsqData g => popTsq g x
    | .troubleRec k => popRecord k x
    | _ => answer ((groupWords x l).headD 0) (latchRest l (groupWords x l).tail x)) x

/-! ### Queue depth (07 R254, R259) -/

/-- QUE_DEPTH_SEL: depth, peak and delays of the selected queue are taken at one instant. -/
def selectDepth (g : Nat) (v : Word) (x : Mod) : Mod :=
  reach (levelBase (.stall g) + 0xC000) 1 (fun x =>
    let w := v &&& 0x70F#32
    let q := queSt x (8 * g + fieldOf w 10 8) (fieldOf w 3 0)
    { x with que := { x.que with sel := x.que.sel.set g w,
                                 snap := x.que.snap.set g (queueCells q, q.peak, q.max, q.last) } }) x

/-! ### Performance counters and sampler (08 R279, R289, R290) -/

/-- PC_OVERFLOW: a counter at 2^48 − 1 counts. -/
def pcWraps (s n : Nat) (x : Mod) : Mod :=
  let c := (x.cap.sheds.get s).pcs.get n
  due (c.cfg.getLsbD 31 && c.val.toNat = 2 ^ 48 - 1) (pcAdd s n 1) x

/-- The BAR0 offset of a register of a shed's CAP page (08). -/
def capOff (s off : Nat) : Nat := levelBase (.shed s) + 0x70000 + off

/-- CAP_PRECISE_PERIOD: a write loads CAP_PRECISE_LEFT. -/
def writePeriod (s : Nat) (v : Word) (x : Mod) : Mod :=
  setCap s (fun c => { c with period := v &&& 0xFFFFFF#32, left := v.toNat % 2 ^ 24 }) x

/-- CAP_PRECISE_CFG: ARM is not taken while PERIOD is 0. A write with MATCH 1 names its PORT: one above 1037, or a line port that is not
defined, is ignored and logged (00 R4). No KIND of 13 R431 is given for it: a free one (DESIGN CHOICE, log 73). -/
def writePrecise (s : Nat) (v : Word) (x : Mod) : Mod :=
  if fieldOf v 29 28 = 1 && !portDefined x (fieldOf v 10 0) then
    let k := drawNat x
    logAccess (k.1 % 10) 0xF 0 (capOff s 0x200) k.2
  else setCap s (fun c =>
    let w := v &&& 0xFF0007FF#32
    { c with precise := if c.period = 0 then w &&& 0x7FFFFFFF#32 else w }) x

/-! ### The commands -/

/-- COUNTER_SPILL. -/
def execCounterSpill (c : CtrId) (st : State) : Host.Outcome State Fault Refusal :=
  cmd (.counterSpill c) (spillNow c) st

/-- COUNTER_HARVEST. -/
def execCounterHarvest (c : CtrId) (st : State) : Host.Outcome State Fault Refusal :=
  cmd (.counterHarvest c) (harvestNow c) st

/-- SPILL_LATE. -/
def execSpillLate (c : CtrId) (st : State) : Host.Outcome State Fault Refusal :=
  cmd (.spillLate c) (spillLateNow c) st

/-- COUNTER_LO_READ. -/
def execCounterLoRead (p : PairId) (st : State) : Host.Outcome State Fault Refusal :=
  cmd (.counterLoRead p) (readLow p) st

/-- COUNTER_SELECT_WRITE. -/
def execCounterSelectWrite (p : PairId) (v : Word) (st : State) : Host.Outcome State Fault Refusal :=
  cmd (.counterSelectWrite p v) (writeSel p v) st

/-- WIDE_PAIR_LOW_WRITE. -/
def execWidePairLowWrite (p : PairId) (v : Word) (st : State) : Host.Outcome State Fault Refusal :=
  cmd (.widePairLowWrite p v) (holdLow p v) st

/-- WIDE_PAIR_HIGH_WRITE. -/
def execWidePairHighWrite (p : PairId) (v : Word) (st : State) : Host.Outcome State Fault Refusal :=
  cmd (.widePairHighWrite p v) (commitHigh p v) st

/-- LATCH_READ. -/
def execLatchRead (l : LatchId) (st : State) : Host.Outcome State Fault Refusal :=
  cmd (.latchRead l) (readLatch l) st

/-- TROUBLE_RECORD_POP. -/
def execTroubleRecordPop (l : Level) (st : State) : Host.Outcome State Fault Refusal :=
  cmd (.troubleRecordPop l) (readLatch (.troubleRec l)) st

/-- DEPTH_SELECT_WRITE. -/
def execDepthSelectWrite (g : Nat) (v : Word) (st : State) : Host.Outcome State Fault Refusal :=
  cmd (.depthSelectWrite g v) (selectDepth g v) st

/-- PC_OVERFLOW. -/
def execPcOverflow (s n : Nat) (st : State) : Host.Outcome State Fault Refusal :=
  cmd (.pcOverflow s n) (pcWraps s n) st

/-- PRECISE_PERIOD_WRITE. -/
def execPrecisePeriodWrite (s : Nat) (v : Word) (st : State) : Host.Outcome State Fault Refusal :=
  cmd (.precisePeriodWrite s v) (reach (capOff s 0x204) 1 (writePeriod s v)) st

/-- PRECISE_CFG_WRITE. -/
def execPreciseCfgWrite (s : Nat) (v : Word) (st : State) : Host.Outcome State Fault Refusal :=
  cmd (.preciseCfgWrite s v) (reach (capOff s 0x200) 1 (writePrecise s v)) st

/-- PC_CONFIG_WRITE. -/
def execPcConfigWrite (s n : Nat) (thresh : Bool) (v : Word) (st : State) : Host.Outcome State Fault Refusal :=
  cmd (.pcConfigWrite s n thresh v) (reach (capOff s (4 * n + if thresh then 0x40 else 0)) 1 (pcWrite s n thresh v)) st

/-- TSQ_OVF_CLEAR. -/
def execTsqOvfClear (g : Nat) (v : Word) (st : State) : Host.Outcome State Fault Refusal :=
  cmd (.tsqOvfClear g v) (reach (levelBase (.stall g) + 0x10004) 1 (tsqOvf g v)) st

/-- TSQ_POP. -/
def execTsqPop (g : Nat) (st : State) : Host.Outcome State Fault Refusal :=
  cmd (.tsqPop g) (readLatch (.tsqData g)) st

end Sys2Proof.Machine
end

