-- ==== Sys2Proof/Machine/Leave.lean ====
section
/-! DEFINITION. Sys2Proof/Machine/Leave.lean: the queue of leave and the operations that begin under it, waits for the step limit,
inlets and hold-up, thermal limits, scrubbing and the comparison of replicas (16, 17 R520, 04 R116). -/

namespace Sys2Proof.Machine

/-- A Fatal event of a shed, after which a pending activation may have all its confirmations. -/
def shedFalls (s : Nat) (e : Evt) (x : Mod) : Mod := announceFlip (fatal s e x)

/-! ### Operations under leave (16 R492, R493) -/

/-- A granted operation begins. -/
def startOp (op unit : Nat) (x : Mod) : Mod :=
  match op with
  | 1 => if domSt x (408 + unit) == .stop then wakeOrWait (if x.pwr.stage = 6 then 0 else 6) (408 + unit) x else x
  | 2 => if x.pwr.wave.isSome then x else beginWave unit x
  | 3 => if pairPowered x unit then beginDrawbarTraining unit x else x
  | 4 => if domSt x (352 + unit) == .stop then askWake 2 (352 + unit) x else x
  | 8 => setTrb unit (fun t => { t with scrubRun := some x.now }) x
  | 9 => if x.cpl.link then x else setCpl (fun c => { c with training := true }) x
  | 10 => if x.cpl.resyncOut then beginResync x else x
  | _ => x

/-- The Daxdy command of mailbox `m` goes on: it has all its leave. -/
def resumeBox (m : Nat) (y : Mod × List Host.Cell) : Mod × List Host.Cell :=
  let x := y.1
  match (x.dax.boxes.get m).opcode with
  | 0x0013 => startFlush m y
  | 0x0016 => startTicketFlush m y
  | 0x0023 => (setTt (fun t => { t with act := t.act.map (fun a => if a.mbx = some m then { a with loading := true } else a) }) x, y.2)
  | 0x0060 => (retrainCoupler x, y.2)
  | _ => y

/-- A request that waited is granted. -/
def grantQueued (q : LeaveReq) (y : Mod × List Host.Cell) : Mod × List Host.Cell :=
  let x := addGrant q.id q.op q.unit q.mbx y.1
  match q.mbx with
  | none => (startOp q.op q.unit x, y.2)
  | some m =>
    let x1 := setBox m (fun b => { b with leave := b.leave.filter (· != q.id) }) x
    if (x1.dax.boxes.get m).leave = [] then resumeBox m (x1, y.2) else (x1, y.2)

/-- LEAVE_GRANT: the head of the queue, once it fits. Nothing is granted in hold-up. -/
def grantHead (y : Mod × List Host.Cell) : Mod × List Host.Cell :=
  let x := y.1
  match x.pwr.queue with
  | [] => y
  | q :: t =>
    if x.pwr.holdup.isNone && decide (committed x + leaveEst q.op ≤ budget x) && stepFits x (leaveStep q.op) then
      grantQueued q (setPwr (fun p => { p with queue := t }) x, y.2)
    else y

/-- What a refusal ends: the command LEAVE_REFUSED, the wave, the return, the start, the pass, the resync. -/
def refusedOp (op unit : Nat) (mbx : Option Nat) (y : Mod × List Host.Cell) : Mod × List Host.Cell :=
  let x := y.1
  match mbx with
  | some m =>
    let b := x.dax.boxes.get m
    if !b.busy || b.leave = [] then y
    else
      match x.tt.act with
      | some a => if a.mbx = some m then activationFails a stLeave 0 y else fail m stLeave (dropLeaves m x, y.2)
      | none => fail m stLeave (dropLeaves m x, y.2)
  | none =>
    let back := (x.trb.get unit).st == .returning
    match op with
    | 1 => if back then (announceFlip (returnFails unit x), y.2) else y
    | 2 => if x.pwr.wave.isNone then (wavesDone x, y.2) else y
    | 5 =>
      if back then (announceFlip (returnFails unit x), y.2)
      else
        match x.tt.act with
        | some a => if a.mbx.isNone then activationFails a stOk 0 y else y
        | none => y
    | 8 => (setTrb unit (fun t => { t with scrubDue := x.now + sec 1 }) x, y.2)
    | 10 => (setCpl (fun c => { c with resyncOut := false }) x, y.2)
    | _ => y

/-- The queued requests `l` are refused with a reason. -/
def refuseQueued (reason : Nat) (l : List LeaveReq) (y : Mod × List Host.Cell) : Mod × List Host.Cell :=
  let x1 := l.foldl (fun a q => refuseLeave q.op q.unit reason q.mbx a) y.1
  l.foldl (fun z q => refusedOp q.op q.unit q.mbx z) (x1, y.2)

/-- LEAVE_QUEUE_TIMEOUT: requests that have waited 60 s are refused with reason 0x14. -/
def queueTimesOut (y : Mod × List Host.Cell) : Mod × List Host.Cell :=
  let x := y.1
  let old := x.pwr.queue.filter (fun q => passed x.now q.at_ (sec 60))
  refuseQueued 0x14 old (setPwr (fun p => { p with queue := p.queue.filter (fun q => !passed x.now q.at_ (sec 60)) }) x, y.2)

/-- LEAVE_REQUEST: an operation asks; one that waits or has its grant does not ask again. -/
def requestLeave (op unit : Nat) (y : Mod × List Host.Cell) : Mod × List Host.Cell :=
  let x := y.1
  if x.pwr.grants.any (fun g => g.op == op && g.unit == unit && g.mbx.isNone)
      || x.pwr.queue.any (fun q => q.op == op && q.unit == unit && q.mbx.isNone) then y
  else
    match askLeave op unit none x with
    | (.granted _, x1) => (startOp op unit x1, y.2)
    | (.queued _, x1) => (x1, y.2)
    | (.refused _, x1) => refusedOp op unit none (x1, y.2)

/-- The number of a requester to the Yardmaster's rotating pointer, by operation and unit (log 82). -/
def requester (r : Nat × Nat) : Nat := 128 * (r.1 - 1) + r.2

/-- The requests for leave of this very cycle, in the order of the rotating pointer over requesters (16 R493). -/
def asksWith (st : State) (op unit : Nat) : List (Nat × Nat) :=
  let rs := ((op, unit) :: st.pending.filterMap (fun c => match c with
    | .leaveRequest o u => some (o, u)
    | _ => none)).eraseDups
  let key (r : Nat × Nat) : Nat := (requester r + 1280 - st.mod.pwr.askPtr) % 1280
  rs.foldr (fun r l => l.takeWhile (fun e => key e < key r) ++ r :: l.dropWhile (fun e => key e < key r)) []

/-- Leave is asked for: of several requests in one cycle each in its turn, and the pointer moves past the first; one that has had
its turn in this cycle is not decided again (16 R493). -/
def requestTurn (st : State) (op unit : Nat) (y : Mod × List Host.Cell) : Mod × List Host.Cell :=
  let p := y.1.pwr
  if p.askedAt = y.1.cyc && p.asked.contains (op, unit) then y
  else
    match asksWith st op unit with
    | first :: second :: rest =>
      let all := first :: second :: rest
      let y0 := setPwr (fun p => { p with asked := all, askedAt := y.1.cyc, askPtr := (requester first + 1) % 1280 }) y.1
      all.foldl (fun z r => requestLeave r.1 r.2 z) (y0, y.2)
    | _ => requestLeave op unit y

/-- Whether the operation of a grant has an end of its own that has not come. -/
def opRuns (x : Mod) (g : Grant) : Bool :=
  match g.mbx with
  | some m => (x.dax.boxes.get m).busy
  | none =>
    match g.op with
    | 1 => domSt x (408 + g.unit) != .stop && !domRuns x (128 + 16 * g.unit + 15)
    | 2 => x.pwr.wave.any (fun w => w.1 == g.unit)
    | 3 => pairTraining x g.unit
    | 4 => domSt x (352 + g.unit) == .waking
    | 5 => (x.trb.get g.unit).st == .returning || x.tt.act.any (fun a => a.mbx.isNone)
    | 9 => x.cpl.training
    | 10 => x.cpl.resyncOut
    | _ => false

/-- Whether a word lies in an array of a shed. -/
def EccWord.inShed (s : Nat) (w : EccWord) : Bool :=
  match w.level with
  | .yard => false
  | .shed t => t == s
  | .stall g => g / 16 == s

/-- The pass reads one word: a double-bit error found there has the outcome of R518. A Loft cell's and a descriptor's frame, and a
relayed cell, meet it where they are read to leave. -/
def scrubWord (x : Mod) (e : EccErr) : Mod :=
  let w (k : EccWord) : Bool := decide (k = e.word)
  match e.word with
  | .harvest c => readHarvest c x
  | .queue (.meter s i) => checkMeter s i x
  | .queue (.shaper p l n) => checkShaper p l n x
  | .queue (.deficit p l n) => checkShaper p l n x
  | .queue (.use p q) => checkQueue p q x
  | .queue (.avg p q) => checkQueue p q x
  | .replica _ _ _ => eccRepair w id x
  | .shadow _ _ _ => eccRepair w id x
  | .trouble l q =>
    eccRepair w (fun x => { x with logs := x.logs.upd l (fun k => k.change x.cyc (·.discard q)) }) x
  | .loft _ _ => (eccRead w x).2
  | .desc _ _ => (eccRead w x).2
  | .sram => x
  | .capture _ => x
  | .relay _ _ _ _ => (eccRead w x).2

/-- A TCAM entry with bad parity is rewritten from the shadow copy: TCAM_SCRUB, a Notice, since no frame has hit it; one that a frame hit is
repaired under 03 R98. -/
def scrubAcl (s : Nat) (x : Mod) (e : Nat × Nat × Nat) : Mod :=
  let x1 := aclRepaired e.1 e.2.1 e.2.2 x
  if x.tbl.aclHit.contains e then x1 else raiseWith (.shed s) evTcamScrub none e.2.2 x1

/-- A scrub pass ends: it has visited every word of the shed's ECC arrays and every TCAM entry (17 R520). -/
def scrubEnds (s : Nat) (x : Mod) : Mod :=
  match (x.trb.get s).scrubRun with
  | some t =>
    let x1 := (x.ecc.filter (fun e => e.word.inShed s)).foldl scrubWord x
    let x2 := (x1.tbl.aclBad.filter (fun e => e.1 == s)).foldl (scrubAcl s) x1
    releaseGrant 8 s (setTrb s (fun o => { o with
      scrubRun := none, scrubLast := some x.now, scrubDue := t + sec 10, scrubLate := false }) x2)
  | none => x

/-- LEAVE_RELEASE: the operation of a grant has ended. An operation with an end of its own releases its grant there. -/
def releaseLeave (id : Nat) (x : Mod) : Mod :=
  match x.pwr.grants.find? (fun g => g.id == id) with
  | none => x
  | some g =>
    if opRuns x g then x
    else
      let x1 := if g.op = 8 then scrubEnds g.unit x else x
      setPwr (fun p => { p with grants := p.grants.filter (fun k => k.id != id) }) x1

/-! ### Waits for the step limit (16 R487) -/

/-- The stops and wakes that wait begin, in their order, once their steps fit. -/
def serveWaits (x : Mod) : Mod :=
  x.pwr.waits.foldl (fun a w =>
    let still := if w.wake then domSt a w.d == .stop && (match domParent w.d with
        | some p => domRuns a p
        | none => true) else domSt a w.d == .run
    let rest := setPwr (fun p => { p with waits := p.waits.erase w })
    if !still then rest a
    else if !stepFits a (fullLoad w.d) then a
    else if w.wake then beginWake w.d (rest a)
    else
      match w.by_ with
      | some b => beginStop b w.d (rest a)
      | none => rest a) x

/-! ### Domains -/

/-- Whether a shed's wake has ended: its last pipeline runs, or a domain of it has not settled in its time. -/
def shedWakeOver (x : Mod) (s : Nat) : Bool :=
  domRuns x (128 + 16 * s + 15) ||
    (shedDomains s).any (fun d => domSt x d == .waking && passed x.now (domSince x d) (settleTime d + 1))

/-- Stage 6 ends once the wake of every shed has: drawbar training begins (16 R499). -/
def wakeStageEnds (x : Mod) : Mod :=
  if x.pwr.stage = 6 && (workingSheds x).all (fun s => shedWakeOver x s) then
    startRound none 1 (setPwr (fun p => { p with round := 1 }) (setStage 7 x))
  else x

/-- DOMAIN_STOP_DRAINED. -/
def domainDrained (d : Nat) (x : Mod) : Mod := returnsGoOn (stopDrained d x)

/-- A domain that settles, and what goes on from there. -/
def domainSettled (d : Nat) (x : Mod) : Mod := startRounds (wakeStageEnds (returnsGoOn (wakeSettled d x)))

/-- A stop that waits for the step limit is aborted by the wake source that fires (16 R485 to R487). -/
def abortWaiting (src d : Nat) (x : Mod) : Mod :=
  let here (w : DomWait) : Bool := w.d == d && !w.wake && w.by_ != some .yardmaster
  if x.pwr.waits.any here then logAbort d 0x02 src (setPwr (fun p => { p with waits := p.waits.filter (fun w => !here w) }) x) else x

/-- DOMAIN_WAKE_REQUEST: wake source 6 for the core of a held shed returns it (17 R527). -/
def domainWake (src d : Nat) (x_ : Mod) : Mod :=
  let x := abortWaiting src d (setDom d (fun o => { o with fired := some (src, x_.cyc) }) x_)
  if src = 6 && 408 ≤ d && d < 416 && (x.trb.get (d - 408)).st == .held then restoreShed (d - 408) x else wakeSource src d x

/-! ### Inlets and hold-up (16 R490, R494 to R496; 19 R556) -/

/-- A budget that rises brings the waves back. -/
def afterRise (was : Nat) (x : Mod) : Mod := if was < budget x then askWave (budgetRises x) else x

/-- INLET_HIGH_LINE. -/
def inletHighLine (i : Inlet) (x : Mod) : Mod :=
  let x1 := inletHigh i x
  if budget x < budget x1 then askWave x1 else x1

/-- Hold-up begins: queued leave is refused, the dying gasp goes out on both paths, renewals and steward actions cease (16 R494,
11 R371). -/
def beginHoldup (y : Mod × List Host.Cell) : Mod × List Host.Cell :=
  let x := y.1
  let gasp (p : Path) (a : Mod) : Mod := if couplerRuns a && pathLinked a p then emit (.gasp p 0) a else a
  let x1 := raise .yard evHoldup (setPwr (fun p => { p with holdup := some x.now, queue := [] }) x)
  let x2 := setCpl (fun c => { c with stopRenew := true }) (gasp .mgmt (gasp .coupler x1))
  refuseQueued 0x12 x.pwr.queue (x2, y.2)

/-- INLET_LOSS: out of range for 2 ms. -/
def inletLoses (i : Inlet) (y : Mod × List Host.Cell) : Mod × List Host.Cell :=
  let x := y.1
  match (inletOf x i).outSince with
  | some t =>
    if !(inletOf x i).good || !passed x.now t (ms 2) then y
    else
      let x1 := raise .yard evInletChange (setInlet i (fun o => { o with good := false, lowLine := false }) x)
      if x1.pwr.a.good || x1.pwr.b.good then (shedLoad x1, y.2)
      else if x1.pwr.holdup.isNone then beginHoldup (x1, y.2) else (x1, y.2)
  | none => y

/-! ### Thermal limits (16 R498) -/

/-- A stop of the Yardmaster's own, refused in hold-up (16 R494). -/
def yardStop (d : Nat) (x : Mod) : Mod :=
  if !domRuns x d then x else if x.pwr.holdup.isSome then refuseStop d 0x12 0 x else stopOrWait .yardmaster d x

/-- THERMAL_SAMPLE: the thresholds a shed's hottest sensor enters, each raised once. -/
def thermalSampled (s : Nat) (temp : BitVec 12) (x : Mod) : Mod :=
  let o := (x.pwr.therm.get s).state
  let n := thermNext o temp.toNat
  let x1 := setPwr (fun p => { p with therm := p.therm.set s { state := n, temp := temp } }) x
  let x2 := if o < 1 && 1 ≤ n then raise .yard evThermWarn x1 else x1
  let x3 := if o < 2 && 2 ≤ n then raise .yard evThermHold x2 else x2
  if o < 3 && n = 3 then
    (List.range 16).foldl (fun a t => yardStop (128 + 16 * s + t) (yardStop (16 * s + t) a))
      (raise .yard evThermCrit (shedFalls s evShedThermCrit x3))
  else x3

/-! ### Scrubbing (17 R520) -/

/-- SCRUB_PASS: a pass that is due asks for leave. -/
def scrubAsks (s : Nat) (x : Mod) : Mod :=
  let t := x.trb.get s
  if !(x.ost.get s).loaded || t.scrubRun.isSome || x.now < t.scrubDue || x.pwr.queue.any (fun q => q.op == 8 && q.unit == s) then x
  else
    match askLeave 8 s none x with
    | (.granted _, x1) => startOp 8 s x1
    | (.queued _, x1) => x1
    | (.refused _, x1) => setTrb s (fun t => { t with scrubDue := x.now + sec 1 }) x1

/-- A pass takes at most 1 s. -/
def scrubMax (s : Nat) (x : Mod) : Mod :=
  match (x.trb.get s).scrubRun with
  | some t => if passed x.now t (sec 1) then scrubEnds s x else x
  | none => x

/-- SCRUB_LATE: 60 s without a completed pass, counted from the load of the stores when none has completed. -/
def scrubLateNow (s : Nat) (x : Mod) : Mod :=
  let t := x.trb.get s
  if (x.ost.get s).loaded && !t.scrubLate && passed x.now (t.scrubLast.getD (domSince x (416 + s))) (sec 60) then
    raise (.shed s) evScrubLate (setTrb s (fun t => { t with scrubLate := true }) x)
  else x

/-! ### The comparison of replicas (04 R116) -/

/-- How many working replicas of a table hold what shed `s` holds. -/
def agreeing (x : Mod) (t s : Nat) : Nat := ((workingSheds x).filter (fun k => x.tbl.ents.get (k, t) == x.tbl.ents.get (s, t))).length

/-- The working shed whose contents most replicas share, the lowest between equals. -/
def majorityShed (x : Mod) (t : Nat) : Nat :=
  (workingSheds x).foldl (fun a s => if agreeing x t a < agreeing x t s then s else a) (lowestShed x)

/-- REPLICA_COMPARE: a single dissenting replica is rewritten from the majority; with more, each dissenting shed falls. Replicas with
an edit on its way are compared once all have written it; mirror sessions are a shed's own. -/
def compareReplicas (t : Nat) (x : Mod) : Mod :=
  if t = 0x0D || x.tbl.edits.any (fun e => e.tab == t) then x
  else
    let m := majorityShed x t
    let bad := (workingSheds x).filter (fun s => x.tbl.ents.get (s, t) != x.tbl.ents.get (m, t))
    match bad with
    | [] => x
    | [s] =>
      if 3 ≤ (workingSheds x).length then
        raise (.shed s) evReplicaDiverge { x with tbl := { x.tbl with ents := x.tbl.ents.set (s, t) (x.tbl.ents.get (m, t)) } }
      else shedFalls s { evReplicaDiverge with sev := 3 } x
    | l => l.foldl (fun a s => shedFalls s { evReplicaDiverge with sev := 3 } a) x

/-! ### Machine checks (14 R450, R451) and PWR_DIAG_CTL (16 R513) -/

/-- OSTLER_MACHINE_CHECK: a running engine halts; the third within 1 s is Fatal for its shed. -/
def checkEngine (s e kind : Nat) (x : Mod) : Mod :=
  let g := engine x s e
  if g.halted || g.run.isNone then x
  else
    let x1 := machineCheck s e kind x
    if mcheckRepeats x1 s then shedFalls s evMcheckRepeat x1 else x1

/-- DIAG_DOMAIN_WAKE: a write to PWR_DIAG_CTL with WAKE set and STOP clear. -/
def diagWake (v : Word) (x : Mod) : Mod := diagCtl ((v ||| 0x40000000#32) &&& ~~~0x20000000#32) x

/-- DIAG_DOMAIN_STOP: a write to PWR_DIAG_CTL with STOP set and WAKE clear. -/
def diagStop (v : Word) (x : Mod) : Mod := diagCtl ((v ||| 0x20000000#32) &&& ~~~0x40000000#32) x

/-! ### Loft banks and drawbar halves under light load (06 R197, R216) -/

/-- LOFT_BANK_IDLE: occupancy below a quarter of the running cells for 10 ms: no more cells from the highest running bank. -/
def bankIdles (s : Nat) (x : Mod) : Mod :=
  let l := x.loft.get s
  match l.lowAt, (runningBanks x s).getLast? with
  | some t, some b =>
    if passed x.now t (ms 10) && loftLow x s && l.noAlloc.isNone && bankSpare x s then setLoft s (fun l => { l with noAlloc := some b }) x else x
  | _, _ => x

/-- LOFT_BANK_STOP: the bank set aside holds no cell and is stopped; the 10 ms count anew, against a quarter of the fewer cells. -/
def bankStops (s b : Nat) (x : Mod) : Mod :=
  if (x.loft.get s).noAlloc != some b || !loftBankEmpty x s b || !bankSpare x s
      || !(x.mode.mode == .standalone || x.mode.mode == .paired) then x
  else
    let x1 := askStop .loft (bankDom s b) x
    if domSt x1 (bankDom s b) == .stopping then tally (.lft s 5) (setLoft s (fun l => { l with noAlloc := none, lowAt := lowSince x1 s none }) x1)
    else x1

/-! ### The commands -/

/-- STORE_BIST. -/
def execStoreBist (s : Nat) (v : Word) (st : State) : Host.Outcome State Fault Refusal :=
  cmd (.storeBist s v) (reach (ostDiagOff s) 1 (startBist s v)) st

/-- OSTLER_MACHINE_CHECK. -/
def execOstlerMachineCheck (s e kind : Nat) (st : State) : Host.Outcome State Fault Refusal :=
  cmd (.ostlerMachineCheck s e kind) (checkEngine s e kind) st

/-- DOMAIN_STOP_REQUEST. -/
def execDomainStopRequest (by_ : StopBy) (d : Nat) (st : State) : Host.Outcome State Fault Refusal :=
  cmd (.domainStopRequest by_ d) (stopUnless (wakeComes st d) by_ d) st

/-- DOMAIN_STOP_DRAINED. -/
def execDomainStopDrained (d : Nat) (st : State) : Host.Outcome State Fault Refusal :=
  cmd (.domainStopDrained d) (domainDrained d) st

/-- DOMAIN_STOP_ABORT. -/
def execDomainStopAbort (d : Nat) (wake : Option Nat) (st : State) : Host.Outcome State Fault Refusal :=
  cmd (.domainStopAbort d wake) (stopAborts d wake) st

/-- DOMAIN_WAKE_REQUEST. -/
def execDomainWakeRequest (wake d : Nat) (st : State) : Host.Outcome State Fault Refusal :=
  cmd (.domainWakeRequest wake d) (domainWake wake d) st

/-- WAKE_TABLE_STEP. -/
def execWakeTableStep (d : Nat) (st : State) : Host.Outcome State Fault Refusal :=
  cmd (.wakeTableStep d) (wakeStep d) st

/-- DIAG_DOMAIN_WAKE. -/
def execDiagDomainWake (v : Word) (st : State) : Host.Outcome State Fault Refusal :=
  cmd (.diagDomainWake v) (diagWake v) st

/-- DIAG_DOMAIN_STOP. -/
def execDiagDomainStop (v : Word) (st : State) : Host.Outcome State Fault Refusal :=
  cmd (.diagDomainStop v) (diagStop v) st

/-- PSU_TELEMETRY. -/
def execPsuTelemetry (inlet : Inlet) (present : Bool) (deciVolts deciHz deciWatts : Nat) (st : State) : Host.Outcome State Fault Refusal :=
  cmd (.psuTelemetry inlet present deciVolts deciHz deciWatts) (telemetry inlet present deciVolts deciHz deciWatts) st

/-- INLET_LOW_LINE. -/
def execInletLowLine (inlet : Inlet) (st : State) : Host.Outcome State Fault Refusal :=
  cmd (.inletLowLine inlet) (inletLow inlet) st

/-- INLET_HIGH_LINE. -/
def execInletHighLine (inlet : Inlet) (st : State) : Host.Outcome State Fault Refusal :=
  cmd (.inletHighLine inlet) (inletHighLine inlet) st

/-- INLET_LOSS. -/
def execInletLoss (inlet : Inlet) (st : State) : Host.Outcome State Fault Refusal :=
  cmdAll (.inletLoss inlet) (inletLoses inlet) st

/-- LEAVE_REQUEST. -/
def execLeaveRequest (op unit : Nat) (st : State) : Host.Outcome State Fault Refusal :=
  cmdAll (.leaveRequest op unit) (requestTurn st op unit) st

/-- LEAVE_GRANT. -/
def execLeaveGrant (st : State) : Host.Outcome State Fault Refusal :=
  cmdAll (.leaveGrant) (grantHead) st

/-- LEAVE_RELEASE. -/
def execLeaveRelease (id : Nat) (st : State) : Host.Outcome State Fault Refusal :=
  cmd (.leaveRelease id) (releaseLeave id) st

/-- LEAVE_QUEUE_TIMEOUT. -/
def execLeaveQueueTimeout (st : State) : Host.Outcome State Fault Refusal :=
  cmdAll (.leaveQueueTimeout) (queueTimesOut) st

/-- THERMAL_SAMPLE. -/
def execThermalSample (s : Nat) (temp : BitVec 12) (st : State) : Host.Outcome State Fault Refusal :=
  cmd (.thermalSample s temp) (fun x => if domRuns x (408 + s) then thermalSampled s temp x else x) st

/-- SCRUB_PASS. -/
def execScrubPass (s : Nat) (st : State) : Host.Outcome State Fault Refusal :=
  cmd (.scrubPass s) (scrubAsks s) st

/-- SCRUB_LATE. -/
def execScrubLate (s : Nat) (st : State) : Host.Outcome State Fault Refusal :=
  cmd (.scrubLate s) (scrubLateNow s) st

/-- REPLICA_COMPARE. -/
def execReplicaCompare (table : Nat) (st : State) : Host.Outcome State Fault Refusal :=
  cmd (.replicaCompare table) (compareReplicas table) st

/-- LOFT_BANK_IDLE. -/
def execLoftBankIdle (s : Nat) (st : State) : Host.Outcome State Fault Refusal :=
  cmd (.loftBankIdle s) (bankIdles s) st

/-- LOFT_BANK_STOP. -/
def execLoftBankStop (s bank : Nat) (st : State) : Host.Outcome State Fault Refusal :=
  cmd (.loftBankStop s bank) (bankStops s bank) st

/-- DRAWBAR_HALF_STOP_REQUEST. -/
def execDrawbarHalfStopRequest (s h : Nat) (st : State) : Host.Outcome State Fault Refusal :=
  cmd (.drawbarHalfStopRequest s h) (stopUnless (wakeComes st (352 + 7 * s + h)) .drawbar (352 + 7 * s + h)) st

/-- DRAWBAR_HALF_WAKE_REQUEST. -/
def execDrawbarHalfWakeRequest (s h : Nat) (st : State) : Host.Outcome State Fault Refusal :=
  cmd (.drawbarHalfWakeRequest s h) (fun x => if halfMustWake x s h then wakeSource 2 (352 + 7 * s + h) x else x) st

end Sys2Proof.Machine
end

