-- ==== Sys2Proof/Machine/MacSec.lean ====
section
/-! DEFINITION. Sys2Proof/Machine/MacSec.lean: the MACSEC_KEY message (12 R403; 02 R65, R66, R69). -/

namespace Sys2Proof.Machine

/-- The fields of a MACSEC_KEY request that its OP does not judge: reserved bits, and a line port that the configuration defines with MACsec
enabled. -/
def macsecFields (x : Mod) (b : Mailbox) : Bool :=
  let q := b.body
  b.len = 72 && leAt q 1 1 < 4 && leAt q 2 2 < 1024 && allZero (sliceOf q 0x1C 4) && portDefined x (leAt q 2 2)
    && (portCfg x (leAt q 2 2)).macsec

/-- Runs one OP of MACSEC_KEY. A request of an OP above 3 is invalid, and answered by the first row. -/
def macsecOp (m op : Nat) (b : Mailbox) (f : Nat → Nat → List Byte → Mod → Option Mod) (y : Mod × List Host.Cell) :
    Mod × List Host.Cell :=
  let q := b.body
  let o := leAt q 0 1
  if b.len = 72 && o < 4 && o ≠ op then y
  else if !macsecFields y.1 b || o ≠ op then fail m stInvalid y
  else
    match f (leAt q 2 2) (leAt q 1 1) q y.1 with
    | some x => complete m stOk [] (x, y.2)
    | none => fail m stInvalid y

/-- The receive channels of a stall. -/
def stallChannels (x : Mod) (g : Nat) : List RxSc := x.line.rxSc.filter (fun c => stallOf c.port == g)

/-- OP 0: a transmit SA with its next packet number. -/
def installTx (p an : Nat) (q : List Byte) (x : Mod) : Option Mod :=
  let sa : TxSa := { sci := sliceOf q 4 8, ssci := sliceOf q 0x0C 4, salt := sliceOf q 0x10 12, key := sliceOf q 0x20 32,
                     nextPn := some (leAt q 0x40 8) }
  some { x with line := { x.line with txSa := x.line.txSa.set (p, an) (some sa) } }

/-- OP 1: a receive SA with the lowest packet number it accepts; an SCI not known creates its channel, within 128 per stall. -/
def installRx (p an : Nat) (q : List Byte) (x : Mod) : Option Mod :=
  let sci := sliceOf q 4 8
  let sa : RxSa := { ssci := sliceOf q 0x0C 4, salt := sliceOf q 0x10 12, key := sliceOf q 0x20 32, low := leAt q 0x40 8 }
  if x.line.rxSc.any (fun c => c.port == p && c.sci == sci) then
    let l := x.line.rxSc.map (fun c => if c.port = p && c.sci = sci then { c with sas := c.sas.set an (some sa) } else c)
    some { x with line := { x.line with rxSc := l } }
  else if (stallChannels x (stallOf p)).length < 128 then
    let k := portCfg x p
    let set_ := ((k.rxChan.find? (fun e => e.1 == sci)).map (·.2)).getD (k.replayWin, k.confOff)
    let c : RxSc := { port := p, sci := sci, win := set_.1, off := set_.2, sas := (Map.const none).set an (some sa) }
    some { x with line := { x.line with rxSc := x.line.rxSc ++ [c] } }
  else none

/-- OP 2: the SA is deleted and its key erased: the receive SA of that SCI, else the transmit SA of that SCI. A receive channel
without SAs is deleted. -/
def deleteSa (p an : Nat) (q : List Byte) (x : Mod) : Option Mod :=
  let sci := sliceOf q 4 8
  let here (c : RxSc) : Bool := c.port == p && c.sci == sci && (c.sas.get an).isSome
  if !allZero (sliceOf q 0x20 32) then none
  else if x.line.rxSc.any here then
    let l := x.line.rxSc.map (fun c => if here c then { c with sas := c.sas.set an none } else c)
    let live (c : RxSc) : Bool := (List.range 4).any (fun i => (c.sas.get i).isSome)
    some { x with line := { x.line with rxSc := l.filter live } }
  else
    match x.line.txSa.get (p, an) with
    | some sa => if sa.sci = sci then some { x with line := { x.line with txSa := x.line.txSa.set (p, an) none } } else none
    | none => none

/-- OP 3: the transmit channel switches to another SA, which may stand past the warning threshold (02 R69). -/
def selectTx (p an : Nat) (q : List Byte) (x : Mod) : Option Mod :=
  if !allZero (sliceOf q 0x20 32) then none
  else
    match x.line.txSa.get (p, an) with
    | none => none
    | some sa =>
      let x1 := { x with line := { x.line with txAn := x.line.txAn.set p an } }
      let past := match sa.nextPn with
        | some n => (portCfg x p).pnWarn < n
        | none => false
      if past && !sa.warned then
        some (portEvent p evPnWarn
          { x1 with line := { x1.line with txSa := x1.line.txSa.set (p, an) (some { sa with warned := true }) } })
      else some x1

/-! ### The commands -/

/-- MACSEC_INSTALL_TX_SA. -/
def execMacsecInstallTxSa (m : Nat) (st : State) : Host.Outcome State Fault Refusal :=
  cmdAll (.macsecInstallTxSa m) (onCommand m 0x0050 (fun b => macsecOp m 0 b installTx)) st

/-- MACSEC_INSTALL_RX_SA. -/
def execMacsecInstallRxSa (m : Nat) (st : State) : Host.Outcome State Fault Refusal :=
  cmdAll (.macsecInstallRxSa m) (onCommand m 0x0050 (fun b => macsecOp m 1 b installRx)) st

/-- MACSEC_DELETE_SA. -/
def execMacsecDeleteSa (m : Nat) (st : State) : Host.Outcome State Fault Refusal :=
  cmdAll (.macsecDeleteSa m) (onCommand m 0x0050 (fun b => macsecOp m 2 b deleteSa)) st

/-- MACSEC_SELECT_TX_SA. -/
def execMacsecSelectTxSa (m : Nat) (st : State) : Host.Outcome State Fault Refusal :=
  cmdAll (.macsecSelectTxSa m) (onCommand m 0x0050 (fun b => macsecOp m 3 b selectTx)) st

end Sys2Proof.Machine
end

