-- ==== Sys2Proof/Machine/Startup.lean ====
section
/-! DEFINITION. Sys2Proof/Machine/Startup.lean: mains and power, resets, the stages of start-up, mode changes, the restart of the
firmware, inject descriptors and the exterior (01 R25 to R33; 12 R379; 13 R424, R428; 16 R499; 18 R534 to R538; 19). -/

namespace Sys2Proof.Machine

/-- Changes the mode. -/
def setMode (f : ModeSt → ModeSt) (x : Mod) : Mod := { x with mode := f x.mode }

/-- Changes the pins and faces. -/
def setExt (f : Ext → Ext) (x : Mod) : Mod := { x with ext := f x.ext }

/-! ### Cold (01 R26, R33; 19 R569) -/

/-- Frames in transmission on a port end cut off. -/
def abortAll (x : Mod) : Mod := (List.range 1038).foldl (fun a p => if (a.line.ports.get p).tx.isSome then abortTx p a else a) x

/-- What the always-on domain, the flash, the fuses, the PSUs and the pins keep through a module reset; everything else starts
anew, in Cold (log 41). -/
def coldMod (cause : Nat) (x : Mod) : Mod :=
  { now := x.now, free := x.free, out := x.out, nextF := x.nextF
    logs := x.logs.mapEnts (fun _ l => { l with irqAll := false, minSev := 1 })
    mode := { cause := cause }
    pwr := { a := x.pwr.a, b := x.pwr.b, holdup := x.pwr.holdup, draw := x.pwr.draw, steps := x.pwr.steps, stageAt := x.now }
    sec := { x.sec with running := false, trial := false, toTry := [], challenge := none }
    tt := { banks := x.tt.banks, lastActive := x.tt.lastActive }
    ext := { x.ext with sampled := false, gen4 := true, refclk := true, faceT := (0, 0), faceB := (0, 0), mgmtLink := false }
    dax := { sessions := x.dax.sessions }
    line := { lanes := x.line.lanes.mapEnts (fun _ l => { signal := l.signal, since := x.now }) }
    tim := { base := x.tim.base, at_ := x.tim.at_, isSet := x.tim.isSet, refLock := x.tim.refLock, freq := x.tim.freq } }

/-- Whether an inlet is good. -/
def mainsGood (x : Mod) : Bool := x.pwr.a.good || x.pwr.b.good

/-- Cold to Harnessing (01 R26): PSU good, no reset held, and domain 424, which runs in Cold from step 2 of the wake table until then
(01 R33; DEDUCED, log 47); the boot ROM's order is chosen and the management port draws its address (10 R325). CAUSE stays that of
the entry into Cold (01 R32). -/
def tryHarness (x : Mod) : Mod :=
  if x.mode.powered && x.mode.mode == .cold && domRuns x 424 && !x.ext.inReset && !x.mode.bootFailed && mainsGood x && x.pwr.holdup.isNone then
    let (l, x1) := drawBytes 6 (beginBoot (setStage 2 x))
    let mac := BitVec.ofNat 48 (beAt l 0 6) &&& 0xFCFFFFFFFFFF#48 ||| 0x020000000000#48
    enterMode .harnessing x.mode.cause (setTt (fun t => { t with mgmtMac := mac }) x1)
  else x

/-- DOMAIN_WAKE_SETTLED: the boot domain's brings Harnessing. -/
def settledNow (d : Nat) (x : Mod) : Mod := tryHarness (domainSettled d x)

/-- The module enters Cold: the lanes fall idle, the link goes down, the mailboxes' buffers are lost. -/
def enterCold (cause : Nat) (y : Mod × List Host.Cell) : Mod × List Host.Cell :=
  (coldMod cause (abortAll y.1), Memory.erase y.2 0 0x10000)

/-- MOD_RESET_ASSERT: the pin has been low for 10 us. -/
def resetAsserted (y : Mod × List Host.Cell) : Mod × List Host.Cell :=
  if !y.1.mode.powered || y.1.ext.inReset then y
  else enterCold 1 (setExt (fun e => { e with resetPin := false, inReset := true }) y.1, y.2)

/-- MOD_RESET_RELEASE: the pin has been high for 10 us. -/
def resetReleased (x : Mod) : Mod :=
  if !x.mode.powered || !x.ext.inReset then x
  else setExt (fun e => { e with resetPin := true, inReset := false }) x

/-- RESET_GLITCH: a low pulse shorter than 10 us. -/
def resetGlitches (x : Mod) : Mod :=
  if !x.mode.powered || x.ext.inReset then x
  else raise .yard evResetGlitch (setExt (fun e => { e with glitches := e.glitches + 1 }) x)

/-- SCHEDULED_RESET: 100 ms after the reply the module enters Cold; the wake table starts it again. -/
def scheduledResets (y : Mod × List Host.Cell) : Mod × List Host.Cell :=
  match y.1.mode.resetAt with
  | some t => if t ≤ y.1.now then enterCold y.1.mode.resetCause y else y
  | none => y

/-! ### Mains (16 R490; 19 R556, R557) -/

/-- The module without power: what flash, fuses and the world outside keep (19 R557). -/
def unpowered (x : Mod) : Mod :=
  let c := coldMod 8 x
  let psu (i : InletSt) : InletSt := { i with good := false, lowLine := false }
  { now := x.now, free := x.free, out := x.out, nextF := x.nextF
    mode := { c.mode with powered := false }
    pwr := { a := psu x.pwr.a, b := psu x.pwr.b, outsOff := some (x.now + ms 100) }
    sec := c.sec, tt := c.tt, ext := { c.ext with glitches := 0 }, line := c.line }

/-- The always-on domain powers up: time starts at 0, the module is in Cold (09 R292, R294). -/
def powerUp (x : Mod) : Mod :=
  let psu (i : InletSt) : InletSt := { present := i.present, dV := i.dV, dHz := i.dHz, dW := i.dW }
  { free := x.free, out := x.out, nextF := x.nextF, pwr := { a := psu x.pwr.a, b := psu x.pwr.b }
    sec := x.sec, tt := x.tt, ext := x.ext, line := { lanes := x.line.lanes.mapEnts (fun _ l => { signal := l.signal }) } }

/-- HOLDUP_END: 16 ms after its begin. -/
def holdupEnds (y : Mod × List Host.Cell) : Mod × List Host.Cell :=
  match y.1.pwr.holdup with
  | some t => if passed y.1.now t (ms 16) then (unpowered (abortAll y.1), Memory.erase y.2 0 0x10000) else y
  | none => y

/-- Whether mains within range reaches an inlet. -/
def inletFed (i : InletSt) : Bool := i.present && inRange i.dV i.dHz

/-- POWER_RESTART: the 100 ms are over, and a PSU with a good inlet restarts; else the module waits for mains. -/
def powerRestarts (x : Mod) : Mod :=
  match x.pwr.outsOff with
  | some t =>
    if x.now < t then x
    else if inletFed x.pwr.a || inletFed x.pwr.b then powerUp x
    else setPwr (fun p => { p with outsOff := none }) x
  | none => x

/-- MAINS_APPLY: mains reaches an unpowered module. -/
def mainsApplies (i : Inlet) (x : Mod) : Mod :=
  let x1 := setInlet i (fun o => { o with present := true }) x
  if x.mode.powered then x else if x.pwr.outsOff.isSome then x1 else powerUp x1

/-- PSU_GOOD: a newly good inlet. -/
def psuIsGood (i : Inlet) (x : Mod) : Mod :=
  let o := inletOf x i
  if !x.mode.powered || o.good || !inletFed o then x
  else
    let x1 := raise .yard evInletChange (setInlet i (fun o => { o with good := true, goodAt := x.now, lowLine := decide (o.dV < 1800) }) x)
    afterRise (budget x) x1

/-! ### The stages of start-up (16 R499; 18 R534, R535) -/

/-- No image passes: Cold with CAUSE 0x9 until the next reset or power cycle. -/
def bootFails (y : Mod × List Host.Cell) : Mod × List Host.Cell :=
  let y1 := enterCold 9 y
  (setMode (fun m => { m with bootFailed := true }) y1.1, y1.2)

/-- FIRMWARE_IMAGE_CHECK: the next slot in the boot ROM's order is checked; its image starts, or the slot after it is next. -/
def checkImage (y : Mod × List Host.Cell) : Mod × List Host.Cell :=
  let x := y.1
  if x.mode.mode != .harnessing || x.sec.running || !domRuns x 424 then y
  else
    match x.sec.toTry with
    | [] => bootFails y
    | k :: rest =>
      let x1 := setSlot k (fun o => { o with tried := if o.st == .trial then true else o.tried }) x
      let r := fwCheck x1 y.2 k
      let x2 := { x1 with sec := { x1.sec with result := x1.sec.result.set k r, toTry := rest } }
      if r = secOk then
        (setStage 3 (setPwr (fun p => { p with fwAt := x.now }) (repeatCommit y.2 (runImage y.2 k x2))), y.2)
      else
        let x3 := setSlot k (fun o => { o with st := if o.st == .committed then .committed else .invalid })
          { x2 with sec := { x2.sec with fallback := true } }
        if rest = [] then bootFails (x3, y.2) else (x3, y.2)

/-- HOST_LINK_WAIT_END: the bound of stage 4 passes with no link. -/
def linkWaitEnds (x : Mod) : Mod :=
  if x.pwr.stage = 4 && !x.host.up && passed x.now x.pwr.stageAt (ms 300) then setStage 5 x else x

/-- Whether a shed's wake has failed: a domain of it has not settled in its time, and its last pipeline does not run (01 R27). -/
def wakeFailed (x : Mod) (s : Nat) : Bool := shedWakeOver x s && !domRuns x (128 + 16 * s + 15)

/-- Whether a pair has trained, or was taken out of service after three failed trainings, or has a shed that does not work or whose wake
failed. -/
def pairSettled (x : Mod) (k : Nat) : Bool :=
  let e := shedsOfPair k
  let hs := (pairHalves k).map (x.mesh.halves.get ·)
  hs.all halfRuns || hs.any (·.gaveUp) || !shedWorks x e.1 || !shedWorks x e.2 || wakeFailed x e.1 || wakeFailed x e.2

/-- Sheds whose wake failed, or whose drawbars leave a peer without a path, are quiesced at the end of discovery (01 R27). No register
names the Fatal event of a failed wake: RETURN_FAIL, the one of a wake that fails on a return, is raised (DESIGN CHOICE, log 71). -/
def discoveryFatals (x : Mod) : Mod :=
  let x1 := (workingSheds x).foldl (fun a s => if wakeFailed x s then fatal s evReturnFail a else a) x
  (deadPairs x1).foldl (fun a k => lastDirection k a) x1

/-- YARD_DISCOVERY_COMPLETE: with a working shed the banks are verified next; with none the module enters Quiesced. 01 R32 lists no
CAUSE for that entry: the model takes 0x3, as for no valid timetable (DESIGN CHOICE, log 72). -/
def discoveryEnds (x : Mod) : Mod :=
  if x.mode.mode != .harnessing || x.pwr.stage ≠ 8 || !(List.range 28).all (pairSettled x)
      || !(workingSheds x).all (fun s => shedWakeOver x s) then x
  else
    let x1 := slotEpoch (discoveryFatals x)
    if (workingSheds x1).isEmpty then setStage 14 (enterMode .quiesced 3 x1) else beginStartVerify (setStage 9 x1)

/-! ### Mode changes (01 R26 to R30; 12 R400) -/

/-- The MODE_CHANGE reply. -/
def modeReply (x : Mod) : List Byte := [BitVec.ofNat 8 x.mode.mode.code, BitVec.ofNat 8 x.mode.cause]

/-- The change into a mode is made, and answered. -/
def changeMode (m : Nat) (new : Mode) (y : Mod × List Host.Cell) : Mod × List Host.Cell :=
  let x1 := enterMode new 6 y.1
  complete m stOk (modeReply x1) (x1, y.2)

/-- MODE_CHANGE. -/
def modeChangeCmd (m : Nat) (b : Mailbox) (y : Mod × List Host.Cell) : Mod × List Host.Cell :=
  let x := y.1
  let t := leAt b.body 0 1
  if b.len ≠ 4 || 5 < t || leAt b.body 1 3 ≠ 0 then fail m stInvalid y
  else if inTransition x || activationOn x then fail m stBusy y
  else
    match x.mode.mode, t with
    | .standalone, 4 | .paired, 4 =>
      (setBox m (fun b => { b with began := true }) (setCpl (fun c => { c with stopRenew := true, stewardFrom := none })
        (setMode (fun k => { k with target := .quiesced, drainEnd := some (x.now + ms 5), modeMbx := some m }) x)), y.2)
    | .quiesced, 2 =>
      if x.tt.active.isNone then fail m stWrongMode y
      else
        let y1 := changeMode m .standalone y
        let x1 := allWaves y1.1
        (if (pairOf_ x1).enabled then askCoupler x1 else x1, y1.2)
    | .quiesced, 5 => changeMode m .diagnostic y
    | .diagnostic, 4 => changeMode m .quiesced y
    | _, _ => fail m stWrongMode y

/-- Whether a frame still has a copy to send, or a fate to be decided. -/
def stillHeld (fr : Frame) : Bool := !fr.ended || !(fr.decided || fr.refused) || fr.copies.any (fun c => c.st != .done)

/-- Every frame still inside is dropped and counted, and the line lanes fall idle (01 R29). -/
def dropAll (x : Mod) : Mod :=
  let n := ((heldFrames x).filter (fun e => stillHeld e.2)).length
  let x1 := (List.range 8).foldl (fun a s => dropShedFrames s a) (setMode (fun m => { m with discard := m.discard + n }) x)
  abortAll ((List.range 128).foldl (fun a g => lanesIdle g a) x1)

/-- QUIESCE_DRAIN_END: nothing is left inside, or 5 ms have passed. A restarting firmware does it once it serves again. -/
def drainOver (y : Mod × List Host.Cell) : Mod × List Host.Cell :=
  let x := y.1
  match x.mode.drainEnd with
  | none => y
  | some t =>
    if !x.dax.up || (x.now < t && (heldFrames x).any (fun e => stillHeld e.2)) then y
    else
      let x1 := enterMode .quiesced 6 (setMode (fun m => { m with drainEnd := none, modeMbx := none }) (dropAll x))
      match x.mode.modeMbx with
      | some m => complete m stOk (modeReply x1) (x1, y.2)
      | none => (x1, y.2)

/-- DIAGNOSTIC_SESSION_END. -/
def sessionEnds (x : Mod) : Mod := if x.mode.mode == .diagnostic && !inTransition x then enterMode .quiesced 6 x else x

/-! ### The restart of the firmware (12 R379) -/

/-- The commands taken and not done end ABANDONED. -/
def abandonAll (y : Mod × List Host.Cell) : Mod × List Host.Cell :=
  (List.range 15).foldl (fun z m => if (z.1.dax.boxes.get m).busy then complete m stAbandoned [] (dropLeaves m z.1, z.2) else z) y

/-- An activation that had not flipped is given up; the one of the start is chosen again. -/
def dropActivation (x : Mod) : Mod :=
  match x.tt.act with
  | none => x
  | some a =>
    let x1 := dropActLeave a (setTt (fun t => { t with act := none }) x)
    if a.mbx.isNone then setStage 9 x1 else x1

/-- FOLTIN_WATCHDOG: the firmware stops, by a thread that missed its check-in or by an uncorrectable error in its SRAM (17 R518), and is
restarted. -/
def firmwareFails (y : Mod × List Host.Cell) : Mod × List Host.Cell :=
  if !y.1.dax.up then y
  else
    let y1 := abandonAll (eccRepair (fun w => decide (w = .sram)) id y.1, y.2)
    let x1 := dropActivation y1.1
    let x2 := [0, 1].foldl (fun a b => match (a.tt.banks.get b).st with
      | .writing | .verifying => abortBank b a
      | _ => a) x1
    let x3 := setMode (fun m => { m with modeMbx := none }) (setCpl (fun c => { c with stopRenew := true }) (holdoverEnters (clearStored x2)))
    let x4 : Mod := { x3 with
      tbl := { x3.tbl with edits := x3.tbl.edits.map (fun e => { e with mbx := none }) }
      dax := { x3.dax with up := false, restartAt := some x3.now, restarts := x3.dax.restarts + 1, version := none, session := 0 } }
    let x5 := raise .yard evFoltinRestart x4
    (notify { kind := 9, level := 0, sev := 0xFF, source := 0, time := x5.now / 1000, detail := zeros 16 } x5, y1.2)

/-- FOLTIN_RESTART_DONE: within 500 ms the firmware serves again, and completes a transition in progress. -/
def firmwareServes (y : Mod × List Host.Cell) : Mod × List Host.Cell :=
  match y.1.dax.restartAt with
  | none => y
  | some _ => drainOver ({ y.1 with dax := { y.1.dax with up := true, restartAt := none } }, y.2)

/-! ### The host link (13 R428) -/

/-- FUNCTION_LEVEL_RESET. -/
def functionResets (x : Mod) : Mod := if x.host.up then hostReset x else x

/-- PERST_ASSERT. -/
def perstFalls (x : Mod) : Mod := linkDown (setExt (fun e => { e with perst := false }) x)

/-! ### Inject (13 R424) -/

/-- Whether a descriptor is valid. -/
def injectOk (x : Mod) (d : List Byte) : Bool :=
  let fl := leAt d 0x0D 1
  let len := leAt d 8 2
  let fcs := bitOf fl 2
  let p := leAt d 0x0A 2
  decide (fl < 16) && allZero (sliceOf d 0x11 7) && decide ((if fcs then 64 else 60) ≤ len) && decide (len ≤ if fcs then 12288 else 12284)
    && (!bitOf fl 0 || (decide (leAt d 0x0C 1 < 16) && (decide (p ≤ 1031) || p == 1036 || p == 1037) && portDefined x p))

/-- The completion of the descriptor in the ring's next slot: STATUS is written and the module's index moves. -/
def injectDone (n status : Nat) (x : Mod) : Mod :=
  let r := x.host.rings.get n
  ringAdvance n 1 (emit (.dma (r.base + r.modIdx % ringSize r * 32 + 0x10) [BitVec.ofNat 8 status]) x)

/-- The frame of a descriptor. -/
def injectFrame (x : Mod) (n : Nat) (d buf : List Byte) : Frame :=
  let fl := leAt d 0x0D 1
  let len := leAt d 8 2
  let raw := fit len buf
  let (epoch, bank) := epochNow x
  let r := x.host.rings.get n
  { port := 1032 + r.hostPort, bytes := if bitOf fl 2 then raw else raw ++ fcsOf raw, arr := x.now, epoch := epoch, bank := bank
    inject := some (n, r.modIdx, fl), tsReq := if bitOf fl 1 then some (leAt d 0x0E 2) else none, oneStep := bitOf fl 3
    stamp := rxStamp x (1032 + r.hostPort) }

/-- A DIRECT frame: admitted to the Loft as any, it goes straight to the copy `c` that its descriptor names. -/
def directFrame (f : Nat) (fr : Frame) (c : Copy) (x : Mod) : Mod :=
  let x1 := setFrame f (fun r => { r with ended := true, good := true, decided := true })
    (loftAdmit f (newFrame { fr with direct := true } x))
  let x2 := releaseUnwritten (shedOfPort fr.port) f x1
  tidyFrame f (if (frame? x2 f).any (·.admitted) then fixCopies f [c] x2 else x2)

/-- STATUS of a descriptor whose frame has been submitted: 1 admitted, 2 dropped at admission. -/
def injectStatus (x : Mod) (f : Nat) : Nat := if (frame? x f).any (·.admitted) then 1 else 2

/-- INJECT_DESCRIPTOR_FETCH: the next descriptor of an enabled inject ring, with the bytes of its buffer. -/
def fetchInject (n : Nat) (d buf : List Byte) (x : Mod) : Mod :=
  let r := x.host.rings.get n
  if !r.enable || ringType n r ≠ 0 || r.hostIdx = r.modIdx || !x.host.up then x
  else if !injectOk x d then injectDone n 3 x
  else if !forwarding x then injectDone n 2 x
  else
    let fr := injectFrame x n d buf
    let f := x.nextF
    if bitOf (leAt d 0x0D 1) 0 then
      let c : Copy := { kind := .unicast, port := leAt d 0x0A 2, queue := leAt d 0x0C 1, cls := 0 }
      let x1 := directFrame f fr c x
      injectDone n (injectStatus x1 f) x1
    else
      let x1 := loftAdmit f (newFrame fr x)
      match frame? x1 f with
      | some fr1 => injectDone n (if fr1.admitted then 1 else 2) (endGood f fr1 x1)
      | none => injectDone n 2 x1

/-! ### Pins, faces and lanes (19; 16 R502, 02 R39) -/

/-- STRAP_CHANGE: the live level changes; after the sampling it raises the event. -/
def strapChanges (k : Strap) (level : Bool) (x : Mod) : Mod :=
  let was := match k with
    | .refclk => x.ext.liveRefclk
    | .gen4 => x.ext.liveGen4
  let x1 := setExt (fun e => match k with
    | .refclk => { e with liveRefclk := level }
    | .gen4 => { e with liveGen4 := level }) x
  if was = level || !x.ext.sampled then x1 else raise .yard evStrapChange x1

/-- The next state of a face with its limit: 0 normal, 1 hot, 2 cold; all in 0.125 °C. -/
def faceNext (limit : Int) (st : Nat) (r : Int) : Nat :=
  let fresh := if limit < r then 1 else if r < 120 then 2 else 0
  if st = 1 then (if r ≤ limit - 40 then fresh else 1)
  else if st = 2 then (if 144 ≤ r then fresh else 2)
  else fresh

/-- FACE_SENSOR_READ. -/
def faceRead (faceB : Bool) (l : List Int) (x : Mod) : Mod :=
  if !domRuns x 446 then x
  else
    let r := l.foldl max (l.headD 0)
    let o := if faceB then x.ext.faceB else x.ext.faceT
    let n := faceNext (if faceB then 480 else 440) o.1 r
    let v := (n, min r.toNat 4095)
    let x1 := setExt (fun e => if faceB then { e with faceB := v } else { e with faceT := v }) x
    if n = o.1 || n = 0 then x1 else raise .yard (if n = 1 then evFaceHot else evFaceCold) x1

/-- CPL_CABLE_CHANGE. -/
def cableChanges (low : Bool) (x : Mod) : Mod :=
  if x.ext.cable = low then x else raise .yard evCplCable (setExt (fun e => { e with cable := low }) x)

/-- LANE_SIGNAL_DETECT: the receiver of a lane that is to be trained sees its partner's signal (16 R502). -/
def signalSeen (lane : Nat) (x : Mod) : Mod :=
  if laneLive x lane then setLane lane (fun l => { l with signal := true }) x else x

/-- LANE_LOCK_ACQUIRE: a lane with signal locks. -/
def lockAcquired (lane : Nat) (x : Mod) : Mod := if (x.line.lanes.get lane).signal then laneRegains lane x else x

/-- MANAGEMENT_LINK_CHANGE: up while the management MAC and PHY run; what waits for a link that goes down is dropped. -/
def mgmtChanges (up : Bool) (x : Mod) : Mod :=
  if up = x.ext.mgmtLink || (up && !(domRuns x 440 && domRuns x 441)) then x
  else if up then setPort 1037 (fun s => { s with idleAt := x.now }) (setExt (fun e => { e with mgmtLink := true }) x)
  else
    let x1 := flushQueues 1037 1 7 (abortTx 1037 (endCut 1037 (cutReception 1037 x)))
    setExt (fun e => { e with mgmtLink := false }) (setPort 1037 (fun _ => {}) x1)

/-! ### The commands -/

/-- DOMAIN_WAKE_SETTLED. -/
def execDomainWakeSettled (d : Nat) (st : State) : Host.Outcome State Fault Refusal :=
  cmd (.domainWakeSettled d) (settledNow d) st

/-- MODE_CHANGE. -/
def execModeChange (m : Nat) (st : State) : Host.Outcome State Fault Refusal :=
  cmdAll (.modeChange m) (onCommand m 0x0003 (modeChangeCmd m)) st

/-- QUIESCE_DRAIN_END. -/
def execQuiesceDrainEnd (st : State) : Host.Outcome State Fault Refusal :=
  cmdAll (.quiesceDrainEnd) (drainOver) st

/-- DIAGNOSTIC_SESSION_END. -/
def execDiagnosticSessionEnd (st : State) : Host.Outcome State Fault Refusal :=
  cmd (.diagnosticSessionEnd) (sessionEnds) st

/-- YARD_DISCOVERY_COMPLETE. -/
def execYardDiscoveryComplete (st : State) : Host.Outcome State Fault Refusal :=
  cmd (.yardDiscoveryComplete) (discoveryEnds) st

/-- FOLTIN_WATCHDOG. -/
def execFoltinWatchdog (st : State) : Host.Outcome State Fault Refusal :=
  cmdAll (.foltinWatchdog) (firmwareFails) st

/-- FOLTIN_RESTART_DONE. -/
def execFoltinRestartDone (st : State) : Host.Outcome State Fault Refusal :=
  cmdAll (.foltinRestartDone) (firmwareServes) st

/-- SCHEDULED_RESET. -/
def execScheduledReset (st : State) : Host.Outcome State Fault Refusal :=
  cmdAll (.scheduledReset) (scheduledResets) st

/-- FIRMWARE_IMAGE_CHECK. -/
def execFirmwareImageCheck (st : State) : Host.Outcome State Fault Refusal :=
  cmdAll (.firmwareImageCheck) (checkImage) st

/-- PATCH_VERIFY. -/
def execPatchVerify (st : State) : Host.Outcome State Fault Refusal :=
  cmdAll (.patchVerify) (fun y => (patchVerifyNow y.2 y.1, y.2)) st

/-- INJECT_DESCRIPTOR_FETCH. -/
def execInjectDescriptorFetch (n : Nat) (desc buf : List Byte) (st : State) : Host.Outcome State Fault Refusal :=
  cmd (.injectDescriptorFetch n desc buf) (fetchInject n desc buf) st

/-- FUNCTION_LEVEL_RESET. -/
def execFunctionLevelReset (st : State) : Host.Outcome State Fault Refusal :=
  cmd (.functionLevelReset) (functionResets) st

/-- PERST_ASSERT. -/
def execPerstAssert (st : State) : Host.Outcome State Fault Refusal :=
  cmd (.perstAssert) (perstFalls) st

/-- MOD_RESET_ASSERT. -/
def execModResetAssert (st : State) : Host.Outcome State Fault Refusal :=
  cmdAll (.modResetAssert) (resetAsserted) st

/-- MOD_RESET_RELEASE. -/
def execModResetRelease (st : State) : Host.Outcome State Fault Refusal :=
  cmd (.modResetRelease) (resetReleased) st

/-- RESET_GLITCH. -/
def execResetGlitch (st : State) : Host.Outcome State Fault Refusal :=
  cmd (.resetGlitch) (resetGlitches) st

/-- STRAP_CHANGE. -/
def execStrapChange (strap : Strap) (level : Bool) (st : State) : Host.Outcome State Fault Refusal :=
  cmd (.strapChange strap level) (strapChanges strap level) st

/-- FACE_SENSOR_READ. -/
def execFaceSensorRead (faceB : Bool) (readings : List Int) (st : State) : Host.Outcome State Fault Refusal :=
  cmd (.faceSensorRead faceB readings) (faceRead faceB readings) st

/-- CPL_CABLE_CHANGE. -/
def execCplCableChange (low : Bool) (st : State) : Host.Outcome State Fault Refusal :=
  cmd (.cplCableChange low) (cableChanges low) st

/-- LANE_SIGNAL_DETECT. -/
def execLaneSignalDetect (lane : Nat) (st : State) : Host.Outcome State Fault Refusal :=
  cmd (.laneSignalDetect lane) (signalSeen lane) st

/-- LANE_LOCK_ACQUIRE. -/
def execLaneLockAcquire (lane : Nat) (st : State) : Host.Outcome State Fault Refusal :=
  cmd (.laneLockAcquire lane) (lockAcquired lane) st

/-- MANAGEMENT_LINK_CHANGE. -/
def execManagementLinkChange (up : Bool) (st : State) : Host.Outcome State Fault Refusal :=
  cmd (.managementLinkChange up) (mgmtChanges up) st

/-- MAINS_APPLY. -/
def execMainsApply (inlet : Inlet) (st : State) : Host.Outcome State Fault Refusal :=
  cmd (.mainsApply inlet) (mainsApplies inlet) st

/-- PSU_GOOD. -/
def execPsuGood (inlet : Inlet) (st : State) : Host.Outcome State Fault Refusal :=
  cmd (.psuGood inlet) (psuIsGood inlet) st

/-- HOLDUP_END. -/
def execHoldupEnd (st : State) : Host.Outcome State Fault Refusal :=
  cmdAll (.holdupEnd) (holdupEnds) st

/-- POWER_RESTART. -/
def execPowerRestart (st : State) : Host.Outcome State Fault Refusal :=
  cmd (.powerRestart) (powerRestarts) st

/-- HOST_LINK_WAIT_END. -/
def execHostLinkWaitEnd (st : State) : Host.Outcome State Fault Refusal :=
  cmd (.hostLinkWaitEnd) (linkWaitEnds) st

end Sys2Proof.Machine
end

