-- ==== Sys2Proof/Machine/RegMap.lean ====
section
/-! DEFINITION. Sys2Proof/Machine/RegMap.lean: where BAR0 has its registers and what each of them reads (00 R13 to R17; the register
sections of every chapter). A read that latches or pops has its own command; here is what a register shows. -/

namespace Sys2Proof.Machine

/-! ### Offsets (00 R13, R14) -/

/-- One register of the normal view: its level, its page within the level's window, its offset in the page. -/
structure RegAt where
  level : Level
  page  : Nat
  off   : Nat
  deriving DecidableEq, Repr

/-- The register an offset names, in whichever of the four views of its page; none in an undefined range. -/
def regAt (off : Nat) : Option RegAt :=
  let p := off / 0x4000 * 0x4000
  if off < 0x1000000 then some ⟨.yard, p, off % 0x1000⟩
  else if 0x9000000 ≤ off then none
  else
    let s := off / 0x1000000 - 1
    let o := off % 0x1000000
    if o < 0x800000 then some ⟨.shed s, p % 0x1000000, off % 0x1000⟩
    else if o < 0xC00000 then some ⟨.stall (16 * s + (o - 0x800000) / 0x40000), p % 0x40000, off % 0x1000⟩
    else none

/-- The view an offset lies in: 0 normal, 1 SET, 2 CLEAR, 3 TOGGLE. -/
def viewAt (off : Nat) : Nat := off % 0x4000 / 0x1000

/-- The same register's offset in the normal view. -/
def plainOff (off : Nat) : Nat := off / 0x4000 * 0x4000 + off % 0x1000

/-- Whether `off` is one of `n` words from `base`, `step` apart. -/
def wordIn (off base step n : Nat) : Bool := base ≤ off && (off - base) % step == 0 && (off - base) / step < n

/-- Which of those words. -/
def wordNo (off base step : Nat) : Nat := (off - base) / step

/-! ### Wide pairs, latched groups, event registers -/

/-- The pair whose selector, low or high register stands at an offset, by its page. -/
def pairAt (r : RegAt) : Option PairId :=
  match r.level with
  | .stall g =>
    if r.page = 0 then some (.lne g) else if r.page = 0x4000 then some (.prs g) else if r.page = 0x8000 then some (.otr g)
    else if r.page = 0xC000 then some (.que g) else if r.page = 0x14000 then some (.isl (.stall g)) else none
  | .shed s =>
    if r.page = 0x20000 then some (.lkp s) else if r.page = 0x30000 then some (.otrT s) else if r.page = 0x40000 then some (.lft s)
    else if r.page = 0x50000 then some (.xbr s) else if r.page = 0x70000 then some (.capPc s)
    else if r.page = 0x90000 then some (.ost s) else if r.page = 0xA0000 then some (.isl (.shed s)) else none
  | .yard =>
    if r.page = 0x70000 then some .snapTime else if r.page = 0xA0000 then some .cpl
    else if r.page = 0xD0000 then some (.isl .yard) else if r.page = 0xE0000 then some .pwr else none

/-- The ring whose registers stand at an offset of the ring pages. -/
def ringAt (r : RegAt) : Option Nat :=
  if r.level ≠ .yard then none
  else if r.page = 0xC4000 then some (r.off / 0x40)
  else if r.page = 0xC8000 && r.off < 24 * 0x40 then some (64 + r.off / 0x40)
  else none

/-- The register of a pair that an offset is: 0 selector, 1 low, 2 high. -/
def pairReg (r : RegAt) : Option (PairId × Nat) :=
  match ringAt r with
  | some n =>
    match r.off % 0x40 with
    | 0x08 => some (.ringBase n, 1)
    | 0x0C => some (.ringBase n, 2)
    | 0x10 => some (.ringWb n, 1)
    | 0x14 => some (.ringWb n, 2)
    | _ => none
  | none =>
    match pairAt r with
    | none => none
    | some .snapTime => if r.off = 0x100 then some (.snapTime, 1) else if r.off = 0x104 then some (.snapTime, 2) else none
    | some (.lkp s) =>
      if r.off = 0x300 then some (.lkp s, 0) else if r.off = 0x304 then some (.lkp s, 1) else if r.off = 0x308 then some (.lkp s, 2) else none
    | some p =>
      if r.off = 0x100 then some (p, 0) else if r.off = 0x104 then some (p, 1) else if r.off = 0x108 then some (p, 2) else none

/-- The latched group a register belongs to, with its place in the group. -/
def latchReg (r : RegAt) : Option (LatchId × Nat) :=
  let trb (l : Level) (page : Nat) : Option (LatchId × Nat) :=
    if r.page = page && wordIn r.off 0x20 4 4 then some (.troubleRec l, wordNo r.off 0x20 4) else none
  let xerr (l : Level) (page : Nat) : Option (LatchId × Nat) :=
    if r.page = page && wordIn r.off 0x200 4 2 then some (.xerrLog l, wordNo r.off 0x200 4) else none
  match r.level with
  | .stall g =>
    if r.page = 0x10000 && wordIn r.off 0x10 4 3 then some (.tsqData g, wordNo r.off 0x10 4)
    else (xerr (.stall g) 0x14000).or (trb (.stall g) 0x18000)
  | .shed s =>
    if r.page = 0x20000 && wordIn r.off 0x500 4 3 then some (.flapLog s, wordNo r.off 0x500 4)
    else if r.page = 0x40000 && wordIn r.off 0x200 4 2 then some (.freeLog s, wordNo r.off 0x200 4)
    else if r.page = 0x80000 && wordIn r.off 0x30 4 2 then some (.retireDrop s, wordNo r.off 0x30 4)
    else if r.page = 0x90000 && wordIn r.off 0x200 4 2 then some (.mcheckLog s, wordNo r.off 0x200 4)
    else (xerr (.shed s) 0xA0000).or (trb (.shed s) 0xB0000)
  | .yard =>
    if r.page = 0x80000 && wordIn r.off 0 4 3 then some (.nowSec, wordNo r.off 0 4)
    else if r.page = 0x80000 && wordIn r.off 0x10 4 2 then some (.mono, wordNo r.off 0x10 4)
    else if r.page = 0x80000 && wordIn r.off 0x40 4 2 then some (.refused, wordNo r.off 0x40 4)
    else if r.page = 0x80000 && 0x200 ≤ r.off && r.off < 0x250 && r.off % 0x10 ≠ 0 && r.off % 4 = 0 then
      some (.capSec ((r.off - 0x200) / 0x10), r.off % 0x10 / 4 - 1)
    else if r.page = 0x90000 && wordIn r.off 0x20 4 2 then some (.flip, wordNo r.off 0x20 4)
    else if r.page = 0xC0000 && wordIn r.off 0x10 4 2 then some (.accessLog, wordNo r.off 0x10 4)
    else if r.page = 0xE0000 && wordIn r.off 0x200 4 32 then some (.pwrLog ((r.off - 0x200) / 8), r.off % 8 / 4)
    else (xerr .yard 0xD0000).or (trb .yard 0xF0000)

/-- The block whose event register stands at an offset; 0 is TRB_STATUS. -/
def evtReg (r : RegAt) : Option Nat :=
  (0 :: evtBlocks r.level).find? (fun b => r.page == evtPage r.level b && r.off == evtInPage r.level b)

/-- The first word of a group that pops or latches, as it stands. -/
def firstWord (x : Mod) : LatchId → Nat
  | .nowSec => let t := todNow x; t.ns.toNat + t.frac.toNat / 16384 * 2 ^ 30
  | .capSec c => match (x.tim.ins.get c).fifo with | [] => 0x3FFFFFFF | k :: _ => k.1
  | .tsqData g =>
    match (x.tim.tsqs.get g).ents with
    | [] => 0
    | e :: _ => e.id * 65536 + e.port % 8 * 8192 + 1
  | .troubleRec l =>
    match (x.logs.get l).recs with
    | [] => 0
    | k :: _ => k.seq.toNat * 65536 + k.sev % 8 * 8192 + 4096 + k.code % 512
  | l => (groupWords x l).headD 0

/-- A word of a latched group: the first as it stands, the others as latched, 0 without a latch (13 R428). -/
def latchWord (x : Mod) (l : LatchId) (i : Nat) : Nat :=
  if i = 0 then firstWord x l else (((x.latch.get l)[i - 1]?).getD 0).toNat

/-- A register of a pair: its selector, the current low half, the latched high half or 0, as with a selection that names nothing (02
R74). -/
def pairWord (x : Mod) (p : PairId) (i : Nat) : Nat :=
  if i = 0 then (x.pairs.get p).sel.toNat
  else if i = 1 then ((pairValue x p).setWidth 32).toNat
  else if pairNames x p then (((x.pairs.get p).latch).getD 0).toNat else 0

/-- HIGHEST of TRB_STATUS: the highest severity among the set sticky bits, 7 with none (17 R528). -/
def highestSev (t : TLog) : Nat :=
  (t.sticky.ents.filterMap (fun e => e.2.map (·.2))).foldl (fun a s => if sevRank a < sevRank s then s else a) 7

/-- An event register as it reads (13 R415, 17 R528; 02 R76 for SPILL_COUNT). -/
def evtWord (x : Mod) (l : Level) (b : Nat) : Nat :=
  if b = 0 then
    let t := x.logs.get l
    t.seq.toNat * 65536 + at_ 13 3 (highestSev t) + at_ 0 7 t.recs.length
  else
    let e := x.evts.get (l, b)
    let spill := match l, b with
      | .stall g, 1 => (x.spills.get g).toNat * 256
      | _, _ => 0
    e.seq.toNat * 65536 + spill + evtBits e

/-- TRB_HEAD, TRB_IRQ and TRB_STICKY of a level (17 R528, R530). -/
def trbWord (x : Mod) (l : Level) (off : Nat) : Nat :=
  let t := x.logs.get l
  let bits (b : Nat) : Nat := ((List.range 16).map (fun i => flag i (t.sticky.get (16 * b + i)).isSome)).foldl (· + ·) 0
  if off = 0x004 then t.lost.toNat * 65536 + t.merged.toNat
  else if off = 0x010 then flag 31 t.irqAll + at_ 0 3 t.minSev
  else if wordIn off 0x100 4 11 then bits (2 * wordNo off 0x100 4) + 65536 * bits (2 * wordNo off 0x100 4 + 1)
  else 0

/-- Word `i` of a digest (10 R344). -/
def digestWord (d : Digest) (i : Nat) : Nat := d.toNat / 2 ^ (32 * i) % 2 ^ 32

/-! ### Stall pages -/

/-- A port's settings, if one starts at lane-in-stall `p` of stall `g`. -/
def startCfg (x : Mod) (g p : Nat) : Option PortCfg := if portStarts x g p then some (portCfg x (8 * g + p)) else none

/-- LNE_STALL_MAP (02 R71). -/
def lneStallMap (x : Mod) (g : Nat) : Nat :=
  let sum (f : Nat → Bool) : Nat := ((List.range 8).map (fun i => flag i (f i))).foldl (· + ·) 0
  at_ 16 4 ((actCfg x).rates.get g) + 256 * sum (fun i => (x.line.lanes.get (8 * g + i)).lock) + sum (portStarts x g)

/-- LNE_CLK (02 R72). -/
def lneClk (x : Mod) (g : Nat) : Nat :=
  let c := x.line.clks.get g
  c.steps.toNat * 65536 + flag 8 c.pin + (if c.one then 1 else 3)

/-- LNE_PORT_STATUS of lane-in-stall `p` (02 R73). -/
def lnePortStatus (x : Mod) (g p : Nat) : Nat :=
  match startCfg x g p with
  | none => 0
  | some k =>
    let n := 8 * g + p
    let s := portSt x n
    let whole := pausedNow x n 8
    let paused := ((List.range 8).map (fun c => flag (16 + c) (whole || pausedNow x n c))).foldl (· + ·) 0
    flag 31 true + flag 30 s.up + flag 29 k.macsec + flag 28 k.lpiCap + flag 27 s.txLpi + flag 26 s.rxLpi + paused
      + at_ 12 4 k.fc + at_ 8 4 k.width

/-- PRS_PORT_CFG (03 R105). -/
def prsPortCfg (x : Mod) (g p : Nat) : Nat :=
  match startCfg x g p with
  | none => 0
  | some k =>
    let f := (actCfg x).profiles.get k.profile
    at_ 28 4 k.profile + at_ 26 2 k.aclClass + at_ 24 2 k.truncPol + at_ 22 2 k.confPol + at_ 16 6 (f.byteLimit / 8)
      + at_ 8 5 f.hdrLimit + 1

/-- OTR_PORT_CFG (05 R179). -/
def otrPortCfg (x : Mod) (g p : Nat) : Nat :=
  match startCfg x g p with
  | none => 0
  | some k => flag 31 true + flag 30 k.otrEn + flag 29 k.ctEn + flag 28 k.redundant + at_ 24 4 k.confirm + at_ 20 4 k.refute

/-- The snapshot of the selected queue: 0 where no port starts (07 R258, R259). -/
def depthWord (x : Mod) (g off : Nat) : Nat :=
  let k := x.que.snap.get g
  if !portStarts x g (fieldOf (x.que.sel.get g) 10 8) then 0
  else if off = 0x004 then k.1 else if off = 0x008 then k.2.1 else at_ 16 16 k.2.2.1 + at_ 0 16 k.2.2.2

/-- TIM_TSQ_CFG and TIM_TSQ_STATUS (09 R319). -/
def tsqWord (x : Mod) (g off : Nat) : Nat :=
  let q := x.tim.tsqs.get g
  if off = 0x000 then q.cfg.toNat
  else if off = 0x004 then flag 31 q.ovf + q.lost.toNat * 64 + at_ 0 6 q.ents.length else 0

/-- The remaining registers of a stall's pages. -/
def stallWord (x : Mod) (g page off : Nat) : Nat :=
  if page = 0 then
    (if off = 0x000 then lneStallMap x g else if off = 0x010 then lneClk x g
     else if wordIn off 0x020 4 8 then lnePortStatus x g (wordNo off 0x020 4) else 0)
  else if page = 0x4000 then
    (if wordIn off 0 4 8 then prsPortCfg x g (wordNo off 0 4) else if off = 0x200 then (x.line.flagged.get g).toNat else 0)
  else if page = 0x8000 then
    (if wordIn off 0 4 8 then otrPortCfg x g (wordNo off 0 4)
     else if wordIn off 0x040 4 8 then ((startCfg x g (wordNo off 0x040 4)).map (·.hashMask)).getD 0
     else if off = 0x200 then (x.line.lastStomp.get g).toNat else 0)
  else if page = 0xC000 then
    (if off = 0 then (x.que.sel.get g).toNat else if wordIn off 0x004 4 3 then depthWord x g off else 0)
  else if page = 0x10000 then tsqWord x g off
  else if page = 0x18000 then trbWord x (.stall g) off
  else 0

/-! ### Shed pages -/

/-- LKP_OCC of a table: entries outside the stash, and in it; member slots of the group table (04 R145). -/
def lkpOcc (x : Mod) (s tab : Nat) : Nat :=
  let l := x.tbl.ents.get (s, tab)
  if tab = 6 then at_ 0 22 (l.foldl (fun a e => a + leAt e.dat 6 2) 0)
  else
    match hashCap tab with
    | some (cap, _) => at_ 22 10 (l.filter (fun e => cap ≤ e.pos)).length + at_ 0 22 (l.filter (fun e => e.pos < cap)).length
    | none => at_ 0 22 l.length

/-- LKP_ACL_MAP0 and MAP1 (03 R108). -/
def aclMap (x : Mod) (k : Nat) : Nat :=
  ((List.range 8).map (fun i => match (actCfg x).acl.slice.get (8 * k + i) with
    | some grp => at_ (4 * i) 4 (8 + grp % 4)
    | none => 0)).foldl (· + ·) 0

/-- The valid tickets of a shed of the current generation and epoch (05 R184). -/
def currentTkts (x : Mod) (s : Nat) : List Tkt :=
  ((x.tkt.get s).ways.ents.filterMap (·.2)).filter (fun k => k.gen == (x.tkt.get s).gen && k.epoch == x.tt.epoch)

/-- XBR_DRAWBAR (06 R226); PEER reads its reset value until the half's first training (log 46). -/
def xbrDrawbar (x : Mod) (s h : Nat) : Nat :=
  let k := x.mesh.halves.get (s, h)
  let st := if domSt x (352 + 7 * s + h) == .waking then 5 else match k.st with
    | .stopped => 0
    | .training => 1
    | .full => 2
    | .halfRate => 3
    | .outOfService => 4
    | .waking => 5
  at_ 29 3 k.peer + at_ 26 3 st + at_ 20 4 ((k.express + 99) / 100) + k.crcErr.toNat

/-- The registers of a shed's CAP page (08 R282 to R290). -/
def shedCapWord (x : Mod) (s off : Nat) : Nat :=
  let c := x.cap.sheds.get s
  if wordIn off 0 4 16 then
    let k := c.pcs.get (wordNo off 0 4)
    k.cfg.toNat + flag 27 k.ovf + flag 26 (pcInvalid k)
  else if wordIn off 0x040 4 16 then (c.pcs.get (wordNo off 0x040 4)).thr.toNat
  else if off = 0x200 then c.precise.toNat
  else if off = 0x204 then c.period.toNat
  else if off = 0x208 then at_ 0 24 c.left
  else if off = 0x20C then c.skip.toNat
  else if off = 0x210 then c.ostCfg.toNat
  else 0

/-- OST_ENGINE (14 R458). -/
def ostEngine (x : Mod) (s e : Nat) : Nat :=
  let g := (x.ost.get s).engines.get e
  at_ 30 2 (engState g) + flag 29 g.halted + flag 28 ((g.run.map (·.roll.isSome)).getD false) + flag 27 g.atomic
    + at_ 22 5 (if g.st == .waiting then g.cond else 0) + at_ 14 8 g.queue.length + g.uaddr.toNat

/-- The registers of a shed's OST page (14 R456 to R461). -/
def ostWord (x : Mod) (s off : Nat) : Nat :=
  let o := x.ost.get s
  if off = 0x000 then o.revision.toNat
  else if off = 0x004 then flag 31 o.patched + at_ 27 4 o.result + flag 26 o.loaded
  else if off = 0x008 then Config.ostBase.toNat
  else if wordIn off 0x010 4 4 then ostEngine x s (wordNo off 0x010 4)
  else if off = 0x280 then flag 31 o.bistFrom.isSome + at_ 29 2 o.bistRes
  else 0

/-- TRB_SCRUB (17 R531). -/
def trbScrub (x : Mod) (s : Nat) : Nat :=
  let t := x.trb.get s
  flag 31 t.scrubRun.isSome + min ((x.now - t.scrubLast.getD 0) / sec 1) 0xFFFF

/-- The remaining registers of a shed's pages. -/
def shedWord (x : Mod) (s page off : Nat) : Nat :=
  if page = 0x20000 then
    (if off = 0x000 then aclMap x 0 else if off = 0x004 then aclMap x 1 else if off = 0x100 then (x.tbl.aclLog.get s).toNat
     else if wordIn off 0x400 4 9 then lkpOcc x s (wordNo off 0x400 4 + 1)
     else if off = 0x440 then (ageTick x).toNat else 0)
  else if page = 0x30000 then
    (if off = 0x000 then at_ 16 16 ((currentTkts x s).filter (·.elig)).length + at_ 0 16 (currentTkts x s).length
     else if off = 0x004 then flag 8 (x.tkt.get s).sweepAt.isSome + (x.tkt.get s).gen.toNat
     else if off = 0x008 then (match activeCfg x with | some c => at_ 16 16 c.blockMs | none => 0) else 0)
  else if page = 0x40000 then
    (if off = 0x000 then
       ((runningBanks x s).map (fun b => 2 ^ (20 + b))).foldl (· + ·) 0 + at_ 0 18 (loftUsed x s)
     else if off = 0x004 then at_ 0 18 (x.loft.get s).peak
     else if off = 0x010 then 0xA8009000 else 0)
  else if page = 0x50000 then
    (if wordIn off 0 4 7 then xbrDrawbar x s (wordNo off 0 4)
     else if off = 0x040 then (match activeCfg x with | some c => at_ 16 7 c.reseq | none => 0)
     else if off = 0x200 then (x.mesh.reseqLog.get s).toNat else 0)
  else if page = 0x60000 then (if off = 0 then (x.que.resLog.get s).toNat else 0)
  else if page = 0x70000 then shedCapWord x s off
  else if page = 0x80000 then
    (let t := x.tt.sheds.get s
     if wordIn off 0 4 8 then digestWord t.digest (wordNo off 0 4)
     else if off = 0x020 then
       at_ 30 2 t.epoch.toNat + flag 29 t.loaded + at_ 0 18 ((oldFrames x).filter (fun e => holderShed x e.1 e.2 == s)).length
     else 0)
  else if page = 0x90000 then ostWord x s off
  else if page = 0xB0000 then (if off = 0x210 then trbScrub x s else trbWord x (.shed s) off)
  else 0

/-! ### Yard pages -/

/-- YRD_MODE (01 R32). -/
def yrdMode (x : Mod) : Nat := at_ 16 4 x.mode.target.code + at_ 8 4 x.mode.cause + at_ 0 4 x.mode.mode.code

/-- The yard CAP page (08 R285, R287). -/
def yardCapWord (x : Mod) (off : Nat) : Nat :=
  if wordIn off 0 4 16 then
    let g := x.cap.rings.get (wordNo off 0 4)
    flag 31 g.enable + at_ 24 4 g.format + g.dropped.toNat
  else if off = 0x108 then flag 31 x.cap.armed.isSome + flag 30 x.cap.taken
  else 0

/-- The yard TIM page (09 R313 to R318). -/
def timWord (x : Mod) (off : Nat) : Nat :=
  let t := x.tim
  if off = 0x020 then at_ 30 2 t.source + at_ 20 10 t.ppsMs
  else if off = 0x024 then flag 31 t.isSet + flag 30 t.refLock + at_ 27 3 t.servo
  else if off = 0x028 then t.freq.toNat
  else if off = 0x02C then at_ 0 30 t.jump
  else if off = 0x030 then t.args.1.toNat
  else if off = 0x034 then t.args.2.1.toNat
  else if off = 0x038 then t.args.2.2.toNat
  else if off = 0x03C then flag 31 (timBusy x) + at_ 28 3 t.result
  else if 0x100 ≤ off && off < 0x200 then
    let p := t.outs.get ((off - 0x100) / 0x20)
    match off % 0x20 with
    | 0x00 => flag 31 p.armed + flag 28 p.invalid + p.cfg.toNat
    | 0x04 => p.startNs.toNat
    | 0x08 => p.secLo.toNat
    | 0x0C => p.secHi.toNat
    | 0x10 => p.period.toNat
    | _ => 0
  else if 0x200 ≤ off && off < 0x250 && off % 0x10 = 0 then
    let k := t.ins.get ((off - 0x200) / 0x10)
    flag 31 k.en + at_ 29 2 k.edge + flag 28 k.ovf + at_ 0 3 k.fifo.length
  else 0

/-- The yard TTB page (10 R343 to R346). -/
def ttbWord (x : Mod) (off : Nat) : Nat :=
  let b0 := x.tt.banks.get 0
  let b1 := x.tt.banks.get 1
  let checked := match x.tt.active with
    | some k => (x.tt.banks.get k).sigChecked
    | none => false
  if off = 0x000 then
    at_ 28 4 b0.st.code + at_ 24 4 b1.st.code + at_ 22 2 x.tt.epoch.toNat + at_ 20 2 x.tt.oldEpoch.toNat + flag 19 (draining x)
      + flag 18 (activationOn x) + at_ 16 2 (x.tt.active.getD 3) + flag 0 checked
  else if off = 0x010 then (bankSeq x 0).toNat
  else if off = 0x014 then (bankSeq x 1).toNat
  else if off = 0x030 then flag 31 x.tt.drainTimeout + at_ 0 13 x.tt.drainUs
  else if off = 0x040 then x.tt.verifyLog.toNat
  else if wordIn off 0x100 4 8 then digestWord (bankDigest x 0) (wordNo off 0x100 4)
  else if wordIn off 0x120 4 8 then digestWord (bankDigest x 1) (wordNo off 0x120 4)
  else 0

/-- STATE of CPL_REINS: a lease this module holds, one outstanding in its view, or none (11 R375). -/
def reinsState (x : Mod) : Nat :=
  if x.cpl.holder then 1 else if leaseEnded x || x.cpl.ownLease || x.cpl.viewEnd.isNone then 0 else 2

/-- The lease end in this module's own view (11 R357). -/
def leaseEndAt (x : Mod) : Nat := if x.cpl.holder || x.cpl.ownLease then x.cpl.ownEnd else x.cpl.viewEnd.getD 0

/-- The CPL page (11 R373 to R375). -/
def cplWord (x : Mod) (off : Nat) : Nat :=
  let c := x.cpl
  if off = 0x000 then
    at_ 28 4 ((c.partner.map (·.mode)).getD 0) + flag 27 c.link + flag 26 (c.paths.get .coupler).up + flag 25 (c.paths.get .mgmt).up
      + flag 24 c.partnerDying + at_ 23 1 (pairOf_ x).role + flag 22 (c.resyncOut || c.resyncIn)
  else if off = 0x004 then 0x04010000 + (match c.negMinor with | some k => 0x400 + at_ 0 8 k | none => 0)
  else if off = 0x010 then at_ 30 2 (reinsState x) + flag 29 (isSteward x)
  else if off = 0x014 then c.leaseNum.toNat
  else if off = 0x018 then (leaseEndAt x - x.now) / us 1
  else 0

/-- The MBX page (12 R405). -/
def mbxWord (x : Mod) (off : Nat) : Nat :=
  if off = 0x000 then
    at_ 24 8 ((x.dax.version.map (·.1)).getD 0) + at_ 16 8 ((x.dax.version.map (·.2)).getD 0) + x.dax.restarts.toNat * 256
      + flag 4 x.dax.version.isSome + at_ 0 4 ((List.range 15).filter (fun m => (x.dax.boxes.get m).busy)).length
  else if off = 0x004 then x.dax.session
  else if off = 0x010 then at_ 16 16 x.dax.wdogMs
  else 0

/-- The HST page (13 R430, R432, R433). -/
def hstWord (x : Mod) (off : Nat) : Nat :=
  let h := x.host
  if off = 0x000 then at_ 28 4 h.speed + at_ 22 6 h.width + flag 21 h.degraded + h.downCount.toNat
  else if off = 0x018 then h.unmapped.toNat
  else if wordIn off 0x100 4 64 then
    leNat ((List.range 4).map (fun i => h.puntMap.get (4 * wordNo off 0x100 4 + i)))
  else if wordIn off 0x400 4 121 then
    let k := wordNo off 0x400 4
    at_ 0 11 (vecOf x (2 * k)) + (if k = 120 then 0 else at_ 16 11 (vecOf x (2 * k + 1)))
  else 0

/-- The registers of a ring (13 R434 to R436). -/
def ringWord (x : Mod) (n off : Nat) : Nat :=
  let r := x.host.rings.get n
  let host := ringType n r = 0 || ringType n r = 1
  let prodHost := host
  match off with
  | 0x00 => flag 31 r.enable + at_ 28 2 (ringType n r) + at_ 23 5 r.sizeLog2 + (if n < 64 then at_ 21 2 r.hostPort else 0)
  | 0x04 => flag 31 r.idle + at_ 28 3 r.error
  | 0x18 => if prodHost then r.hostIdx else r.modIdx
  | 0x1C => if prodHost then r.modIdx else r.hostIdx
  | 0x20 => at_ 16 16 r.modCount + at_ 0 16 r.modTime
  | 0x24 => r.drop.toNat
  | _ => 0

/-- The rate of an island in MHz while it runs, rounded down, and whether it is its reduced one (15 R463, R477). -/
def islandRate (x : Mod) (i : Nat) : Nat × Bool :=
  let n := i % 256
  match i / 256 with
  | 0x0 => (250, false)
  | 0x1 => (1200, false)
  | 0x2 => (1000, false)
  | 0x3 => (125, false)
  | 0x4 => (1000, false)
  | 0x5 => if n = 0 then (1600, false) else (1656, false)
  | 0x9 => if (x.mesh.halves.get (n / 7, n % 7)).st == .halfRate then (800, true) else (1600, false)
  | 0xB => if (x.line.clks.get n).one then (400, true) else (1600, false)
  | 0xC => (match (actCfg x).rates.get n with | 1 => 332 | 2 => 664 | 3 => 1328 | _ => 0, false)
  | _ => (1600, false)

/-- ISL_STATE of the selected island (15 R477). -/
def islState (x : Mod) : Nat :=
  let i := fieldOf x.isl.sel 11 0
  if !islandValid i then 0
  else if !domRuns x (islandDomain i) then flag 31 true
  else flag 31 true + flag 30 true + flag 29 true + flag 28 (islandRate x i).2 + (islandRate x i).1

/-- STATE of a domain (16 R508). -/
def DomSt.code : DomSt → Nat
  | .stop => 0
  | .run => 1
  | .waking => 2
  | .stopping => 3

/-- PWR_DOM_STATE of the selected domain (16 R508). -/
def pwrDomState (x : Mod) : Nat :=
  let d := fieldOf x.pwr.domSel 15 0
  if 447 < d && d ≠ 0xFFFF then 0
  else at_ 29 3 (domSt x d).code + flag 28 (d ≠ 0xFFFF && modeRequires x d none) + at_ 0 16 (fullLoad d)

/-- PWR_INLET (16 R504). -/
def pwrInlet (i : InletSt) : Nat :=
  flag 31 i.good + flag 30 i.lowLine + at_ 16 9 (i.dV / 10) + at_ 0 12 (inletAvail i / 10)

/-- The PWR page (16 R504 to R513). COMMITTED and PWR_DOM_STATE keep their reset values through stage 1 (log 46). -/
def pwrWord (x : Mod) (off : Nat) : Nat :=
  let p := x.pwr
  if off = 0x000 then pwrInlet p.a
  else if off = 0x004 then pwrInlet p.b
  else if off = 0x010 then at_ 16 16 (budget x) + at_ 0 16 (if p.stage = 1 then 0 else committed x)
  else if off = 0x014 then at_ 0 16 p.draw
  else if off = 0x018 then
    flag 31 p.holdup.isSome + flag 30 (capped x) + flag 29 p.shedding + at_ 16 8 (min p.grants.length 255) + at_ 8 8 p.queue.length
      + at_ 0 8 ((p.queue.head?.map (·.op)).getD 0)
  else if off = 0x020 then at_ 28 4 p.stage + min (p.frozenMs.getD (nowMs x)) 0xFFFF
  else if off = 0x030 then p.domSel.toNat
  else if off = 0x034 then (if p.stage = 1 then 0x20000000 else pwrDomState x)
  else if wordIn off 0x040 4 14 then
    ((List.range 32).map (fun i => flag i (domRuns x (32 * wordNo off 0x040 4 + i)))).foldl (· + ·) 0
  else if wordIn off 0x080 4 8 then
    let t := p.therm.get (wordNo off 0x080 4)
    at_ 30 2 t.state + t.temp.toNat
  else if off = 0x280 then p.logCount.toNat * 65536 + p.logNewest % 16
  else if off = 0x290 then flag 31 (diagBusy x) + at_ 0 16 p.diagDom
  else 0

/-- The code of a shed's state (17 R531). -/
def ShedSt.code : ShedSt → Nat
  | .forwarding => 0
  | .quiesced => 1
  | .returning => 2
  | .held => 3

/-- TRB_SHED_STATE. -/
def trbShedState (x : Mod) : Nat :=
  ((List.range 8).map (fun s => at_ (4 * s) 4 (x.trb.get s).st.code)).foldl (· + ·) 0

/-- The SEC page (18 R546, R547). -/
def secWord (x : Mod) (off : Nat) : Nat :=
  if off = 0x000 then (secStatusReg x).toNat
  else if off = 0x004 then (secBoot x).toNat
  else if off = 0x008 then x.sec.svn.toNat
  else if off = 0x00C then x.sec.minSvn.toNat
  else if off = 0x010 then x.sec.fwVersion.toNat
  else if wordIn off 0x020 4 8 then
    (match x.sec.enrol with
     | some e => digestWord (Config.shake256 e.pub) (wordNo off 0x020 4)
     | none => 0)
  else 0

/-- The MOD page (19 R574 to R576). -/
def modWord (x : Mod) (off : Nat) : Nat :=
  let e := x.ext
  if off = 0x000 then flag 31 e.sampled + flag 1 e.gen4 + flag 0 e.refclk
  else if off = 0x004 then
    flag 31 e.resetPin + flag 30 e.perst + flag 29 e.cable + flag 28 (!(domRuns x 446 && x.pwr.holdup.isNone))
      + flag 27 e.liveRefclk + flag 26 e.liveGen4 + e.glitches.toNat
  else if off = 0x010 then at_ 30 2 e.faceT.1 + at_ 0 12 e.faceT.2
  else if off = 0x014 then at_ 30 2 e.faceB.1 + at_ 0 12 e.faceB.2
  else 0

/-- The remaining registers of the yard's pages. -/
def yardWord (x : Mod) (page off : Nat) : Nat :=
  if page = 0 then (if off = 0x100 then yrdMode x else 0)
  else if page = 0x70000 then yardCapWord x off
  else if page = 0x80000 then timWord x off
  else if page = 0x90000 then ttbWord x off
  else if page = 0xA0000 then cplWord x off
  else if page = 0xB0000 then mbxWord x off
  else if page = 0xC0000 then hstWord x off
  else if page = 0xD0000 then (if off = 0 then x.isl.sel.toNat else if off = 4 then islState x else 0)
  else if page = 0xE0000 then pwrWord x off
  else if page = 0xF0000 then (if off = 0x200 then trbShedState x else trbWord x .yard off)
  else if page = 0x100000 then secWord x off
  else if page = 0x110000 then modWord x off
  else 0

/-! ### Every register -/

/-- What a register shows. -/
def regShows (x : Mod) (r : RegAt) : Nat :=
  match evtReg r with
  | some b => evtWord x r.level b
  | none =>
    match pairReg r with
    | some (p, i) => pairWord x p i
    | none =>
      match latchReg r with
      | some (l, i) => latchWord x l i
      | none =>
        match ringAt r with
        | some n => ringWord x n (r.off % 0x40)
        | none =>
          match r.level with
          | .yard => yardWord x r.page r.off
          | .shed s => shedWord x s r.page r.off
          | .stall g => stallWord x g r.page r.off

/-- What the register at a BAR0 offset shows; 0 in an undefined range. A read from an alias page returns the same (00 R14). -/
def regValue (x : Mod) (off : Nat) : Word :=
  match regAt off with
  | some r => BitVec.ofNat 32 (regShows x r)
  | none => 0

end Sys2Proof.Machine
end

