-- ==== Sys2Proof/Machine/RegWrite.lean ====
section
/-! DEFINITION. Sys2Proof/Machine/RegWrite.lean: host writes to BAR0: which registers take them, the alias views, enables and
alignment, and the write that clears events (00 R14 to R17; 13 R407, R411 to R415). -/

namespace Sys2Proof.Machine

/-! ### Which registers there are, and what of them is RW or PW -/

/-- The registers of a page, as runs (first offset, step, number). -/
def pageRegs : Level → Nat → List (Nat × Nat × Nat)
  | .stall _, 0x0000 => [(0, 4, 1), (0x10, 4, 1), (0x20, 4, 8), (0x100, 4, 3), (0x200, 4, 1)]
  | .stall _, 0x4000 => [(0, 4, 8), (0x100, 4, 3), (0x200, 4, 1)]
  | .stall _, 0x8000 => [(0, 4, 8), (0x40, 4, 8), (0x100, 4, 3), (0x200, 4, 1), (0x300, 4, 1)]
  | .stall _, 0xC000 => [(0, 4, 4), (0x100, 4, 3), (0x300, 4, 1)]
  | .stall _, 0x10000 => [(0, 4, 2), (0x10, 4, 3), (0x300, 4, 1)]
  | .stall _, 0x14000 => [(0x100, 4, 3), (0x200, 4, 2), (0x300, 4, 1)]
  | .stall _, 0x18000 => [(0, 4, 2), (0x10, 4, 1), (0x20, 4, 4), (0x100, 4, 11)]
  | .shed _, 0x20000 => [(0, 4, 2), (0x100, 4, 1), (0x200, 4, 1), (0x300, 4, 3), (0x400, 4, 9), (0x440, 4, 1), (0x500, 4, 3),
                         (0x600, 4, 1)]
  | .shed _, 0x30000 => [(0, 4, 3), (0x100, 4, 3), (0x200, 4, 1)]
  | .shed _, 0x40000 => [(0, 4, 2), (0x10, 4, 1), (0x100, 4, 3), (0x200, 4, 2), (0x300, 4, 1)]
  | .shed _, 0x50000 => [(0, 4, 7), (0x40, 4, 1), (0x100, 4, 3), (0x200, 4, 1), (0x300, 4, 1)]
  | .shed _, 0x60000 => [(0, 4, 1), (0x200, 4, 1)]
  | .shed _, 0x70000 => [(0, 4, 32), (0x100, 4, 3), (0x200, 4, 5), (0x300, 4, 1)]
  | .shed _, 0x80000 => [(0, 4, 9), (0x30, 4, 2)]
  | .shed _, 0x90000 => [(0, 4, 3), (0x10, 4, 4), (0x100, 4, 3), (0x200, 4, 2), (0x280, 4, 1), (0x300, 4, 1)]
  | .shed _, 0xA0000 => [(0x100, 4, 3), (0x200, 4, 2), (0x300, 4, 1)]
  | .shed _, 0xB0000 => [(0, 4, 2), (0x10, 4, 1), (0x20, 4, 4), (0x100, 4, 11), (0x210, 4, 1)]
  | .yard, 0x00000 => [(0x100, 4, 1)]
  | .yard, 0x70000 => [(0, 4, 16), (0x100, 4, 3), (0x200, 4, 2)]
  | .yard, 0x80000 => [(0, 4, 3), (0x10, 4, 2), (0x20, 4, 10), (0x100, 0x20, 8), (0x104, 0x20, 8), (0x108, 0x20, 8),
                       (0x10C, 0x20, 8), (0x110, 0x20, 8), (0x200, 4, 20), (0x300, 4, 1)]
  | .yard, 0x90000 => [(0, 4, 1), (0x10, 4, 2), (0x20, 4, 2), (0x30, 4, 1), (0x40, 4, 1), (0x100, 4, 16), (0x300, 4, 1)]
  | .yard, 0xA0000 => [(0, 4, 2), (0x10, 4, 3), (0x100, 4, 3), (0x300, 4, 1)]
  | .yard, 0xB0000 => [(0, 4, 2), (0x10, 4, 1), (0x300, 4, 1)]
  | .yard, 0xC0000 => [(0, 4, 1), (0x10, 4, 3), (0x100, 4, 64), (0x400, 4, 121), (0xF00, 4, 1)]
  | .yard, 0xC4000 => (List.range 10).map (fun k => (4 * k, 0x40, 64))
  | .yard, 0xC8000 => (List.range 10).map (fun k => (4 * k, 0x40, 24))
  | .yard, 0xD0000 => [(0, 4, 2), (0x100, 4, 3), (0x200, 4, 2), (0x300, 4, 1)]
  | .yard, 0xE0000 => [(0, 4, 2), (0x10, 4, 3), (0x20, 4, 1), (0x30, 4, 2), (0x40, 4, 14), (0x80, 4, 8), (0x100, 4, 3), (0x200, 4, 32),
                       (0x280, 4, 1), (0x290, 4, 1), (0x300, 4, 1)]
  | .yard, 0xF0000 => [(0, 4, 2), (0x10, 4, 1), (0x20, 4, 4), (0x100, 4, 11), (0x200, 4, 2)]
  | .yard, 0x100000 => [(0, 4, 5), (0x20, 4, 8)]
  | .yard, 0x110000 => [(0, 4, 2), (0x10, 4, 2), (0x300, 4, 1)]
  | _, _ => []

/-- Whether an offset names a register. -/
def regDefined (r : RegAt) : Bool := (pageRegs r.level r.page).any (fun k => wordIn r.off k.1 k.2.1 k.2.2)

/-- The RW and PW bits of a ring's register; 31 and 23 to 27 alone for rings 64 to 87 (13 R434, R436). -/
def ringMask (n off : Nat) : Nat :=
  match off with
  | 0x00 => if n < 64 then mask 31 31 + mask 29 21 else mask 31 31 + mask 27 23
  | 0x20 => mask 31 0
  | _ => 0

/-- The RW and PW bits of the yard TIM page (09 R313 to R318). -/
def timMask (off : Nat) : Nat :=
  if off = 0x020 then mask 31 20
  else if off = 0x02C then mask 29 0
  else if wordIn off 0x030 4 3 then mask 31 0
  else if 0x100 ≤ off && off < 0x200 then
    match off % 0x20 with
    | 0x00 => mask 31 29 + mask 23 0
    | 0x04 => mask 29 0
    | 0x08 => mask 31 0
    | 0x0C => mask 15 0
    | 0x10 => mask 29 0
    | _ => 0
  else if wordIn off 0x200 0x10 5 then mask 31 29
  else 0

/-- The RW and PW bits of a register that is no part of a pair. -/
def rwMask (r : RegAt) : Nat :=
  match ringAt r with
  | some n => ringMask n (r.off % 0x40)
  | none =>
    match r.level with
    | .stall _ =>
      if r.page = 0 && r.off = 0x010 then mask 8 8
      else if r.page = 0xC000 && r.off = 0 then mask 10 8 + mask 3 0
      else if r.page = 0xC000 && r.off = 0x008 then mask 17 0
      else if r.page = 0xC000 && r.off = 0x00C then mask 31 16
      else if r.page = 0x10000 && r.off = 0 then mask 31 31 + mask 2 0
      else if r.page = 0x18000 && r.off = 0x010 then mask 31 31 + mask 2 0 else 0
    | .shed _ =>
      if r.page = 0x40000 && r.off = 0x004 then mask 17 0
      else if r.page = 0x70000 && wordIn r.off 0 4 16 then mask 31 28 + mask 23 8 + mask 3 0
      else if r.page = 0x70000 && wordIn r.off 0x040 4 16 then mask 23 0
      else if r.page = 0x70000 && r.off = 0x200 then mask 31 24 + mask 10 0
      else if r.page = 0x70000 && r.off = 0x204 then mask 23 0
      else if r.page = 0x70000 && r.off = 0x210 then mask 31 31 + mask 29 24 + mask 15 0
      else if r.page = 0xB0000 && r.off = 0x010 then mask 31 31 + mask 2 0 else 0
    | .yard =>
      if r.page = 0x80000 then timMask r.off
      else if r.page = 0xB0000 && r.off = 0x010 then mask 31 16
      else if r.page = 0xC0000 && wordIn r.off 0x100 4 64 then 0xBFBFBFBF
      else if r.page = 0xC0000 && wordIn r.off 0x400 4 120 then mask 26 16 + mask 10 0
      else if r.page = 0xC0000 && r.off = 0x5E0 then mask 10 0
      else if r.page = 0xD0000 && r.off = 0 then mask 11 0
      else if r.page = 0xE0000 && r.off = 0x030 then mask 15 0
      else if r.page = 0xE0000 && r.off = 0x290 then mask 15 0
      else if r.page = 0xF0000 && r.off = 0x010 then mask 31 31 + mask 2 0 else 0

/-! ### The write that clears events (13 R415, 17 R523) -/

/-- Writing back EVT_SEQ: the events at or before it are cleared; a sequence not yet issued clears nothing and is logged with
KIND 8. An event of the same cycle is later than any the host could have read (00 R19). -/
def clearEvents (l : Level) (b off : Nat) (v : Word) (x : Mod) : Mod :=
  let q := BitVec.ofNat 16 (fieldOf v 31 16)
  if b = 0 then
    (if serialNewer q ((x.logs.get l).met x.cyc).seq then logAccess 8 0xF 0 off x
     else { x with logs := x.logs.upd l (fun t => t.change x.cyc (·.clear q)) })
  else if serialNewer q ((x.evts.get (l, b)).readable x.cyc) then logAccess 8 0xF 0 off x
  else { x with evts := x.evts.upd (l, b) (·.clear q) }

/-! ### One whole register -/

/-- Writes of the yard TIM page are posted to the always-on domain; while BUSY they are dropped, and a pulse output that is armed
takes only TIM_PO_CFG (13 R413, 09 R318). -/
def postTim (off : Nat) (v : Word) (x : Mod) : Mod :=
  let r := off - 0x80000
  if timMask r = 0 && r ≠ 0x03C then x
  else if timBusy x then logAccess 3 0xF 0 off x
  else if 0x100 ≤ r && r < 0x200 && r % 0x20 ≠ 0 && (x.tim.outs.get ((r - 0x100) / 0x20)).armed then raiseLock .yard 4 0 off x
  else setTim (fun t => { t with posted := some (r, v, x.now) }) x

/-- HST_PUNT_MAP and HST_VEC_MAP (13 R432, R433). -/
def writeHst (off : Nat) (v : Word) (x : Mod) : Mod :=
  if wordIn off 0x100 4 64 then
    let k := wordNo off 0x100 4
    { x with host := { x.host with puntMap := (List.range 4).foldl (fun m i =>
        m.set (4 * k + i) (BitVec.ofNat 8 (fieldOf v (8 * i + 7) (8 * i)) &&& 0xBF#8)) x.host.puntMap } }
  else if wordIn off 0x400 4 121 then
    let k := wordNo off 0x400 4
    let m := x.host.vec.set (2 * k) (some (fieldOf v 10 0))
    { x with host := { x.host with vec := if k = 120 then m else m.set (2 * k + 1) (some (fieldOf v 26 16)) } }
  else x

/-- HST_RING_CFG and HST_RING_MOD (13 R423, R434, R436). -/
def writeRing (n off : Nat) (v : Word) (x : Mod) : Mod :=
  match off with
  | 0x00 => if v.getLsbD 31 then ringStart n v x else ringStop n v x
  | 0x20 => setRing n (fun r => { r with modCount := fieldOf v 31 16, modTime := fieldOf v 15 0 }) x
  | _ => x

/-- TRB_IRQ (17 R528): a MIN_SEV above 4 is taken as 4. -/
def writeIrq (l : Level) (v : Word) (x : Mod) : Mod :=
  { x with logs := x.logs.upd l (fun t => { t with irqAll := bitOf v.toNat 31, minSev := min (fieldOf v 2 0) 4 }) }

/-- The returns that a write of TRB_SHED_RESTORE asks for (17 R527, R531). -/
def restoreSheds (v : Word) (x : Mod) : Mod := (List.range 8).foldl (fun a s => if v.getLsbD s then restoreShed s a else a) x

/-- LNE_CLK.PIN: both pipes run while it is 1 (02 R61, R72). -/
def writeClk (g : Nat) (v : Word) (x : Mod) : Mod :=
  let on := v.getLsbD 8
  setClk g (fun c => { c with pin := on, one := c.one && !on, steps := if c.one && on then c.steps + 1 else c.steps }) x

/-- CAP_OST_SAMPLE (08 R276, R290): EN starts the count of the period. -/
def writeOstSample (s : Nat) (v : Word) (x : Mod) : Mod :=
  let w := v &&& 0xBF00FFFF#32
  setCap s (fun c => { c with ostCfg := w, ostAt := if w.getLsbD 31 then some (x.now + ostPeriod w) else none }) x

/-- A write to the peak or the largest delay goes to the live value of the selected queue (07 R254, R258); what the present cycle
brings comes after it (00 R18). -/
def writePeak (g : Nat) (f : QueSt → QueSt) (x : Mod) : Mod :=
  let w := x.que.sel.get g
  if portStarts x g (fieldOf w 10 8) then setQue (8 * g + fieldOf w 10 8) (fieldOf w 3 0) f x else x

/-- A write of a stall's register. -/
def writeStall (g page off : Nat) (v : Word) (x : Mod) : Mod :=
  if page = 0 && off = 0x010 then writeClk g v x
  else if page = 0xC000 && off = 0 then selectDepth g v x
  else if page = 0xC000 && off = 0x008 then writePeak g (fun q => { q with peak := max (fieldOf v 17 0) (queueCells q) }) x
  else if page = 0xC000 && off = 0x00C then writePeak g (fun q => { q with max := max (fieldOf v 31 16) (freshIn x.cyc q.cyc q.fresh) }) x
  else if page = 0x10000 && off = 0 then
    setTim (fun t => { t with tsqs := t.tsqs.upd g (fun q => { q with cfg := v &&& 0x80000007#32 }) }) x
  else if page = 0x10000 && off = 0x004 then tsqOvf g v x
  else if page = 0x18000 && off = 0x010 then writeIrq (.stall g) v x
  else x

/-- A write of a shed's register. -/
def writeShed (s page off : Nat) (v : Word) (x : Mod) : Mod :=
  if page = 0x40000 && off = 0x004 then setLoft s (fun l => { l with peak := max (fieldOf v 17 0) (loftUsed x s) }) x
  else if page = 0x70000 && wordIn off 0 4 16 then pcWrite s (wordNo off 0 4) false v x
  else if page = 0x70000 && wordIn off 0x040 4 16 then pcWrite s (wordNo off 0x040 4) true v x
  else if page = 0x70000 && off = 0x200 then writePrecise s v x
  else if page = 0x70000 && off = 0x204 then writePeriod s v x
  else if page = 0x70000 && off = 0x210 then writeOstSample s v x
  else if page = 0x90000 && off = 0x280 then startBist s v x
  else if page = 0xB0000 && off = 0x010 then writeIrq (.shed s) v x
  else x

/-- A write of a yard register. -/
def writeYard (page off : Nat) (v : Word) (x : Mod) : Mod :=
  if page = 0x70000 && off = 0x108 then snapArm v x
  else if page = 0x80000 then postTim (page + off) v x
  else if page = 0xB0000 && off = 0x010 then writeWdog v x
  else if page = 0xC0000 then writeHst off v x
  else if page = 0xD0000 && off = 0 then { x with isl := { x.isl with sel := v &&& 0xFFF#32 } }
  else if page = 0xE0000 && off = 0x030 then setPwr (fun p => { p with domSel := v &&& 0xFFFF#32 }) x
  else if page = 0xE0000 && off = 0x290 then diagCtl v x
  else if page = 0xF0000 && off = 0x010 then writeIrq .yard v x
  else if page = 0xF0000 && off = 0x204 then restoreSheds v x
  else x

/-- A write of one whole register of a wide pair: selector, low half held, high half commits. -/
def writePair (p : PairId) (i : Nat) (v : Word) (x : Mod) : Mod :=
  if i = 0 then writeSel p v x else if i = 1 then holdLow p v x else commitHigh p v x

/-- The effect of a 32-bit write on the register that takes it; RO fields and undefined offsets ignore it (00 R16, R17, 13 R411). -/
def writeAt (r : RegAt) (off : Nat) (v : Word) (x : Mod) : Mod :=
  match evtReg r with
  | some b => if r.page = 0x80000 && r.level == .yard && timBusy x then logAccess 3 0xF 0 off x else clearEvents r.level b off v x
  | none =>
    match pairReg r with
    | some (p, i) => writePair p i v x
    | none =>
      match ringAt r with
      | some n => writeRing n (r.off % 0x40) v x
      | none =>
        match r.level with
        | .yard => writeYard r.page r.off v x
        | .shed s => writeShed s r.page r.off v x
        | .stall g => writeStall g r.page r.off v x

/-- A 32-bit write through the normal view of a page: lost where the register's island is stopped (13 R413, 15 R470). -/
def writeReg (off : Nat) (v : Word) (x : Mod) : Mod :=
  match regAt off with
  | some r => if regDefined r then reach off 1 (writeAt r off v) x else x
  | none => x

/-! ### The alias views (00 R14, R15) -/

/-- The bits an alias view makes of a field's bits `w` and the written bits `v`: 1 SET, 2 CLEAR, 3 TOGGLE. -/
def aliasBits (view : Nat) (w v : Word) : Word := if view = 1 then w ||| v else if view = 2 then w &&& ~~~v else w ^^^ v

/-- The RW and PW bits of a register before an alias write; PEAK and MAX of a queue are the live ones. -/
def aliasOld (x : Mod) (r : RegAt) : Nat :=
  match r.level with
  | .stall g =>
    let w := x.que.sel.get g
    let q := queSt x (8 * g + fieldOf w 10 8) (fieldOf w 3 0)
    if r.page = 0xC000 && r.off = 0x008 then q.peak
    else if r.page = 0xC000 && r.off = 0x00C then at_ 16 16 q.max
    else regShows x r
  | _ => regShows x r

/-- A write through an alias view: it acts on RW and PW bits alone, and one to a wide pair is dropped and logged with KIND 9. -/
def aliasWrite (view off : Nat) (v : Word) (x : Mod) : Mod :=
  let p := plainOff off
  match regAt p with
  | none => x
  | some r =>
    match pairReg r with
    | some (k, 0) => if (selMask k).isSome then writeReg p (aliasBits view (x.pairs.get k).sel v) x else x
    | some _ => logAccess 9 0xF 0 p x
    | none =>
      let m := BitVec.ofNat 32 (rwMask r)
      if rwMask r = 0 then x else writeReg p (aliasBits view (BitVec.ofNat 32 (aliasOld x r)) (v &&& m) &&& m) x

/-- A 32-bit write through whichever view its offset lies in. -/
def writeAny (off : Nat) (v : Word) (x : Mod) : Mod :=
  if viewAt off = 0 then writeReg off v x else aliasWrite (viewAt off) off v x

/-! ### A write as it arrives (13 R411) -/

/-- The bytes of a write that fall into the register at `reg_`, none where there is none or it is not enabled. -/
def partOf (off : Nat) (d : List (Option Byte)) (reg_ : Nat) : List (Option Byte) :=
  (List.range 4).map (fun i => if off ≤ reg_ + i then (d[reg_ + i - off]?).join else none)

/-- The byte enables of a register's part. -/
def enables (l : List (Option Byte)) : Nat :=
  ((List.range 4).map (fun i => flag i ((l[i]?).join).isSome)).foldl (· + ·) 0

/-- The registers that a write touches with an enabled byte, in ascending order. -/
def touched (off : Nat) (d : List (Option Byte)) : List Nat :=
  ((List.range (d.length / 4 + 2)).map (fun k => off / 4 * 4 + 4 * k)).filter (fun r => enables (partOf off d r) ≠ 0)

/-- Whether the enabled bytes are one run. -/
def oneRun (d : List (Option Byte)) : Bool :=
  let t := (d.dropWhile (·.isNone)).reverse.dropWhile (·.isNone)
  t.all (·.isSome)

/-- One register's part: applied when whole; else dropped and logged, with KIND 2 when the write is not aligned and KIND 0
otherwise. An undefined offset ignores it. -/
def writePart (off : Nat) (d : List (Option Byte)) (x : Mod) (reg_ : Nat) : Mod :=
  let p := partOf off d reg_
  if enables p = 0xF then writeAny reg_ (BitVec.ofNat 32 (leNat (p.map (·.getD 0)))) x
  else
    match regAt reg_ with
    | some r => if regDefined r then logAccess (if off % 4 = 0 then 0 else 2) (enables p) 0 reg_ x else x
    | none => x

/-- A host write to BAR0: poisoned data, and enables with a gap where it touches a register, drop it whole, logged once with KIND 1; else
its registers take their parts in ascending order. Low and high half of a pair in one write commit together, since nothing comes between them. -/
def hostWrite (off : Nat) (d : List (Option Byte)) (poisoned : Bool) (x : Mod) : Mod :=
  let t := touched off d
  let first := t.headD (off / 4 * 4)
  if poisoned then emit .aer (logAccess 1 (enables (partOf off d first)) 0 first x)
  else if !oneRun d then
    match t.find? (fun o => (regAt o).any regDefined) with
    | some o => logAccess 1 (enables (partOf off d o)) 0 o x
    | none => x
  else t.foldl (writePart off d) x

/-- EVT_SEQ_WRITE: the event register of a block, or TRB_STATUS, is written whole. -/
def evtSeqNow (l : Level) (b : Nat) (v : Word) (x : Mod) : Mod := writeReg (evtOffset l b) v x

/-! ### The commands -/

/-- REGISTER_WRITE. -/
def execRegisterWrite (off : Nat) (data : List (Option Byte)) (poisoned : Bool) (st : State) : Host.Outcome State Fault Refusal :=
  cmd (.registerWrite off data poisoned) (hostWrite off data poisoned) st

/-- SET_ALIAS_WRITE. -/
def execSetAliasWrite (off : Nat) (v : Word) (st : State) : Host.Outcome State Fault Refusal :=
  cmd (.setAliasWrite off v) (aliasWrite 1 off v) st

/-- CLEAR_ALIAS_WRITE. -/
def execClearAliasWrite (off : Nat) (v : Word) (st : State) : Host.Outcome State Fault Refusal :=
  cmd (.clearAliasWrite off v) (aliasWrite 2 off v) st

/-- TOGGLE_ALIAS_WRITE. -/
def execToggleAliasWrite (off : Nat) (v : Word) (st : State) : Host.Outcome State Fault Refusal :=
  cmd (.toggleAliasWrite off v) (aliasWrite 3 off v) st

/-- EVT_SEQ_WRITE. -/
def execEvtSeqWrite (l : Level) (blk : Nat) (v : Word) (st : State) : Host.Outcome State Fault Refusal :=
  cmd (.evtSeqWrite l blk v) (evtSeqNow l blk v) st

end Sys2Proof.Machine
end

