-- ==== Sys2Proof/Machine/Tick.lean ====
section
/-! DEFINITION. Sys2Proof/Machine/Tick.lean: what the passing of time does by itself (log 1). Everything else that falls due at a time is
a command of its own. -/

namespace Sys2Proof.Machine

/-! ### Cycles of the shed core clock: 0.625 ns (08 R277) -/

/-- The occupancy that an event code of a shed names (08 R278). -/
def pcOccupancy (x : Mod) (s : Nat) (c : PerfCtr) : Nat :=
  let i := pcSource c
  match pcEvent c with
  | 0x40 => loftUsed x s
  | 0x41 => queueCells (queSt x (128 * s + i / 16) (i % 16))
  | 0x42 => (x.mesh.reseq.get (s, i)).cells.length
  | 0x43 => (x.mesh.s2.get (s, i)).length
  | 0x44 => (x.tbl.learns.get s).length
  | 0x45 => (engine x s i).queue.length
  | 0x46 => ((x.mesh.halves.get (s, i)).express + 99) / 100
  | _ => 0

/-- Whether a cycle is an event of a code that counts cycles (08 R278); 0x07 where a request of the crossbar port, as input or output,
stayed unmatched. -/
def pcCycleEvent (x : Mod) (s : Nat) (c : PerfCtr) : Bool :=
  let i := pcSource c
  match pcEvent c with
  | 0x07 => (x.mesh.xbars.get s).missed.contains i
  | 0x20 => true
  | 0x21 => (x.line.clks.get (16 * s + i)).one
  | 0x22 => (x.mesh.halves.get (s, i)).st == .halfRate
  | 0x23 => (engine x s i).st == .waiting
  | _ => false

/-- One cycle as one counter sees it: the cycle of a change of its settings does not count (08 R277, R279). -/
def pcCycle (s : Nat) (x : Mod) (n : Nat) : Mod :=
  let c := (x.cap.sheds.get s).pcs.get n
  let up := decide (fieldOf c.thr 23 0 < pcOccupancy x s c)
  let hit := match c.above with
    | none => false
    | some before =>
      if pcMode c = 0 then pcCycleEvent x s c else if pcMode c = 1 then up else pcMode c = 2 && up && !before
  let x1 := setPc s n (fun c => { c with above := some up }) x
  if c.cfg.getLsbD 31 && !pcInvalid c && hit then pcAdd s n 1 x1 else x1

/-- Engines took machine checks in this cycle: the third within 1 s is Fatal for the shed (14 R451). -/
def checksRepeat (s : Nat) (before x : Mod) : Mod :=
  if (x.ost.get s).mlog.count != (before.ost.get s).mlog.count && mcheckRepeats x s then shedFalls s evMcheckRepeat x else x

/-- One cycle of a shed whose core runs: its crossbar, its cycle counter, its performance counters, and the issue stage of its engines. -/
def shedCycle (x : Mod) (s : Nat) : Mod :=
  if !domRuns x (408 + s) then x
  else
    let x1 := (List.range 16).foldl (pcCycle s) (setCap s (fun c => { c with cycles := c.cycles + 1 }) (xbarCycle s x))
    scrubMax s (checksRepeat s x1 ((List.range 4).foldl (fun a e => engineCycle s e a) x1))

/-- One cycle of the module: the sheds, the stops and wakes that wait for the step limit (16 R487, R499), and the holdover of a pair without
steward (11 R360). -/
def cycle (x : Mod) : Mod := heldFollows <| wakeStageEnds (serveWaits ((List.range 8).foldl shedCycle x))

/-- The pulses in progress on the timing outputs end (09 R308, R310). -/
def pulsesEnd (x : Mod) : Mod := ppsFalls ((List.range 8).foldl (fun a o => endPulse o a) x)

/-- Time passes: 5 ps; at each multiple of 0.625 ns a cycle. -/
def tick (x : Mod) : Mod :=
  let x1 := pulsesEnd { x with now := x.now + 5 }
  if x1.now % 625 = 0 then cycle x1 else x1

end Sys2Proof.Machine
end

