-- ==== Sys2Proof/Machine/Dispatch.lean ====
section
/-! DEFINITION. Sys2Proof/Machine/Dispatch.lean: one arm per command. -/

namespace Sys2Proof.Machine

def exec (i : Instr) (s : State) : Host.Outcome State Fault Refusal :=
  match i with
  | .frameReceive port bytes side => Sys2Proof.Machine.execFrameReceive port bytes side s
  | .loftAdmission f => Sys2Proof.Machine.execLoftAdmission f s
  | .frameEnd f errBlock => Sys2Proof.Machine.execFrameEnd f errBlock s
  | .frameOversize f => Sys2Proof.Machine.execFrameOversize f s
  | .pauseFrameReceive port bytes => Sys2Proof.Machine.execPauseFrameReceive port bytes s
  | .pfcFrameReceive port bytes => Sys2Proof.Machine.execPfcFrameReceive port bytes s
  | .pauseExpiry port cls => Sys2Proof.Machine.execPauseExpiry port cls s
  | .guardResult f => Sys2Proof.Machine.execGuardResult f s
  | .guardRevision f => Sys2Proof.Machine.execGuardRevision f s
  | .outriderStart f => Sys2Proof.Machine.execOutriderStart f s
  | .lateGuard f => Sys2Proof.Machine.execLateGuard f s
  | .enqueue f copy => Sys2Proof.Machine.execEnqueue f copy s
  | .scheduleFrame port => Sys2Proof.Machine.execScheduleFrame port s
  | .txFrameEnd port => Sys2Proof.Machine.execTxFrameEnd port s
  | .ctOversizeStomp port => Sys2Proof.Machine.execCtOversizeStomp port s
  | .ctUnderrun port => Sys2Proof.Machine.execCtUnderrun port s
  | .pauseResend port cls => Sys2Proof.Machine.execPauseResend port cls s
  | .lpiEnter port => Sys2Proof.Machine.execLpiEnter port s
  | .pipeStepDown g => Sys2Proof.Machine.execPipeStepDown g s
  | .portUp port => Sys2Proof.Machine.execPortUp port s
  | .portDown port => Sys2Proof.Machine.execPortDown port s
  | .laneLockLoss lane => Sys2Proof.Machine.execLaneLockLoss lane s
  | .laneLockRegain lane => Sys2Proof.Machine.execLaneLockRegain lane s
  | .fecDegrade port symbols => Sys2Proof.Machine.execFecDegrade port symbols s
  | .counterSpill c => Sys2Proof.Machine.execCounterSpill c s
  | .counterHarvest c => Sys2Proof.Machine.execCounterHarvest c s
  | .spillLate c => Sys2Proof.Machine.execSpillLate c s
  | .counterLoRead p => Sys2Proof.Machine.execCounterLoRead p s
  | .counterSelectWrite p v => Sys2Proof.Machine.execCounterSelectWrite p v s
  | .latchRead l => Sys2Proof.Machine.execLatchRead l s
  | .widePairLowWrite p v => Sys2Proof.Machine.execWidePairLowWrite p v s
  | .widePairHighWrite p v => Sys2Proof.Machine.execWidePairHighWrite p v s
  | .registerWrite off data poisoned => Sys2Proof.Machine.execRegisterWrite off data poisoned s
  | .setAliasWrite off v => Sys2Proof.Machine.execSetAliasWrite off v s
  | .clearAliasWrite off v => Sys2Proof.Machine.execClearAliasWrite off v s
  | .toggleAliasWrite off v => Sys2Proof.Machine.execToggleAliasWrite off v s
  | .evtSeqWrite l blk v => Sys2Proof.Machine.execEvtSeqWrite l blk v s
  | .cellDec sh cell requester => Sys2Proof.Machine.execCellDec sh cell requester s
  | .cellFree sh cell requester desc => Sys2Proof.Machine.execCellFree sh cell requester desc s
  | .freeRetry sh cell => Sys2Proof.Machine.execFreeRetry sh cell s
  | .loftAudit sh => Sys2Proof.Machine.execLoftAudit sh s
  | .loftBankIdle sh => Sys2Proof.Machine.execLoftBankIdle sh s
  | .loftBankStop sh bank => Sys2Proof.Machine.execLoftBankStop sh bank s
  | .yardCellReceive sh h cell => Sys2Proof.Machine.execYardCellReceive sh h cell s
  | .reseqTimeout sh src => Sys2Proof.Machine.execReseqTimeout sh src s
  | .drawbarCrcLimit sh h => Sys2Proof.Machine.execDrawbarCrcLimit sh h s
  | .hitchClockLockLoss sh h => Sys2Proof.Machine.execHitchClockLockLoss sh h s
  | .drawbarTrainingDone pair => Sys2Proof.Machine.execDrawbarTrainingDone pair s
  | .drawbarTrainingFail pair => Sys2Proof.Machine.execDrawbarTrainingFail pair s
  | .halfRateEnter sh h => Sys2Proof.Machine.execHalfRateEnter sh h s
  | .halfRateReturn sh h => Sys2Proof.Machine.execHalfRateReturn sh h s
  | .drawbarHalfStopRequest sh h => Sys2Proof.Machine.execDrawbarHalfStopRequest sh h s
  | .drawbarHalfWakeRequest sh h => Sys2Proof.Machine.execDrawbarHalfWakeRequest sh h s
  | .queueUseRecountDone port q => Sys2Proof.Machine.execQueueUseRecountDone port q s
  | .depthSelectWrite g v => Sys2Proof.Machine.execDepthSelectWrite g v s
  | .tableEditInsert m => Sys2Proof.Machine.execTableEditInsert m s
  | .tableEditChange m => Sys2Proof.Machine.execTableEditChange m s
  | .tableEditDelete m => Sys2Proof.Machine.execTableEditDelete m s
  | .replicaWriteReceive sh => Sys2Proof.Machine.execReplicaWriteReceive sh s
  | .replicaCompare table => Sys2Proof.Machine.execReplicaCompare table s
  | .learnRequestHandle sh => Sys2Proof.Machine.execLearnRequestHandle sh s
  | .freezeEnd sh fid mac => Sys2Proof.Machine.execFreezeEnd sh fid mac s
  | .hitRefresh sh fid mac tick => Sys2Proof.Machine.execHitRefresh sh fid mac tick s
  | .agingVisit sh fid mac => Sys2Proof.Machine.execAgingVisit sh fid mac s
  | .quarantineEnd meter idx => Sys2Proof.Machine.execQuarantineEnd meter idx s
  | .cursorExpiry sh cursor => Sys2Proof.Machine.execCursorExpiry sh cursor s
  | .search m => Sys2Proof.Machine.execSearch m s
  | .next m => Sys2Proof.Machine.execNext m s
  | .flushByPort m => Sys2Proof.Machine.execFlushByPort m s
  | .journalRead m => Sys2Proof.Machine.execJournalRead m s
  | .aclParityRepair sh slice entry => Sys2Proof.Machine.execAclParityRepair sh slice entry s
  | .ticketGenAdvance sh => Sys2Proof.Machine.execTicketGenAdvance sh s
  | .ticketSweepDone sh => Sys2Proof.Machine.execTicketSweepDone sh s
  | .ticketSweepLate sh => Sys2Proof.Machine.execTicketSweepLate sh s
  | .ticketBlockEnd sh t => Sys2Proof.Machine.execTicketBlockEnd sh t s
  | .refuteWindowEnd sh t => Sys2Proof.Machine.execRefuteWindowEnd sh t s
  | .ticketRead m => Sys2Proof.Machine.execTicketRead m s
  | .ticketFlush m => Sys2Proof.Machine.execTicketFlush m s
  | .queueConfig m => Sys2Proof.Machine.execQueueConfig m s
  | .counterRead m => Sys2Proof.Machine.execCounterRead m s
  | .captureRing m => Sys2Proof.Machine.execCaptureRing m s
  | .lossMarkerWrite r => Sys2Proof.Machine.execLossMarkerWrite r s
  | .ostlerSample sh => Sys2Proof.Machine.execOstlerSample sh s
  | .queueDepthExport port => Sys2Proof.Machine.execQueueDepthExport port s
  | .pcOverflow sh n => Sys2Proof.Machine.execPcOverflow sh n s
  | .pcConfigWrite sh n thresh v => Sys2Proof.Machine.execPcConfigWrite sh n thresh v s
  | .snapshotArm v => Sys2Proof.Machine.execSnapshotArm v s
  | .snapshotTake sh => Sys2Proof.Machine.execSnapshotTake sh s
  | .precisePeriodWrite sh v => Sys2Proof.Machine.execPrecisePeriodWrite sh v s
  | .preciseCfgWrite sh v => Sys2Proof.Machine.execPreciseCfgWrite sh v s
  | .timeUnitSet servo force sec ns => Sys2Proof.Machine.execTimeUnitSet servo force sec ns s
  | .timeUnitStep servo force off => Sys2Proof.Machine.execTimeUnitStep servo force off s
  | .timeUnitFrequency servo force freq => Sys2Proof.Machine.execTimeUnitFrequency servo force freq s
  | .servoHoldoverExit median => Sys2Proof.Machine.execServoHoldoverExit median s
  | .pulseOutputArm o v => Sys2Proof.Machine.execPulseOutputArm o v s
  | .pulseOutputFire o => Sys2Proof.Machine.execPulseOutputFire o s
  | .captureInputEdge c rising => Sys2Proof.Machine.execCaptureInputEdge c rising s
  | .captureStampPop c => Sys2Proof.Machine.execCaptureStampPop c s
  | .captureOvfClear c v => Sys2Proof.Machine.execCaptureOvfClear c v s
  | .tsqPop g => Sys2Proof.Machine.execTsqPop g s
  | .tsqOvfClear g v => Sys2Proof.Machine.execTsqOvfClear g v s
  | .timePort m => Sys2Proof.Machine.execTimePort m s
  | .timeStep m => Sys2Proof.Machine.execTimeStep m s
  | .ptpConfig m => Sys2Proof.Machine.execPtpConfig m s
  | .macsecInstallTxSa m => Sys2Proof.Machine.execMacsecInstallTxSa m s
  | .macsecInstallRxSa m => Sys2Proof.Machine.execMacsecInstallRxSa m s
  | .macsecDeleteSa m => Sys2Proof.Machine.execMacsecDeleteSa m s
  | .macsecSelectTxSa m => Sys2Proof.Machine.execMacsecSelectTxSa m s
  | .ttOpen m => Sys2Proof.Machine.execTtOpen m s
  | .ttWrite m => Sys2Proof.Machine.execTtWrite m s
  | .ttClose m => Sys2Proof.Machine.execTtClose m s
  | .ttActivate m => Sys2Proof.Machine.execTtActivate m s
  | .ttInvalidate m => Sys2Proof.Machine.execTtInvalidate m s
  | .ttStatus m => Sys2Proof.Machine.execTtStatus m s
  | .verificationDone bank => Sys2Proof.Machine.execVerificationDone bank s
  | .shedLoadDone sh digest => Sys2Proof.Machine.execShedLoadDone sh digest s
  | .heartbeatSend path => Sys2Proof.Machine.execHeartbeatSend path s
  | .heartbeatReceive path bytes => Sys2Proof.Machine.execHeartbeatReceive path bytes s
  | .pathLost path => Sys2Proof.Machine.execPathLost path s
  | .dyingGasp path => Sys2Proof.Machine.execDyingGasp path s
  | .syncRecordReceive bytes => Sys2Proof.Machine.execSyncRecordReceive bytes s
  | .genHandoverRecord handle nextSeq => Sys2Proof.Machine.execGenHandoverRecord handle nextSeq s
  | .genHandoverAck handle => Sys2Proof.Machine.execGenHandoverAck handle s
  | .genHandoverResend handle => Sys2Proof.Machine.execGenHandoverResend handle s
  | .recoveryReset handle => Sys2Proof.Machine.execRecoveryReset handle s
  | .pairRestart m => Sys2Proof.Machine.execPairRestart m s
  | .reinsHandover m => Sys2Proof.Machine.execReinsHandover m s
  | .doorbellRing m => Sys2Proof.Machine.execDoorbellRing m s
  | .commandTaken m => Sys2Proof.Machine.execCommandTaken m s
  | .commandStart m => Sys2Proof.Machine.execCommandStart m s
  | .commandDeadline m => Sys2Proof.Machine.execCommandDeadline m s
  | .hostWatchdogWrite v => Sys2Proof.Machine.execHostWatchdogWrite v s
  | .hello m => Sys2Proof.Machine.execHello m s
  | .moduleInfo m => Sys2Proof.Machine.execModuleInfo m s
  | .modeChange m => Sys2Proof.Machine.execModeChange m s
  | .firmwareUpdate m => Sys2Proof.Machine.execFirmwareUpdate m s
  | .fwWrite m => Sys2Proof.Machine.execFwWrite m s
  | .fwCommit m => Sys2Proof.Machine.execFwCommit m s
  | .fwStatus m => Sys2Proof.Machine.execFwStatus m s
  | .enrol m => Sys2Proof.Machine.execEnrol m s
  | .quote m => Sys2Proof.Machine.execQuote m s
  | .challenge m => Sys2Proof.Machine.execChallenge m s
  | .decommission m => Sys2Proof.Machine.execDecommission m s
  | .policySet m => Sys2Proof.Machine.execPolicySet m s
  | .ringDoorbell n v => Sys2Proof.Machine.execRingDoorbell n v s
  | .ringEnable n v => Sys2Proof.Machine.execRingEnable n v s
  | .ringDisable n v => Sys2Proof.Machine.execRingDisable n v s
  | .ringStopDone n => Sys2Proof.Machine.execRingStopDone n s
  | .injectDescriptorFetch n desc buf => Sys2Proof.Machine.execInjectDescriptorFetch n desc buf s
  | .ringModerationTimer n => Sys2Proof.Machine.execRingModerationTimer n s
  | .dmaReadError n => Sys2Proof.Machine.execDmaReadError n s
  | .dmaWriteRefused n => Sys2Proof.Machine.execDmaWriteRefused n s
  | .hostLinkUp speed width => Sys2Proof.Machine.execHostLinkUp speed width s
  | .vectorUnmask v => Sys2Proof.Machine.execVectorUnmask v s
  | .ostlerCommand sh e kind code tag => Sys2Proof.Machine.execOstlerCommand sh e kind code tag s
  | .ostlerConditionMet sh e => Sys2Proof.Machine.execOstlerConditionMet sh e s
  | .ostlerWaitTimeout sh e => Sys2Proof.Machine.execOstlerWaitTimeout sh e s
  | .ostlerRoutineEnd sh e => Sys2Proof.Machine.execOstlerRoutineEnd sh e s
  | .ostlerMachineCheck sh e kind => Sys2Proof.Machine.execOstlerMachineCheck sh e kind s
  | .ostlerWordRewrite sh => Sys2Proof.Machine.execOstlerWordRewrite sh s
  | .ostlerEngineRestart sh e => Sys2Proof.Machine.execOstlerEngineRestart sh e s
  | .storeBist sh v => Sys2Proof.Machine.execStoreBist sh v s
  | .storeBistDone sh pass => Sys2Proof.Machine.execStoreBistDone sh pass s
  | .handshakeTimeout near far kind off => Sys2Proof.Machine.execHandshakeTimeout near far kind off s
  | .handshakeStaleAnswer near => Sys2Proof.Machine.execHandshakeStaleAnswer near s
  | .fifoStallTimeout near far entries => Sys2Proof.Machine.execFifoStallTimeout near far entries s
  | .domainStopRequest by_ d => Sys2Proof.Machine.execDomainStopRequest by_ d s
  | .domainStopDrained d => Sys2Proof.Machine.execDomainStopDrained d s
  | .domainStopAbort d wake => Sys2Proof.Machine.execDomainStopAbort d wake s
  | .domainWakeRequest wake d => Sys2Proof.Machine.execDomainWakeRequest wake d s
  | .domainWakeSettled d => Sys2Proof.Machine.execDomainWakeSettled d s
  | .wakeTableStep d => Sys2Proof.Machine.execWakeTableStep d s
  | .diagDomainWake v => Sys2Proof.Machine.execDiagDomainWake v s
  | .diagDomainStop v => Sys2Proof.Machine.execDiagDomainStop v s
  | .psuTelemetry inlet present deciVolts deciHz deciWatts => Sys2Proof.Machine.execPsuTelemetry inlet present deciVolts deciHz deciWatts s
  | .psuGood inlet => Sys2Proof.Machine.execPsuGood inlet s
  | .inletLowLine inlet => Sys2Proof.Machine.execInletLowLine inlet s
  | .inletHighLine inlet => Sys2Proof.Machine.execInletHighLine inlet s
  | .inletLoss inlet => Sys2Proof.Machine.execInletLoss inlet s
  | .leaveRequest op unit => Sys2Proof.Machine.execLeaveRequest op unit s
  | .leaveRelease id => Sys2Proof.Machine.execLeaveRelease id s
  | .thermalSample sh temp => Sys2Proof.Machine.execThermalSample sh temp s
  | .shedReturnHoldEnd sh => Sys2Proof.Machine.execShedReturnHoldEnd sh s
  | .shedRestore v => Sys2Proof.Machine.execShedRestore v s
  | .troubleRecordPop l => Sys2Proof.Machine.execTroubleRecordPop l s
  | .scrubPass sh => Sys2Proof.Machine.execScrubPass sh s
  | .scrubLate sh => Sys2Proof.Machine.execScrubLate sh s
  | .strapChange strap level => Sys2Proof.Machine.execStrapChange strap level s
  | .faceSensorRead faceB readings => Sys2Proof.Machine.execFaceSensorRead faceB readings s
  | .cplCableChange low => Sys2Proof.Machine.execCplCableChange low s
  | .laneSignalDetect lane => Sys2Proof.Machine.execLaneSignalDetect lane s
  | .laneLockAcquire lane => Sys2Proof.Machine.execLaneLockAcquire lane s
  | .lpiWakeEnd port => Sys2Proof.Machine.execLpiWakeEnd port s
  | .rxLpiChange port lpi => Sys2Proof.Machine.execRxLpiChange port lpi s
  | .managementLinkChange up => Sys2Proof.Machine.execManagementLinkChange up s
  | .mailboxBufferWrite off bytes => Sys2Proof.Machine.execMailboxBufferWrite off bytes s
  | .mainsApply inlet => Sys2Proof.Machine.execMainsApply inlet s
  | .drawbarSlot sh h => Sys2Proof.Machine.execDrawbarSlot sh h s
  | .shedStateCopyDone sh => Sys2Proof.Machine.execShedStateCopyDone sh s
  | .rateSwitchOverEnd sh h => Sys2Proof.Machine.execRateSwitchOverEnd sh h s
  | .postedWriteLand => Sys2Proof.Machine.execPostedWriteLand s
  | .slotEpochBoundary => Sys2Proof.Machine.execSlotEpochBoundary s
  | .refillTick => Sys2Proof.Machine.execRefillTick s
  | .wredAverageTick => Sys2Proof.Machine.execWredAverageTick s
  | .editReplicasCommitted => Sys2Proof.Machine.execEditReplicasCommitted s
  | .syncRecordSend => Sys2Proof.Machine.execSyncRecordSend s
  | .timeOpTakeEffect => Sys2Proof.Machine.execTimeOpTakeEffect s
  | .refLock => Sys2Proof.Machine.execRefLock s
  | .refLoss => Sys2Proof.Machine.execRefLoss s
  | .servoHoldoverEnter => Sys2Proof.Machine.execServoHoldoverEnter s
  | .ppsOutEdge => Sys2Proof.Machine.execPpsOutEdge s
  | .timeNowRead => Sys2Proof.Machine.execTimeNowRead s
  | .timetableFlip => Sys2Proof.Machine.execTimetableFlip s
  | .drainEnd => Sys2Proof.Machine.execDrainEnd s
  | .shedDigestCheck => Sys2Proof.Machine.execShedDigestCheck s
  | .partnerMismatch => Sys2Proof.Machine.execPartnerMismatch s
  | .startActivation => Sys2Proof.Machine.execStartActivation s
  | .leaseRenewal => Sys2Proof.Machine.execLeaseRenewal s
  | .leaseEnd => Sys2Proof.Machine.execLeaseEnd s
  | .leaseViewEnd => Sys2Proof.Machine.execLeaseViewEnd s
  | .couplerTrainingDone => Sys2Proof.Machine.execCouplerTrainingDone s
  | .couplerTrainingFail => Sys2Proof.Machine.execCouplerTrainingFail s
  | .couplerLinkDown => Sys2Proof.Machine.execCouplerLinkDown s
  | .bulkResyncDone => Sys2Proof.Machine.execBulkResyncDone s
  | .notificationPost => Sys2Proof.Machine.execNotificationPost s
  | .notificationAck => Sys2Proof.Machine.execNotificationAck s
  | .hostSilent => Sys2Proof.Machine.execHostSilent s
  | .quiesceDrainEnd => Sys2Proof.Machine.execQuiesceDrainEnd s
  | .diagnosticSessionEnd => Sys2Proof.Machine.execDiagnosticSessionEnd s
  | .yardDiscoveryComplete => Sys2Proof.Machine.execYardDiscoveryComplete s
  | .foltinWatchdog => Sys2Proof.Machine.execFoltinWatchdog s
  | .foltinRestartDone => Sys2Proof.Machine.execFoltinRestartDone s
  | .scheduledReset => Sys2Proof.Machine.execScheduledReset s
  | .firmwareImageCheck => Sys2Proof.Machine.execFirmwareImageCheck s
  | .patchVerify => Sys2Proof.Machine.execPatchVerify s
  | .hostLinkDown => Sys2Proof.Machine.execHostLinkDown s
  | .functionLevelReset => Sys2Proof.Machine.execFunctionLevelReset s
  | .perstAssert => Sys2Proof.Machine.execPerstAssert s
  | .holdupEnd => Sys2Proof.Machine.execHoldupEnd s
  | .powerRestart => Sys2Proof.Machine.execPowerRestart s
  | .leaveGrant => Sys2Proof.Machine.execLeaveGrant s
  | .leaveQueueTimeout => Sys2Proof.Machine.execLeaveQueueTimeout s
  | .laneWaveEnd => Sys2Proof.Machine.execLaneWaveEnd s
  | .modResetAssert => Sys2Proof.Machine.execModResetAssert s
  | .modResetRelease => Sys2Proof.Machine.execModResetRelease s
  | .resetGlitch => Sys2Proof.Machine.execResetGlitch s
  | .captureRecordDma => Sys2Proof.Machine.execCaptureRecordDma s
  | .hostLinkWaitEnd => Sys2Proof.Machine.execHostLinkWaitEnd s
  | .challengeLapse => Sys2Proof.Machine.execChallengeLapse s

end Sys2Proof.Machine
end

