-- ==== Sys2Proof/Safety.lean ====
section
/-! DEFINITION. Sys2Proof/Safety.lean: the terms statements are made in: what counts as a safe run, that a command completes with a
given effect, and what raising events may touch. -/

namespace Sys2Proof

/-- The addressed buffers are in canonical form. -/
abbrev Safe (s : Machine.State) : Prop := Machine.Memory.wf s.mem = true

/-- The command completes: `exec` answers a next state in which the module satisfies `P`; the addressed buffers and the queue are
as they were. -/
def Answers (c : Instr) (s : Machine.State) (P : Machine.Mod → Prop) : Prop :=
  ∃ m, Machine.exec c s = .next { s with mod := m } ∧ P m

/-- The command completes: `exec` answers a next state in which the module and the addressed buffers satisfy `P`; the queue is as it
was. -/
def AnswersBuf (c : Instr) (s : Machine.State) (P : Machine.Mod → List Host.Cell → Prop) : Prop :=
  ∃ m b, Machine.exec c s = .next { s with mod := m, mem := b } ∧ P m b

/-- The command ends the Daxdy command of mailbox `n`: `exec` answers a next state with the reply of STATUS `status` and `body`
written and signalled (12 R381, R384); the module is otherwise `x`, and the queue is as it was. -/
def Ends (c : Instr) (s : Machine.State) (n status : Nat) (body : List Byte) (x : Machine.Mod) : Prop :=
  Machine.exec c s = .next { s with mod := (Machine.complete n status body (x, s.mem)).1,
                                    mem := (Machine.complete n status body (x, s.mem)).2 }

namespace Machine

/-- Whether the event bit of an event is set in the event register of its block at a level (13 R415). -/
def evtSet (l : Level) (e : Evt) (x : Mod) : Bool := ((x.evts.get (l, e.blk)).bits.get e.bit).isSome

/-- Whether the trouble log of a level holds the record of an event, not yet cleared by EVT_SEQ (17 R523): the events of block 0 have
no event register. -/
def recorded (l : Level) (e : Evt) (x : Mod) : Bool := ((x.logs.get l).sticky.get (16 * e.blk + e.bit)).isSome

/-- A counter holds what it held in `x` and `n` more, counted in the present cycle (02 R48). -/
abbrev counted (x : Mod) (c : CtrId) (n : Nat) (m : Mod) : Prop := m.ctrs.get c = (x.ctrs.get c).addIn x.cyc n

/-- `x` with what raising events may touch taken from `m`: event registers, trouble logs, notifications, what left the block, and the
pending vectors (17 R523 to R525, 12 R391). A frame `m = { raised x m with … }` says that `m` differs from `x` in these and in the
fields it names, and nowhere else. -/
def raised (x m : Mod) : Mod :=
  { x with evts := m.evts
           logs := m.logs
           out := m.out
           host := { x.host with vecPending := m.host.vecPending }
           dax := { x.dax with notifs := m.dax.notifs
                               notifLost := m.dax.notifLost } }

/-- Mailbox `m` holds a command of opcode `op` that runs and has not begun, and whose reply goes to the host (12 R381). -/
abbrev running (x : Mod) (m op : Nat) : Prop :=
  ((x.dax.boxes.get m).st = .running ∨ (x.dax.boxes.get m).st = .extended) ∧ (x.dax.boxes.get m).opcode = op ∧
    (x.dax.boxes.get m).began = false ∧ (x.dax.boxes.get m).quiet = false

/-- The command of mailbox `m` has ended with a status: STATE reads DONE and STATUS the status (12 R381, R404). -/
abbrev replied (x : Mod) (m status : Nat) : Prop := (x.dax.boxes.get m).st = .done ∧ (x.dax.boxes.get m).status = status

end Machine

end Sys2Proof
end

