-- ==== Sys2Proof/Certificates/Slice0/Obligations.lean ====
section
/-! DEFINITION. Sys2Proof/Certificates/Slice0/Obligations.lean: the statements for the provers. A clause `Answers c s P` says
that the command `c` completes in `s` and that `P` holds of the module it leaves, the addressed buffers and the queue being as they
were; `arrives c s.mod` that the command is well-formed and, an access of the host, finds the host link up. -/

open Sys2Proof Sys2Proof.Machine

/-- A step on a state whose queue has the command c at its front and rest behind it is exec of c on that state with rest
as its queue. A step on an empty queue answers a next state in which the module's time has advanced by 5 ps, the
addressed buffers are as they were and the queue is still empty; where the new time is no whole multiple of 0.625 ns,
no performance counter, no cycle counter and no engine changes. The queue of waiting commands and the tick are the
model's choice (log 1), not a rule of the spec. -/
def Obligations.StepRunsFront : Prop :=
  (∀ (c : Instr) (rest : List Instr) (s : State),
    step { s with pending := c :: rest } = exec c { s with pending := rest }) ∧
  (∀ s : State, s.pending = [] →
    ∃ m, step s = .next { s with mod := m } ∧ m.now = s.mod.now + 5 ∧
      ((s.mod.now + 5) % 625 ≠ 0 → m.cap = s.mod.cap ∧ m.ost = s.mod.ost))

/-- For every command and every state exec answers a next state with the queue unchanged: errors of the module are event
bits, trouble records, reply statuses and counters, never a stop of the block (log 2). -/
def Obligations.EveryCommandAnswers : Prop :=
  ∀ (c : Instr) (s : State), ∃ t, exec c s = .next t ∧ t.pending = s.pending

/-- PORT_UP: a configured port that is down, in a stall that runs, whose lanes have all held lock for 1 ms, is up
afterwards, idle from now, and LINK_UP is set for its stall; of the line only this port changes. PORT_DOWN: a port
that is up and has a lane without lock for more than 2 us is down afterwards, sends nothing, has no pause standing,
and LINK_DOWN is set. LANE_LOCK_LOSS: a lane that held lock holds it no more from now, and the loss counts once for
the port it belongs to. LANE_LOCK_REGAIN: a lane whose group runs and is not held idle holds lock from now; on a port
that is up, a loss of 2 us or less leaves the port up and sets LANE_LOSS, and a longer one leaves it down and sets
LINK_DOWN. LANE_LOCK_ACQUIRE: a lane without lock whose partner's signal is there, in a group that runs and is not
held idle, holds lock from now on (R39, R502). -/
def Obligations.PortsComeAndGo : Prop :=
  (∀ p s, arrives (.portUp p) s.mod = true → portDefined s.mod p = true → (portSt s.mod p).up = false →
      domRuns s.mod (stallOf p) = true →
      (∀ l ∈ lanesOf s.mod p, (s.mod.line.lanes.get l).lock = true ∧
        passed s.mod.now (s.mod.line.lanes.get l).since (ms 1) = true) →
      Answers (.portUp p) s fun m => (portSt m p).up = true ∧ (portSt m p).idleAt = s.mod.now ∧
        evtSet (.stall (stallOf p)) evLinkUp m = true ∧
        m = { raised s.mod m with
          line := { s.mod.line with ports := m.line.ports }, cpl := { s.mod.cpl with twins := m.cpl.twins } } ∧
        m.line.ports = s.mod.line.ports.upd p (fun k => { k with up := true, idleAt := s.mod.now })) ∧
  (∀ p s, arrives (.portDown p) s.mod = true → (portSt s.mod p).up = true → lockLost s.mod p = true →
      Answers (.portDown p) s fun m => (portSt m p).up = false ∧ (portSt m p).tx = none ∧ (portSt m p).ctl = [] ∧
        (∀ c < 9, (portSt m p).paused.get c = {}) ∧ evtSet (.stall (stallOf p)) evLinkDown m = true) ∧
  (∀ lane p s, arrives (.laneLockLoss lane) s.mod = true → (s.mod.line.lanes.get lane).lock = true →
      portOfLane s.mod lane = some p → p < 1024 →
      Answers (.laneLockLoss lane) s fun m => (m.line.lanes.get lane).lock = false ∧
        (m.line.lanes.get lane).since = s.mod.now ∧ counted s.mod (lneCtr p 58) 1 m ∧ m.line.ports = s.mod.line.ports) ∧
  (∀ lane p s, arrives (.laneLockRegain lane) s.mod = true → (s.mod.line.lanes.get lane).lock = false →
      laneLive s.mod lane = true → portOfLane s.mod lane = some p → (portSt s.mod p).up = true →
      Answers (.laneLockRegain lane) s fun m => (m.line.lanes.get lane).lock = true ∧ (m.line.lanes.get lane).since = s.mod.now ∧
        (if (s.mod.line.lanes.get lane).since + us 2 < s.mod.now then
          (portSt m p).up = false ∧ evtSet (.stall (stallOf p)) evLinkDown m = true
         else (portSt m p).up = true ∧ evtSet (.stall (stallOf p)) evLaneLoss m = true)) ∧
  (∀ lane s, arrives (.laneLockAcquire lane) s.mod = true → (s.mod.line.lanes.get lane).lock = false →
      (s.mod.line.lanes.get lane).signal = true → laneLive s.mod lane = true →
      Answers (.laneLockAcquire lane) s fun m =>
        (m.line.lanes.get lane).lock = true ∧ (m.line.lanes.get lane).since = s.mod.now)

/-- FRAME_RECEIVE: on a port that takes frames, is up, lies in a working shed and has finished the frame before, while the
module forwards, a frame that is no valid pause or PFC frame of the port's mode enters under the next frame number
with its port, the time of its first byte, its bytes after MACsec (its own bytes on a port without MACsec), its error
mark, its epoch tag and bank, neither ended nor decided. FRAME_END of a whole frame within MAX_LEN. With a good FCS,
no error block, no MACsec fault and another EtherType than MAC control: the frame ends good after its counts; where no
outrider runs and no recovery context waits, a line port has counted its octets, itself, its destination type and its
size bin, and the frame, if still held, is ended and good. With a bad FCS that is no stomp: LNE_RX_FCS_ERR counts,
LNE_RX_ERROR too when its head has left, and the frame, if still held, is ended and bad. Shorter than 64 bytes: it is
forgotten and counts as runt when its FCS is good and no error block came, else as fragment (R42, R45, R48).
FRAME_OVERSIZE: a frame that has reached MAX_LEN + 1 bytes counts those octets and LNE_RX_OVERSIZE and, if still held,
is ended and bad (R44). -/
def Obligations.FramesArriveAndEnd : Prop :=
  (∀ p rx side s, arrives (.frameReceive p rx side) s.mod = true → (p < 1024 ∨ p = 1036 ∨ p = 1037) →
      forwarding s.mod = true → portUpNow s.mod p = true → rxShut s.mod p = false → shedWorks s.mod (shedOfPort p) = true →
      (∀ t ∈ (portSt s.mod p).lastIn, t ≤ s.mod.now) → (p < 1024 → validCtl s.mod p rx = false) →
      Answers (.frameReceive p rx side) s fun m => m.nextF = s.mod.nextF + 1 ∧
        ∃ fr, m.frames.get s.mod.nextF = some fr ∧ fr.port = p ∧ fr.arr = s.mod.now ∧ fr.err = rx.err ∧
          fr.bytes = (secReceive s.mod p rx.bytes).1 ∧ ((portCfg s.mod p).macsec = false → fr.bytes = rx.bytes ∧ fr.sec = 0) ∧
          fr.epoch = (epochNow s.mod).1 ∧ fr.bank = (epochNow s.mod).2 ∧ fr.side = side ∧ fr.ended = false ∧ fr.decided = false) ∧
  (∀ f fr err s, arrives (.frameEnd f err) s.mod = true → frame? s.mod f = some fr → fr.ended = false → fr.direct = false →
      byteAt s.mod fr fr.onWire.length ≤ s.mod.now →
      (fr.port < 1024 → fr.onWire.length ≤ ((frameCfg s.mod fr).cfg fr.port).maxLen) →
      let l := fr.onWire
      let fcsOk := tailFcs l = fcsOf (noFcs l)
      (64 ≤ l.length → fr.cut = none → fr.err = false → err = false → fcsOk → macControl l = false → secFault s.mod fr = 0 →
        Answers (.frameEnd f err) s fun m =>
          m = takeStreams f (endGood f fr (receiveCounts f fr l s.mod)) ∧
          (fr.kept = none → fr.otr = none →
            (fr.port < 1024 → counted s.mod (lneCtr fr.port 0) l.length m ∧ counted s.mod (lneCtr fr.port 1) 1 m ∧
              counted s.mod (lneCtr fr.port (2 + daType l)) 1 m ∧ counted s.mod (lneCtr fr.port (8 + sizeBin l.length)) 1 m ∧
              counted s.mod (lneCtr fr.port 28) l.length m) ∧
            ∀ r, frame? m f = some r → r.ended = true ∧ r.good = true)) ∧
      (64 ≤ l.length → fr.cut = none → fr.err = false → err = false → ¬fcsOk → tailFcs l ≠ stompFcs (noFcs l) →
        Answers (.frameEnd f err) s fun m =>
          (fr.port < 1024 → counted s.mod (lneCtr fr.port 18) 1 m ∧ counted s.mod (lneCtr fr.port 28) l.length m ∧
            (headLeft s.mod f fr = true → counted s.mod (lneCtr fr.port 24) 1 m)) ∧
          ∀ r, frame? m f = some r → r.ended = true ∧ r.bad = true) ∧
      (l.length < 64 → Answers (.frameEnd f err) s fun m => frame? m f = none ∧
        (fr.port < 1024 → counted s.mod (lneCtr fr.port 28) l.length m ∧ counted s.mod (lneCtr fr.port (if fcsOk ∧ err = false ∧ fr.err = false then 19 else 20)) 1 m))) ∧
  (∀ f fr s, arrives (.frameOversize f) s.mod = true → frame? s.mod f = some fr → fr.ended = false → fr.direct = false →
      let most := ((frameCfg s.mod fr).cfg fr.port).maxLen
      most < fr.onWire.length → byteAt s.mod fr (most + 1) ≤ s.mod.now →
      Answers (.frameOversize f) s fun m =>
        (fr.port < 1024 → counted s.mod (lneCtr fr.port 21) 1 m ∧ counted s.mod (lneCtr fr.port 28) (most + 1) m) ∧ ∀ r, frame? m f = some r → r.ended = true ∧ r.bad = true)

/-- PAUSE_FRAME_RECEIVE: on a port up in 802.3x mode a valid pause frame counts as received and in LNE_RX_PAUSE, and
pauses the port: a time of zero ends a pause at once; with a frame in transmission its quanta count from now and hold
from the end of that frame; else the port is paused until its quanta have passed. No frame is held for it.
PFC_FRAME_RECEIVE: on a port up in PFC mode a valid PFC frame counts as received and in LNE_RX_PFC, does the same for
each class whose enable bit is 1, which counts too, and leaves every other class as it was. PAUSE_EXPIRY: at or after
the end of the last quantum the pause is over, and all else on the port is as before. PAUSE_RESEND: half the pause
time after the last one was sent, the pause asked for is queued to be sent again (R54, R55, R57, R59). -/
def Obligations.PauseStopsAPort : Prop :=
  (∀ p l s, arrives (.pauseFrameReceive p l) s.mod = true → portUpNow s.mod p = true → (portCfg s.mod p).fc = 1 →
      validCtl s.mod p { bytes := l } = true →
      let n := beAt l 16 2
      Answers (.pauseFrameReceive p l) s fun m => counted s.mod (lneCtr p 1) 1 m ∧ counted s.mod (lneCtr p 5) 1 m ∧
        m.frames = s.mod.frames ∧
        (portSt m p).paused.get 8 = (if n = 0 then { until_ := none, wait := none }
          else if (portSt s.mod p).tx.isSome then { (portSt s.mod p).paused.get 8 with wait := some (s.mod.now, n) }
          else { until_ := some (s.mod.now + bytesTime (portGbps (actCfg s.mod) p) (64 * n)), wait := none })) ∧
  (∀ p l s, arrives (.pfcFrameReceive p l) s.mod = true → portUpNow s.mod p = true → (portCfg s.mod p).fc = 2 →
      validCtl s.mod p { bytes := l } = true →
      Answers (.pfcFrameReceive p l) s fun m => counted s.mod (lneCtr p 1) 1 m ∧ counted s.mod (lneCtr p 6) 1 m ∧
        m.frames = s.mod.frames ∧
        ∀ c < 8, if bitOf (beAt l 16 2) c then
            counted s.mod (lneCtr p (64 + c)) 1 m ∧
            (let n := beAt l (18 + 2 * c) 2
             (portSt m p).paused.get c = (if n = 0 then { until_ := none, wait := none }
               else if (portSt s.mod p).tx.isSome then { (portSt s.mod p).paused.get c with wait := some (s.mod.now, n) }
               else { until_ := some (s.mod.now + bytesTime (portGbps (actCfg s.mod) p) (64 * n)), wait := none }))
          else (portSt m p).paused.get c = (portSt s.mod p).paused.get c) ∧
  (∀ p cls t s, arrives (.pauseExpiry p cls) s.mod = true →
      ((portSt s.mod p).paused.get (cls.getD 8)).until_ = some t → t ≤ s.mod.now →
      Answers (.pauseExpiry p cls) s fun m => ((portSt m p).paused.get (cls.getD 8)).until_ = none ∧
        m = setPort p (fun k => { k with paused := (portSt m p).paused }) s.mod) ∧
  (∀ p cls s, arrives (.pauseResend p cls) s.mod = true → (portSt s.mod p).asked.get (cls.getD 8) = true →
      (portSt s.mod p).ctl.any (fun e => e.1 == cls) = false →
      passed s.mod.now ((portSt s.mod p).sentAt.get (cls.getD 8)) (bytesTime (portGbps (actCfg s.mod) p)
        (64 * (portCfg s.mod p).pauseTime.getD (cls.getD 0) 0xFFFF) / 2) = true →
      Answers (.pauseResend p cls) s fun m => (portSt m p).ctl = (portSt s.mod p).ctl ++ [(cls, true)] ∧
        m = setPort p (fun k => { k with ctl := (portSt m p).ctl }) s.mod)

/-- LPI_ENTER: an up port with LPI whose 16 queues have been empty for the idle time, with nothing to send, enters LPI and
counts it, and nothing else changes. LPI_WAKE_END: a port waking from LPI is out of it, idle from now. RX_LPI_CHANGE:
the receive side of an up port is as the partner now signals, and entering counts. PIPE_STEP_DOWN: a stall with two
pipes running, not pinned, that saw fewer than 64,000 frames in the last 100 us runs one pipe and counts the step
(R61). LANE_SIGNAL_DETECT: a lane whose group runs and is not held idle sees its partner's signal, and nothing else
changes. FEC_DEGRADE on an up port: the codewords corrected and uncorrectable and the symbols corrected count (R48),
and with symbols above the threshold of the port's lanes, not raised within the last 1 ms, FEC_DEGRADE is set (R41).
-/
def Obligations.LineRestsAndWakes : Prop :=
  (∀ p s, arrives (.lpiEnter p) s.mod = true → (portCfg s.mod p).lpi = true → (portCfg s.mod p).lpiCap = true →
      portUpNow s.mod p = true → (portSt s.mod p).tx = none → (portSt s.mod p).txLpi = false → (portSt s.mod p).ctl = [] →
      (∀ q < 16, (queSt s.mod p q).ents = []) → passed s.mod.now (portSt s.mod p).idleAt (us (portCfg s.mod p).lpiIdleUs) = true →
      Answers (.lpiEnter p) s fun m => (portSt m p).txLpi = true ∧ counted s.mod (lneCtr p 53) 1 m ∧
        m = { s.mod with line := m.line, ctrs := m.ctrs }) ∧
  (∀ p s, arrives (.lpiWakeEnd p) s.mod = true → (portSt s.mod p).lpiWake.isSome = true →
      Answers (.lpiWakeEnd p) s fun m => (portSt m p).txLpi = false ∧ (portSt m p).lpiWake = none ∧
        (portSt m p).idleAt = s.mod.now ∧ (portSt m p).up = (portSt s.mod p).up ∧ m = { s.mod with line := m.line }) ∧
  (∀ p b s, arrives (.rxLpiChange p b) s.mod = true → portUpNow s.mod p = true → (portSt s.mod p).rxLpi ≠ b →
      Answers (.rxLpiChange p b) s fun m => (portSt m p).rxLpi = b ∧
        (if b then counted s.mod (lneCtr p 54) 1 m else m.ctrs = s.mod.ctrs) ∧
        m = { s.mod with line := m.line, ctrs := m.ctrs }) ∧
  (∀ g s, arrives (.pipeStepDown g) s.mod = true → (s.mod.line.clks.get g).one = false → (s.mod.line.clks.get g).pin = false →
      us 100 ≤ s.mod.now →
      ((s.mod.line.clks.get g).arrivals.filter (fun t => s.mod.now < t + us 100)).length < 64000 →
      Answers (.pipeStepDown g) s fun m => (m.line.clks.get g).one = true ∧
        (m.line.clks.get g).steps = (s.mod.line.clks.get g).steps + 1 ∧
        (m.line.clks.get g).arrivals = (s.mod.line.clks.get g).arrivals ∧ m = { s.mod with line := m.line }) ∧
  (∀ p n s, arrives (.fecDegrade p n) s.mod = true → portUpNow s.mod p = true →
      (∀ t ∈ (portSt s.mod p).fecAt, passed s.mod.now t (ms 1) = true) →
      Answers (.fecDegrade p n) s fun m => counted s.mod (lneCtr p 55) n.corr m ∧ counted s.mod (lneCtr p 56) n.uncorr m ∧
        counted s.mod (lneCtr p 57) n.symbols m ∧
        ((portCfg s.mod p).fecLimit * (portCfg s.mod p).width < n.symbols →
          evtSet (.stall (stallOf p)) evFecDegrade m = true ∧ (portSt m p).fecAt = some s.mod.now)) ∧
  (∀ lane s, arrives (.laneSignalDetect lane) s.mod = true → laneLive s.mod lane = true →
      (s.mod.line.lanes.get lane).signal = false →
      Answers (.laneSignalDetect lane) s fun m => (m.line.lanes.get lane).signal = true ∧
        (m.line.lanes.get lane).lock = (s.mod.line.lanes.get lane).lock ∧ m = { s.mod with line := m.line })

/-- CELL_DEC and CELL_FREE with no other release of the cell waiting. CELL_DEC on a cell with a count of 2 or more takes
one from the count and changes nothing else; on a count of 0 or 1 it is rejected. CELL_FREE by the owner on a count of
exactly 1 leaves the count 0, the owner tag, and no retry of the cell; by another than the owner, or on a count of 0,
it is rejected; by the owner on a higher count it is kept to be retried, unlogged, and nothing else changes. A
rejected request leaves every cell as it was, sets LFT_EVT.FREE_REJECT, counts in LFT_FREE_REJECT, records kind,
requester and cell in LFT_FREE_LOG0 and the owner, with one more rejection, in LFT_FREE_LOG1 (R190 to R192, R224).
FREE_RETRY by the owner on a count of exactly 1 frees the cell. LOFT_AUDIT, 100 ms after the last: every cell of a
descriptor free for longer than 10 ms has a count of 0, and the next audit is 100 ms away. -/
def Obligations.LoftTakesAndFrees : Prop :=
  (∀ sh c r s, arrives (.cellDec sh c r) s.mod = true → releasesWaiting sh c s.pending = [] →
      { free := false, cell := c, req := r, desc := 0 } ∉ (s.mod.loft.get sh).relDone →
      let k := (s.mod.loft.get sh).cells.get c
      (2 ≤ k.count → Answers (.cellDec sh c r) s fun m =>
        m = setLoft sh (fun l => { l with cells := l.cells.set c { k with count := k.count - 1 } }) s.mod) ∧
      (k.count < 2 → Answers (.cellDec sh c r) s fun m => (m.loft.get sh).cells = (s.mod.loft.get sh).cells ∧
        evtSet (.shed sh) evFreeReject m = true ∧ counted s.mod (.lft sh 4) 1 m ∧
        (m.loft.get sh).log0 = reg [at_ 30 2 (if k.count = 0 then 1 else 2), at_ 18 12 r, at_ 0 18 c] ∧
        (m.loft.get sh).log1 = reg [at_ 14 18 k.owner, at_ 0 14 ((s.mod.loft.get sh).log1.toNat % 16384 + 1)])) ∧
  (∀ sh c r d s, arrives (.cellFree sh c r d) s.mod = true → releasesWaiting sh c s.pending = [] →
      { free := true, cell := c, req := r, desc := d } ∉ (s.mod.loft.get sh).relDone →
      let k := (s.mod.loft.get sh).cells.get c
      (d = k.owner → k.count = 1 → Answers (.cellFree sh c r d) s fun m =>
        (m.loft.get sh).cells = (s.mod.loft.get sh).cells.set c { count := 0, owner := d } ∧
        ∀ e ∈ (m.loft.get sh).retry, e.1 ≠ c) ∧
      ((d ≠ k.owner ∨ k.count = 0) → Answers (.cellFree sh c r d) s fun m => (m.loft.get sh).cells = (s.mod.loft.get sh).cells ∧
        evtSet (.shed sh) evFreeReject m = true ∧ counted s.mod (.lft sh 4) 1 m ∧
        (m.loft.get sh).log0 = reg [at_ 30 2 (if d = k.owner then 1 else 0), at_ 18 12 r, at_ 0 18 c] ∧
        (m.loft.get sh).log1 = reg [at_ 14 18 k.owner, at_ 0 14 ((s.mod.loft.get sh).log1.toNat % 16384 + 1)]) ∧
      (d = k.owner → 2 ≤ k.count → Answers (.cellFree sh c r d) s fun m => m = setLoft sh (fun l =>
        { l with retry := l.retry.filter (fun e => e.1 != c) ++ [(c, r, d)] }) s.mod)) ∧
  (∀ sh c e s, arrives (.freeRetry sh c) s.mod = true → (s.mod.loft.get sh).retry.find? (fun e => e.1 == c) = some e →
      e.2.2 = ((s.mod.loft.get sh).cells.get c).owner → ((s.mod.loft.get sh).cells.get c).count = 1 →
      Answers (.freeRetry sh c) s fun m => ((m.loft.get sh).cells.get c).count = 0 ∧ ∀ e ∈ (m.loft.get sh).retry, e.1 ≠ c) ∧
  (∀ sh s, arrives (.loftAudit sh) s.mod = true → passed s.mod.now (s.mod.loft.get sh).auditAt (ms 100) = true →
      Answers (.loftAudit sh) s fun m => (m.loft.get sh).auditAt = s.mod.now ∧
        ∀ e ∈ heldIn s.mod sh, e.2.doneAt.any (fun t => decide (t + ms 10 < s.mod.now)) = true →
          ∀ c ∈ e.2.cells, ((m.loft.get sh).cells.get c).count = 0)

/-- LOFT_ADMISSION at byte 64 of a frame not yet admitted or refused. When a pool of its pair takes the reservation (its
declared length, or MAX_LEN, in cells, never fewer than the bytes at hand need) and the shed has as many cells neither
in use nor reserved, the frame is admitted: it holds the lowest free cells (log 34) for the bytes at hand, each with
one reference and the frame's descriptor as owner, and what is reserved beyond them is unwritten. Otherwise it is
refused whole and holds no cell: a lossy pair, or a shed without the cells, counts it in LFT_DROP_SHARED, and a pair
under flow control without headroom in LFT_DROP_HEADROOM, with HEADROOM_DROP set (R193, R194; 01 R23). -/
def Obligations.LoftAdmits : Prop :=
  ∀ f fr s, arrives (.loftAdmission f) s.mod = true → frame? s.mod f = some fr → fr.admitted = false → fr.refused = false →
    64 ≤ fr.bytes.length → fr.bad = false → byteAt s.mod fr 64 ≤ s.mod.now →
    let c := frameCfg s.mod fr
    let hv := vectorOf c fr false
    let sh := shedOfPort fr.port
    let reserve := cellsFor ((declaredBy hv 64).getD hv.pcfg.maxLen)
    let here := cellsFor (arrivedBytes s.mod fr)
    let need := max reserve here
    (∀ k, decideAdmit s.mod c sh fr.port (portClass hv) need = .pool k → need ≤ allocFree s.mod sh →
      Answers (.loftAdmission f) s fun m => (frame? m f).any (·.admitted) = true ∧ ∃ h, held? m sh f = some h ∧
        h.cells = takeCells s.mod sh here ∧ h.unwritten = reserve - here ∧
        h.pool = k ∧ h.port = fr.port ∧ h.cls = portClass hv ∧
        ∀ a ∈ h.cells, (m.loft.get sh).cells.get a = { count := 1, owner := h.desc }) ∧
    ((decideAdmit s.mod c sh fr.port (portClass hv) need = .lossy ∨
        (∃ k, decideAdmit s.mod c sh fr.port (portClass hv) need = .pool k) ∧ allocFree s.mod sh < need) →
      Answers (.loftAdmission f) s fun m => (frame? m f).any (fun r => r.refused && !r.admitted) = true ∧
        counted s.mod (.lft sh 0) 1 m ∧ m.loft = s.mod.loft) ∧
    (decideAdmit s.mod c sh fr.port (portClass hv) need = .headroom →
      Answers (.loftAdmission f) s fun m => (frame? m f).any (fun r => r.refused && !r.admitted) = true ∧
        counted s.mod (.lft sh 1) 1 m ∧ evtSet (.shed sh) evHeadroomDrop m = true ∧ m.loft = s.mod.loft)

/-- TICKET_GEN_ADVANCE: where an edit has asked for it and 1 us has passed since the last, the generation grows by one
modulo 256, OTR_GEN counts, and a sweep begins, or the one in progress keeps its start. TICKET_SWEEP_DONE: every
ticket of the shed is of the current generation, and the sweep is over. TICKET_SWEEP_LATE: a sweep of more than 200
us, not yet reported, sets SWEEP_LATE and is reported. TICKET_BLOCK_END: once the block time has passed the ticket is
neither blocked nor eligible and its streak and refutes are 0. REFUTE_WINDOW_END: 1 s after a window opened the refute
count is 0 (R155 to R158, R187). -/
def Obligations.TicketsAge : Prop :=
  (∀ sh s, arrives (.ticketGenAdvance sh) s.mod = true → (s.mod.tkt.get sh).genDue = true →
      (∀ t ∈ (s.mod.tkt.get sh).genAt, passed s.mod.now t (us 1) = true) →
      Answers (.ticketGenAdvance sh) s fun m => (m.tkt.get sh).gen = (s.mod.tkt.get sh).gen + 1 ∧
        (m.tkt.get sh).genAt = some s.mod.now ∧ (m.tkt.get sh).genDue = false ∧
        (m.tkt.get sh).sweepAt = some ((s.mod.tkt.get sh).sweepAt.getD s.mod.now) ∧
        counted s.mod (.otrT sh 4) 1 m ∧ m = { s.mod with tkt := m.tkt, ctrs := m.ctrs }) ∧
  (∀ sh s, arrives (.ticketSweepDone sh) s.mod = true → (s.mod.tkt.get sh).sweepAt.isSome = true →
      Answers (.ticketSweepDone sh) s fun m => (m.tkt.get sh).sweepAt = none ∧ (m.tkt.get sh).late = false ∧
        (∀ e ∈ (m.tkt.get sh).ways.ents, ∀ k, e.2 = some k → k.gen = (s.mod.tkt.get sh).gen) ∧ m = { s.mod with tkt := m.tkt }) ∧
  (∀ sh t s, arrives (.ticketSweepLate sh) s.mod = true → (s.mod.tkt.get sh).sweepAt = some t → t + us 200 < s.mod.now →
      (s.mod.tkt.get sh).late = false →
      Answers (.ticketSweepLate sh) s fun m => (m.tkt.get sh).late = true ∧ evtSet (.shed sh) evSweepLate m = true ∧
        m = { raised s.mod m with tkt := m.tkt }) ∧
  (∀ sh t k s, arrives (.ticketBlockEnd sh t) s.mod = true → tkt? s.mod sh t = some k → k.blocked = true →
      passed s.mod.now k.blockAt (ms (actCfg s.mod).blockMs) = true →
      Answers (.ticketBlockEnd sh t) s fun m =>
        tkt? m sh t = some { k with blocked := false, streak := 0, refutes := 0, elig := false, windowAt := none }) ∧
  (∀ sh t k w s, arrives (.refuteWindowEnd sh t) s.mod = true → tkt? s.mod sh t = some k → k.blocked = false →
      k.windowAt = some w → passed s.mod.now w (sec 1) = true →
      Answers (.refuteWindowEnd sh t) s fun m => tkt? m sh t = some { k with refutes := 0, windowAt := none })

/-- GUARD_RESULT, due by 18 ns, for a frame that waits for no recovery context, with no ECC error held and no other frame
of its cycle at its meters: after the refill due in this cycle, the resolution of the frame commits, and the frame, if
still held, is decided and carries a guard result of this instant with the resolution's FID, VRF, VID, PRS counters,
truncation and reason (R167). GUARD_REVISION: a decided frame whose last byte shows a length conflict that its first
result did not know, if still held, is decided and carries a revised result of this instant with the reason of the
whole frame and the late or refuting verdict (R88, R174). OUTRIDER_START at the earliest start of a fresh frame whose
ticket stands in its way. With every row of R160 holding and the arbiters won, the predicted port transmits from now
the frame as the recipe rewrites it, with a new FCS; the outrider runs on the ticket, or is confirmed when the guard
result came first, and across sheds its speed is reserved on the direct drawbar. With a row or an arbiter lost, the
frame is skipped without an outrider: its counter waits for the guard result, or counts at once where that came first;
a refused express request counts too. LATE_GUARD: a running outrider on the wire whose frame is undecided after the
cycle of byte L - 8 is stomped as late: its transmission is a stomp, OTR_LAST_STOMP records it with CAUSE 2, and
LATE_GUARD is set (R166, R171, R182). -/
def Obligations.GuardAndOutriders : Prop :=
  (∀ f fr s, arrives (.guardResult f) s.mod = true → frame? s.mod f = some fr → s.mod.ecc = [] →
      let x := refillAll s.mod
      let r := resolve x fr (lastIn x fr)
      guardDue x fr = true → s.mod.now ≤ fr.arr + 18000 → sharing x fr (sameCycle x f fr) = [] →
      ((recoverOf x fr r.hv).isSome && (rtagSeq r.hv).isSome) = false →
      Answers (.guardResult f) s fun m => m = takeStreams f (commitGuard f fr r x) ∧
        ∀ q, frame? m f = some q → q.decided = true ∧ ∃ g, q.guard = some g ∧ g.at_ = s.mod.now ∧ g.fid = r.fwd.fid ∧
          g.vrf = r.fwd.vrf ∧ g.vid = r.hv.vid ∧ g.prs = r.prs ∧ g.trunc = r.hv.trunc ∧ g.reason = r.hv.r.reason) ∧
  (∀ f fr s, arrives (.guardRevision f) s.mod = true → frame? s.mod f = some fr → revisionDue s.mod fr = true →
      fr.decided = true →
      Answers (.guardRevision f) s fun m => ∀ q, frame? m f = some q → q.decided = true ∧ ∃ g, q.guard = some g ∧
        g.revised = true ∧ g.at_ = s.mod.now ∧ g.verdict = revisedVerdict fr ∧
        g.reason = (vectorOf (frameCfg s.mod fr) fr true).r.reason) ∧
  (∀ f fr t k s, arrives (.outriderStart f) s.mod = true → frame? s.mod f = some fr → startFresh fr = true →
      let x := refillAll s.mod
      frameTkt x fr = some (t, k) → startAt x fr k ≤ s.mod.now →
      let p := k.egress
      let body := pad60 (editFrame (recipeEdits x fr k) (noFcs fr.bytes))
      let bytes := body ++ fcsOf body
      (skipRow x f fr k true = none → arbiterSkip x f fr k = none → Answers (.outriderStart f) s fun m =>
        (portSt m p).tx = some { f := some f, copy := none, start := s.mod.now, e := bytes.length, bytes := bytes,
                                 end_ := s.mod.now + bytesTime (portGbps (frameCfg x fr) p) bytes.length, queue := k.queue } ∧
        (across fr p = true → (halfSt m (expressHalf fr p)).express =
          (halfSt s.mod (expressHalf fr p)).express + portGbps (frameCfg x fr) p) ∧
        ∃ r o, frame? m f = some r ∧ r.otr = some o ∧ o.tkt = t ∧ o.port = p ∧ o.start = s.mod.now ∧
          o.st = (if fr.decided then .confirmed else .running)) ∧
      (∀ c, ((skipRow x f fr k true).or (arbiterSkip x f fr k)) = some c → Answers (.outriderStart f) s fun m =>
        (frame? m f).any (fun r => r.skipped && r.otr == none && (r.decided || r.skip == some c)) = true ∧
        (fr.decided = true → fr.port < 1024 → counted s.mod (otrCtr fr.port c) 1 m) ∧
        (c = 11 → counted s.mod (.otrT (shedOfPort fr.port) 7) 1 m))) ∧
  (∀ f fr o s, arrives (.lateGuard f) s.mod = true → frame? s.mod f = some fr → fr.otr = some o → o.st = .running →
      otrDeadline fr o < s.mod.now → fr.decided = false → otrSending s.mod f o = true →
      Answers (.lateGuard f) s fun m => (frame? m f).any (fun r => r.otr == some { o with st := .stomped true }) = true ∧
        (portSt m o.port).tx.any (·.stomp) = true ∧
        m.line.lastStomp.get (stallOf fr.port) = reg [at_ 29 3 (fr.port % 8), at_ 27 2 2, at_ 16 10 o.port, at_ 0 15 o.tkt] ∧
        evtSet (.stall (stallOf fr.port)) evLateGuard m = true)

/-- ENQUEUE of a ready copy of a decided good frame, whole at its egress, that does not go cut-through, to an empty queue
of a port that exists, is up and takes its length, with no residue or ECC error held: the queue holds that copy alone,
with its egress length and this instant, the copy is queued, and the queue counts it and its bytes (R176, R234).
SCHEDULE_FRAME, after the refill due in this cycle. At a frame boundary a MAC control frame that waits starts ahead of
every queue (R59). Otherwise, with tokens on the port shaper, the copy at the head of the queue that the round picks
leaves its queue and is in transmission from now with its final bytes, for their time on the line (R238). A port in
LPI with a frame queued begins its wake (R60). TX_FRAME_END once the last byte is due: the port sends nothing more and
is idle from now. A MAC control frame has left the module and is counted as pause or as PFC of its class; a copy's
frame has left a line port and is counted there and as dequeued, and the copy is done. CT_OVERSIZE_STOMP: a cut-
through frame longer than the egress MAX_LEN is cut to MAX_LEN bytes with a stomped FCS, counted, and OVERSIZE_STOMP
is set (R237). CT_UNDERRUN: a cut-through frame whose next byte the resequencer has not released is stomped after the
bytes at hand and counted (R212). -/
def Obligations.CopiesAreSent : Prop :=
  (∀ f c fr k n s, arrives (.enqueue f c) s.mod = true → frame? s.mod f = some fr → fr.copy? c = some k →
      copyDue s.mod f c fr k = true → goesCt s.mod fr k = false → copyWhole s.mod f fr k = true →
      portDefined s.mod k.port = true → portUpNow s.mod k.port = true → knownE s.mod fr k = some n →
      n ≤ (framePort s.mod fr k.port).maxLen → s.mod.que.resBad = [] → s.mod.ecc = [] → (queSt s.mod k.port k.queue).ents = [] →
      Answers (.enqueue f c) s fun m =>
        (queSt m k.port k.queue).ents = [{ f := f, copy := c, e := n, at_ := s.mod.now }] ∧
        ((frame? m f).bind (·.copy? c)).any (fun k => k.st == .queued && k.enqAt == some s.mod.now) = true ∧
        counted s.mod (queCtr k.port k.queue 0) 1 m ∧ counted s.mod (queCtr k.port k.queue 1) n m) ∧
  (∀ p cls stops rest s, arrives (.scheduleFrame p) s.mod = true →
      let x := refillAll s.mod
      atBoundary x p = true → (portSt x p).ctl = (cls, stops) :: rest →
      Answers (.scheduleFrame p) s fun m => (portSt m p).ctl = rest ∧
        (portSt m p).tx.map (fun t => (t.f, t.bytes, t.start)) = some (none, ctlBytes x p cls stops, s.mod.now) ∧
        (portSt m p).sentAt.get (cls.getD 8) = s.mod.now ∧
        m = { x with line := { x.line with ports := m.line.ports } }) ∧
  (∀ p g q ent ents fr k s, arrives (.scheduleFrame p) s.mod = true → s.mod.ecc = [] → s.mod.resid = [] →
      let x := refillAll s.mod
      let y := clearDeficits p x
      atBoundary x p = true → (portSt x p).ctl = [] → tokensOk x p 2 0 = true → pickGroup y p = some g →
      pickQueue y p g.child = some q → (queSt y p q.child).ents = ent :: ents →
      frame? s.mod ent.f = some fr → fr.copy? ent.copy = some k →
      let z := takePick p g.child 0 q (takePick p 4 1 g y)
      pnSpent z fr k (pad60 (copyBody z fr k)) = false →
      Answers (.scheduleFrame p) s fun m => (queSt m p q.child).ents = ents ∧
        (let bytes := (finalBytes (popQueue p q.child z) fr k).1
         (portSt m p).tx = some { f := some ent.f, copy := some ent.copy, start := s.mod.now, e := bytes.length, bytes := bytes,
                                  end_ := s.mod.now + bytesTime (portGbps (actCfg s.mod) p) bytes.length, queue := q.child }) ∧
        ((frame? m ent.f).bind (·.copy? ent.copy)).any (fun k => k.st == .sending && k.txAt == some s.mod.now) = true) ∧
  (∀ p s, arrives (.scheduleFrame p) s.mod = true → (portSt s.mod p).txLpi = true → (portSt s.mod p).lpiWake = none →
      (List.range 16).any (fun q => (queSt s.mod p q).ents != []) = true →
      Answers (.scheduleFrame p) s fun m => (portSt m p).lpiWake = some s.mod.now ∧ (portSt m p).tx = (portSt s.mod p).tx) ∧
  (∀ p t s, arrives (.txFrameEnd p) s.mod = true → (portSt s.mod p).tx = some t → t.end_ ≤ s.mod.now → t.f = none →
      Answers (.txFrameEnd p) s fun m => (portSt m p).tx = none ∧ (portSt m p).idleAt = s.mod.now ∧
        m.out = (s.mod.now, .macCtl p t.bytes) :: s.mod.out ∧
        (p < 1024 → if t.queue = 8 then counted s.mod (lneCtr p 37) 1 m
          else counted s.mod (lneCtr p 38) 1 m ∧ counted s.mod (lneCtr p (72 + t.queue)) 1 m)) ∧
  (∀ p t f c fr k s, arrives (.txFrameEnd p) s.mod = true → (portSt s.mod p).tx = some t → t.end_ ≤ s.mod.now → t.f = some f →
      t.copy = some c → t.stomp = false → frame? s.mod f = some fr → fr.copy? c = some k → f ≠ s.mod.nextF →
      Answers (.txFrameEnd p) s fun m => (portSt m p).tx = none ∧ (portSt m p).idleAt = s.mod.now ∧
        counted s.mod (queCtr p t.queue 2) 1 m ∧ counted s.mod (queCtr p t.queue 3) t.e m ∧
        (p < 1024 → (s.mod.now, .frame p t.bytes false) ∈ m.out ∧ counted s.mod (lneCtr p 33) 1 m ∧
          counted s.mod (lneCtr p 32) t.bytes.length m) ∧
        ∀ r, frame? m f = some r → (r.copy? c).any (fun k => k.st == .done) = true) ∧
  (∀ p f c fr k t s, arrives (.ctOversizeStomp p) s.mod = true → ctNow s.mod p = some (f, c, fr, k) →
      (portSt s.mod p).tx = some t → (portCfg s.mod p).maxLen < t.bytes.length →
      t.start + bytesTime (portGbps (actCfg s.mod) p) ((portCfg s.mod p).maxLen - 4) ≤ s.mod.now →
      Answers (.ctOversizeStomp p) s fun m => evtSet (.stall (stallOf p)) evOversizeStomp m = true ∧
        counted s.mod (queCtr p k.queue 8) 1 m ∧
        (portSt m p).tx.any (fun u => u.stomp && decide (u.bytes.length ≤ max 64 (portCfg s.mod p).maxLen)
          && tailFcs u.bytes == stompFcs (noFcs u.bytes)) = true) ∧
  (∀ p f c fr k h s, arrives (.ctUnderrun p) s.mod = true → ctNow s.mod p = some (f, c, fr, k) →
      held? s.mod (copyHome fr k) f = some h → copyHome fr k ≠ shedOfPort fr.port → h.whole = false →
      h.got < sentBytes s.mod p s.mod.now →
      Answers (.ctUnderrun p) s fun m => counted s.mod (.xbr (copyHome fr k) (shedOfPort fr.port) 11) 1 m ∧
        (portSt m p).tx.any (fun u => u.stomp && decide (u.bytes.length ≤ max 60 h.got + 4)
          && tailFcs u.bytes == stompFcs (noFcs u.bytes)) = true)

/-- A copy for a port that the active timetable does not define is dropped with the counter of condition 2 (index 9); for
a port that is defined but down, with that of condition 1 (index 7); for one that is up, when its known egress length
exceeds the MAX_LEN its frame's timetable gives the port, with that of condition 3 (index 8). A dropped copy counts
once, never enters the queue, and is done wherever its frame is still held. A copy for a port that is up, within
MAX_LEN, is never dropped at an empty queue: with no residue or ECC error held, the queue then holds that copy alone,
with its egress length and the time of enqueue, whatever WRED and QLIMIT are set to. -/
def Obligations.EnqueueConditions : Prop :=
  ∀ f c fr k ct x, frame? x f = some fr → fr.copy? c = some k → k.st ≠ .done →
    let y := enqueueNow f c fr k ct x
    let dropped (i : Nat) : Prop := counted x (queCtr k.port k.queue i) 1 y ∧
      (queSt y k.port k.queue).ents = (queSt x k.port k.queue).ents ∧
      ∀ r, frame? y f = some r → (r.copy? c).any (fun k => k.st == .done) = true
    (portDefined x k.port = false → dropped 9) ∧
    (portDefined x k.port = true → portUpNow x k.port = false → dropped 7) ∧
    (∀ n, portDefined x k.port = true → portUpNow x k.port = true → knownE x fr k = some n →
      (framePort x fr k.port).maxLen < n → dropped 8) ∧
    (∀ n, portDefined x k.port = true → portUpNow x k.port = true → knownE x fr k = some n →
      n ≤ (framePort x fr k.port).maxLen → x.que.resBad = [] → x.ecc = [] → (queSt x k.port k.queue).ents = [] →
      (queSt y k.port k.queue).ents = [{ f := f, copy := c, e := n, at_ := x.now }])

/-- YARD_CELL_RECEIVE on a half that carries slots in a working shed: a cell that fails its CRC-32 changes nothing but the
half's error count and times and its counter (R213); a stage-one cell for another shed joins the stage-two cells for
its destination without its credits (R205); the cell that a resequencer without held cells expects is released, the
number expected grows by one and no timer runs (R210); an idle cell's credits are added to the pool it names, and
nothing else changes (R206). RESEQ_TIMEOUT with cells held, the timer over, and the missing cell not arriving in this
cycle: the missing number is declared lost: RESEQ_LOSS is set, the loss is logged and counted (R211).
SLOT_EPOCH_BOUNDARY: the sheds that do not work and the pairs out of service are those left out from now on, and only
the mesh changes (R208). DRAWBAR_SLOT on a half that carries slots, in a slot it has not used and that is not a
superframe's last, with no stream to pack and no local cell: an express slot of streams carries their bytes and counts
as express; else the one cell ready leaves its queue and is counted by its stage; with none ready an idle cell leaves
(R203, R204). -/
def Obligations.YardCellsMove : Prop :=
  (∀ sh h c s, arrives (.yardCellReceive sh h c) s.mod = true → halfRuns (s.mod.mesh.halves.get (sh, h)) = true →
      shedWorks s.mod sh = true →
      (cellOf c = none → Answers (.yardCellReceive sh h c) s fun m =>
        (m.mesh.halves.get (sh, h)).crcErr = (s.mod.mesh.halves.get (sh, h)).crcErr + 1 ∧ counted s.mod (.xbr sh h 4) 1 m ∧
        m = { s.mod with mesh := { s.mod.mesh with halves := m.mesh.halves }, ctrs := m.ctrs }) ∧
      (∀ k, cellOf c = some k → k.stage = 1 → k.dst ≠ sh → Answers (.yardCellReceive sh h c) s fun m =>
        m.mesh.s2.get (sh, k.dst) = s.mod.mesh.s2.get (sh, k.dst) ++ [{ k with stage := 2, creditCells := 0, creditDst := 0 }] ∧
        m = { s.mod with mesh := m.mesh } ∧ m.mesh.reseq = s.mod.mesh.reseq) ∧
      (∀ k, cellOf c = some k → k.stage ≠ 0 → k.dst = sh → s.mod.resid = [] →
        (s.mod.mesh.reseq.get (sh, k.src)).next = k.seq → (s.mod.mesh.reseq.get (sh, k.src)).cells = [] →
        Answers (.yardCellReceive sh h c) s fun m => (m.mesh.reseq.get (sh, k.src)).next = k.seq + 1 ∧
          (m.mesh.reseq.get (sh, k.src)).cells = [] ∧ (m.mesh.reseq.get (sh, k.src)).timer = none) ∧
      (∀ k, cellOf c = some k → k.stage = 0 → k.creditCells ≠ 0 → Answers (.yardCellReceive sh h c) s fun m =>
        m = { s.mod with mesh := { s.mod.mesh with lcredit := m.mesh.lcredit, credit := m.mesh.credit } } ∧
        (if k.creditDst = peerOf sh h
         then m.mesh.lcredit.get (sh, peerOf sh h) = s.mod.mesh.lcredit.get (sh, peerOf sh h) + k.creditCells
         else m.mesh.credit.get (sh, peerOf sh h, k.creditDst) =
           s.mod.mesh.credit.get (sh, peerOf sh h, k.creditDst) + k.creditCells))) ∧
  (∀ sh src t s, arrives (.reseqTimeout sh src) s.mod = true → cellComes sh src s.mod s.pending = false →
      (s.mod.mesh.reseq.get (sh, src)).timer = some t → (s.mod.mesh.reseq.get (sh, src)).cells ≠ [] →
      passed s.mod.now t (us (actCfg s.mod).reseq / 4) = true →
      Answers (.reseqTimeout sh src) s fun m => evtSet (.shed sh) evReseqLoss m = true ∧ counted s.mod (.xbr sh src 9) 1 m ∧
        (s.mod.mesh.reseq.get (sh, src)).next ∈ (m.mesh.reseq.get (sh, src)).lost ∧
        m.mesh.reseqLog.get sh = reg [at_ 29 3 src, at_ 16 13 (fieldOf (s.mod.mesh.reseqLog.get sh) 28 16 + 1),
          at_ 0 16 (s.mod.mesh.reseq.get (sh, src)).next.toNat]) ∧
  (∀ s, arrives .slotEpochBoundary s.mod = true → Answers .slotEpochBoundary s fun m =>
      m.mesh.unusable = (List.range 8).filter (fun k => !shedWorks s.mod k) ∧ m.mesh.pairsOut = deadPairs s.mod ∧
      m = { s.mod with mesh := m.mesh }) ∧
  (∀ sh h s, arrives (.drawbarSlot sh h) s.mod = true → shedWorks s.mod sh = true →
      let k := s.mod.mesh.halves.get (sh, h)
      let t := s.mod.now / slotTime k
      let p := peerOf sh h
      let express := if t % 8 = h then expressStreams s.mod sh h else []
      let next := s.mod.mesh.s2.get (sh, p)
      halfRuns k = true → k.switchAt = none → k.lastSlot ≠ some t → t % 65536 ≠ 65535 →
      (∀ d < 8, s.mod.mesh.streams.get (sh, d) = []) → s.mod.mesh.s1.get (sh, sh) = [] →
      (express ≠ [] → Answers (.drawbarSlot sh h) s fun m => counted s.mod (.xbr sh h 2) 1 m ∧
        (m.mesh.halves.get (sh, h)).lastSlot = some t ∧
        m.out.head?.any (fun e => match e.2 with
          | .express u v l _ => u == sh && v == h && l == express.map (expressPart s.mod)
          | _ => false) = true) ∧
      (∀ a, express = [] → readyS1 s.mod sh p = some a → next = [] → Answers (.drawbarSlot sh h) s fun m =>
        counted s.mod (.xbr sh h 0) 1 m ∧ a ∉ m.mesh.s1.get (sh, p) ∧ (m.mesh.halves.get (sh, h)).lastSlot = some t ∧
        m.out.head?.any (fun e => match e.2 with | .yard u v c _ => u == sh && v == h && c.parts == a.parts | _ => false) = true) ∧
      (∀ b l, express = [] → readyS1 s.mod sh p = none → next = b :: l → Answers (.drawbarSlot sh h) s fun m =>
        counted s.mod (.xbr sh h 1) 1 m ∧ m.mesh.s2.get (sh, p) = l ∧ (m.mesh.halves.get (sh, h)).lastSlot = some t ∧
        m.out.head?.any (fun e => match e.2 with | .yard u v c _ => u == sh && v == h && c.parts == b.parts | _ => false) = true) ∧
      (express = [] → readyS1 s.mod sh p = none → next = [] → Answers (.drawbarSlot sh h) s fun m =>
        (m.mesh.halves.get (sh, h)).lastSlot = some t ∧
        m.out.head?.any (fun e => match e.2 with | .yard u v c _ => u == sh && v == h && c.parts == [] | _ => false) = true))

/-- DRAWBAR_CRC_LIMIT with more than 64 CRC failures in the last 1 ms, and HITCH_CLOCK_LOCK_LOSS, on a half that carries
slots: the half carries no slots and holds no express capacity, and DRAWBAR_DOWN is set in both sheds (R213, R214).
HALF_RATE_ENTER: a half at full rate without express capacity held, quiet and with light mesh payload for 100 us, is
at half rate, switches over from now, and counts it. HALF_RATE_RETURN: a half at half rate with an express request, or
payload above 2.4 Tb/s over 1 us, is at full rate and switches over from now. RATE_SWITCH_OVER_END: after 200 ns the
switch-over is done. Of these three nothing else changes (R215). -/
def Obligations.DrawbarsChangeState : Prop :=
  (∀ sh h s, arrives (.drawbarCrcLimit sh h) s.mod = true → halfRuns (s.mod.mesh.halves.get (sh, h)) = true →
      64 < ((s.mod.mesh.halves.get (sh, h)).crcTimes.filter (fun t => s.mod.now < t + ms 1)).length →
      Answers (.drawbarCrcLimit sh h) s fun m => halfRuns (m.mesh.halves.get (sh, h)) = false ∧
        (m.mesh.halves.get (sh, h)).express = 0 ∧ evtSet (.shed sh) evDrawbarDown m = true ∧
        evtSet (.shed (peerOf sh h)) evDrawbarDown m = true) ∧
  (∀ sh h s, arrives (.hitchClockLockLoss sh h) s.mod = true → halfRuns (s.mod.mesh.halves.get (sh, h)) = true →
      Answers (.hitchClockLockLoss sh h) s fun m => halfRuns (m.mesh.halves.get (sh, h)) = false ∧
        (m.mesh.halves.get (sh, h)).express = 0 ∧ evtSet (.shed sh) evDrawbarDown m = true ∧
        evtSet (.shed (peerOf sh h)) evDrawbarDown m = true) ∧
  (∀ sh h s, arrives (.halfRateEnter sh h) s.mod = true → (s.mod.mesh.halves.get (sh, h)).st = .full →
      (s.mod.mesh.halves.get (sh, h)).express = 0 → (s.mod.mesh.halves.get (sh, h)).switchAt = none →
      (∃ t ∈ (s.mod.mesh.halves.get (sh, h)).lightAt, passed s.mod.now t (us 100) = true) →
      sentIn s.mod sh h (us 100) < 15000000 →
      Answers (.halfRateEnter sh h) s fun m => (m.mesh.halves.get (sh, h)).st = .halfRate ∧
        (m.mesh.halves.get (sh, h)).switchAt = some s.mod.now ∧ counted s.mod (.xbr sh h 5) 1 m ∧
        m = { s.mod with mesh := { s.mod.mesh with halves := m.mesh.halves }, ctrs := m.ctrs }) ∧
  (∀ sh h s, arrives (.halfRateReturn sh h) s.mod = true → (s.mod.mesh.halves.get (sh, h)).st = .halfRate →
      (s.mod.mesh.halves.get (sh, h)).switchAt = none →
      ((s.mod.mesh.halves.get (sh, h)).wantFull = true ∨ 300000 < sentIn s.mod sh h (us 1)) →
      Answers (.halfRateReturn sh h) s fun m => (m.mesh.halves.get (sh, h)).st = .full ∧
        (m.mesh.halves.get (sh, h)).switchAt = some s.mod.now ∧ (m.mesh.halves.get (sh, h)).wantFull = false ∧
        m = { s.mod with mesh := { s.mod.mesh with halves := m.mesh.halves } }) ∧
  (∀ sh h t s, arrives (.rateSwitchOverEnd sh h) s.mod = true → (s.mod.mesh.halves.get (sh, h)).switchAt = some t →
      passed s.mod.now t 200000 = true →
      Answers (.rateSwitchOverEnd sh h) s fun m => (m.mesh.halves.get (sh, h)).switchAt = none ∧
        (m.mesh.halves.get (sh, h)).st = (s.mod.mesh.halves.get (sh, h)).st ∧
        m = { s.mod with mesh := { s.mod.mesh with halves := m.mesh.halves } })

/-- REFILL_TICK at a multiple of 5 ns, once, with no residue or ECC error held: every shaper of a node that shapes has
gained 5 ns of its rate up to BURST, and the buckets of every meter that has been charged are refilled by its record
(R242, R245); nothing else changes. WRED_AVERAGE_TICK at a multiple of 1 us, once, with no residue or ECC error held:
the average of each queue with a WRED record has moved by the record's weight toward the queue's depth, every queue
without one is as before, and of the rest only the time of the tick changes (R251). QUEUE_USE_RECOUNT_DONE: the
queue's use is no longer recounted, and nothing else changes (R253). DEPTH_SELECT_WRITE where the stall can be
reached: the selection is held, and depth, peak, greatest and last delay of the selected queue are taken (R254). -/
def Obligations.QueuesAreServed : Prop :=
  (∀ s, arrives .refillTick s.mod = true → s.mod.now % 5000 = 0 → s.mod.que.refill ≠ some s.mod.now → s.mod.que.resBad = [] →
      s.mod.ecc = [] →
      Answers .refillTick s fun m => m.que.refill = some s.mod.now ∧
        m.que.shapers = s.mod.que.shapers.mapEnts (fun k t => refillShaper (nodeOf s.mod k.1 k.2.1 k.2.2) t) ∧
        m.que.meters = s.mod.que.meters.mapEnts (fun k v => match v, meterRec s.mod k.1 s.mod.tt.active k.2 with
          | some b, some r => some (refillMeter r b)
          | v, _ => v) ∧
        m = { s.mod with que := { s.mod.que with refill := m.que.refill, shapers := m.que.shapers, meters := m.que.meters } }) ∧
  (∀ s, arrives .wredAverageTick s.mod = true → s.mod.now % us 1 = 0 → s.mod.que.avgAt ≠ some s.mod.now →
      s.mod.que.resBad = [] → s.mod.ecc = [] → (s.mod.que.qs.ents.map (·.1)).Nodup →
      Answers .wredAverageTick s fun m => m.que.avgAt = some s.mod.now ∧
        (∀ e ∈ s.mod.que.qs.ents.map (·.1), queSt m e.1 e.2 = (match wredRec s.mod e.1 e.2 with
          | some r =>
            let k := queSt s.mod e.1 e.2
            let a := wredAvg (leAt r 1 1 % 16) (queueCells k) k.avgNum k.avgDen
            { k with avgNum := a.1, avgDen := a.2 }
          | none => queSt s.mod e.1 e.2)) ∧
        m = { s.mod with que := { s.mod.que with qs := m.que.qs, avgAt := m.que.avgAt } }) ∧
  (∀ p q s, arrives (.queueUseRecountDone p q) s.mod = true →
      Answers (.queueUseRecountDone p q) s fun m => queSt m p q = { queSt s.mod p q with recount := none } ∧
        m = { s.mod with que := { s.mod.que with qs := m.que.qs } } ∧
        ∀ e ∈ s.mod.que.qs.ents.map (·.1), e ≠ (p, q) → queSt m e.1 e.2 = queSt s.mod e.1 e.2) ∧
  (∀ g v s, arrives (.depthSelectWrite g v) s.mod = true → reachable s.mod (levelBase (.stall g) + 0xC000) = true →
      Answers (.depthSelectWrite g v) s fun m => m.que.sel.get g = v &&& 0x70F#32 ∧
        (let q := queSt s.mod (8 * g + fieldOf (v &&& 0x70F#32) 10 8) (fieldOf (v &&& 0x70F#32) 3 0)
         m.que.snap.get g = (queueCells q, q.peak, q.max, q.last)) ∧
        m = { s.mod with que := { s.mod.que with sel := m.que.sel, snap := m.que.snap } })

/-- LOSS_MARKER_WRITE on an enabled FORMAT 0 or 2 ring with lost records and room for 64 bytes: a marker joins the capture
buffer with the next SEQ and nothing is lost any more (R271). CAPTURE_RECORD_DMA once the DMA is free: the record at
the head of the buffer leaves it; with the link up and the ring enabled its bytes go to the ring's next place in host
memory (R273). OSTLER_SAMPLE at the sampled instant, and QUEUE_DEPTH_EXPORT once due, to an enabled ring that takes
version 2 records, has lost none and has room: one KIND 3 record of the shed, or one KIND 5 record with the depth and
delays of the port's 16 queues, joins the buffer with the ring's next SEQ, and the next falls due one period later
(R264, R270, R276). SNAPSHOT_ARM with ARM 1: the snapshot is armed at a trigger that has not passed; a passed one arms
it at the next multiple of 256 ns and sets SNAP_LATE; none has been taken. SNAPSHOT_TAKE at or past the trigger: the
shed's 16 counters are copied (R280). PC_OVERFLOW: an enabled counter at 2^48 - 1 reads 0 with OVF set, and PC_OVF is
set where OVF_IRQ is 1. PC_CONFIG_WRITE where the shed can be reached: the register is as written in its RW bits; a
write that changes THRESH, or MODE, EVENT or SOURCE, clears the counter and OVF, and one that does not leaves the
count (R279). PRECISE_PERIOD_WRITE: PERIOD is as written and LEFT takes its value. PRECISE_CFG_WRITE, which with MATCH
1 names a port that exists: the RW bits are as written, and ARM stays 0 while PERIOD is 0 (R289, R290). -/
def Obligations.CapturesAndPerfCounters : Prop :=
  (∀ r s, arrives (.lossMarkerWrite r) s.mod = true → (s.mod.cap.rings.get r).enable = true →
      (s.mod.cap.rings.get r).lost ≠ 0 → (s.mod.cap.rings.get r).format ≠ 1 → fitsRing s.mod r 64 = true →
      Answers (.lossMarkerWrite r) s fun m => (m.cap.rings.get r).lost = 0 ∧
        (m.cap.rings.get r).seq = (s.mod.cap.rings.get r).seq + 1 ∧
        m.cap.buf = s.mod.cap.buf ++ [(r, sealRecord 2 ((s.mod.cap.rings.get r).seq + 1)
          (lossHeader s.mod (s.mod.cap.rings.get r).lost (s.mod.cap.rings.get r).first) [])] ∧
        m = { s.mod with cap := { s.mod.cap with rings := m.cap.rings, buf := m.cap.buf } }) ∧
  (∀ r l t s, arrives .captureRecordDma s.mod = true → s.mod.cap.buf = (r, l) :: t → s.mod.cap.dmaAt ≤ s.mod.now → s.mod.ecc = [] →
      let h := s.mod.host.rings.get (capDma r)
      Answers .captureRecordDma s fun m => m.cap.buf = t ∧
        m.cap.dmaAt = s.mod.now + 25 * l.length ∧
        (s.mod.host.up = true → h.enable = true →
          (s.mod.now, .dma (h.base + h.modIdx % ringSize h) l) ∈ m.out) ∧
        (s.mod.host.up = false → m = { s.mod with cap := m.cap })) ∧
  (∀ sh t s, arrives (.ostlerSample sh) s.mod = true → (s.mod.cap.sheds.get sh).ostAt = some t → t ≤ s.mod.now →
      (s.mod.cap.sheds.get sh).ostCfg.getLsbD 31 = true →
      let r := fieldOf (s.mod.cap.sheds.get sh).ostCfg 27 24
      ringIsV1 s.mod r = false → (s.mod.cap.rings.get r).enable = true → (s.mod.cap.rings.get r).lost = 0 → fitsRing s.mod r 64 = true →
      Answers (.ostlerSample sh) s fun m =>
        (m.cap.sheds.get sh).ostAt = some (t + ostPeriod (s.mod.cap.sheds.get sh).ostCfg) ∧
        (m.cap.rings.get r).seq = (s.mod.cap.rings.get r).seq + 1 ∧
        ∃ l, m.cap.buf = s.mod.cap.buf ++ [l] ∧ l.1 = r ∧ l.2.length = 64 ∧ l.2[3]? = some 3 ∧ l.2[4]? = some (BitVec.ofNat 8 sh)) ∧
  (∀ p u r s, arrives (.queueDepthExport p) s.mod = true → (actCfg s.mod).exports.get (stallOf p) = some (u, r) →
      portDefined s.mod p = true → passed s.mod.now (s.mod.cap.exportAt.get p) (us u) = true → ringIsV1 s.mod r = false →
      (s.mod.cap.rings.get r).enable = true → (s.mod.cap.rings.get r).lost = 0 → fitsRing s.mod r 192 = true →
      Answers (.queueDepthExport p) s fun m => m.cap.exportAt.get p = s.mod.now ∧
        (m.cap.rings.get r).seq = (s.mod.cap.rings.get r).seq + 1 ∧
        ∃ l, m.cap.buf = s.mod.cap.buf ++ [l] ∧ l.1 = r ∧ l.2.length = 192 ∧ l.2[3]? = some 5 ∧
          ∀ q < 16, sliceOf l.2 (64 + 8 * q) 8 = leBytes 4 (queueCells (queSt s.mod p q)) ++ leBytes 2 (queSt s.mod p q).last
            ++ leBytes 2 (queSt s.mod p q).max) ∧
  (∀ v s, arrives (.snapshotArm v) s.mod = true → v.getLsbD 0 = true →
      Answers (.snapshotArm v) s fun m => m.cap.taken = false ∧
        (s.mod.now / 1000 ≤ s.mod.cap.snapTime.toNat → m.cap.armed = some s.mod.cap.snapTime.toNat) ∧
        (s.mod.cap.snapTime.toNat < s.mod.now / 1000 →
          m.cap.armed = some ((s.mod.now / 256000 + 1) * 256) ∧ evtSet .yard evSnapLate m = true)) ∧
  (∀ sh t s, arrives (.snapshotTake sh) s.mod = true → s.mod.cap.armed = some t → shedWorks s.mod sh = true →
      (s.mod.cap.sheds.get sh).snapDone = false → t ≤ s.mod.now / 1000 →
      Answers (.snapshotTake sh) s fun m => (m.cap.sheds.get sh).snapDone = true ∧
        ∀ n < 16, (m.cap.sheds.get sh).snap.get n = ((s.mod.cap.sheds.get sh).pcs.get n).val) ∧
  (∀ sh n s, arrives (.pcOverflow sh n) s.mod = true → ((s.mod.cap.sheds.get sh).pcs.get n).cfg.getLsbD 31 = true →
      ((s.mod.cap.sheds.get sh).pcs.get n).val.toNat = 2 ^ 48 - 1 →
      Answers (.pcOverflow sh n) s fun m => ((m.cap.sheds.get sh).pcs.get n).val = 0 ∧ ((m.cap.sheds.get sh).pcs.get n).ovf = true ∧
        (((s.mod.cap.sheds.get sh).pcs.get n).cfg.getLsbD 28 = true → evtSet (.shed sh) evPcOvf m = true)) ∧
  (∀ sh n v s, arrives (.pcConfigWrite sh n true v) s.mod = true → reachable s.mod (capOff sh (4 * n + 0x40)) = true →
      let k := (s.mod.cap.sheds.get sh).pcs.get n
      Answers (.pcConfigWrite sh n true v) s fun m => ((m.cap.sheds.get sh).pcs.get n).thr = v &&& 0xFFFFFF#32 ∧
        (v &&& 0xFFFFFF#32 ≠ k.thr → ((m.cap.sheds.get sh).pcs.get n).val = 0 ∧ ((m.cap.sheds.get sh).pcs.get n).ovf = false) ∧
        (v &&& 0xFFFFFF#32 = k.thr → (m.cap.sheds.get sh).pcs.get n = k)) ∧
  (∀ sh n v s, arrives (.pcConfigWrite sh n false v) s.mod = true → reachable s.mod (capOff sh (4 * n)) = true →
      let k := (s.mod.cap.sheds.get sh).pcs.get n
      let w := merge 0xF0FFFF0F k.cfg v
      Answers (.pcConfigWrite sh n false v) s fun m => ((m.cap.sheds.get sh).pcs.get n).cfg = w ∧
        (w &&& 0x60FFFF0F#32 ≠ k.cfg &&& 0x60FFFF0F#32 →
          ((m.cap.sheds.get sh).pcs.get n).val = 0 ∧ ((m.cap.sheds.get sh).pcs.get n).ovf = false) ∧
        (w &&& 0x60FFFF0F#32 = k.cfg &&& 0x60FFFF0F#32 → ((m.cap.sheds.get sh).pcs.get n).val = k.val)) ∧
  (∀ sh v s, arrives (.precisePeriodWrite sh v) s.mod = true → reachable s.mod (capOff sh 0x204) = true →
      Answers (.precisePeriodWrite sh v) s fun m => (m.cap.sheds.get sh).period = v &&& 0xFFFFFF#32 ∧
        (m.cap.sheds.get sh).left = v.toNat % 2 ^ 24 ∧ (m.cap.sheds.get sh).precise = (s.mod.cap.sheds.get sh).precise ∧
        m = { s.mod with cap := m.cap }) ∧
  (∀ sh v s, arrives (.preciseCfgWrite sh v) s.mod = true → reachable s.mod (capOff sh 0x200) = true →
      (fieldOf v 29 28 = 1 → portDefined s.mod (fieldOf v 10 0) = true) →
      Answers (.preciseCfgWrite sh v) s fun m => (m.cap.sheds.get sh).precise =
          (if (s.mod.cap.sheds.get sh).period = 0 then v &&& 0x7F0007FF#32 else v &&& 0xFF0007FF#32) ∧
        m = { s.mod with cap := m.cap })

/-- A counter whose accumulator is not full has a host-visible value one greater, modulo 2^64, after it counts once; at
2^64 - 1 it then reads 0 (R51). COUNTER_SPILL at an accumulator of 2^35 or more, once: the counter has spilled, and
SPILL_COUNT of its stall grows by one for a stall's counter. COUNTER_HARVEST of a counter that spilled at 2^35 or
more, with no residue or ECC error held: the harvest word has 2^35 more and the accumulator 2^35 less, so that the
value the host sees is the same, and it may spill again. SPILL_LATE of a stall's counter whose accumulator holds at
2^36 - 1, once: SPILL_LATE is set (R50). -/
def Obligations.CountersSpillAndHarvest : Prop :=
  (∀ c x, (x.ctrs.get c).acc < 2 ^ 36 - 1 → ((count c 1 x).ctrs.get c).value = (x.ctrs.get c).value + 1 ∧
      ((x.ctrs.get c).value = 0xFFFFFFFFFFFFFFFF#64 → ((count c 1 x).ctrs.get c).value = 0)) ∧
  (∀ c s, arrives (.counterSpill c) s.mod = true → 2 ^ 35 ≤ (s.mod.ctrs.get c).acc → (s.mod.ctrs.get c).spilled = false →
      Answers (.counterSpill c) s fun m => m.ctrs.get c = { s.mod.ctrs.get c with spilled := true } ∧
        (∀ g, spillStall c = some g → m.spills.get g = s.mod.spills.get g + 1) ∧ (m.ctrs.get c).value = (s.mod.ctrs.get c).value ∧
        m = { s.mod with ctrs := m.ctrs, spills := m.spills }) ∧
  (∀ c s, arrives (.counterHarvest c) s.mod = true → 2 ^ 35 ≤ (s.mod.ctrs.get c).acc → (s.mod.ctrs.get c).spilled = true →
      s.mod.ecc = [] → s.mod.resid = [] →
      Answers (.counterHarvest c) s fun m => (m.ctrs.get c).acc = (s.mod.ctrs.get c).acc - 2 ^ 35 ∧
        (m.ctrs.get c).hw = (s.mod.ctrs.get c).hw + 0x800000000#64 ∧ (m.ctrs.get c).spilled = false ∧
        (m.ctrs.get c).value = (s.mod.ctrs.get c).value ∧ m = { s.mod with ctrs := m.ctrs }) ∧
  (∀ c g s, arrives (.spillLate c) s.mod = true → (s.mod.ctrs.get c).acc = 2 ^ 36 - 1 → (s.mod.ctrs.get c).late = false →
      spillStall c = some g →
      Answers (.spillLate c) s fun m => (m.ctrs.get c).late = true ∧ (m.ctrs.get c).value = (s.mod.ctrs.get c).value ∧
        evtSet (.stall g) evSpillLate m = true ∧
        m = { raised s.mod m with ctrs := m.ctrs })

/-- Where the pair's registers can be reached. COUNTER_LO_READ, with no ECC error held: the answer is the low half of the
current value and the high half is latched, so that the two halves are one value. COUNTER_SELECT_WRITE: the writable
bits of the selector are as written, and the latch and a held low half are gone. WIDE_PAIR_LOW_WRITE on a pair that
takes writes now: the half is held in place of an earlier one, and nothing else changes. WIDE_PAIR_HIGH_WRITE on a
pair that takes writes now, with a low half held: nothing is held any more, and both halves are committed: a counter
has the 64 bits written as its harvest word, and as its value where it has counted nothing in this cycle; a
performance counter has the low 48 of them where it has counted nothing in this cycle; the snapshot trigger, a ring's
base, and a ring's write-back address (in steps of 8) have them. With none held a counter's pair commits a low half of
0, and the access is logged with KIND 4 (R52, R53, R412). -/
def Obligations.WidePairs : Prop :=
  (∀ p s, arrives (.counterLoRead p) s.mod = true → reachable s.mod (pairOff p) = true → s.mod.ecc = [] →
      Answers (.counterLoRead p) s fun m => (m.pairs.get p).latch.any (fun hi => hi ++ m.rdata == pairValue s.mod p) = true ∧
        m = { s.mod with pairs := m.pairs, rdata := m.rdata }) ∧
  (∀ p v k s, arrives (.counterSelectWrite p v) s.mod = true → selMask p = some k → reachable s.mod (pairOff p - 4) = true →
      Answers (.counterSelectWrite p v) s fun m => m.pairs.get p = { sel := v &&& BitVec.ofNat 32 k, held := none, latch := none } ∧
        m = { s.mod with pairs := m.pairs }) ∧
  (∀ p v s, arrives (.widePairLowWrite p v) s.mod = true → (pairOpen s.mod p).1 = true → reachable s.mod (pairOff p) = true →
      Answers (.widePairLowWrite p v) s fun m => m.pairs.get p = { s.mod.pairs.get p with held := some v } ∧
        m = { s.mod with pairs := m.pairs }) ∧
  (∀ p v lo s, arrives (.widePairHighWrite p v) s.mod = true → (pairOpen s.mod p).1 = true →
      (s.mod.pairs.get p).held = some lo → reachable s.mod (pairOff p + 4) = true →
      (∀ c, pairCtr s.mod p = some c → Answers (.widePairHighWrite p v) s fun m => (m.ctrs.get c).hw = v ++ lo ∧
        ((s.mod.ctrs.get c).cyc ≠ s.mod.cyc → (m.ctrs.get c).value = v ++ lo) ∧
        (m.pairs.get p).held = none ∧ m = { s.mod with pairs := m.pairs, ctrs := m.ctrs, ecc := m.ecc }) ∧
      (∀ sh, p = .capPc sh → Answers (.widePairHighWrite p v) s fun m => (m.pairs.get p).held = none ∧
        (let n := fieldOf (s.mod.pairs.get p).sel 3 0
         ((s.mod.cap.sheds.get sh).pcs.get n).cyc ≠ s.mod.cyc →
           ((m.cap.sheds.get sh).pcs.get n).val = (v ++ lo).setWidth 48) ∧
        m = { s.mod with pairs := m.pairs, cap := m.cap }) ∧
      (p = .snapTime → Answers (.widePairHighWrite p v) s fun m => (m.pairs.get p).held = none ∧ m.cap.snapTime = v ++ lo ∧
        m = { s.mod with pairs := m.pairs, cap := m.cap }) ∧
      (∀ n, p = .ringBase n → Answers (.widePairHighWrite p v) s fun m => (m.pairs.get p).held = none ∧
        (m.host.rings.get n).base = (v ++ lo).toNat ∧ m = { s.mod with pairs := m.pairs, host := m.host }) ∧
      (∀ n, p = .ringWb n → Answers (.widePairHighWrite p v) s fun m => (m.pairs.get p).held = none ∧
        (m.host.rings.get n).wb = (v ++ lo).toNat / 8 * 8 ∧ m = { s.mod with pairs := m.pairs, host := m.host })) ∧
  (∀ p c v s, arrives (.widePairHighWrite p v) s.mod = true → pairCtr s.mod p = some c → (pairOpen s.mod p).1 = true →
      (s.mod.pairs.get p).held = none → reachable s.mod (pairOff p + 4) = true →
      Answers (.widePairHighWrite p v) s fun m => (m.ctrs.get c).hw = v ++ 0#32 ∧ m.host.access.kind = 4 ∧
        m.host.access.count = s.mod.host.access.count + 1 ∧ evtSet .yard evAccessDrop m = true)

/-- Every event register has issued sequence 0 at reset. An event takes the sequence after the latest issued, modulo 2^16,
its bit keeps that one, and every other bit of its register keeps its own. EVT_SEQ_WRITE to the event register of a
block that can be reached (for the yard TIM block, while it is not BUSY), with a sequence v in [31:16] not newer than
the latest issued, whatever [15:0] hold: each bit whose latest sequence is s reads clear when (v - s) mod 2^16 is
below 2^15 and is kept with its sequence otherwise, the latest sequence issued stays, nothing but that register
changes, and so nothing is logged; a v of 0 before any event is such a write and clears nothing. With a v newer than
the latest issued nothing is cleared, and the access is logged with KIND 8 (R415). -/
def Obligations.EventsClearBySequence : Prop :=
  (∀ l b, (State.reset.mod.evts.get (l, b)).seq = 0) ∧
  (∀ l e w a x, e.blk ≠ 0 →
    let r := x.evts.get (l, e.blk)
    let q := (raiseQuiet l e w a x).evts.get (l, e.blk)
    q.seq = r.seq + 1 ∧ q.bits.get e.bit = some (r.seq + 1) ∧ ∀ i, i ≠ e.bit → q.bits.get i = r.bits.get i) ∧
  (∀ l b v s, arrives (.evtSeqWrite l b v) s.mod = true → b ≠ 0 → reachable s.mod (evtOffset l b) = true →
    ((l, b) = (.yard, 4) → timBusy s.mod = false) →
    let q := BitVec.ofNat 16 (fieldOf v 31 16)
    let r := s.mod.evts.get (l, b)
    (serialNewer q (r.readable s.mod.cyc) = false → Answers (.evtSeqWrite l b v) s fun m =>
      (m.evts.get (l, b)).seq = r.seq ∧
      (∀ i ∈ r.bits.ents.map (·.1), (m.evts.get (l, b)).bits.get i = (match r.bits.get i with
        | some e => if (q - e).toNat < 2 ^ 15 then none else some e
        | none => none)) ∧
      (∀ k, k ≠ (l, b) → m.evts.get k = s.mod.evts.get k) ∧ m = { s.mod with evts := m.evts }) ∧
    (r.seq = 0 → q = 0 → serialNewer q r.seq = false) ∧
    (serialNewer q (r.readable s.mod.cyc) = true → Answers (.evtSeqWrite l b v) s fun m =>
      (∀ i, (r.bits.get i).isSome = true → ((m.evts.get (l, b)).bits.get i).isSome = true) ∧ m.host.access.kind = 8))

/-- REGISTER_WRITE of four enabled bytes, little-endian v, to some registers of plain RW fields: PWR_DOM_SEL and
ISL_XERR_SEL hold v in their fields; HST_VEC_MAP k below 120 holds v[10:0] for source 2k and v[26:16] for source 2k +
1; HST_PUNT_MAP k holds each byte of v without bit 6 for its REASON; TRB_IRQ of a level that can be reached holds ALL
and MIN_SEV, 4 for more, and its log keeps its records; nothing else changes. Poisoned data is dropped and logged with
KIND 1, and an AER error goes out; enables with a gap that touch a register are dropped and logged with KIND 1, and
change nothing where they touch none; one run of at most four bytes that fills no register and starts in a defined one
is dropped there and logged with its enables, KIND 0 when aligned (R411). SET_ALIAS_WRITE, CLEAR_ALIAS_WRITE and
TOGGLE_ALIAS_WRITE: the selector of a pair that can be reached has the written bits of its field set, cleared or
inverted, and its pair's latch and held half are gone; PWR_DOM_SEL has those of its field; a register with RW bits
that is no pair's is written as a whole with those bits so changed; a register without RW bits stays as it is; a write
to a half of a pair is dropped and logged with KIND 9 (R15, R412). -/
def Obligations.RegisterWritesApply : Prop :=
  (∀ v s,
    let d : List (Option Byte) := (leBytes 4 v.toNat).map some
    (arrives (.registerWrite 0xE0030 d false) s.mod = true → Answers (.registerWrite 0xE0030 d false) s fun m =>
      m = { s.mod with pwr := { s.mod.pwr with domSel := v &&& 0xFFFF#32 } }) ∧
    (arrives (.registerWrite 0xD0000 d false) s.mod = true → Answers (.registerWrite 0xD0000 d false) s fun m =>
      m = { s.mod with isl := { s.mod.isl with sel := v &&& 0xFFF#32 } }) ∧
    (∀ k < 120, arrives (.registerWrite (0xC0400 + 4 * k) d false) s.mod = true →
      Answers (.registerWrite (0xC0400 + 4 * k) d false) s fun m => m.host.vec.get (2 * k) = some (fieldOf v 10 0) ∧
        m.host.vec.get (2 * k + 1) = some (fieldOf v 26 16) ∧ m = { s.mod with host := { s.mod.host with vec := m.host.vec } }) ∧
    (∀ k < 64, arrives (.registerWrite (0xC0100 + 4 * k) d false) s.mod = true →
      Answers (.registerWrite (0xC0100 + 4 * k) d false) s fun m =>
        (∀ i < 4, m.host.puntMap.get (4 * k + i) = BitVec.ofNat 8 (fieldOf v (8 * i + 7) (8 * i)) &&& 0xBF#8) ∧
        m = { s.mod with host := { s.mod.host with puntMap := m.host.puntMap } }) ∧
    (∀ l, let off := levelBase l + evtPage l 0 + 0x10
      regAt off = some ⟨l, evtPage l 0, 0x10⟩ → reachable s.mod off = true → arrives (.registerWrite off d false) s.mod = true →
      Answers (.registerWrite off d false) s fun m =>
        m.logs.get l = { s.mod.logs.get l with irqAll := v.getLsbD 31, minSev := min (fieldOf v 2 0) 4 } ∧
        m = { s.mod with logs := m.logs })) ∧
  (∀ off d s, arrives (.registerWrite off d true) s.mod = true →
      Answers (.registerWrite off d true) s fun m => m.host.access.kind = 1 ∧
        m.host.access.count = s.mod.host.access.count + 1 ∧ m.out.head? = some (s.mod.now, .aer) ∧
        evtSet .yard evAccessDrop m = true ∧ m = { raised s.mod m with host := m.host }) ∧
  (∀ off d s, arrives (.registerWrite off d false) s.mod = true → oneRun d = false →
      (∀ g ∈ touched off d, (regAt g).any regDefined = false) → Answers (.registerWrite off d false) s fun m => m = s.mod) ∧
  (∀ off d g s, arrives (.registerWrite off d false) s.mod = true → oneRun d = false →
      g ∈ touched off d → (regAt g).any regDefined = true →
      Answers (.registerWrite off d false) s fun m => m.host.access.kind = 1 ∧
        m.host.access.count = s.mod.host.access.count + 1 ∧ evtSet .yard evAccessDrop m = true ∧
        m = { raised s.mod m with host := m.host }) ∧
  (∀ off d g r s, arrives (.registerWrite off d false) s.mod = true → oneRun d = true → touched off d = [g] →
      enables (partOf off d g) ≠ 15 → regAt g = some r → regDefined r = true →
      Answers (.registerWrite off d false) s fun m => m.host.access.kind = (if off % 4 = 0 then 0 else 2) ∧
        m.host.access.be = enables (partOf off d g) ∧ m.host.access.off = g ∧ evtSet .yard evAccessDrop m = true ∧
        m = { raised s.mod m with host := m.host }) ∧
  (∀ off v r p k s, regAt (plainOff off) = some r → regDefined r = true → pairReg r = some (p, 0) → selMask p = some k →
      reachable s.mod (plainOff off) = true → reachable s.mod (pairOff p - 4) = true →
      let w := (s.mod.pairs.get p).sel
      let f := BitVec.ofNat 32 k
      (arrives (.setAliasWrite off v) s.mod = true → Answers (.setAliasWrite off v) s fun m =>
        m.pairs.get p = { sel := (w ||| v) &&& f } ∧ m = { s.mod with pairs := m.pairs }) ∧
      (arrives (.clearAliasWrite off v) s.mod = true → Answers (.clearAliasWrite off v) s fun m =>
        m.pairs.get p = { sel := (w &&& ~~~v) &&& f } ∧ m = { s.mod with pairs := m.pairs }) ∧
      (arrives (.toggleAliasWrite off v) s.mod = true → Answers (.toggleAliasWrite off v) s fun m =>
        m.pairs.get p = { sel := (w ^^^ v) &&& f } ∧ m = { s.mod with pairs := m.pairs })) ∧
  (∀ v s, let w := s.mod.pwr.domSel
      (arrives (.setAliasWrite 0xE1030 v) s.mod = true → w &&& 0xFFFF#32 = w → Answers (.setAliasWrite 0xE1030 v) s fun m =>
        m = { s.mod with pwr := { s.mod.pwr with domSel := w ||| (v &&& 0xFFFF#32) } }) ∧
      (arrives (.clearAliasWrite 0xE2030 v) s.mod = true → w &&& 0xFFFF#32 = w → Answers (.clearAliasWrite 0xE2030 v) s fun m =>
        m = { s.mod with pwr := { s.mod.pwr with domSel := w &&& ~~~(v &&& 0xFFFF#32) } }) ∧
      (arrives (.toggleAliasWrite 0xE3030 v) s.mod = true → w &&& 0xFFFF#32 = w → Answers (.toggleAliasWrite 0xE3030 v) s fun m =>
        m = { s.mod with pwr := { s.mod.pwr with domSel := w ^^^ (v &&& 0xFFFF#32) } })) ∧
  (∀ off v r s, regAt (plainOff off) = some r → pairReg r = none →
      let k := BitVec.ofNat 32 (rwMask r)
      let w := BitVec.ofNat 32 (aliasOld s.mod r)
      let whole := fun u => if rwMask r = 0 then s.mod else writeReg (plainOff off) (u &&& k) s.mod
      (arrives (.setAliasWrite off v) s.mod = true → Answers (.setAliasWrite off v) s fun m => m = whole (w ||| (v &&& k))) ∧
      (arrives (.clearAliasWrite off v) s.mod = true → Answers (.clearAliasWrite off v) s fun m => m = whole (w &&& ~~~(v &&& k))) ∧
      (arrives (.toggleAliasWrite off v) s.mod = true → Answers (.toggleAliasWrite off v) s fun m => m = whole (w ^^^ (v &&& k)))) ∧
  (∀ off v r p i s, regAt (plainOff off) = some r → pairReg r = some (p, i + 1) →
      ∀ c ∈ [Instr.setAliasWrite off v, .clearAliasWrite off v, .toggleAliasWrite off v], arrives c s.mod = true →
        Answers c s fun m => m.host.access.kind = 9 ∧ m.pairs = s.mod.pairs ∧ m.ctrs = s.mod.ctrs)

/-- LATCH_READ of a latched group of words that can be reached answers its first word and latches the others as they stand
at that instant; nothing else changes. TROUBLE_RECORD_POP of a log that can be reached, with no ECC error held: with
records unread before this cycle the oldest leaves the log, the answer is its sequence, severity, VALID and code, and
its time and detail are latched; without one the answer is 0 and the log stays. LATCH_READ of TRB_REC0, of a
capture's, the stamp queue's and the time of day's first register is TROUBLE_RECORD_POP, CAPTURE_STAMP_POP, TSQ_POP
and TIME_NOW_READ (R52, R524, R529). -/
def Obligations.ReadsLatchAndPop : Prop :=
  (∀ l s, arrives (.latchRead l) s.mod = true → reachable s.mod (latchOff l) = true → groupWords s.mod l ≠ [] →
      Answers (.latchRead l) s fun m => m.rdata = BitVec.ofNat 32 ((groupWords s.mod l).headD 0) ∧
        m.latch.get l = ((groupWords s.mod l).tail).map (BitVec.ofNat 32) ∧
        m = { s.mod with rdata := m.rdata, latch := m.latch }) ∧
  (∀ l r t s, arrives (.troubleRecordPop l) s.mod = true → reachable s.mod (latchOff (.troubleRec l)) = true → s.mod.ecc = [] →
      ((s.mod.logs.get l).met s.mod.cyc).recs = r :: t →
      Answers (.troubleRecordPop l) s fun m => ((m.logs.get l).met m.cyc).recs = t ∧
        m.rdata = BitVec.ofNat 32 (r.seq.toNat * 65536 + r.sev % 8 * 8192 + 4096 + r.code % 512) ∧
        m.latch.get (.troubleRec l) = [r.time % 2 ^ 32, r.time / 2 ^ 32, r.detail.toNat].map (BitVec.ofNat 32) ∧
        m = { s.mod with rdata := m.rdata, latch := m.latch, logs := m.logs }) ∧
  (∀ l s, arrives (.troubleRecordPop l) s.mod = true → reachable s.mod (latchOff (.troubleRec l)) = true → s.mod.ecc = [] →
      ((s.mod.logs.get l).met s.mod.cyc).recs = [] →
      Answers (.troubleRecordPop l) s fun m => m.rdata = 0 ∧ m.logs = s.mod.logs) ∧
  (∀ s, (∀ l, arrives (.latchRead (.troubleRec l)) s.mod = true →
        exec (.latchRead (.troubleRec l)) s = exec (.troubleRecordPop l) s) ∧
      (∀ c, arrives (.latchRead (.capSec c)) s.mod = true → reachable s.mod (latchOff (.capSec c)) = true →
        exec (.latchRead (.capSec c)) s = exec (.captureStampPop c) s) ∧
      (∀ g, arrives (.latchRead (.tsqData g)) s.mod = true → exec (.latchRead (.tsqData g)) s = exec (.tsqPop g) s) ∧
      (arrives (.latchRead .nowSec) s.mod = true → exec (.latchRead .nowSec) s = exec .timeNowRead s))

/-- TIME_UNIT_SET, TIME_UNIT_STEP and TIME_UNIT_FREQUENCY with nothing in progress or waiting. Owned means asked by a
servo that acquires or is locked, or with FORCE, or with SOURCE the host (R305). An owned and valid set is accepted;
an owned and valid step is accepted with FORCE, before the unit was first set, or with a magnitude of at most the jump
threshold; an owned and valid frequency change is accepted with FORCE or when it differs from the present frequency by
at most the threshold. Accepted, it stands in the unit as the operation in progress, and nothing else changes.
Otherwise nothing changes but this: not owned, RESULT is 3; owned but invalid, RESULT is 2; owned, valid and beyond
the threshold, RESULT is 1, TIM_REFUSED holds the offset or the change, and JUMP_REFUSED is set (R303, R304).
TIME_OP_TAKE_EFFECT of a valid operation, with nothing waiting: the operation has ended with RESULT 0; after a set the
unit reads the seconds and nanoseconds set, after a step its reading plus the offset, from now on, and counts as set;
after a frequency change it runs at that frequency. -/
def Obligations.TimeUnitChanges : Prop :=
  (∀ servo force sec ns s, arrives (.timeUnitSet servo force sec ns) s.mod = true → s.mod.tim.op = none →
      s.mod.tim.queue = [] → (servo = true → s.mod.tim.servo = 1 ∨ s.mod.tim.servo = 2) → (servo = true ∨ force = true ∨ s.mod.tim.source = 0) → ns.toNat < 1000000000 →
      Answers (.timeUnitSet servo force sec ns) s fun m => m = { s.mod with tim := { s.mod.tim with
        op := some { op := .set sec ns, servo := servo, force := force, at_ := s.mod.now } } }) ∧
  (∀ servo force off s, arrives (.timeUnitStep servo force off) s.mod = true → s.mod.tim.op = none →
      s.mod.tim.queue = [] → (servo = true → s.mod.tim.servo = 1 ∨ s.mod.tim.servo = 2) → (servo = true ∨ force = true ∨ s.mod.tim.source = 0) →
      inTime (unitsAt s.mod s.mod.now + off.toInt) = true →
      (force = true ∨ s.mod.tim.isSet = false ∨ off.toInt.natAbs ≤ s.mod.tim.jump * 65536) →
      Answers (.timeUnitStep servo force off) s fun m => m = { s.mod with tim := { s.mod.tim with
        op := some { op := .step off, servo := servo, force := force, at_ := s.mod.now } } }) ∧
  (∀ servo force freq s, arrives (.timeUnitFrequency servo force freq) s.mod = true → s.mod.tim.op = none →
      s.mod.tim.queue = [] → (servo = true → s.mod.tim.servo = 1 ∨ s.mod.tim.servo = 2) → (servo = true ∨ force = true ∨ s.mod.tim.source = 0) →
      -128000000 ≤ freq.toInt → freq.toInt ≤ 128000000 →
      (force = true ∨ (freq.toInt - s.mod.tim.freq.toInt).natAbs ≤ s.mod.tim.jump * 256) →
      Answers (.timeUnitFrequency servo force freq) s fun m => m = { s.mod with tim := { s.mod.tim with
        op := some { op := .freq freq, servo := servo, force := force, at_ := s.mod.now } } }) ∧
  (∀ (o : TimeOp) (servo force : Bool) (s : State),
      let c : Instr := match o with
        | .set sec ns => .timeUnitSet servo force sec ns
        | .step off => .timeUnitStep servo force off
        | .freq f => .timeUnitFrequency servo force f
      arrives c s.mod = true → s.mod.tim.op = none → s.mod.tim.queue = [] → (servo = true → s.mod.tim.servo = 1 ∨ s.mod.tim.servo = 2) →
      let owned := servo = true ∨ force = true ∨ s.mod.tim.source = 0
      (¬owned → Answers c s fun m => m = { s.mod with tim := { s.mod.tim with result := 3 } }) ∧
      (owned → timeInvalid s.mod o = true → Answers c s fun m => m = { s.mod with tim := { s.mod.tim with result := 2 } }) ∧
      (∀ off, owned → o = .step off → timeInvalid s.mod o = false → force = false → s.mod.tim.isSet = true →
        s.mod.tim.jump * 65536 < off.toInt.natAbs →
        Answers c s fun m => m.tim = { s.mod.tim with result := 1, refused := off } ∧ evtSet .yard evJumpRefused m = true ∧
          m = { raised s.mod m with tim := m.tim }) ∧
      (∀ f, owned → o = .freq f → timeInvalid s.mod o = false → force = false →
        s.mod.tim.jump * 256 < (f.toInt - s.mod.tim.freq.toInt).natAbs →
        Answers c s fun m => m.tim = { s.mod.tim with result := 1, refused := BitVec.ofInt 64 (f.toInt - s.mod.tim.freq.toInt) } ∧
          evtSet .yard evJumpRefused m = true ∧ m = { raised s.mod m with tim := m.tim })) ∧
  (∀ r s, arrives .timeOpTakeEffect s.mod = true → s.mod.tim.op = some r → s.mod.tim.queue = [] →
      timeInvalid s.mod r.op = false →
      AnswersBuf .timeOpTakeEffect s fun m _ => m.tim.op = none ∧ m.tim.result = 0 ∧
        (∀ sec ns, r.op = .set sec ns → m.tim.base = todOf ((sec.toNat * 1000000000 + ns.toNat : Nat) * 65536) ∧
          m.tim.at_ = s.mod.now ∧ m.tim.isSet = true) ∧
        (∀ off, r.op = .step off → m.tim.base = todOf (unitsAt s.mod s.mod.now + off.toInt) ∧
          m.tim.at_ = s.mod.now ∧ m.tim.isSet = true) ∧
        (∀ f, r.op = .freq f → m.tim.freq = f))

/-- REF_LOCK while domain 439 runs: REF_LOCK reads 1, and nothing else changes. REF_LOSS of a reference that was locked:
it reads 0 and REF_LOSS is set. SERVO_HOLDOVER_ENTER with a source other than the host and a servo that acquires or is
locked, on PPS in with no edge for 1.1 s: the servo is in holdover, the frequency is the mean over the last 16 s of
lock, and HOLDOVER is set. SERVO_HOLDOVER_EXIT of a servo in holdover, unless the source is PTP and no module is
steward (11 R360): with a median within the threshold the servo acquires or is locked again (which of the two is a
free value, log 15); above it, it stays in holdover as one whose offset is too large, TIM_REFUSED takes the offset and
JUMP_REFUSED is set; raised once, a further median above the threshold changes nothing (R306). -/
def Obligations.ServoAndReference : Prop :=
  (∀ s, arrives .refLock s.mod = true → domRuns s.mod 439 = true →
      Answers .refLock s fun m => m = { s.mod with tim := { s.mod.tim with refLock := true } }) ∧
  (∀ s, arrives .refLoss s.mod = true → s.mod.tim.refLock = true →
      Answers .refLoss s fun m => m.tim = { s.mod.tim with refLock := false } ∧ evtSet .yard evRefLoss m = true ∧
        m = { raised s.mod m with tim := m.tim }) ∧
  (∀ s, arrives .servoHoldoverEnter s.mod = true → s.mod.tim.source ≠ 0 → (s.mod.tim.servo = 1 ∨ s.mod.tim.servo = 2) →
      (s.mod.tim.source = 2 → ∀ t ∈ (s.mod.tim.ins.get 4).lastAt, t + ms 1100 ≤ s.mod.now) →
      Answers .servoHoldoverEnter s fun m => m.tim.servo = 3 ∧ m.tim.freq = holdFreq s.mod ∧
        evtSet .yard evHoldover m = true ∧ m = { raised s.mod m with tim := m.tim }) ∧
  (∀ o s, arrives (.servoHoldoverExit o) s.mod = true → (s.mod.tim.servo = 3 ∨ s.mod.tim.servo = 4) →
      (s.mod.tim.source ≠ 1 ∨ stewardLess s.mod = false) →
      (o.toInt.natAbs ≤ s.mod.tim.jump * 65536 → Answers (.servoHoldoverExit o) s fun m =>
        (m.tim.servo = 1 ∨ m.tim.servo = 2) ∧ m = { s.mod with free := m.free, tim := m.tim }) ∧
      (s.mod.tim.servo = 3 → s.mod.tim.jump * 65536 < o.toInt.natAbs → Answers (.servoHoldoverExit o) s fun m => m.tim.servo = 4 ∧
        m.tim.refused = o ∧ evtSet .yard evJumpRefused m = true ∧ m = { raised s.mod m with tim := m.tim }) ∧
      (s.mod.tim.servo = 4 → s.mod.tim.jump * 65536 < o.toInt.natAbs → Answers (.servoHoldoverExit o) s fun m => m = s.mod))

/-- PULSE_OUTPUT_ARM with ARM 1 and a width: a one-shot whose start has not passed is armed for its start, and a periodic
output with its period above its width for the first start + k × period not passed; a one-shot whose start has passed
is not armed, and PULSE_MISSED is set; a period not above the width leaves it unarmed and INVALID (R308).
PULSE_OUTPUT_FIRE at or past an output's edge while domain 438 runs: the output is driven for its width; a one-shot is
disarmed, a periodic output waits for its next edge after this one. PPS_OUT_EDGE at a nanosecond count of 0 on a unit
that was set, PPS out being low: it rises for its width (R310). CAPTURE_INPUT_EDGE of a selected edge, not within 50
ns of the last: with room it is stamped with its time and direction, with four stamps unread it is lost and OVF is set
(R311). CAPTURE_STAMP_POP and TSQ_POP of a queue that holds entries take the head entry, answer its first word and
latch its others. CAPTURE_OVF_CLEAR and TSQ_OVF_CLEAR with their bit set clear OVF, unless something was lost in this
very cycle. TIME_NOW_READ answers nanoseconds and quarters of the unit now and latches the seconds. -/
def Obligations.PulsesAndCaptures : Prop :=
  (∀ o v s, arrives (.pulseOutputArm o v) s.mod = true → v.getLsbD 31 = true →
      let p0 : Pulse := { s.mod.tim.outs.get o with cfg := v &&& 0x60FFFFFF#32 }
      p0.width ≠ 0 →
      (p0.periodic = false → unitsAt s.mod s.mod.now ≤ p0.start → Answers (.pulseOutputArm o v) s fun m =>
        m = { s.mod with tim := { s.mod.tim with outs := s.mod.tim.outs.upd o fun _ =>
          { p0 with armed := true, invalid := false, next := some p0.start } } }) ∧
      (p0.periodic = true → p0.width * 16 < p0.period.toNat % 2 ^ 30 → Answers (.pulseOutputArm o v) s fun m =>
        m = { s.mod with tim := { s.mod.tim with outs := s.mod.tim.outs.upd o fun _ =>
          { p0 with armed := true, invalid := false, next := some (p0.fromTime (unitsAt s.mod s.mod.now)) } } }) ∧
      (p0.periodic = false → p0.start < unitsAt s.mod s.mod.now → Answers (.pulseOutputArm o v) s fun m =>
        (m.tim.outs.get o).armed = false ∧ evtSet .yard evPulseMissed m = true) ∧
      (p0.periodic = true → p0.period.toNat % 2 ^ 30 ≤ p0.width * 16 → Answers (.pulseOutputArm o v) s fun m =>
        (m.tim.outs.get o).armed = false ∧ (m.tim.outs.get o).invalid = true)) ∧
  (∀ o t s, arrives (.pulseOutputFire o) s.mod = true → (s.mod.tim.outs.get o).next = some t →
      t ≤ unitsAt s.mod s.mod.now → domRuns s.mod 438 = true →
      let p0 := s.mod.tim.outs.get o
      Answers (.pulseOutputFire o) s fun m => (m.tim.outs.get o).high = some (s.mod.now + p0.width * 16000) ∧
        m.out = (s.mod.now, .pulse o (!bitOf p0.cfg.toNat 29)) :: s.mod.out ∧
        (p0.periodic = false → (m.tim.outs.get o).armed = false ∧ (m.tim.outs.get o).next = none) ∧
        (p0.periodic = true → (m.tim.outs.get o).armed = p0.armed ∧ (m.tim.outs.get o).next = some (p0.fromTime (t + 1)))) ∧
  (∀ s, arrives .ppsOutEdge s.mod = true → domRuns s.mod 438 = true → s.mod.tim.isSet = true → (todNow s.mod).ns = 0 →
      s.mod.tim.ppsOut = none →
      Answers .ppsOutEdge s fun m => m = { s.mod with out := (s.mod.now, .pps true) :: s.mod.out, tim := m.tim } ∧
        m.tim.ppsOut = some (s.mod.now + if s.mod.tim.ppsMs = 0 then us 1 else ms s.mod.tim.ppsMs)) ∧
  (∀ c r s, arrives (.captureInputEdge c r) s.mod = true → domRuns s.mod 439 = true → (s.mod.tim.ins.get c).takes r = true →
      (∀ t ∈ (s.mod.tim.ins.get c).lastAt, t + 50000 ≤ s.mod.now) →
      Answers (.captureInputEdge c r) s fun m => (m.tim.ins.get c).lastAt = some s.mod.now ∧
        (if (s.mod.tim.ins.get c).fifo.length < 4 then (m.tim.ins.get c).fifo = (s.mod.tim.ins.get c).fifo ++
            [((stampWords (unitsAt s.mod s.mod.now)).2, (stampWords (unitsAt s.mod s.mod.now)).1, 0, r)]
         else (m.tim.ins.get c).fifo = (s.mod.tim.ins.get c).fifo ∧ (m.tim.ins.get c).ovf = true)) ∧
  (∀ c e t s, arrives (.captureStampPop c) s.mod = true → (s.mod.tim.ins.get c).fifo = e :: t →
      Answers (.captureStampPop c) s fun m => (m.tim.ins.get c).fifo = t ∧ m.rdata = BitVec.ofNat 32 e.1 ∧
        m.latch.get (.capSec c) = [BitVec.ofNat 32 (e.2.1 % 2 ^ 32), BitVec.ofNat 32 (e.2.1 / 2 ^ 32 + flag 16 e.2.2.2)]) ∧
  (∀ c v s, arrives (.captureOvfClear c v) s.mod = true → bitOf v.toNat 27 = true →
      (s.mod.tim.ins.get c).lostAt ≠ some s.mod.cyc →
      Answers (.captureOvfClear c v) s fun m => (m.tim.ins.get c).ovf = false ∧
        (m.tim.ins.get c).fifo = (s.mod.tim.ins.get c).fifo ∧ m = { s.mod with tim := { s.mod.tim with ins := m.tim.ins } }) ∧
  (∀ g e t s, arrives (.tsqPop g) s.mod = true → reachable s.mod (latchOff (.tsqData g)) = true →
      (s.mod.tim.tsqs.get g).ents = e :: t →
      Answers (.tsqPop g) s fun m => (m.tim.tsqs.get g).ents = t ∧
        m.rdata = BitVec.ofNat 32 (e.id * 65536 + e.port % 8 * 8192 + 1) ∧
        m.latch.get (.tsqData g) = [BitVec.ofNat 32 e.ns, BitVec.ofNat 32 (e.sec % 2 ^ 32)]) ∧
  (∀ g v s, arrives (.tsqOvfClear g v) s.mod = true → reachable s.mod (levelBase (.stall g) + 0x10004) = true →
      bitOf v.toNat 30 = true →
      (s.mod.tim.tsqs.get g).lostAt ≠ some s.mod.cyc →
      Answers (.tsqOvfClear g v) s fun m => (m.tim.tsqs.get g).ovf = false ∧
        (m.tim.tsqs.get g).ents = (s.mod.tim.tsqs.get g).ents) ∧
  (∀ s, arrives .timeNowRead s.mod = true →
      Answers .timeNowRead s fun m =>
        let t := todNow s.mod
        m.rdata = BitVec.ofNat 32 (t.ns.toNat + t.frac.toNat / 16384 * 2 ^ 30) ∧
        m.latch.get .nowSec = [BitVec.ofNat 32 (t.sec.toNat % 2 ^ 32), BitVec.ofNat 32 (t.sec.toNat / 2 ^ 32 + t.frac.toNat * 65536)] ∧
        (s.mod.now / 4000 ≠ (s.mod.now - 1000) / 4000 → counted s.mod (.isl .yard 3) 1 m) ∧
        (s.mod.now / 4000 = (s.mod.now - 1000) / 4000 → m.ctrs = s.mod.ctrs) ∧
        m = { s.mod with rdata := m.rdata, latch := m.latch, ctrs := m.ctrs })

/-- A valid TIME_PORT for a line port of the active configuration sets the port's PTP mode, stepping, instance, interval
and both adjustments, and a valid PTP_CONFIG the instance, and the command ends OK. A valid TIME_STEP (FORCE only at
version 3.2), with nothing in progress or waiting, that the unit owns and does not refuse, stands in the time unit as
the operation of its mailbox and has not yet ended. POSTED_WRITE_LAND: the write in flight is over; one of TIM_OP_ARG0
to 2 sets that argument, and nothing else changes (R303, R313; 12 R402). -/
def Obligations.TimeMessages : Prop :=
  (∀ n s, arrives (.timePort n) s.mod = true → running s.mod n 0x0040 →
      let b := s.mod.dax.boxes.get n
      let q := b.body
      b.len = 12 → leAt q 0 2 < 1024 → portDefined s.mod (leAt q 0 2) = true → bitOf (leAt q 2 1) 3 = false → bitsOf (leAt q 2 1) 7 6 = 0 →
      -7 ≤ (BitVec.ofNat 8 (leAt q 3 1)).toInt → (BitVec.ofNat 8 (leAt q 3 1)).toInt ≤ 4 →
      AnswersBuf (.timePort n) s fun m _ => replied m n stOk ∧ m.dax.ptpPorts.get (leAt q 0 2) = some
        { mode := bitsOf (leAt q 2 1) 1 0, oneStep := bitOf (leAt q 2 1) 2, instNo := bitsOf (leAt q 2 1) 5 4,
          logSync := (BitVec.ofNat 8 (leAt q 3 1)).toInt, inAdj := (BitVec.ofNat 32 (leAt q 4 4)).toInt,
          egAdj := (BitVec.ofNat 32 (leAt q 8 4)).toInt }) ∧
  (∀ n s, arrives (.ptpConfig n) s.mod = true → running s.mod n 0x0042 →
      let b := s.mod.dax.boxes.get n
      let q := b.body
      b.len = 8 → leAt q 0 1 < 4 → leAt q 2 1 < 4 → leAt q 3 1 < 8 → leAt q 7 1 = 0 →
      (bitOf (leAt q 3 1) 1 = true → ∀ j < 4, j ≠ leAt q 0 1 → (s.mod.dax.ptp.get j).steers = false) →
      AnswersBuf (.ptpConfig n) s fun m _ => replied m n stOk ∧ m.dax.ptp.get (leAt q 0 1) =
        { enable := bitOf (leAt q 3 1) 0, steers := bitOf (leAt q 3 1) 1, gmCap := bitOf (leAt q 3 1) 2,
          domain := leAt q 1 1, profile := leAt q 2 1, prio1 := leAt q 4 1, prio2 := leAt q 5 1, clkClass := leAt q 6 1 }) ∧
  (∀ n s, arrives (.timeStep n) s.mod = true → running s.mod n 0x0041 →
      let b := s.mod.dax.boxes.get n
      let q := b.body
      let off := BitVec.ofNat 64 (leAt q 8 8)
      let force := bitOf (leAt q 0 1) 0
      b.len = 16 → leAt q 0 1 < 2 → (force = true → s.mod.dax.version = some (3, 2)) → allZero (sliceOf q 1 7) = true →
      s.mod.tim.op = none → s.mod.tim.queue = [] → (force = true ∨ s.mod.tim.source = 0) →
      inTime (unitsAt s.mod s.mod.now + off.toInt) = true →
      (force = true ∨ s.mod.tim.isSet = false ∨ off.toInt.natAbs ≤ s.mod.tim.jump * 65536) →
      AnswersBuf (.timeStep n) s fun m c => c = s.mem ∧ (m.dax.boxes.get n).began = true ∧ (m.dax.boxes.get n).st = b.st ∧
        m.tim = { s.mod.tim with
          op := some { op := .step off, servo := false, force := force, at_ := s.mod.now, mbx := some n } }) ∧
  (∀ off v t s, arrives .postedWriteLand s.mod = true → s.mod.tim.posted = some (off, v, t) →
      AnswersBuf .postedWriteLand s fun m b => m.tim.posted = none ∧
        (off = 0x030 → b = s.mem ∧ m = { s.mod with tim := { s.mod.tim with posted := none, args := (v, s.mod.tim.args.2) } }) ∧
        (off = 0x034 → b = s.mem ∧ m = { s.mod with tim := { s.mod.tim with posted := none, args := (s.mod.tim.args.1, v, s.mod.tim.args.2.2) } }) ∧
        (off = 0x038 → b = s.mem ∧ m = { s.mod with tim := { s.mod.tim with posted := none, args := (s.mod.tim.args.1, s.mod.tim.args.2.1, v) } }))

/-- TABLE_EDIT_INSERT, TABLE_EDIT_CHANGE and TABLE_EDIT_DELETE answer the message of their OP: with no record, an entry
size that is not the table's, a LENGTH other than that of its records, a reserved field not 0, more than one group
record, or the stream table below version 3.0, the command ends INVALID_ARGUMENT; while a load is under way it ends
BUSY. A message of one record that is malformed for its table ends INVALID_ARGUMENT. A delete or a change of an absent
key ends OK with RESULT 1 and nothing committed. A message whose OP names none ends INVALID_ARGUMENT at the insert's
check. QUEUE_CONFIG with no record, more than 64, a reserved field not 0 or a wrong LENGTH ends INVALID_ARGUMENT, and
during a load BUSY. In all of these the module is otherwise as it was. -/
def Obligations.MalformedEditsEnd : Prop :=
  (∀ n c o s, (c, o) ∈ [(Instr.tableEditInsert n, 0), (Instr.tableEditChange n, 1), (Instr.tableEditDelete n, 2)] →
      arrives c s.mod = true → running s.mod n 0x10 →
      let q := (s.mod.dax.boxes.get n).body
      let bad := leAt q 2 2 = 0 ∨ sizeOk (leAt q 0 1) (leAt q 4 2) = false ∨ leAt q 6 2 ≠ 0 ∨
        (s.mod.dax.boxes.get n).len ≠ 8 + leAt q 2 2 * leAt q 4 2 ∨ (leAt q 0 1 = 6 ∧ leAt q 2 2 ≠ 1) ∨
        (leAt q 0 1 = 14 ∧ versionAtLeast s.mod 3 0 = false)
      let r := sliceOf q 8 (leAt q 4 2)
      let key := keyOf (leAt q 0 1) r
      let v := viewOf s.mod (hostBegins s.mod (leAt q 0 1) key) s.mod.tt.active
      leAt q 1 1 = o →
      (bad → Ends c s n stInvalid [] s.mod) ∧
      (¬ bad → s.mod.tt.act.any (·.loading) = true → Ends c s n stBusy [] s.mod) ∧
      (¬ bad → s.mod.tt.act.any (·.loading) = false → editTurn s.mod n = true → leAt q 2 2 = 1 → s.mod.tbl.edits = [] →
        (o ≠ 2 → recordOk (portDefined s.mod) (leAt q 0 1) r = false → Ends c s n stInvalid [0, 0, 0, 0, 0, 0, 0, 0] s.mod) ∧
        ((o = 2 ∨ (o = 1 ∧ recordOk (portDefined s.mod) (leAt q 0 1) r = true ∧ refsBad v (leAt q 0 1) r = false ∧
            (leAt q 0 1 = 14 → handleTaken v key r = false))) →
          v.find (leAt q 0 1) key = none → Ends c s n stOk [1, 0, 0, 0, 0, 0, 0, 0] s.mod))) ∧
  (∀ n s, arrives (.tableEditInsert n) s.mod = true → running s.mod n 0x10 → 2 < leAt (s.mod.dax.boxes.get n).body 1 1 →
      Ends (.tableEditInsert n) s n stInvalid [] s.mod) ∧
  (∀ n s, arrives (.queueConfig n) s.mod = true → running s.mod n 0x17 →
      let q := (s.mod.dax.boxes.get n).body
      let bad := leAt q 0 2 = 0 ∨ 64 < leAt q 0 2 ∨ leAt q 2 2 ≠ 0 ∨ (s.mod.dax.boxes.get n).len ≠ 4 + 32 * leAt q 0 2
      (bad → Ends (.queueConfig n) s n stInvalid [] s.mod) ∧
      (¬ bad → s.mod.tt.act.any (·.loading) = true → Ends (.queueConfig n) s n stBusy [] s.mod))

/-- With no edit on its way, no edit of the table taken before it, no index in quarantine and no load, for a TABLE_EDIT of
one record, O the OP of the command: a delete of a present key, named by no other entry or WRED queue, leaves the
table of the shed that begins the edit without the key and with every other record; an insert of a valid record with
all it names present, into a table not full for it, and such a change of a present key, leave the record there under
its key, and every entry of another key that the shed held as it was where nothing had to move. The edit is the one in
the order, of KIND 0, written in that shed and no other; the replicas of the other sheds are as they were, and the
message is not answered yet. QUEUE_CONFIG of one valid record whose WRED profile, if it names one, is in the tables:
the node it names has the record's settings, the edit is the one in the order, for the shed of the port alone and
written there, and the message is not answered yet (04 R113, R123; 07 R257). -/
def Obligations.TableEditsCommit : Prop :=
  (∀ n c o s, (c, o) ∈ [(Instr.tableEditInsert n, 0), (Instr.tableEditChange n, 1), (Instr.tableEditDelete n, 2)] →
    arrives c s.mod = true → running s.mod n 0x10 →
    let q := (s.mod.dax.boxes.get n).body
    let tab := leAt q 0 1
    let r := sliceOf q 8 (leAt q 4 2)
    let key := keyOf tab r
    let s0 := hostBegins s.mod tab key
    let v := viewOf s.mod s0 s.mod.tt.active
    let l := s.mod.tbl.ents.get (s0, tab)
    leAt q 1 1 = o → leAt q 2 2 = 1 → sizeOk tab (leAt q 4 2) = true → leAt q 6 2 = 0 → editTurn s.mod n = true →
    (tab = 14 → versionAtLeast s.mod 3 0 = true) →
    (s.mod.dax.boxes.get n).len = 8 + leAt q 4 2 → s.mod.tt.act.any (·.loading) = false → s.mod.tbl.edits = [] →
    s.mod.tbl.quar = [] →
    (if o = 2 then (v.find tab key).isSome = true ∧ inUse v tab (leNat key) = false ∧ (tab = 12 → wredNamed s.mod (leNat key) = false)
     else (o = 1 → (v.find tab key).isSome = true) ∧ recordOk (portDefined s.mod) tab r = true ∧ refsBad v tab r = false ∧
       (tab = 14 → handleTaken v key r = false) ∧ refsThere v tab r = true ∧ fullFor tab key (storedRec tab r) l = false) →
    AnswersBuf c s fun m b => b = s.mem ∧ (m.dax.boxes.get n).st = (s.mod.dax.boxes.get n).st ∧
      (o = 2 → m.tbl.ents.get (s0, tab) = l.filter (fun e => e.key != key)) ∧
      (o ≠ 2 → (∃ e ∈ m.tbl.ents.get (s0, tab), e.key = key ∧ e.dat = storedRec tab r) ∧
        ((putRecord tab key (storedRec tab r) l).2 = [] → ∀ e ∈ l, e.key ≠ key → e ∈ m.tbl.ents.get (s0, tab))) ∧
      (∀ k, k ≠ s0 → m.tbl.ents.get (k, tab) = s.mod.tbl.ents.get (k, tab)) ∧
      ∃ e, m.tbl.edits = [e] ∧ e.kind = 0 ∧ e.tab = tab ∧ e.key = key ∧ e.mbx = some n ∧ e.done = [s0] ∧ e.at_ = s.mod.now) ∧
  (∀ n s, arrives (.queueConfig n) s.mod = true → running s.mod n 0x17 →
    let q := (s.mod.dax.boxes.get n).body
    let r := sliceOf q 4 32
    let sh := shedOfPort (leAt r 0 2)
    leAt q 0 2 = 1 → leAt q 2 2 = 0 → (s.mod.dax.boxes.get n).len = 36 → s.mod.tt.act.any (·.loading) = false → editTurn s.mod n = true →
    s.mod.tbl.edits = [] → nodeOk (portDefined s.mod) r = true → wredMissing s.mod r = false →
    AnswersBuf (.queueConfig n) s fun m b => b = s.mem ∧ (m.dax.boxes.get n).st = (s.mod.dax.boxes.get n).st ∧
      nodeOf m (leAt r 0 2) (leAt r 2 1) (leAt r 3 1) = nodeFrom r ∧ m.tbl.ents = s.mod.tbl.ents ∧
      ∃ e, m.tbl.edits = [e] ∧ e.kind = 0 ∧ e.tab = 0 ∧ e.only = some sh ∧ e.mbx = some n ∧ e.done = [sh] ∧ e.at_ = s.mod.now)

/-- REPLICA_WRITE_RECEIVE in a working shed: the first edit still to be written there is written in its replica (removed,
or its record inserted or replaced) and marked as written in that shed. EDIT_REPLICAS_COMMITTED: when every shed that
takes part has written the oldest edit, it leaves the order and the journal grows by one record for each 224 bytes of
its record; when it was the last of a TABLE_EDIT or QUEUE_CONFIG whose records were all committed, the command ends
OK. REPLICA_COMPARE with no edit on its way and more than two working sheds, one of which differs from the majority:
that replica is rewritten from the majority and REPLICA_DIVERGE is set in its shed (R113, R116, R141). QUARANTINE_END
with no edit as old, no frame admitted before or of an older epoch, and no message held: the index leaves quarantine
and nothing else changes. CURSOR_EXPIRY: a cursor with no NEXT for more than 10 s is gone from its shed; one that had
one stays. ACL_PARITY_REPAIR: the entry is no longer bad, and bit 0 of the parity log is set where the log names the
entry (R98, R125, R138). -/
def Obligations.ReplicasCommit : Prop :=
  (∀ sh e s, arrives (.replicaWriteReceive sh) s.mod = true → shedWorks s.mod sh = true →
      s.mod.tbl.edits.find? (·.needs sh) = some e → e.tab ≠ 0 →
      Answers (.replicaWriteReceive sh) s fun m => m.tbl.edits = markFirst sh s.mod.tbl.edits ∧
        m.tbl.ents = s.mod.tbl.ents.set (sh, e.tab) (if e.op = 2 then
          (s.mod.tbl.ents.get (sh, e.tab)).filter (fun o => o.key != e.key)
          else (putRecord e.tab e.key e.dat (s.mod.tbl.ents.get (sh, e.tab))).1)) ∧
  (∀ e t s, arrives .editReplicasCommitted s.mod = true → s.mod.tbl.edits = e :: t → editDone s.mod e = true →
      AnswersBuf .editReplicasCommitted s fun m b => m.tbl.edits = t ∧ m.tbl.ents = s.mod.tbl.ents ∧
        m.tbl.jNext = s.mod.tbl.jNext + max 1 ((e.dat.length + 223) / 224) ∧
        (e.mbx = none → b = s.mem ∧ m.dax.boxes = s.mod.dax.boxes) ∧
        (∀ n, e.mbx = some n → ((s.mod.dax.boxes.get n).opcode = 0x10 ∨ (s.mod.dax.boxes.get n).opcode = 0x17) → (s.mod.dax.boxes.get n).quiet = false →
          (s.mod.dax.boxes.get n).phase = 0 → (∀ k ∈ t, k.mbx ≠ some n) → replied m n stOk)) ∧
  (∀ t sh s, arrives (.replicaCompare t) s.mod = true → t ≠ 13 → s.mod.tbl.edits = [] →
      (workingSheds s.mod).filter (fun k => s.mod.tbl.ents.get (k, t) != s.mod.tbl.ents.get (majorityShed s.mod t, t)) = [sh] →
      3 ≤ (workingSheds s.mod).length →
      Answers (.replicaCompare t) s fun m =>
        m.tbl = { s.mod.tbl with ents := s.mod.tbl.ents.set (sh, t) (s.mod.tbl.ents.get (majorityShed s.mod t, t)) } ∧
        evtSet (.shed sh) evReplicaDiverge m = true ∧ m = { raised s.mod m with tbl := m.tbl }) ∧
  (∀ meter i q s, arrives (.quarantineEnd meter i) s.mod = true →
      s.mod.tbl.quar.find? (fun k => k.meter == meter && k.idx == i) = some q →
      s.mod.tbl.edits.any (fun e => e.at_ ≤ q.at_) = false →
      (heldFrames s.mod).any (fun f => f.2.admAt.any (· < q.at_) || (f.2.admAt.isSome && f.2.bank != s.mod.tt.active)) = false →
      (∀ n < 15, (s.mod.dax.boxes.get n).phase ≠ 0x200) →
      AnswersBuf (.quarantineEnd meter i) s fun m b => b = s.mem ∧ m = { s.mod with tbl := { s.mod.tbl with
        quar := s.mod.tbl.quar.filter (fun k => !(k.meter == meter && k.idx == i)) } }) ∧
  (∀ sh h s, arrives (.cursorExpiry sh h) s.mod = true →
      Answers (.cursorExpiry sh h) s fun m => m = { s.mod with tbl := { s.mod.tbl with cursors := m.tbl.cursors } } ∧
        ∀ c, c ∈ m.tbl.cursors.get sh ↔
          c ∈ s.mod.tbl.cursors.get sh ∧ (c.handle ≠ h ∨ s.mod.now ≤ c.lastAt + sec 10)) ∧
  (∀ sh sl i s, arrives (.aclParityRepair sh sl i) s.mod = true → (sh, sl, i) ∈ s.mod.tbl.aclBad →
      Answers (.aclParityRepair sh sl i) s fun m => (sh, sl, i) ∉ m.tbl.aclBad ∧
        (let w := s.mod.tbl.aclLog.get sh
         m.tbl.aclLog.get sh = if fieldOf w 31 28 = sl ∧ fieldOf w 27 16 = i then w ||| 1#32 else w) ∧
        m = { raised s.mod m with
          ecc := m.ecc, tbl := { s.mod.tbl with aclBad := m.tbl.aclBad, aclHit := m.tbl.aclHit, aclLog := m.tbl.aclLog } })

/-- LEARN_REQUEST_HANDLE takes the request at the head of its shed's queue. With no edit on its way and room, the first
learn of a key puts an L2 record of the key and its DEST in the home's table and counts; a request for the port of the
entry changes nothing but the queue; one for another port counts MOVE_FROZEN for a frozen entry and MOVE_CONTESTED for
a contested move, and changes nothing else; any other, with fewer than eight moves kept, is a station move: the
record's DEST is the new port, the request's time the port time, and it counts in MOVE_STATION (R126 to R132).
FREEZE_END after the flap hold time: the entry is no longer frozen and has no moves. HIT_REFRESH: the refresh on its
way lands, and the hit time is the later. AGING_VISIT of a dynamic entry older than its FID's limit, not synced from a
partner, with no refresh of it waiting: the home's table no longer holds it, and LKP_AGED counts. -/
def Obligations.StationsAreLearned : Prop :=
  (∀ sh l t s, arrives (.learnRequestHandle sh) s.mod = true → s.mod.tbl.learns.get sh = l :: t → shedWorks s.mod sh = true →
      s.mod.tbl.edits = [] →
      let v := viewOf s.mod sh s.mod.tt.active
      let x0 : Mod := { s.mod with tbl := { s.mod.tbl with learns := s.mod.tbl.learns.set sh t, asked := s.mod.tbl.asked.set (l.src, l.fid, l.mac) none } }
      (v.find 1 l.key = none → l.del = false → fullFor 1 l.key (learnedRec l) (s.mod.tbl.ents.get (sh, 1)) = false →
        Answers (.learnRequestHandle sh) s fun m => (∃ e ∈ m.tbl.ents.get (sh, 1), e.key = l.key ∧ e.dat = learnedRec l) ∧
          m.tbl.learns.get sh = t ∧ counted s.mod (.lkp sh 0) 1 m) ∧
      (∀ e, v.find 1 l.key = some e → isStatic e.dat = true ∨ (l.del = false ∧ leAt e.dat 8 4 = l.dest) →
        Answers (.learnRequestHandle sh) s fun m => m = x0) ∧
      (∀ e, v.find 1 l.key = some e → isStatic e.dat = false → l.del = false → leAt e.dat 8 4 ≠ l.dest →
        ((metaOf s.mod l.key).frozenAt.isSome = true → Answers (.learnRequestHandle sh) s fun m => m = tally (.lkp sh 4) x0) ∧
        ((metaOf s.mod l.key).frozenAt = none → contested (actCfg s.mod).holdUs (metaOf s.mod l.key).portTime l.time = true →
          Answers (.learnRequestHandle sh) s fun m => m = tally (.lkp sh 3) x0) ∧
        ((metaOf s.mod l.key).frozenAt = none → contested (actCfg s.mod).holdUs (metaOf s.mod l.key).portTime l.time = false →
          (metaOf s.mod l.key).moves.length < 8 →
          Answers (.learnRequestHandle sh) s fun m =>
            (∃ d ∈ m.tbl.ents.get (sh, 1), d.key = l.key ∧ d.dat = splice e.dat 8 (leBytes 4 l.dest)) ∧
            (metaOf m l.key).portTime = l.time ∧ (metaOf m l.key).moves = (metaOf s.mod l.key).moves ++ [l.time] ∧
            counted s.mod (.lkp sh 2) 1 m))) ∧
  (∀ sh fid mac t e s, arrives (.freezeEnd sh fid mac) s.mod = true → s.mod.tbl.edits = [] →
      (metaOf s.mod (l2Key fid mac.toNat)).frozenAt = some t →
      (viewOf s.mod sh s.mod.tt.active).find 1 (l2Key fid mac.toNat) = some e → homeOf s.mod fid mac = sh →
      passed s.mod.now t (sec (actCfg s.mod).flapS) = true →
      Answers (.freezeEnd sh fid mac) s fun m => (metaOf m (l2Key fid mac.toNat)).frozenAt = none ∧
        (metaOf m (l2Key fid mac.toNat)).moves = [] ∧ ∃ d ∈ m.tbl.edits, d.kind = 6 ∧ d.key = l2Key fid mac.toNat) ∧
  (∀ sh fid mac tick s, arrives (.hitRefresh sh fid mac tick) s.mod = true → (sh, fid, mac, tick) ∈ s.mod.tbl.pend →
      (s.mod.tbl.ents.get (homeOf s.mod fid mac, 1)).any (fun e => e.key == l2Key fid mac.toNat && !isStatic e.dat) = true →
      Answers (.hitRefresh sh fid mac tick) s fun m => (sh, fid, mac, tick) ∉ m.tbl.pend ∧
        (metaOf m (l2Key fid mac.toNat)).hit = laterTick (ageTick s.mod) (metaOf s.mod (l2Key fid mac.toNat)).hit tick ∧
        m = { s.mod with tbl := { s.mod.tbl with pend := m.tbl.pend, meta_ := m.tbl.meta_ } }) ∧
  (∀ sh fid mac e s, arrives (.agingVisit sh fid mac) s.mod = true → s.mod.tbl.edits = [] → homeOf s.mod fid mac = sh →
      shedWorks s.mod sh = true → (viewOf s.mod sh s.mod.tt.active).find 1 (l2Key fid mac.toNat) = some e →
      isStatic e.dat = false → (metaOf s.mod (l2Key fid mac.toNat)).synced = false →
      ((actCfg s.mod).fid fid).ageTick < (ageTick s.mod - (metaOf s.mod (l2Key fid mac.toNat)).hit).toNat →
      (∀ sh' tick, Instr.hitRefresh sh' fid mac tick ∉ s.pending) →
      Answers (.agingVisit sh fid mac) s fun m => (m.tbl.ents.get (sh, 1)).all (fun d => d.key != e.key) = true ∧
        counted s.mod (.lkp sh 6) 1 m)

/-- SEARCH of a valid key in a shed: RESULT 0 with the record of its replica, or RESULT 1 with zeros of the key's length;
a shed, table, reserved field, key or size that is none ends INVALID_ARGUMENT. NEXT with a cursor that is not open
answers RESULT 4, and one that would open a 17th cursor in its shed RESULT 5, the module being otherwise as it was.
NEXT with an open cursor of the table, or one that opens a cursor: RESULT 0 with up to MAX of the records that pass
the filter, those on the cursor's catch-up list first and then those at its place or after in position order; with all
of them the reply carries END and handle 0 and the cursor is closed, else the cursor's handle, and the cursor stands
behind the last record given. A malformed NEXT ends INVALID_ARGUMENT. JOURNAL_READ: up to MAX records from the index
asked for, or, where that is older than the oldest held, from the first that begins an edit, with WRAPPED, are written
to host memory at ADDRESS, and NEXT is the index after them; they count as read. A malformed one ends
INVALID_ARGUMENT. TICKET_READ: the ticket's record, or zeros; a malformed one ends INVALID_ARGUMENT (R138, R139, R141,
R152). -/
def Obligations.SearchesAnswer : Prop :=
  (∀ n sh s, arrives (.search n) s.mod = true → running s.mod n 0x11 →
      let q := (s.mod.dax.boxes.get n).body
      replicaOf s.mod (leAt q 1 1) = some sh →
      let bad := leAt q 0 1 = 0 ∨ 9 < leAt q 0 1 ∨ leAt q 2 2 ≠ 0 ∨ (s.mod.dax.boxes.get n).len < 4 ∨
        sizeOk (leAt q 0 1) (q.drop 4).length = false ∨ keyOnly (leAt q 0 1) (q.drop 4) = false
      (bad → Ends (.search n) s n stInvalid [] s.mod) ∧
      (¬ bad → ∀ e, (viewOf s.mod sh s.mod.tt.active).find (leAt q 0 1) (keyOf (leAt q 0 1) (q.drop 4)) = some e →
        Ends (.search n) s n stOk ([0, BitVec.ofNat 8 sh, 0, 0] ++ shownRec s.mod (leAt q 0 1) e) s.mod) ∧
      (¬ bad → (viewOf s.mod sh s.mod.tt.active).find (leAt q 0 1) (keyOf (leAt q 0 1) (q.drop 4)) = none →
        Ends (.search n) s n stOk ([1, BitVec.ofNat 8 sh, 0, 0] ++ zeros (q.drop 4).length) s.mod)) ∧
  (∀ n s, arrives (.search n) s.mod = true → running s.mod n 0x11 → 8 ≤ leAt (s.mod.dax.boxes.get n).body 1 1 →
      leAt (s.mod.dax.boxes.get n).body 1 1 ≠ 0xFF → Ends (.search n) s n stInvalid [] s.mod) ∧
  (∀ n sh s, arrives (.next n) s.mod = true → running s.mod n 0x12 →
      let q := (s.mod.dax.boxes.get n).body
      replicaOf s.mod (leAt q 1 1) = some sh →
      let bad := (s.mod.dax.boxes.get n).len ≠ 16 ∨ leAt q 0 1 = 0 ∨ 5 < leAt q 0 1 ∨ leAt q 2 1 = 0 ∨ 64 < leAt q 2 1 ∨
        8 ≤ leAt q 3 1 ∨ leAt q 0x0E 2 ≠ 0
      (bad → Ends (.next n) s n stInvalid [] s.mod) ∧
      (¬ bad → leAt q 4 4 ≠ 0 → cursorOf s.mod (leAt q 4 4) = none →
        Ends (.next n) s n stOk [4, 0, 0, 0, 0, 0, 0, 0] s.mod) ∧
      (¬ bad → leAt q 4 4 = 0 →
        16 ≤ ((s.mod.tbl.cursors.get sh).filter (fun c => decide (s.mod.now ≤ c.lastAt + sec 10))).length →
        Ends (.next n) s n stOk [5, 0, 0, 0, 0, 0, 0, 0] s.mod)) ∧
  (∀ n sh c x s, arrives (.next n) s.mod = true → running s.mod n 0x12 →
      let q := (s.mod.dax.boxes.get n).body
      let open_ := (s.mod.tbl.cursors.get sh).filter (fun c => decide (s.mod.now ≤ c.lastAt + sec 10))
      (s.mod.dax.boxes.get n).len = 16 → 0 < leAt q 0 1 → leAt q 0 1 ≤ 5 → 0 < leAt q 2 1 → leAt q 2 1 ≤ 64 →
      leAt q 3 1 < 8 → leAt q 0x0E 2 = 0 → (replicaOf s.mod (leAt q 1 1)).isSome = true →
      (if leAt q 4 4 = 0 then
        replicaOf s.mod (leAt q 1 1) = some sh ∧ open_.length < 16 ∧
        c = { handle := s.mod.tbl.nextCur, shed := sh, tab := leAt q 0 1, pos := 0, lastAt := s.mod.now } ∧
        x = { s.mod with tbl := { s.mod.tbl with
          cursors := s.mod.tbl.cursors.set sh open_,
          nextCur := if (s.mod.tbl.nextCur + 1) % 2 ^ 32 = 0 then 1 else (s.mod.tbl.nextCur + 1) % 2 ^ 32 } }
       else cursorOf s.mod (leAt q 4 4) = some (sh, c) ∧ c.tab = leAt q 0 1 ∧ x = s.mod) →
      let l := viewOf s.mod sh s.mod.tt.active c.tab
      let passes := fun (e : Bool × Ent) => passesFilter c.tab (leAt q 3 1) (leAt q 8 4) (leAt q 0x0C 2) e.2.dat
      let late := (c.catchUp.filterMap (fun k => l.find? (fun e => e.key == k))).map (fun e => (false, e))
      let ahead := (sortByPos (l.filter (fun e => c.pos ≤ e.pos))).map (fun e => (true, e))
      let all := (late ++ ahead).filter passes
      let out := all.take (leAt q 2 1)
      let given := (out.filter (fun e => !e.1)).map (fun e => e.2.key)
      let c1 : Cursor := { c with pos := out.foldl (fun a e => if e.1 then e.2.pos + 1 else a) c.pos,
                                  catchUp := c.catchUp.filter (fun k => !given.contains k), rewound := false, lastAt := s.mod.now }
      let others := (x.tbl.cursors.get sh).filter (fun k => k.handle != c.handle)
      Ends (.next n) s n stOk
        ([0, BitVec.ofNat 8 (flag 0 (decide (all.length ≤ leAt q 2 1)) + flag 1 c.rewound), BitVec.ofNat 8 out.length, 0] ++
          leBytes 4 (if all.length ≤ leAt q 2 1 then 0 else c.handle) ++ out.flatMap (fun e => shownRec s.mod c.tab e.2))
        { x with tbl := { x.tbl with
          cursors := x.tbl.cursors.set sh (if all.length ≤ leAt q 2 1 then others else others ++ [c1]) } }) ∧
  (∀ n s, arrives (.journalRead n) s.mod = true → running s.mod n 0x14 →
      let q := (s.mod.dax.boxes.get n).body
      let bad := (s.mod.dax.boxes.get n).len ≠ 16 ∨ leAt q 4 2 = 0 ∨ 4096 < leAt q 4 2 ∨ leAt q 6 2 ≠ 0 ∨ leAt q 8 8 % 64 ≠ 0
      let oldest := s.mod.tbl.jNext - s.mod.tbl.journal.length
      let start := if leAt q 0 4 < oldest then firstPart s.mod.tbl.journal oldest else leAt q 0 4
      let recs := (s.mod.tbl.journal.drop (start - oldest)).take (leAt q 4 2)
      (bad → Ends (.journalRead n) s n stInvalid [] s.mod) ∧
      (¬ bad → Ends (.journalRead n) s n stOk
        ([0, BitVec.ofNat 8 (flag 0 (decide (leAt q 0 4 < oldest)))] ++ leBytes 2 recs.length ++ leBytes 4 (start + recs.length))
        (journalSeen start (min (start + recs.length) s.mod.tbl.jNext)
          (if recs = [] then s.mod else emit (.dma (leAt q 8 8) recs.flatten) s.mod)))) ∧
  (∀ n s, arrives (.ticketRead n) s.mod = true → running s.mod n 0x15 →
      let q := (s.mod.dax.boxes.get n).body
      let bad := (s.mod.dax.boxes.get n).len ≠ 4 ∨ 8 ≤ leAt q 0 1 ∨ leAt q 1 1 ≠ 0 ∨ 2 ^ 15 ≤ leAt q 2 2
      (bad → Ends (.ticketRead n) s n stInvalid [] s.mod) ∧
      (¬ bad → ∀ k, tkt? s.mod (leAt q 0 1) (leAt q 2 2) = some k →
        Ends (.ticketRead n) s n stOk ([0, 0, 0, 0] ++ tktRecord k) s.mod) ∧
      (¬ bad → tkt? s.mod (leAt q 0 1) (leAt q 2 2) = none →
        Ends (.ticketRead n) s n stOk ([0, 0, 0, 0] ++ zeros 48) s.mod))

/-- FLUSH_BY_PORT, with no other edit on its way: a malformed message ends INVALID_ARGUMENT; with leave refused the
command ends LEAVE_REFUSED and gives its other leave back; with leave that must be waited for it waits; with leave
granted in every working shed, each dynamic entry on TARGET with a port time before now, of the FID when one is named,
and not frozen unless FLAGS says so, is gone from its home's table, each by an edit of KIND 5 of this command, which
is not answered while they are on their way; with none to remove it ends OK. TICKET_FLUSH the same for leave; begun,
it ends OK, every shed named holds no ticket and counts OTR_TKT_FLUSH, and the leave is given back. COUNTER_READ: a
malformed message ends INVALID_ARGUMENT; a valid one writes the 64-bit values of the counters asked for, frames or
octets as a free value decides (log 38), to host memory at ADDRESS, and ends OK with the time of the window.
CAPTURE_RING: a valid message ends OK and leaves the ring with its FORMAT, enabled or not as FLAGS bit 0 says; a
malformed one, FORMAT 2 below version 3.1, and FORMAT 1 with enabling on a ring that a source of a later kind names,
end INVALID_ARGUMENT (R140, R152, R178, R272, R281). -/
def Obligations.FlushesAndReads : Prop :=
  (∀ n s, arrives (.flushByPort n) s.mod = true → running s.mod n 0x13 →
      let b := s.mod.dax.boxes.get n
      let q := b.body
      let bad := b.len ≠ 8 ∨ destOk (portDefined s.mod) (leAt q 0 4) 2 = false ∨ 4 ≤ leAt q 6 1 ∨ leAt q 7 1 ≠ 0 ∨
        (bitOf (leAt q 6 1) 0 = true ∧ 2 ^ 14 ≤ leAt q 4 2)
      let ask := askLeaves n 5 (workingSheds s.mod) (setBox n (fun b => { b with began := true, leave := [] }) s.mod)
      (bad → Ends (.flushByPort n) s n stInvalid [] s.mod) ∧
      (¬ bad → ask.1 = false → Ends (.flushByPort n) s n stLeave [] ask.2) ∧
      let hit := (s.mod.tbl.ents.get (lowestShed s.mod, 1)).filter (fun e => !isStatic e.dat && leAt e.dat 8 4 == leAt q 0 4 &&
        decide ((metaOf s.mod e.key).portTime / 1000 < s.mod.now / 1000) &&
        (bitOf (leAt q 6 1) 1 || (metaOf s.mod e.key).frozenAt.isNone) && (!bitOf (leAt q 6 1) 0 || l2Fid e.key == leAt q 4 2))
      (¬ bad → ask.1 = true → (ask.2.dax.boxes.get n).leave = [] → s.mod.tbl.edits = [] →
        AnswersBuf (.flushByPort n) s fun m b =>
          (hit = [] → replied m n stOk ∧ m.tbl = s.mod.tbl) ∧
          (hit ≠ [] → b = s.mem ∧ (m.dax.boxes.get n).st = (s.mod.dax.boxes.get n).st ∧ m.tbl.edits.length = hit.length ∧
            (∀ d ∈ m.tbl.edits, d.kind = 5 ∧ d.mbx = some n) ∧
            ∀ e ∈ hit, ∀ d ∈ m.tbl.ents.get (keyHome s.mod e.key, 1), d.key ≠ e.key)) ∧
      (¬ bad → ask.1 = true → (ask.2.dax.boxes.get n).leave ≠ [] →
        AnswersBuf (.flushByPort n) s fun m b => m = ask.2 ∧ b = s.mem)) ∧
  (∀ n s, arrives (.ticketFlush n) s.mod = true → running s.mod n 0x16 →
      let b := s.mod.dax.boxes.get n
      let q := b.body
      let bad := b.len ≠ 1 ∨ (8 ≤ leAt q 0 1 ∧ leAt q 0 1 ≠ 0xFF)
      let ask := askLeaves n 6 (flushSheds s.mod (leAt q 0 1)) (setBox n (fun b => { b with began := true, leave := [] }) s.mod)
      (bad → Ends (.ticketFlush n) s n stInvalid [] s.mod) ∧
      (¬ bad → ask.1 = false → Ends (.ticketFlush n) s n stLeave [] ask.2) ∧
      (¬ bad → ask.1 = true → (ask.2.dax.boxes.get n).leave = [] →
        AnswersBuf (.ticketFlush n) s fun m _ => replied m n stOk ∧ (∀ g ∈ m.pwr.grants, g.mbx ≠ some n) ∧
          ∀ sh ∈ flushSheds s.mod (leAt q 0 1), counted s.mod (.otrT sh 6) 1 m ∧ ∀ t, tkt? m sh t = none) ∧
      (¬ bad → ask.1 = true → (ask.2.dax.boxes.get n).leave ≠ [] →
        AnswersBuf (.ticketFlush n) s fun m b => m = ask.2 ∧ b = s.mem)) ∧
  (∀ n s, arrives (.counterRead n) s.mod = true → running s.mod n 0x18 →
      let b := s.mod.dax.boxes.get n
      let q := b.body
      let bad := b.len ≠ 24 ∨ 8 ≤ leAt q 0 1 ∨ leAt q 1 3 ≠ 0 ∨ 2 ^ 20 ≤ leAt q 4 4 ∨ leAt q 8 2 = 0 ∨ 4096 < leAt q 8 2 ∨
        2 ^ 20 < leAt q 4 4 + leAt q 8 2 ∨ allZero (sliceOf q 0x0A 6) = false ∨ leAt q 0x10 8 % 8 ≠ 0
      (bad → Ends (.counterRead n) s n stInvalid [] s.mod) ∧
      (¬ bad → ∃ octets, let vals := (List.range (leAt q 8 2)).flatMap (fun i =>
          leBytes 8 (s.mod.ctrs.get (.named (leAt q 0 1) (leAt q 4 4 + i) octets)).value.toNat)
        Ends (.counterRead n) s n stOk (zeros 8 ++ leBytes 8 (s.mod.now / 1000) ++ leBytes 8 (s.mod.now / 1000))
          (emit (.dma (leAt q 0x10 8) vals) { s.mod with free := s.mod.free + 1 }))) ∧
  (∀ n s, arrives (.captureRing n) s.mod = true → running s.mod n 0x30 →
      let b := s.mod.dax.boxes.get n
      let q := b.body
      let bad := b.len ≠ 4 ∨ 16 ≤ leAt q 0 1 ∨ ¬ (leAt q 1 1 = 1 ∨ leAt q 1 1 = 2) ∨ 2 ≤ leAt q 2 1 ∨ leAt q 3 1 ≠ 0 ∨
        (leAt q 1 1 = 2 ∧ versionAtLeast s.mod 3 1 = false) ∨
        (leAt q 1 1 = 1 ∧ leAt q 2 1 = 1 ∧ ringNamedV2 s.mod (leAt q 0 1) = true)
      (bad → Ends (.captureRing n) s n stInvalid [] s.mod) ∧
      (¬ bad → Ends (.captureRing n) s n stOk []
        (setCapRing (leAt q 0 1) (fun c => { c with enable := leAt q 2 1 == 1, format := leAt q 1 1 }) s.mod)))

/-- TT_OPEN of a bank ACTIVE answers BANK_ACTIVE, of one RETIRING, VERIFYING or being activated, or while the other is
WRITING, BANK_BUSY, and changes nothing else; of any other bank it answers OK: the bank is WRITING with the LENGTH
given and nothing written, every byte of it reads 0, and outside it no byte changes but those of the reply. TT_WRITE
of a WRITING bank within its LENGTH: at the next offset it stores its bytes there and no others but the reply, and
moves the next offset past them; below it with the bytes stored there, it is answered OK and changes nothing; anywhere
else it ends INVALID_ARGUMENT. TT_CLOSE of a WRITING bank that is whole leaves it VERIFYING since now; of one that is
not, INVALID with INCOMPLETE, reported; of a bank not WRITING it ends INVALID_ARGUMENT. TT_INVALIDATE of a bank ACTIVE
answers BANK_ACTIVE, of one RETIRING, VERIFYING or being activated BANK_BUSY, of one EMPTY OK, each changing nothing
else, and of one VALID, INVALID or WRITING OK with the bank INVALID and every byte of it 0. TT_STATUS answers the
ACTIVE bank, the epoch, the banks' states, sequences and digests and the last outcome of verification (R326 to R331,
R341). -/
def Obligations.BanksAreWritten : Prop :=
  (∀ n s, arrives (.ttOpen n) s.mod = true → running s.mod n 0x20 → Safe s →
      let q := (s.mod.dax.boxes.get n).body
      let k := leAt q 0 1
      (s.mod.dax.boxes.get n).len = 16 → k ≤ 1 → leAt q 1 7 = 0 → 0x500 ≤ leAt q 8 8 → leAt q 8 8 ≤ 0x20000000 →
      ((s.mod.tt.banks.get k).st = .active → Ends (.ttOpen n) s n stOk [0x10] s.mod) ∧
      ((s.mod.tt.banks.get k).st = .retiring ∨ (s.mod.tt.banks.get k).st = .verifying →
        Ends (.ttOpen n) s n stOk [0x11] s.mod) ∧
      ((s.mod.tt.banks.get k).st ∈ [.empty, .writing, .valid, .invalid] → activating s.mod k = true ∨
        (s.mod.tt.banks.get (1 - k)).st = .writing → Ends (.ttOpen n) s n stOk [0x11] s.mod) ∧
      ((s.mod.tt.banks.get k).st ∈ [.empty, .writing, .valid, .invalid] → activating s.mod k = false →
        (s.mod.tt.banks.get (1 - k)).st ≠ .writing →
        AnswersBuf (.ttOpen n) s fun m b => replied m n stOk ∧
          m.tt.banks.get k = { st := .writing, len := leAt q 8 8, next := 0, since := s.mod.now } ∧
          m.tt.banks.get (1 - k) = s.mod.tt.banks.get (1 - k) ∧
          (∀ a, bankBase k ≤ a → a < bankBase (k + 1) → Memory.read b a = 0#8) ∧
          (∀ a, ¬ (bankBase k ≤ a ∧ a < bankBase (k + 1)) → ¬ (mbxBase n ≤ a ∧ a < mbxBase n + 17) →
            Memory.read b a = Memory.read s.mem a))) ∧
  (∀ n s, arrives (.ttWrite n) s.mod = true → running s.mod n 0x21 → Safe s →
      let q := (s.mod.dax.boxes.get n).body
      let k := leAt q 0 1
      let size := leAt q 2 2
      let bank := s.mod.tt.banks.get k
      k ≤ 1 → leAt q 1 1 = 0 → 8 ≤ size → size ≤ 3584 → (s.mod.dax.boxes.get n).len = 8 + size → bank.st = .writing →
      leAt q 4 4 + size ≤ bank.len → bank.len ≤ 0x20000000 → size % 8 = 0 ∨ leAt q 4 4 + size = bank.len →
      let same := leAt q 4 4 + size ≤ bank.next ∧ Memory.reads s.mem (bankBase k + leAt q 4 4) size = sliceOf q 8 size
      (leAt q 4 4 < bank.next → same → Ends (.ttWrite n) s n stOk [0] s.mod) ∧
      (leAt q 4 4 ≠ bank.next → ¬ (leAt q 4 4 < bank.next ∧ same) → Ends (.ttWrite n) s n stInvalid [] s.mod) ∧
      (leAt q 4 4 = bank.next → AnswersBuf (.ttWrite n) s fun m b => replied m n stOk ∧
        m.tt.banks.get k = { bank with next := bank.next + size } ∧
        (∀ i < size, Memory.read b (bankBase k + bank.next + i) = (sliceOf q 8 size).getD i 0) ∧
        (∀ a, ¬ (bankBase k + bank.next ≤ a ∧ a < bankBase k + bank.next + size) → ¬ (mbxBase n ≤ a ∧ a < mbxBase n + 17) →
          Memory.read b a = Memory.read s.mem a))) ∧
  (∀ n s, arrives (.ttClose n) s.mod = true → running s.mod n 0x22 →
      let k := leAt (s.mod.dax.boxes.get n).body 0 1
      let bank := s.mod.tt.banks.get k
      (s.mod.dax.boxes.get n).len = 1 → k ≤ 1 →
      (bank.st ≠ .writing → Ends (.ttClose n) s n stInvalid [] s.mod) ∧
      (bank.st = .writing → bank.len ≤ bank.next → Ends (.ttClose n) s n stOk [0]
        (setBank k (fun o => { o with st := .verifying, since := s.mod.now }) s.mod)) ∧
      (bank.st = .writing → bank.next < bank.len → AnswersBuf (.ttClose n) s fun m _ => replied m n stOk ∧ (m.tt.banks.get k).st = .invalid ∧
        evtSet .yard evVerified m = true ∧ m.tt.verifyLog = reg [flag 31 (k == 1), at_ 24 7 ttIncomplete])) ∧
  (∀ n s, arrives (.ttInvalidate n) s.mod = true → running s.mod n 0x24 → Safe s →
      let k := leAt (s.mod.dax.boxes.get n).body 0 1
      (s.mod.dax.boxes.get n).len = 1 → k ≤ 1 →
      ((s.mod.tt.banks.get k).st = .active → Ends (.ttInvalidate n) s n stOk [0x10] s.mod) ∧
      ((s.mod.tt.banks.get k).st = .empty → Ends (.ttInvalidate n) s n stOk [0] s.mod) ∧
      ((s.mod.tt.banks.get k).st ∈ [.retiring, .verifying] ∨ ((s.mod.tt.banks.get k).st ∈ [.valid, .invalid, .writing] ∧
        activating s.mod k = true) → Ends (.ttInvalidate n) s n stOk [0x11] s.mod) ∧
      ((s.mod.tt.banks.get k).st ∈ [.valid, .invalid, .writing] → activating s.mod k = false →
        AnswersBuf (.ttInvalidate n) s fun m b => replied m n stOk ∧ m.tt.banks.get k = { st := .invalid } ∧
          ∀ a, bankBase k ≤ a → a < bankBase (k + 1) → Memory.read b a = 0#8)) ∧
  (∀ n s, arrives (.ttStatus n) s.mod = true → running s.mod n 0x25 → (s.mod.dax.boxes.get n).len = 0 →
      Ends (.ttStatus n) s n stOk ([0, (match s.mod.tt.active with
          | some k => BitVec.ofNat 8 k
          | none => 0xFF), BitVec.ofNat 8 (s.mod.tt.epoch.toNat + flag 2 (draining s.mod)),
          BitVec.ofNat 8 ((s.mod.tt.banks.get 0).st.code + 16 * (s.mod.tt.banks.get 1).st.code)]
        ++ leBytes 4 (bankSeq s.mod 0).toNat ++ leBytes 4 (bankSeq s.mod 1).toNat
        ++ leBytes 32 (bankDigest s.mod 0).toNat ++ leBytes 32 (bankDigest s.mod 1).toNat
        ++ leBytes 4 s.mod.tt.verifyLog.toNat) s.mod)

/-- TT_ACTIVATE of a well-formed message ends WRONG_MODE outside Standalone, Paired and Quiesced, and BUSY while an
activation is in progress or held. While a bank is RETIRING it waits. Else it answers NOT_VALID for a bank that is not
VALID, MISMATCH where SEQUENCE or digest are not the bank's, and STALE where the ACTIVE bank's sequence is not older,
changing nothing else. Else leave for a bulk rewrite is asked in every working shed: granted in all, the loads begin,
the activation of the bank being in progress for this mailbox; queued in one, the activation is in progress and waits;
refused, the command ends LEAVE_REFUSED, ACTIVATE_FAIL is set, and no activation is in progress. SHED_LOAD_DONE with
the bank's digest in a working shed that has its grant: the shed has confirmed, and its grant is given back; with
another digest, the first time, it loads again; the second time SHED_DIVERGE and ACTIVATE_FAIL are set and no
activation is in progress, the ACTIVE bank staying (R332, R333). -/
def Obligations.ActivationsAreAsked : Prop :=
  (∀ n s, arrives (.ttActivate n) s.mod = true → running s.mod n 0x23 →
      let q := (s.mod.dax.boxes.get n).body
      let k := leAt q 0 1
      let bank := s.mod.tt.banks.get k
      let stale := s.mod.tt.active.any (fun o => !serialNewer bank.seq (s.mod.tt.banks.get o).seq)
      let x0 := setBox n (fun b => { b with began := true, phase := 0, leave := [] }) (setTt (fun t => { t with act := some { bank := k, mbx := some n } }) s.mod)
      let ask := askLeaves n 5 (workingSheds s.mod) x0
      (s.mod.dax.boxes.get n).len = 40 → k ≤ 1 → leAt q 1 3 = 0 →
      (s.mod.mode.mode ∉ [.standalone, .paired, .quiesced] → Ends (.ttActivate n) s n stWrongMode [] s.mod) ∧
      (s.mod.mode.mode ∈ [.standalone, .paired, .quiesced] →
        (activationOn s.mod = true → Ends (.ttActivate n) s n stBusy [] s.mod) ∧
        (activationOn s.mod = false → draining s.mod = true → AnswersBuf (.ttActivate n) s fun m b => b = s.mem ∧
          m = setBox n (fun b => { b with began := true, phase := 0x300 }) s.mod) ∧
        (activationOn s.mod = false → draining s.mod = false →
          (bank.st ≠ .valid → Ends (.ttActivate n) s n stOk (activateReply ttNotValid 0 0) s.mod) ∧
          (bank.st = .valid → bank.seq ≠ BitVec.ofNat 32 (leAt q 4 4) ∨ bank.digest ≠ digestOf (sliceOf q 8 32) →
            Ends (.ttActivate n) s n stOk (activateReply ttMismatch 0 0) s.mod) ∧
          (bank.st = .valid → bank.seq = BitVec.ofNat 32 (leAt q 4 4) → bank.digest = digestOf (sliceOf q 8 32) →
            (stale = true → Ends (.ttActivate n) s n stOk (activateReply ttStale 0 0) s.mod) ∧
            (stale = false → ask.1 = true → (ask.2.dax.boxes.get n).leave = [] →
              AnswersBuf (.ttActivate n) s fun m b => b = s.mem ∧
                m = setTt (fun t => { t with act := some { bank := k, mbx := some n, loading := true } }) ask.2) ∧
            (stale = false → ask.1 = true → (ask.2.dax.boxes.get n).leave ≠ [] →
              AnswersBuf (.ttActivate n) s fun m b => b = s.mem ∧ m = ask.2) ∧
            (stale = false → ask.1 = false → AnswersBuf (.ttActivate n) s fun m _ => replied m n stLeave ∧ m.tt.act = none ∧
              m.tt.banks = s.mod.tt.banks ∧ evtSet .yard evActivateFail m = true))))) ∧
  (∀ sh d a s, arrives (.shedLoadDone sh d) s.mod = true → (s.mod.trb.get sh).st ≠ .returning → s.mod.tt.act = some a →
      a.loading = true → shedWorks s.mod sh = true → a.okAt.get sh = false → loadGranted s.mod sh a.mbx = true →
      (d = (s.mod.tt.banks.get a.bank).digest → AnswersBuf (.shedLoadDone sh d) s fun m b => b = s.mem ∧
        (∃ a', m.tt.act = some a' ∧ a'.bank = a.bank ∧ a'.okAt = a.okAt.set sh true) ∧ loadGranted m sh a.mbx = false) ∧
      (d ≠ (s.mod.tt.banks.get a.bank).digest → a.loads.get sh = 0 → AnswersBuf (.shedLoadDone sh d) s fun m b =>
        b = s.mem ∧ m = setTt (fun t => { t with act := some { a with loads := a.loads.set sh 1 } }) s.mod) ∧
      (d ≠ (s.mod.tt.banks.get a.bank).digest → a.loads.get sh ≠ 0 → AnswersBuf (.shedLoadDone sh d) s fun m _ =>
        m.tt.act = none ∧ m.tt.active = s.mod.tt.active ∧ evtSet .yard evShedDiverge m = true ∧
        evtSet .yard evActivateFail m = true))

/-- TIMETABLE_FLIP at or after T of an activation whose T is chosen: the named bank is ACTIVE and the only one activated,
the bank that was ACTIVE is RETIRING, no activation is in progress, the journal starts anew, T is kept, ACTIVATED is
set, and the epoch tag advances by 1 modulo 4, which is R6, or is 0 for the activation of a start. DRAIN_END with no
frame of the old tag inside, or 5 ms after T: the RETIRING bank is VALID and no drain is under way; a drain ended by
time sets DRAIN_TIMEOUT (10 R333, R336, R337). -/
def Obligations.TimetablesFlip : Prop :=
  (∀ a t s, arrives .timetableFlip s.mod = true → s.mod.tt.act = some a → a.flipT = some t → t ≤ s.mod.now / 1000 →
      AnswersBuf .timetableFlip s fun m _ => m.tt.active = some a.bank ∧ (m.tt.banks.get a.bank).st = .active ∧
        (∀ o, s.mod.tt.active = some o → o ≠ a.bank → (m.tt.banks.get o).st = .retiring) ∧ m.tt.act = none ∧
        m.tt.flipNs = BitVec.ofNat 64 t ∧
        (a.mbx.isSome = true → m.tt.epoch.toNat = (s.mod.tt.epoch.toNat + 1) % 4) ∧ (a.mbx = none → m.tt.epoch = 0) ∧
        m.tbl.journal = [] ∧ m.tbl.jNext = 0 ∧ evtSet .yard evActivated m = true) ∧
  (∀ t s, arrives .drainEnd s.mod = true → s.mod.tt.retireT = some t →
      oldFrames s.mod = [] ∨ passed s.mod.now t (ms 5) = true →
      AnswersBuf .drainEnd s fun m _ => m.tt.retireT = none ∧
        (∀ k < 2, (s.mod.tt.banks.get k).st = .retiring → (m.tt.banks.get k).st = .valid) ∧
        m.tt.drainTimeout = !decide (oldFrames s.mod = []) ∧
        (oldFrames s.mod ≠ [] → evtSet .yard evDrainTimeout m = true))

/-- VERIFICATION_DONE of a VERIFYING bank outside a start: VERIFIED is set and the bank is VALID when every check passes
on its image, INVALID otherwise, with the result, section and item in TTB_VERIFY_LOG; a VALID bank has the image's
SEQUENCE. SHED_DIGEST_CHECK with a bank ACTIVE, Foltin running and 1 s after the last: the time is noted, and
SHED_DIVERGE is set when a working shed's digest is not the ACTIVE bank's; else nothing else changes.
PARTNER_MISMATCH, Paired, the ACTIVE pairs having differed for more than 1 s, neither module activating and not raised
since: PARTNER_MISMATCH is set, and counts as raised. START_ACTIVATION at stage 9 with the verifications done: with no
VALID bank NONE_VALID is set and the module enters Quiesced; with one chosen, no hold-up, room in the leave queue for
every working shed, none in thermal hold, and the budget enough for one load beside what runs, leave is granted or
waits in each: its activation is in progress at stage 10, and SEQ_UNORDERED is set where the sequences gave no order
(R329, R338 to R340). -/
def Obligations.TimetablesAreChecked : Prop :=
  (∀ k s, arrives (.verificationDone k) s.mod = true → s.mod.tt.startVerify = [] → (s.mod.tt.banks.get k).st = .verifying →
      AnswersBuf (.verificationDone k) s fun m b => b = s.mem ∧
        (let v := verifyImage s.mod (bankImage s.mod s.mem k) (s.mod.tt.banks.get k).len false
         (m.tt.banks.get k).st = (if v.1.1 = ttOk then .valid else .invalid) ∧
         (v.1.1 = ttOk → (m.tt.banks.get k).seq = BitVec.ofNat 32 (leAt (bankImage s.mod s.mem k) 8 4) ∧
           (m.tt.banks.get k).sigChecked = v.2) ∧
         m.tt.verifyLog = reg [flag 31 (k == 1), at_ 24 7 v.1.1, at_ 16 8 v.1.2.1, min v.1.2.2 0xFFFF]) ∧
        evtSet .yard evVerified m = true) ∧
  (∀ k s, arrives .shedDigestCheck s.mod = true → s.mod.tt.active = some k → s.mod.dax.up = true →
      (∀ t ∈ s.mod.tt.digestAt, passed s.mod.now t (sec 1) = true) →
      Answers .shedDigestCheck s fun m =>
        ((List.range 8).any (fun sh => shedWorks s.mod sh && (s.mod.tt.sheds.get sh).digest != (s.mod.tt.banks.get k).digest) = true →
          evtSet .yard evShedDiverge m = true ∧ m.tt.digestAt = some s.mod.now) ∧
        ((List.range 8).any (fun sh => shedWorks s.mod sh && (s.mod.tt.sheds.get sh).digest != (s.mod.tt.banks.get k).digest) = false →
          m = setTt (fun t => { t with digestAt := some s.mod.now }) s.mod)) ∧
  (∀ t s, arrives .partnerMismatch s.mod = true → s.mod.cpl.mismatch = some t → s.mod.mode.mode = .paired → t + sec 1 < s.mod.now →
      s.mod.cpl.mmRaised = false → activationOn s.mod = false → s.mod.cpl.partner.any (·.activating) = false →
      Answers .partnerMismatch s fun m => evtSet .yard evPartnerMismatch m = true ∧ m.cpl = { s.mod.cpl with mmRaised := true }) ∧
  (∀ s, arrives .startActivation s.mod = true → s.mod.mode.mode = .harnessing → s.mod.pwr.stage = 9 → s.mod.tt.startDone = true →
      s.mod.tt.act = none →
      (startChoice s.mod = none → AnswersBuf .startActivation s fun m b => b = s.mem ∧ m.mode.mode = .quiesced ∧
        evtSet .yard evNoneValid m = true) ∧
      (∀ k u, startChoice s.mod = some (k, u) → s.mod.pwr.holdup = none →
        s.mod.pwr.queue.length + (workingSheds s.mod).length ≤ 32 →
        (∀ sh ∈ workingSheds s.mod, (s.mod.pwr.therm.get sh).state < 2) → committedRun s.mod + leaveEst 5 ≤ budget s.mod →
        AnswersBuf .startActivation s fun m b => b = s.mem ∧ m.mode = s.mod.mode ∧ m.pwr.stage = 10 ∧
          m.tt.act = some { bank := k, mbx := none, loading := true } ∧ m.tt.banks = s.mod.tt.banks ∧
          (u = true → evtSet .yard evSeqUnordered m = true)))

/-- The operation every Daxdy command ends with, on a module and addressed buffers in canonical form. Where the reply goes
to the host: STATE reads DONE, STATUS and SEQ as given and kept for a repeat, the 16 bytes of header with SEQ, LENGTH
and STATUS and then the body stand at the start of the mailbox's message buffer, no other byte of the addressed
buffers changes and their form stays canonical, no other mailbox changes, and with the link up and the vector unmasked
its message leaves the block. Where a host reset has discarded the reply, no byte changes and STATE returns to IDLE
(R381 to R385, R393). -/
def Obligations.CommandsEndWithAReply : Prop :=
  ∀ (n st : Nat) (body : List Byte) (x : Mod) (b : List Host.Cell), Memory.wf b = true →
    ((x.dax.boxes.get n).quiet = false →
      let y := complete n st body (x, b)
      let bytes := replyHeader x.dax.version (x.dax.boxes.get n).opcode (x.dax.boxes.get n).reqSeq body.length st 0 ++ body
      replied y.1 n st ∧ (y.1.dax.boxes.get n).seq = (x.dax.boxes.get n).reqSeq ∧
      (y.1.dax.boxes.get n).stored = some ((x.dax.boxes.get n).reqSeq, st, bytes) ∧ bytes.length = 16 + body.length ∧
      (∀ i < bytes.length, Memory.read y.2 (mbxBase n + i) = bytes.getD i 0) ∧
      (∀ a, ¬ (mbxBase n ≤ a ∧ a < mbxBase n + bytes.length) → Memory.read y.2 a = Memory.read b a) ∧ Memory.wf y.2 = true ∧
      (∀ k, k ≠ n → y.1.dax.boxes.get k = x.dax.boxes.get k) ∧
      (x.host.up = true → x.host.vecMasked.get (vecOf x n) = false → x.host.funcMask = false →
        y.1.out = (x.now, .msix (vecOf x n)) :: x.out)) ∧
    ((x.dax.boxes.get n).quiet = true →
      (complete n st body (x, b)).2 = b ∧ ((complete n st body (x, b)).1.dax.boxes.get n).st = .idle ∧
      ∀ k, k ≠ n → (complete n st body (x, b)).1.dax.boxes.get k = x.dax.boxes.get k)

/-- DOORBELL_RING on mailbox 0 to 14 with no command taken makes a request pending, and with one taken sets DOORBELL_BUSY
and leaves the mailboxes as they were; each starts the host watchdog's count again unless WDOG_MS is 0. COMMAND_TAKEN
of a pending request with Foltin running: rings of its cycle on several mailboxes are all taken, and the pointer moves
past the first; alone, a SEQ that is not the stored one is a new command, TAKEN, with its deadline by its class; the
stored SEQ is answered with the stored reply. COMMAND_START of a taken command that may run: another version than the
session's ends VERSION, an opcode the version has not UNKNOWN_OPCODE, a header field out of range INVALID_ARGUMENT, a
class C command beside another BUSY, each with nothing else done, and else STATE is RUNNING. COMMAND_DEADLINE past the
deadline of a command whose reply goes to the host: STATE is EXTENDED with STATUS 4, and the new deadline is at most
the class's own away, as the reply written tells the host (R381 to R389). -/
def Obligations.RequestsAreTakenAndStart : Prop :=
  (∀ n s, arrives (.doorbellRing n) s.mod = true → n < 15 →
      ((s.mod.dax.boxes.get n).shown = .idle ∨ (s.mod.dax.boxes.get n).shown = .done →
        Answers (.doorbellRing n) s fun m => (m.dax.boxes.get n).ring = true ∧
          m.dax.wdogFrom = (if s.mod.dax.wdogMs = 0 then s.mod.dax.wdogFrom else some s.mod.now) ∧
          m = { s.mod with dax := { s.mod.dax with
            boxes := s.mod.dax.boxes.upd n (fun b => { b with ring := true, rung := if b.ring then b.rung else s.mod.now }), wdogFrom := m.dax.wdogFrom } }) ∧
      ((s.mod.dax.boxes.get n).shown ∈ [.taken, .running, .extended] →
        Answers (.doorbellRing n) s fun m => evtSet .yard evDoorbellBusy m = true ∧ m.dax.boxes = s.mod.dax.boxes ∧
          m.dax.wdogFrom = (if s.mod.dax.wdogMs = 0 then s.mod.dax.wdogFrom else some s.mod.now))) ∧
  (∀ n s, arrives (.commandTaken n) s.mod = true → s.mod.dax.up = true → (s.mod.dax.boxes.get n).ring = true →
      (s.mod.dax.boxes.get n).busy = false → ringsWith s.mod n = [n] →
      let req := Memory.reads s.mem (mbxBase n) 3968
      let seq := BitVec.ofNat 32 (leAt req 4 4)
      ((∀ k ∈ (s.mod.dax.boxes.get n).stored, k.1 ≠ seq) →
        AnswersBuf (.commandTaken n) s fun m b => b = s.mem ∧ (m.dax.boxes.get n).st = .taken ∧ (m.dax.boxes.get n).seq = seq ∧
          (m.dax.boxes.get n).req = req ∧ (m.dax.boxes.get n).ring = false ∧
          (m.dax.boxes.get n).due = s.mod.now + ms (classMs (opcodeClass (leAt req 2 2)))) ∧
      (∀ st bytes, (s.mod.dax.boxes.get n).stored = some (seq, st, bytes) →
        AnswersBuf (.commandTaken n) s fun m b => b = Memory.writes s.mem (mbxBase n) bytes ∧ replied m n st ∧
          (m.dax.boxes.get n).seq = seq ∧ (m.dax.boxes.get n).ring = false)) ∧
  (∀ n k rest s, arrives (.commandTaken n) s.mod = true → s.mod.dax.up = true → (s.mod.dax.boxes.get n).ring = true →
      (s.mod.dax.boxes.get n).busy = false → ringsWith s.mod n = k :: rest → rest ≠ [] →
      AnswersBuf (.commandTaken n) s fun m _ => m.dax.boxPtr = (k + 1) % 15 ∧
        ∀ j ∈ k :: rest, (m.dax.boxes.get j).ring = false) ∧
  (∀ n s, arrives (.commandStart n) s.mod = true → s.mod.dax.up = true → (s.mod.dax.boxes.get n).st = .taken →
      mayStart s.mod n = true →
      let b := s.mod.dax.boxes.get n
      let v := (leAt b.req 1 1, leAt b.req 0 1)
      let bad := 3952 < b.len ∨ leAt b.req 10 1 ≠ 0 ∨ leAt b.req 11 1 ≠ 0 ∨ leAt b.req 12 4 ≠ 0
      let known := opcodeIn (s.mod.dax.version.getD (3, 2)) b.opcode
      (b.opcode ≠ 1 → s.mod.dax.version ≠ some v → Ends (.commandStart n) s n stVersion [] s.mod) ∧
      (b.opcode = 1 ∨ s.mod.dax.version = some v →
        (known = false → Ends (.commandStart n) s n stUnknown [] s.mod) ∧
        (known = true → bad → Ends (.commandStart n) s n stInvalid [] s.mod) ∧
        (known = true → ¬ bad → opcodeClass b.opcode = 2 → classCRuns s.mod n = true →
          Ends (.commandStart n) s n stBusy [] s.mod) ∧
        (known = true → ¬ bad → opcodeClass b.opcode ≠ 2 ∨ classCRuns s.mod n = false →
          AnswersBuf (.commandStart n) s fun m b => b = s.mem ∧
            m = setBox n (fun b => { b with st := .running }) s.mod))) ∧
  (∀ n s, arrives (.commandDeadline n) s.mod = true → s.mod.dax.up = true → (s.mod.dax.boxes.get n).busy = true →
      (s.mod.dax.boxes.get n).due < s.mod.now → (s.mod.dax.boxes.get n).quiet = false →
      AnswersBuf (.commandDeadline n) s fun m b => (m.dax.boxes.get n).st = .extended ∧ (m.dax.boxes.get n).status = stExtended ∧
        ∃ est, est ≤ classMs (opcodeClass (s.mod.dax.boxes.get n).opcode) ∧ (m.dax.boxes.get n).due = s.mod.now + ms est ∧
          b = Memory.writes s.mem (mbxBase n) (replyHeader s.mod.dax.version (s.mod.dax.boxes.get n).opcode
            (s.mod.dax.boxes.get n).reqSeq 0 stExtended est))

/-- MAILBOX_BUFFER_WRITE within a message buffer whose mailbox has no command TAKEN or RUNNING stores its bytes, those at
and beyond the end of the buffer left out; every other byte reads as before, and the module is as it was. On a mailbox
whose command is TAKEN or RUNNING no byte changes and BUFFER_WRITE is set (R380, R381). -/
def Obligations.BufferWritesAreStored : Prop :=
  ∀ off bytes s, arrives (.mailboxBufferWrite off bytes) s.mod = true → Safe s →
    ((s.mod.dax.boxes.get (off / 0x1000)).shown ∉ [.taken, .running] →
      AnswersBuf (.mailboxBufferWrite off bytes) s fun m b => m = s.mod ∧
        (∀ i < min bytes.length (0xF80 - off % 0x1000), Memory.read b (off + i) = bytes.getD i 0) ∧
        (∀ a, ¬ (off ≤ a ∧ a < off + min bytes.length (0xF80 - off % 0x1000)) → Memory.read b a = Memory.read s.mem a)) ∧
    ((s.mod.dax.boxes.get (off / 0x1000)).shown ∈ [.taken, .running] →
      AnswersBuf (.mailboxBufferWrite off bytes) s fun m b => b = s.mem ∧ evtSet .yard evBufferWrite m = true ∧
        m = raised s.mod m)

/-- NOTIFICATION_POST in a session with none posted: the oldest waiting notification, or the one that tells how many were
lost, is posted with the next sequence number in mailbox 15, whose STATE is DONE. NOTIFICATION_ACK, and a ring on
mailbox 15, with one posted: none is posted, the one shown leaves the queue unless it told of a loss, STATE is IDLE,
and the watchdog counts again. HOST_SILENT once WDOG_MS has passed since the last ring, with no ring at that instant:
HOST_SILENT is set and the watchdog waits for a ring. HOST_WATCHDOG_WRITE: WDOG_MS is the field written, at most
60,000, 0 stops the count, another value starts it. HELLO: a malformed one ends INVALID_ARGUMENT, one without a common
version ends VERSION, one beside a command of another mailbox without FORCE ends BUSY, changing nothing else; any
other opens a session of the negotiated version with the next number, which is not 0, and no reply stored. MODULE_INFO
answers versions, boards, sheds and mode (R386, R391 to R394, R400). -/
def Obligations.NotificationsAndSessions : Prop :=
  (∀ s, arrives .notificationPost s.mod = true → s.mod.dax.up = true → s.mod.dax.posted = false → s.mod.dax.version.isSome = true →
      0 < s.mod.dax.notifLost ∨ s.mod.dax.notifs ≠ [] →
      AnswersBuf .notificationPost s fun m b => m.dax.posted = true ∧ m.dax.notifSeq = s.mod.dax.notifSeq + 1 ∧
        replied m 15 0 ∧ (m.dax.boxes.get 15).seq = s.mod.dax.notifSeq + 1 ∧ m.dax.notifs = s.mod.dax.notifs ∧
        m.dax.postedLost = (if 0 < s.mod.dax.notifLost then s.mod.dax.notifLost else s.mod.dax.postedLost) ∧
        b = Memory.writes s.mem (mbxBase 15) (notifBytes s.mod (s.mod.dax.notifSeq + 1)
          (if 0 < s.mod.dax.notifLost then lostNote s.mod else s.mod.dax.notifs.headD (lostNote s.mod)))) ∧
  (∀ s, arrives .notificationAck s.mod = true → s.mod.dax.posted = true →
      Answers .notificationAck s fun m => m.dax.posted = false ∧ (m.dax.boxes.get 15).st = .idle ∧
        m.dax.notifs = (if s.mod.dax.postedLost = 0 then s.mod.dax.notifs.drop 1 else s.mod.dax.notifs) ∧
        m.dax.notifLost = s.mod.dax.notifLost - s.mod.dax.postedLost ∧
        (s.mod.dax.wdogMs ≠ 0 → m.dax.wdogFrom = some s.mod.now)) ∧
  (∀ s, arrives (.doorbellRing 15) s.mod = true → s.mod.dax.posted = true →
      Answers (.doorbellRing 15) s fun m => m.dax.posted = false ∧ (m.dax.boxes.get 15).st = .idle ∧
        m.dax.notifs = (if s.mod.dax.postedLost = 0 then s.mod.dax.notifs.drop 1 else s.mod.dax.notifs) ∧
        m.dax.notifLost = s.mod.dax.notifLost - s.mod.dax.postedLost ∧
        (s.mod.dax.wdogMs ≠ 0 → m.dax.wdogFrom = some s.mod.now)) ∧
  (∀ t s, arrives .hostSilent s.mod = true → ringComes s.pending = false → s.mod.dax.wdogFrom = some t → s.mod.dax.wdogMs ≠ 0 →
      passed s.mod.now t (ms s.mod.dax.wdogMs) = true →
      Answers .hostSilent s fun m => evtSet .yard evHostSilent m = true ∧ m.dax.wdogFrom = none ∧ m.dax.wdogMs = s.mod.dax.wdogMs) ∧
  (∀ v s, arrives (.hostWatchdogWrite v) s.mod = true →
      Answers (.hostWatchdogWrite v) s fun m => m.dax.wdogMs = min (fieldOf v 31 16) 60000 ∧
        (fieldOf v 31 16 = 0 → m.dax.wdogFrom = none) ∧
        (m.dax.wdogMs ≠ 0 → m.dax.wdogMs ≠ s.mod.dax.wdogMs → m.dax.wdogFrom = some s.mod.now) ∧
        m = { s.mod with dax := { s.mod.dax with wdogMs := m.dax.wdogMs, wdogFrom := m.dax.wdogFrom } }) ∧
  (∀ n s, arrives (.hello n) s.mod = true → running s.mod n 1 →
      let q := (s.mod.dax.boxes.get n).body
      let bad := (s.mod.dax.boxes.get n).len ≠ 8 ∨ 1 < leAt q 3 1 ∨ leAt q 4 4 ≠ 0
      let others := (List.range 15).any (fun k => k != n && (s.mod.dax.boxes.get k).busy && !(s.mod.dax.boxes.get k).quiet)
      (bad → Ends (.hello n) s n stInvalid [] s.mod) ∧
      (¬ bad → negotiate (leAt q 1 1) (leAt q 0 1) (leAt q 2 1) = none →
        Ends (.hello n) s n stVersion (helloReply (0, 0) 0) s.mod) ∧
      (¬ bad → ∀ v, negotiate (leAt q 1 1) (leAt q 0 1) (leAt q 2 1) = some v →
        (others = true → leAt q 3 1 = 0 → Ends (.hello n) s n stBusy [] s.mod) ∧
        (others = false ∨ leAt q 3 1 = 1 → AnswersBuf (.hello n) s fun m _ => replied m n stOk ∧ m.dax.version = some v ∧
          m.dax.session = nextSession s.mod.dax.sessions ∧ m.dax.session ≠ 0 ∧ (m.dax.boxes.get n).stored = none))) ∧
  (∀ n s, arrives (.moduleInfo n) s.mod = true → running s.mod n 2 →
      ((s.mod.dax.boxes.get n).len ≠ 0 → Ends (.moduleInfo n) s n stInvalid [] s.mod) ∧
      ((s.mod.dax.boxes.get n).len = 0 → Ends (.moduleInfo n) s n stOk (moduleInfoBody s.mod) s.mod))

/-- HEARTBEAT_SEND due on a path (link, pairing enabled, 1 ms since the last): a heartbeat with the next sequence number
leaves the block. HEARTBEAT_RECEIVE of a valid one: the path is up, its time and sequence are noted, and the partner
is as it says. An invalid one is counted and nothing of the partner or the path is taken from it. PATH_LOST after 3 ms
without a valid one, none arriving at that instant: the path is down and PATH_LOST is set; Paired, with the other path
down too or the current lease ended in this module's view, PARTNER_LOST is set and the module is in Standalone unless
it drains toward Quiesced; else nothing else changes but the heartbeats counted in a row. DYING_GASP on a path with
its link sets PARTNER_DYING (R351 to R355, R372). -/
def Obligations.HeartbeatsAreExchanged : Prop :=
  (∀ p s, arrives (.heartbeatSend p) s.mod = true → heartbeatDue s.mod p = true →
      Answers (.heartbeatSend p) s fun m => (m.cpl.paths.get p).txSeq = (s.mod.cpl.paths.get p).txSeq + 1 ∧
        (m.cpl.paths.get p).txLast = some s.mod.now ∧
        m.out = (s.mod.now, .heartbeat p (heartbeatBytes s.mod p)) :: s.mod.out ∧
        m = { s.mod with out := m.out, cpl := { s.mod.cpl with paths := m.cpl.paths } }) ∧
  (∀ p l s, arrives (.heartbeatReceive p l) s.mod = true → couplerRuns s.mod = true → (pairOf_ s.mod).enabled = true →
      pathLinked s.mod p = true → heartbeatValid s.mod p l = true →
      Answers (.heartbeatReceive p l) s fun m => (m.cpl.paths.get p).up = true ∧ (m.cpl.paths.get p).lastRx = some s.mod.now ∧
        (m.cpl.paths.get p).rxSeq = some (BitVec.ofNat 32 (leAt l 4 4)) ∧ m.cpl.partner = some (partnerOf l) ∧ m.cpl.refusal = 0) ∧
  (∀ p l s, arrives (.heartbeatReceive p l) s.mod = true → couplerRuns s.mod = true → (pairOf_ s.mod).enabled = true →
      pathLinked s.mod p = true → heartbeatValid s.mod p l = false →
      Answers (.heartbeatReceive p l) s fun m => m.cpl.paths = s.mod.cpl.paths ∧ m.cpl.partner = s.mod.cpl.partner ∧
        counted s.mod (.cpl 2) 1 m) ∧
  (∀ p t s, arrives (.pathLost p) s.mod = true → heartComes p s.mod s.pending = false → (s.mod.cpl.paths.get p).lastRx = some t → (s.mod.cpl.paths.get p).up = true →
      passed s.mod.now t (ms 3) = true →
      let other : Path := match p with
        | .coupler => .mgmt
        | .mgmt => .coupler
      let lost := s.mod.mode.mode = .paired ∧ ((s.mod.cpl.paths.get other).up = false ∨ leaseEnded s.mod = true)
      Answers (.pathLost p) s fun m => (m.cpl.paths.get p).up = false ∧ evtSet .yard evPathLost m = true ∧
        (lost → evtSet .yard evPartnerLost m = true ∧ (s.mod.mode.drainEnd = none → m.mode.mode = .standalone ∧ m.mode.cause = 5)) ∧
        (¬ lost → m = { raised s.mod m with
          cpl := { s.mod.cpl with paths := m.cpl.paths, consec := m.cpl.consec } })) ∧
  (∀ p s, arrives (.dyingGasp p) s.mod = true → couplerRuns s.mod = true → pathLinked s.mod p = true →
      Answers (.dyingGasp p) s fun m => evtSet .yard evPartnerDying m = true ∧
        m.cpl = { s.mod.cpl with partnerDying := true } ∧ m = { raised s.mod m with cpl := m.cpl })

/-- LEASE_RENEWAL when due, with the lease not ended and renewing not stopped: the next RENEW_SEQ is sent and remembered
with its time, and counts. LEASE_END at the holder's own end: it holds the reins no more and REINS_LOST is set.
LEASE_VIEW_END past the view end with both paths up, when the module may take the reins: it holds them with the next
LEASE_NUM and a lease from now, and REINS_TAKEN is set. REINS_HANDOVER: a malformed one ends INVALID_ARGUMENT, one
outside Standalone and Paired WRONG_MODE; else it answers whether this module was the holder, who stops renewing (R357
to R359). -/
def Obligations.TheLeaseIsKept : Prop :=
  (∀ s, arrives .leaseRenewal s.mod = true → s.mod.cpl.holder = true → s.mod.dax.up = true → s.mod.cpl.stopRenew = false →
      s.mod.mode.mode = .paired → s.mod.cpl.renewDue ≤ s.mod.now → s.mod.now < s.mod.cpl.ownEnd →
      Answers .leaseRenewal s fun m => m.cpl.renewSeq = s.mod.cpl.renewSeq + 1 ∧
        m.cpl.sent = s.mod.cpl.sent ++ [(s.mod.cpl.renewSeq + 1, s.mod.now)] ∧ m.cpl.holder = true ∧
        m.cpl.renewDue = s.mod.cpl.renewDue + ms (pairOf_ s.mod).renewMs ∧ m.cpl.ownEnd = s.mod.cpl.ownEnd ∧
        counted s.mod (.cpl 3) 1 m) ∧
  (∀ s, arrives .leaseEnd s.mod = true → s.mod.cpl.holder = true → s.mod.cpl.ownEnd ≤ s.mod.now →
      Answers .leaseEnd s fun m => m.cpl.holder = false ∧ evtSet .yard evReinsLost m = true) ∧
  (∀ t s, arrives .leaseViewEnd s.mod = true → s.mod.cpl.viewEnd = some t → t ≤ s.mod.now →
      (s.mod.cpl.paths.get .coupler).up = true → (s.mod.cpl.paths.get .mgmt).up = true → mayTake s.mod = true →
      Answers .leaseViewEnd s fun m => m.cpl.holder = true ∧ m.cpl.leaseNum = s.mod.cpl.leaseNum + 1 ∧
        m.cpl.ownEnd = s.mod.now + leaseTime s.mod ∧ m.cpl.viewEnd = none ∧ evtSet .yard evReinsTaken m = true) ∧
  (∀ n s, arrives (.reinsHandover n) s.mod = true → running s.mod n 0x61 →
      ((s.mod.dax.boxes.get n).len ≠ 0 → Ends (.reinsHandover n) s n stInvalid [] s.mod) ∧
      ((s.mod.dax.boxes.get n).len = 0 → s.mod.mode.mode ≠ .standalone → s.mod.mode.mode ≠ .paired →
        Ends (.reinsHandover n) s n stWrongMode [] s.mod) ∧
      ((s.mod.dax.boxes.get n).len = 0 → s.mod.mode.mode = .standalone ∨ s.mod.mode.mode = .paired →
        Ends (.reinsHandover n) s n stOk [BitVec.ofNat 8 (flag 0 s.mod.cpl.holder)]
          (if s.mod.cpl.holder then setCpl (fun c => { c with stopRenew := true }) s.mod else s.mod)))

/-- COUPLER_TRAINING_DONE while training: the link and port 1036 are up, nothing trains, no failure is counted.
COUPLER_TRAINING_FAIL: the third in a row leaves the link down to stay; an earlier one counts. COUPLER_LINK_DOWN of a
link that is up: the link and port 1036 are down. PAIR_RESTART: a malformed one ends INVALID_ARGUMENT, one outside
Standalone and Paired WRONG_MODE; else with leave refused the command ends LEAVE_REFUSED, with leave granted the link
goes down, no failure counts any more and training begins, and with leave queued the command waits and the pairing
state is as it was (R350, 12 R401). -/
def Obligations.TheCouplerTrains : Prop :=
  (∀ s, arrives .couplerTrainingDone s.mod = true → s.mod.cpl.training = true →
      AnswersBuf .couplerTrainingDone s fun m _ => m.cpl.link = true ∧ m.cpl.training = false ∧ m.cpl.fails = 0 ∧
        (portSt m 1036).up = true) ∧
  (∀ s, arrives .couplerTrainingFail s.mod = true → s.mod.cpl.training = true →
      AnswersBuf .couplerTrainingFail s fun m _ => m.cpl.fails = s.mod.cpl.fails + 1 ∧
        (m.cpl.stayDown = true ↔ 2 ≤ s.mod.cpl.fails) ∧ (2 ≤ s.mod.cpl.fails → m.cpl.training = false) ∧
        m.cpl.link = s.mod.cpl.link) ∧
  (∀ s, arrives .couplerLinkDown s.mod = true → s.mod.cpl.link = true →
      Answers .couplerLinkDown s fun m => m.cpl.link = false ∧ (portSt m 1036).up = false) ∧
  (∀ n s, arrives (.pairRestart n) s.mod = true → running s.mod n 0x60 →
      let ask := askLeaves n 9 [0] (setBox n (fun b => { b with began := true, leave := [] }) s.mod)
      ((s.mod.dax.boxes.get n).len ≠ 0 → Ends (.pairRestart n) s n stInvalid [] s.mod) ∧
      ((s.mod.dax.boxes.get n).len = 0 →
        (s.mod.mode.mode ≠ .standalone → s.mod.mode.mode ≠ .paired → Ends (.pairRestart n) s n stWrongMode [] s.mod) ∧
        (s.mod.mode.mode = .standalone ∨ s.mod.mode.mode = .paired →
          (ask.1 = false → Ends (.pairRestart n) s n stLeave [] ask.2) ∧
          (ask.1 = true → (ask.2.dax.boxes.get n).leave = [] → AnswersBuf (.pairRestart n) s fun m b => b = s.mem ∧
            m = retrainCoupler ask.2 ∧ m.cpl.training = true ∧ m.cpl.link = false ∧ m.cpl.fails = 0 ∧ m.cpl.stayDown = false) ∧
          (ask.1 = true → (ask.2.dax.boxes.get n).leave ≠ [] → AnswersBuf (.pairRestart n) s fun m b => b = s.mem ∧ m = ask.2 ∧
            m.cpl = s.mod.cpl))))

/-- SYNC_RECORD_SEND, Paired with the link up, Foltin running, one waiting and fewer than 65,536 not acknowledged: the
record leaves with the next SYNC_SEQ and joins those not acknowledged. SYNC_RECORD_RECEIVE, Paired with the link up:
in order, or in a resync, it joins the learn requests of its key's home, or is dropped at a full queue with LEARN_DROP
set; one that leaves a gap outside a resync sets SYNC_GAP and a resync is awaited. BULK_RESYNC_DONE of a resync
received, or of one sent under its grant with no record left to send: RESYNC is over and its grant is given back.
GEN_HANDOVER_RECORD of a handle this module generates: NEXT is 32 past the later of the two, and the acknowledgement
leaves. GEN_HANDOVER_ACK: the handle is no longer kept. GEN_HANDOVER_RESEND 10 ms after the last: the record leaves
again. RECOVERY_RESET after RESET_MS with no pass and no offer at that instant: TAKE_ANY is set and counts (R363 to
R369). -/
def Obligations.SyncAndHandover : Prop :=
  (∀ r t s, arrives .syncRecordSend s.mod = true → s.mod.mode.mode = .paired → s.mod.cpl.link = true → couplerRuns s.mod = true →
      s.mod.dax.up = true → s.mod.cpl.unsent = r :: t → s.mod.cpl.unacked.length < 65536 →
      Answers .syncRecordSend s fun m => m.cpl.unsent = t ∧ m.cpl.syncSeq = s.mod.cpl.syncSeq + 1 ∧
        m.cpl.unacked = s.mod.cpl.unacked ++ [(s.mod.cpl.syncSeq + 1, r)] ∧
        m.out = (s.mod.now, .sync (leBytes 4 (s.mod.cpl.syncSeq + 1).toNat ++ r)) :: s.mod.out) ∧
  (∀ l s, arrives (.syncRecordReceive l) s.mod = true → s.mod.mode.mode = .paired → s.mod.cpl.link = true →
      couplerRuns s.mod = true →
      let seq := BitVec.ofNat 32 (leAt l 0 4)
      let fid := leAt l 6 2 % 2 ^ 14
      let mac := BitVec.ofNat 48 (beAt l 8 6)
      let home := homeOf s.mod fid mac
      (seq = s.mod.cpl.syncAck + 1 ∨ s.mod.cpl.resyncIn = true → Answers (.syncRecordReceive l) s fun m => m.cpl.syncAck = seq ∧
        (if (s.mod.tbl.learns.get home).length < 4096 then
          ∃ r ∈ m.tbl.learns.get home, (m.tbl.learns.get home).length = (s.mod.tbl.learns.get home).length + 1 ∧ r.fid = fid ∧ r.mac = mac ∧
            r.sync = true ∧ r.time = s.mod.now ∧ r.dest = mappedDest s.mod (leAt l 0x10 4) ∧ (r.del = true ↔ leAt l 4 1 = 2)
         else m.tbl = s.mod.tbl ∧ evtSet (.shed home) evLearnDrop m = true)) ∧
      (seq ≠ s.mod.cpl.syncAck + 1 → s.mod.cpl.resyncIn = false → Answers (.syncRecordReceive l) s fun m =>
        m.cpl.resyncIn = true ∧ m.cpl.syncAck = seq ∧ m.tbl = s.mod.tbl ∧ evtSet .yard evSyncGap m = true)) ∧
  (∀ s, arrives .bulkResyncDone s.mod = true → (s.mod.cpl.resyncIn = true ∨ s.mod.cpl.resyncOut = true) →
      (s.mod.cpl.resyncOut = true → hasGrant s.mod 10 0 = true ∧ s.mod.cpl.unsent = []) →
      Answers .bulkResyncDone s fun m => m.cpl.resyncIn = false ∧ m.cpl.resyncOut = false ∧ m.cpl.resyncSeen = [] ∧
        hasGrant m 10 0 = false) ∧
  (∀ h q s, arrives (.genHandoverRecord h q) s.mod = true → s.mod.mode.mode = .paired → s.mod.cpl.link = true →
      (genRecords s.mod).any (fun r => leAt r 0 2 == h && leAt r 3 1 % 2 == (pairOf_ s.mod).role) = true →
      Answers (.genHandoverRecord h q) s fun m =>
        (m.cpl.gens.get h).next = (if serialNewer q (s.mod.cpl.gens.get h).next then q else (s.mod.cpl.gens.get h).next) + 32 ∧
        m.out = (s.mod.now, .handoverAck h) :: s.mod.out ∧ counted s.mod (.cpl 11) 1 m) ∧
  (∀ h s, arrives (.genHandoverAck h) s.mod = true → s.mod.mode.mode = .paired → (s.mod.cpl.gens.get h).keeps = true →
      Answers (.genHandoverAck h) s fun m => m.cpl.gens.get h =
        { s.mod.cpl.gens.get h with keeps := false, sentAt := none, soloUsed := false }) ∧
  (∀ h t s, arrives (.genHandoverResend h) s.mod = true → (s.mod.cpl.gens.get h).sentAt = some t →
      (s.mod.cpl.gens.get h).keeps = true → s.mod.mode.mode = .paired → s.mod.cpl.link = true → passed s.mod.now t (ms 10) = true →
      Answers (.genHandoverResend h) s fun m => (m.cpl.gens.get h).sentAt = some s.mod.now ∧
        m.out = (s.mod.now, .handover h (s.mod.cpl.gens.get h).next.toNat) :: s.mod.out) ∧
  (∀ h t r s, arrives (.recoveryReset h) s.mod = true → offerComes h s.mod s.pending = false → (s.mod.cpl.recs.get h).lastPass = some t →
      ((s.mod.tbl.ents.get (lowestShed s.mod, 0x0E)).map (·.dat)).find? (fun r => leAt r 0 2 == h && bitOf (leAt r 2 1) 1) = some r →
      (s.mod.cpl.recs.get h).takeAny = false → passed s.mod.now t (ms (leAt r 0x14 2)) = true →
      Answers (.recoveryReset h) s fun m => m.cpl.recs.get h = { s.mod.cpl.recs.get h with takeAny := true } ∧
        counted s.mod (.cpl 15) 1 m)

/-- RING_DOORBELL on a ring that is not enabled changes nothing; on an enabled ring with an index ahead of the host's and
at most the ring's size past the module's: it is the host's index; an index that is not is ignored and logged with
KIND 7. RING_ENABLE of a stopped ring with a valid configuration: enabled, both indices 0, no error; with an invalid
one ERROR 1 and not enabled. An enabled ring keeps its settings, and a write that would change them raises a lock
violation. RING_DISABLE of an enabled ring: it stops; RING_STOP_DONE writes the module's index back once and IDLE
reads 1. RING_MODERATION_TIMER: TIME after the first unsignalled entry the ring signals and nothing is unsignalled
(R420 to R423). -/
def Obligations.RingsStartAndStop : Prop :=
  (∀ n v s, arrives (.ringDoorbell n v) s.mod = true → (s.mod.host.rings.get n).enable = false →
      Answers (.ringDoorbell n v) s fun m => m = s.mod) ∧
  (∀ n v s, arrives (.ringDoorbell n v) s.mod = true → (s.mod.host.rings.get n).enable = true →
      let r := s.mod.host.rings.get n
      let bad := 2 ^ 31 ≤ idxDiff v.toNat r.hostIdx ∨
        (ringSize r < idxDiff v.toNat r.modIdx ∧ idxDiff v.toNat r.modIdx < 2 ^ 31)
      (¬ bad → Answers (.ringDoorbell n v) s fun m => m = { s.mod with host := { s.mod.host with
        rings := s.mod.host.rings.upd n (fun r => { r with hostIdx := v.toNat }) } }) ∧
      (bad → Answers (.ringDoorbell n v) s fun m => m.host.rings = s.mod.host.rings ∧
        evtSet .yard evAccessDrop m = true ∧ m.host.access.kind = 7 ∧ m.host.access.off = 0x10000 + n * 0x1000)) ∧
  (∀ n v s, arrives (.ringEnable n v) s.mod = true →
      let r := s.mod.host.rings.get n
      let r1 := ringCfgSet n v r
      (r.enable = false → ringCfgValid n r1 = true → Answers (.ringEnable n v) s fun m =>
        m = { s.mod with host := { s.mod.host with rings := m.host.rings } } ∧ (m.host.rings.get n).enable = true ∧
        (m.host.rings.get n).hostIdx = 0 ∧ (m.host.rings.get n).modIdx = 0 ∧ (m.host.rings.get n).error = 0 ∧
        (m.host.rings.get n).idle = false ∧ (m.host.rings.get n).sizeLog2 = fieldOf v 27 23) ∧
      (r.enable = false → ringCfgValid n r1 = false → Answers (.ringEnable n v) s fun m =>
        m = setRing n (fun _ => { r1 with error := 1 }) s.mod ∧ (m.host.rings.get n).enable = false) ∧
      (r.enable = true → r1 = r → Answers (.ringEnable n v) s fun m => m = s.mod) ∧
      (r.enable = true → r1 ≠ r → Answers (.ringEnable n v) s fun m => m.host.rings = s.mod.host.rings ∧ m = raised s.mod m)) ∧
  (∀ n v s, arrives (.ringDisable n v) s.mod = true → (s.mod.host.rings.get n).enable = true →
      Answers (.ringDisable n v) s fun m =>
        m.host.rings.get n = { s.mod.host.rings.get n with enable := false, stopping := some s.mod.now }) ∧
  (∀ n t s, arrives (.ringStopDone n) s.mod = true → (s.mod.host.rings.get n).stopping = some t →
      Answers (.ringStopDone n) s fun m =>
        m.host.rings.get n = { s.mod.host.rings.get n with stopping := none, idle := true } ∧
        m.out = (if (s.mod.host.rings.get n).wb = 0 then s.mod.out
          else (s.mod.now, .dma (s.mod.host.rings.get n).wb (leBytes 4 (s.mod.host.rings.get n).modIdx)) :: s.mod.out)) ∧
  (∀ n t s, arrives (.ringModerationTimer n) s.mod = true → (s.mod.host.rings.get n).unsigAt = some t →
      (s.mod.host.rings.get n).enable = true → passed s.mod.now t (us (s.mod.host.rings.get n).modTime) = true →
      Answers (.ringModerationTimer n) s fun m => (m.host.rings.get n).unsig = 0 ∧ (m.host.rings.get n).unsigAt = none ∧
        (s.mod.host.up = true → s.mod.host.vecMasked.get (vecOf s.mod (16 + n)) = false → s.mod.host.funcMask = false →
          m.out.head? = some (s.mod.now, .msix (vecOf s.mod (16 + n)))))

/-- INJECT_DESCRIPTOR_FETCH on an enabled inject ring with a descriptor waiting: an invalid one completes with STATUS 3,
and one while the module does not forward with STATUS 2, written in its slot, and the module's index moves by one; a
valid one that names its port and queue becomes a frame that is admitted to the Loft, STATUS 1, and whose first copy
is for them, or is refused, STATUS 2; any other valid one becomes a frame that is admitted to the Loft and has ended
good, with STATUS 1 when it was admitted and 2 when not. DMA_READ_ERROR and DMA_WRITE_REFUSED stop an enabled ring
with ERROR 2 and 3, IDLE, and RING_ERROR set; a refused write of a JOURNAL_READ or COUNTER_READ ends it
INVALID_ARGUMENT. VECTOR_UNMASK unmasks the vector, and a pending one is sent once with the link up and the function
not masked (R417, R424, R429). -/
def Obligations.DescriptorsAreFetched : Prop :=
  (∀ n d buf s, arrives (.injectDescriptorFetch n d buf) s.mod = true → (s.mod.host.rings.get n).enable = true →
      ringType n (s.mod.host.rings.get n) = 0 → (s.mod.host.rings.get n).hostIdx ≠ (s.mod.host.rings.get n).modIdx →
      s.mod.host.up = true →
      let r := s.mod.host.rings.get n
      let status := if injectOk s.mod d = false then some 3 else if forwarding s.mod = false then some 2 else none
      (∀ k, status = some k → Answers (.injectDescriptorFetch n d buf) s fun m =>
        (m.host.rings.get n).modIdx = (r.modIdx + 1) % 2 ^ 32 ∧ m.frames = s.mod.frames ∧
        (s.mod.now, Out.dma (r.base + r.modIdx % ringSize r * 32 + 0x10) [BitVec.ofNat 8 k]) ∈ m.out) ∧
      (status = none → bitOf (leAt d 0x0D 1) 0 = true →
        let c : Copy := { kind := .unicast, port := leAt d 0x0A 2, queue := leAt d 0x0C 1, cls := 0 }
        let x1 := directFrame s.mod.nextF (injectFrame s.mod n d buf) c s.mod
        Answers (.injectDescriptorFetch n d buf) s fun m => m = injectDone n (injectStatus x1 s.mod.nextF) x1 ∧
          (m.host.rings.get n).modIdx = (r.modIdx + 1) % 2 ^ 32 ∧ m.nextF = s.mod.nextF + 1 ∧
          ∀ fr, frame? m s.mod.nextF = some fr → fr.admitted = true ∧ fr.direct = true ∧ fr.decided = true ∧ fr.good = true ∧
            fr.port = 1032 + r.hostPort ∧ (fr.copies.head?).map (fun c => (c.port, c.queue)) = some (leAt d 0x0A 2, leAt d 0x0C 1)) ∧
      (status = none → bitOf (leAt d 0x0D 1) 0 = false →
        let x1 := loftAdmit s.mod.nextF (newFrame (injectFrame s.mod n d buf) s.mod)
        ∀ fr, frame? x1 s.mod.nextF = some fr → Answers (.injectDescriptorFetch n d buf) s fun m =>
          m = injectDone n (if fr.admitted then 1 else 2) (endGood s.mod.nextF fr x1))) ∧
  (∀ n s, arrives (.dmaReadError n) s.mod = true → (s.mod.host.rings.get n).enable = true →
      Answers (.dmaReadError n) s fun m => evtSet .yard evRingError m = true ∧ m.host.rings.get n =
        { s.mod.host.rings.get n with enable := false, idle := true, error := 2, stopping := none }) ∧
  (∀ n s, arrives (.dmaWriteRefused (88 + n)) s.mod = true → running s.mod n 0x14 ∨ running s.mod n 0x18 →
      Ends (.dmaWriteRefused (88 + n)) s n stInvalid [] s.mod) ∧
  (∀ n s, arrives (.dmaWriteRefused n) s.mod = true → n < 88 → (s.mod.host.rings.get n).enable = true →
      Answers (.dmaWriteRefused n) s fun m => evtSet .yard evRingError m = true ∧ m.host.rings.get n =
        { s.mod.host.rings.get n with enable := false, idle := true, error := 3, stopping := none }) ∧
  (∀ v s, arrives (.vectorUnmask v) s.mod = true →
      Answers (.vectorUnmask v) s fun m => m.host.vecMasked.get v = false ∧
        (s.mod.host.vecPending.get v = true → s.mod.host.funcMask = false → s.mod.host.up = true →
          m.host.vecPending.get v = false ∧ m.out = (s.mod.now, .msix v) :: s.mod.out) ∧
        (s.mod.host.vecPending.get v = false → m.out = s.mod.out ∧ m.host.vecPending = s.mod.host.vecPending))

/-- HOST_LINK_UP of a link that is down, its domain running and its strap sampled, at a speed the strap allows: the link
is up at that speed and width, DEGRADED below 16 GT/s or x8, which sets LINK_DEGRADED, and stage 4 ends.
HOST_LINK_DOWN and PERST_ASSERT of a link that is up: it is down and counted, and FUNCTION_LEVEL_RESET leaves it up.
All three stop every enabled ring with ERROR 4, end the session, discard what reads latched and what halves of pairs
are held, and a command in progress runs on with its reply discarded. HOST_LINK_WAIT_END 300 ms into stage 4 with no
link: stage 5 (R408, R409, R428; 16 R499). -/
def Obligations.TheHostLink : Prop :=
  (∀ sp w s, arrives (.hostLinkUp sp w) s.mod = true → s.mod.host.up = false → domRuns s.mod 434 = true →
      s.mod.ext.sampled = true → s.mod.mode.mode ≠ .cold → s.mod.ext.gen4 = true ∨ sp ≤ 4 →
      Answers (.hostLinkUp sp w) s fun m => m.host.up = true ∧ m.host.speed = sp ∧ m.host.width = w ∧
        m.host.degraded = (decide (sp < 4) || decide (w < 8)) ∧
        (m.host.degraded = true → evtSet .yard evLinkDegraded m = true) ∧
        m.pwr.stage = (if s.mod.pwr.stage = 4 then 5 else s.mod.pwr.stage)) ∧
  (∀ s, arrives .hostLinkDown s.mod = true → s.mod.host.up = true →
      Answers .hostLinkDown s fun m => (∀ n r, Map.look n s.mod.host.rings.ents = some r → r.enable = true → m.host.rings.get n =
          { r with enable := false, idle := true, error := 4, stopping := none }) ∧
        m.dax.version = none ∧ m.dax.session = 0 ∧ m.dax.posted = false ∧ (∀ l, m.latch.get l = []) ∧
        (∀ n < 15, ∀ b, Map.look n s.mod.dax.boxes.ents = some b → b.busy = true →
          (m.dax.boxes.get n).busy = true ∧ (m.dax.boxes.get n).quiet = true) ∧
        m.host.up = false ∧ m.host.downCount = s.mod.host.downCount + 1) ∧
  (∀ s, arrives .perstAssert s.mod = true → s.mod.host.up = true →
      Answers .perstAssert s fun m => (∀ n r, Map.look n s.mod.host.rings.ents = some r → r.enable = true → m.host.rings.get n =
          { r with enable := false, idle := true, error := 4, stopping := none }) ∧
        m.dax.version = none ∧ m.dax.session = 0 ∧ m.dax.posted = false ∧ (∀ l, m.latch.get l = []) ∧
        (∀ n < 15, ∀ b, Map.look n s.mod.dax.boxes.ents = some b → b.busy = true →
          (m.dax.boxes.get n).busy = true ∧ (m.dax.boxes.get n).quiet = true) ∧
        m.host.up = false ∧ m.host.downCount = s.mod.host.downCount + 1 ∧ m.ext.perst = false) ∧
  (∀ s, arrives .functionLevelReset s.mod = true → s.mod.host.up = true →
      Answers .functionLevelReset s fun m => (∀ n r, Map.look n s.mod.host.rings.ents = some r → r.enable = true → m.host.rings.get n =
          { r with enable := false, idle := true, error := 4, stopping := none }) ∧
        m.dax.version = none ∧ m.dax.session = 0 ∧ m.dax.posted = false ∧ (∀ l, m.latch.get l = []) ∧
        (∀ n < 15, ∀ b, Map.look n s.mod.dax.boxes.ents = some b → b.busy = true →
          (m.dax.boxes.get n).busy = true ∧ (m.dax.boxes.get n).quiet = true) ∧
        m.host.up = true) ∧
  (∀ s, arrives .hostLinkWaitEnd s.mod = true → s.mod.pwr.stage = 4 → s.mod.host.up = false →
      passed s.mod.now s.mod.pwr.stageAt (ms 300) = true →
      Answers .hostLinkWaitEnd s fun m => m.pwr.stage = 5 ∧ m.pwr.stageAt = s.mod.now ∧ m = { s.mod with pwr := m.pwr })

/-- HANDSHAKE_TIMEOUT: XERR is set at the near island's level, the crossing error is logged with KIND, near and far, and
the answer to come is stale; a host read returns 0, and a posted write to the register is lost.
HANDSHAKE_STALE_ANSWER: the answer to the oldest stale request of its island is discarded and counted.
HANDSHAKE_TIMEOUT with the answer at that instant: it has arrived. FIFO_STALL_TIMEOUT: a crossing error of KIND 3, and
nothing more written, and with entries discarded RESYNC_DISCARD, as many counted, and the frames they held bytes of
bad (R470, R471, R475, R476; 13 R410, R413). -/
def Obligations.CrossingsTimeOut : Prop :=
  (∀ n f k off s, arrives (.handshakeTimeout n f k off) s.mod = true → answerComes s n = false →
      Answers (.handshakeTimeout n f k off) s fun m => evtSet (islandLevel n.toNat) evXerr m = true ∧
        (m.isl.xerr.get (islandLevel n.toNat)).kind = k ∧ (m.isl.xerr.get (islandLevel n.toNat)).near = n ∧
        (m.isl.xerr.get (islandLevel n.toNat)).far = f ∧
        (m.isl.xerr.get (islandLevel n.toNat)).count = (s.mod.isl.xerr.get (islandLevel n.toNat)).count + 1 ∧
        m.isl.stale = (n, f) :: s.mod.isl.stale ∧ (k = 0 → m.rdata = 0 ∧ m.host.access.kind = 6) ∧
        (k ≠ 0 → m.rdata = s.mod.rdata ∧ m.host.access = s.mod.host.access) ∧
        (∀ o a b, k = 1 → s.mod.tim.posted = some (o, a, b) → off = 0x80000 + o → m.tim.posted = none) ∧
        counted s.mod (.isl (islandLevel n.toNat) 0) 1 m) ∧
  (∀ n s, arrives (.handshakeStaleAnswer n) s.mod = true → s.mod.isl.stale.any (fun e => e.1 == n) = true →
      Answers (.handshakeStaleAnswer n) s fun m => m.isl.stale = (s.mod.isl.stale.reverse.eraseP (fun e => e.1 == n)).reverse ∧
        counted s.mod (.isl (islandLevel n.toNat) 4) 1 m ∧
        m = { s.mod with isl := m.isl, ctrs := m.ctrs }) ∧
  (∀ n f k s, arrives (.fifoStallTimeout n f k) s.mod = true →
      let y := if k = 0 then s.mod else fifoSpoils n f s.mod
      Answers (.fifoStallTimeout n f k) s fun m => evtSet (islandLevel n.toNat) evXerr m = true ∧
        (m.isl.xerr.get (islandLevel n.toNat)).kind = 3 ∧ m.isl.blocked = (n, f) :: y.isl.blocked ∧
        (k ≠ 0 → evtSet (islandLevel n.toNat) evResyncDiscard m = true ∧
          counted y (.isl (islandLevel n.toNat) 2) k m) ∧
        m = { raised y m with isl := m.isl, ctrs := m.ctrs }) ∧
  (∀ n f k off s, arrives (.handshakeTimeout n f k off) s.mod = true → answerComes s n = true →
      Answers (.handshakeTimeout n f k off) s fun m => m = s.mod)

/-- OSTLER_COMMAND of a kind the engine serves: with 255 queued it waits outside; with fewer it joins the queue of an
engine that is halted, not loaded, or runs a routine that no queued command may interrupt; an idle engine with nothing
queued begins it; and of engines 0 and 3 with nothing queued, a routine of a lower kind that may be interrupted is
suspended for it, and counts as abandoned. OSTLER_CONDITION_MET: the waiting word is to run in the next cycle.
OSTLER_WAIT_TIMEOUT when due, the condition not met at that instant: WAIT_TIMEOUT is set and counted; the fourth of a
command ends it as failed. OSTLER_ROUTINE_END: the command's result is posted as good, and counted.
OSTLER_MACHINE_CHECK of a running engine: it halts with the check logged, MCHECK set and counted; the third within 1 s
is Fatal for its shed and recorded so. OSTLER_WORD_REWRITE: no word is marked bad, and the log of a parity check shows
it. OSTLER_ENGINE_RESTART outside a march test: the engine is not halted. STORE_BIST outside Diagnostic is dropped and
logged; there, with RUN and none under way, it halts the engines of the shed and the march test begins.
STORE_BIST_DONE reports, and the stores are loaded again, with no engine halted (R438 to R455, R461). -/
def Obligations.EnginesRunRoutines : Prop :=
  (∀ sh e k code tag s, arrives (.ostlerCommand sh e k code tag) s.mod = true → 255 ≤ (engine s.mod sh e).queue.length →
      k < engineKinds e → Answers (.ostlerCommand sh e k code tag) s fun m =>
        m = setEng sh e (fun g => { g with outside := g.outside ++ [{ kind := k, code := code, tag := tag }] }) s.mod) ∧
  (∀ sh e k code tag s, arrives (.ostlerCommand sh e k code tag) s.mod = true → (engine s.mod sh e).queue.length < 255 →
      k < engineKinds e →
      let new : OstCmd := { kind := k, code := code, tag := tag }
      (((engine s.mod sh e).halted = true ∨ (s.mod.ost.get sh).loaded = false ∨ ∃ r, (engine s.mod sh e).run = some r ∧
          ((engine s.mod sh e).open_ = false ∨ (e ≠ 0 ∧ e ≠ 3) ∨ ∀ c ∈ (engine s.mod sh e).queue ++ [new], r.cmd.kind ≤ c.kind)) →
        Answers (.ostlerCommand sh e k code tag) s fun m => m = setEng sh e (fun g => { g with queue := g.queue ++ [new] }) s.mod) ∧
      ((engine s.mod sh e).halted = false → (s.mod.ost.get sh).loaded = true → (engine s.mod sh e).run = none →
        (engine s.mod sh e).queue = [] → (engine s.mod sh e).outside = [] → (engine s.mod sh e).suspended = [] →
        Answers (.ostlerCommand sh e k code tag) s fun m =>
          (engine m sh e).run.map (·.cmd) = some new ∧ (engine m sh e).queue = [] ∧
          (engine m sh e).uaddr = entryAt (s.mod.ost.get sh) code) ∧
      (∀ r, (engine s.mod sh e).halted = false → (s.mod.ost.get sh).loaded = true → (engine s.mod sh e).run = some r →
        (engine s.mod sh e).open_ = true → (e = 0 ∨ e = 3) → k < r.cmd.kind → (engine s.mod sh e).queue = [] → (engine s.mod sh e).outside = [] →
        Answers (.ostlerCommand sh e k code tag) s fun m =>
          (engine m sh e).run.map (·.cmd) = some new ∧ (engine m sh e).queue = [] ∧
          (engine m sh e).suspended = { r with abandons := r.abandons + 1, args := (engine s.mod sh e).args } :: (engine s.mod sh e).suspended ∧
          counted s.mod (.ost sh e 1) 1 m)) ∧
  (∀ sh e s, arrives (.ostlerConditionMet sh e) s.mod = true → (engine s.mod sh e).waits = true →
      Answers (.ostlerConditionMet sh e) s fun m =>
        m = setEng sh e (fun g => { g with st := .issuing, cond := 0, met := true }) s.mod) ∧
  (∀ sh e r s, arrives (.ostlerWaitTimeout sh e) s.mod = true → waitDue s.mod sh e = true →
      .ostlerConditionMet sh e ∉ s.pending → (engine s.mod sh e).run = some r →
      Answers (.ostlerWaitTimeout sh e) s fun m => evtSet (.shed sh) evWaitTimeout m = true ∧
        counted s.mod (.ost sh e 4) 1 m ∧
        (3 ≤ r.timeouts → (r.cmd.tag, true) ∈ (engine m sh e).results) ∧
        (r.timeouts < 3 → ∃ q, (engine m sh e).run = some q ∧ q.cmd = r.cmd ∧ q.timeouts = r.timeouts + 1)) ∧
  (∀ sh e r s, arrives (.ostlerRoutineEnd sh e) s.mod = true → (engine s.mod sh e).halted = false →
      (engine s.mod sh e).run = some r →
      Answers (.ostlerRoutineEnd sh e) s fun m => (engine m sh e).results = (r.cmd.tag, false) :: (engine s.mod sh e).results ∧
        counted s.mod (.ost sh e 0) 1 m) ∧
  (∀ sh e k s, arrives (.ostlerMachineCheck sh e k) s.mod = true → (engine s.mod sh e).halted = false →
      (engine s.mod sh e).run.isSome = true →
      let third := 2 ≤ ((s.mod.ost.get sh).mchecks.filter (fun t => s.mod.now < t + sec 1)).length
      (third → Answers (.ostlerMachineCheck sh e k) s fun m => evtSet (.shed sh) evMcheck m = true ∧
        recorded (.shed sh) evMcheckRepeat m = true) ∧
      (¬ third → Answers (.ostlerMachineCheck sh e k) s fun m => (engine m sh e).halted = true ∧ evtSet (.shed sh) evMcheck m = true ∧
        (m.ost.get sh).mlog.kind = k ∧ (m.ost.get sh).mlog.engine = e ∧
        (m.ost.get sh).mlog.uaddr = (engine s.mod sh e).uaddr ∧
        counted s.mod (.ost sh e 5) 1 m ∧ m.trb = s.mod.trb)) ∧
  (∀ sh s, arrives (.ostlerWordRewrite sh) s.mod = true → (s.mod.ost.get sh).bad ≠ [] →
      Answers (.ostlerWordRewrite sh) s fun m =>
        m = setOst sh (fun o => { o with bad := [], mlog := { o.mlog with rewritten := o.mlog.rewritten || decide (o.mlog.kind < 2) } }) s.mod) ∧
  (∀ sh e s, arrives (.ostlerEngineRestart sh e) s.mod = true → (engine s.mod sh e).halted = true →
      (s.mod.ost.get sh).bistFrom = none →
      Answers (.ostlerEngineRestart sh e) s fun m => (engine m sh e).halted = false) ∧
  (∀ sh v s, arrives (.storeBist sh v) s.mod = true → reachable s.mod (ostDiagOff sh) = true →
      (s.mod.mode.mode ≠ .diagnostic → Answers (.storeBist sh v) s fun m => m.ost = s.mod.ost ∧ m.host.access.kind = 5 ∧
        evtSet .yard evAccessDrop m = true) ∧
      (s.mod.mode.mode = .diagnostic → v.getLsbD 0 = true → (s.mod.ost.get sh).bistFrom = none →
        Answers (.storeBist sh v) s fun m => (m.ost.get sh).bistFrom = some s.mod.now ∧
          (∀ e < 4, (engine m sh e).halted = true) ∧ m = { s.mod with ost := m.ost })) ∧
  (∀ sh pass t s, arrives (.storeBistDone sh pass) s.mod = true → (s.mod.ost.get sh).bistFrom = some t →
      Answers (.storeBistDone sh pass) s fun m => (m.ost.get sh).bistFrom = none ∧
        (m.ost.get sh).bistRes = (if pass then 1 else 2) ∧ (m.ost.get sh).loaded = true ∧ ∀ e < 4, (engine m sh e).halted = false)

/-- DOMAIN_STOP_REQUEST by one that may ask, of a domain in RUN or WAKING: in hold-up it is refused with reason 0x12, of
one in WAKING with 0x06, where the mode requires the domain and the request is not exempt with 0x01, while a domain
below has not stopped with 0x03, where the requester's own rule does not hold with 0x05, where a wake source of the
domain fires in the same cycle and the stop is not the Yardmaster's with 0x02, each counted, logged and raising
STOP_REFUSED with every domain as it was; else the domain is STOPPING when its step fits, and waits when it does not.
DRAWBAR_HALF_STOP_REQUEST is such a request of the drawbar logic for the half's domain. DOMAIN_STOP_DRAINED with the
domains below stopped, no wake asked for meanwhile and no shed returning: STOP, counted; an Ostler group's stores are
lost. DOMAIN_STOP_ABORT with no wake source after 20 us: RUN, counted, STOP_REFUSED set; with a wake source, unless
the stop is the Yardmaster's own: the same (R484 to R487, R497; 06 R216). -/
def Obligations.DomainsStop : Prop :=
  (∀ by_ d s, arrives (.domainStopRequest by_ d) s.mod = true → mayAsk s.mod by_ d = true →
      let reason := if s.mod.pwr.holdup.isSome then some 0x12
        else if domSt s.mod d = .waking then some 0x06
        else if stopExempt s.mod by_ = false ∧ modeRequires s.mod d (some by_) = true then some 0x01
        else if (domChildren d).any (fun k => domSt s.mod k != .stop) = true then some 0x03
        else if ownRuleHolds s.mod by_ d = false then some 0x05
        else if by_ ≠ .yardmaster ∧ ((wakeComes s d).isSome = true ∨ (firedNow s.mod d).isSome = true) then some 0x02 else none
      (∀ r, domSt s.mod d = .run ∨ domSt s.mod d = .waking → reason = some r →
        Answers (.domainStopRequest by_ d) s fun m => m.pwr.doms = s.mod.pwr.doms ∧ evtSet .yard evStopRefused m = true ∧
          counted s.mod (.pwr 1) 1 m ∧ (m.pwr.log.get m.pwr.logNewest).reason = r ∧
          (m.pwr.log.get m.pwr.logNewest).domain = d ∧ m.pwr.logCount = s.mod.pwr.logCount + 1) ∧
      (domSt s.mod d = .run → reason = none → stepFits s.mod (fullLoad (d)) = true → Answers (.domainStopRequest by_ d) s fun m =>
        domSt m d = .stopping ∧ (m.pwr.doms.get d).by_ = some by_ ∧ (m.pwr.doms.get d).since = s.mod.now ∧
        (∀ k, k ≠ d → m.pwr.doms.get k = s.mod.pwr.doms.get k) ∧ m = { s.mod with pwr := m.pwr }) ∧
      (domSt s.mod d = .run → reason = none → stepFits s.mod (fullLoad (d)) = false → Answers (.domainStopRequest by_ d) s fun m =>
        m.pwr.doms = s.mod.pwr.doms ∧
        m.pwr.waits = s.mod.pwr.waits ++ [{ d := d, wake := false, src := 0, by_ := some by_ }])) ∧
  (∀ sh h s, arrives (.drawbarHalfStopRequest sh h) s.mod = true →
      let d := 352 + 7 * sh + h
      let reason := if s.mod.pwr.holdup.isSome then some 0x12
        else if domSt s.mod d = .waking then some 0x06
        else if stopExempt s.mod .drawbar = false ∧ modeRequires s.mod d (some .drawbar) = true then some 0x01
        else if (domChildren d).any (fun k => domSt s.mod k != .stop) = true then some 0x03
        else if ownRuleHolds s.mod .drawbar d = false then some 0x05
        else if (wakeComes s d).isSome = true ∨ (firedNow s.mod d).isSome = true then some 0x02 else none
      (∀ r, domSt s.mod d = .run ∨ domSt s.mod d = .waking → reason = some r →
        Answers (.drawbarHalfStopRequest sh h) s fun m => m.pwr.doms = s.mod.pwr.doms ∧ evtSet .yard evStopRefused m = true ∧
          counted s.mod (.pwr 1) 1 m ∧ (m.pwr.log.get m.pwr.logNewest).reason = r ∧
          (m.pwr.log.get m.pwr.logNewest).domain = d ∧ m.pwr.logCount = s.mod.pwr.logCount + 1) ∧
      (domSt s.mod d = .run → reason = none → stepFits s.mod (fullLoad (d)) = true → Answers (.drawbarHalfStopRequest sh h) s fun m =>
        domSt m d = .stopping ∧ (m.pwr.doms.get d).by_ = some .drawbar ∧ (m.pwr.doms.get d).since = s.mod.now ∧
        (∀ k, k ≠ d → m.pwr.doms.get k = s.mod.pwr.doms.get k) ∧ m = { s.mod with pwr := m.pwr }) ∧
      (domSt s.mod d = .run → reason = none → stepFits s.mod (fullLoad (d)) = false → Answers (.drawbarHalfStopRequest sh h) s fun m =>
        m.pwr.doms = s.mod.pwr.doms ∧
        m.pwr.waits = s.mod.pwr.waits ++ [{ d := d, wake := false, src := 0, by_ := some .drawbar }])) ∧
  (∀ d s, arrives (.domainStopDrained d) s.mod = true → domSt s.mod d = .stopping → (s.mod.pwr.doms.get d).wakeAft = none →
      (domChildren d).all (fun k => domSt s.mod k == .stop) = true → (∀ sh < 8, (s.mod.trb.get sh).st ≠ .returning) →
      Answers (.domainStopDrained d) s fun m => domSt m d = .stop ∧
        counted s.mod (.pwr 0) 1 m ∧ (416 ≤ d → d < 424 → (m.ost.get (d - 416)).loaded = false)) ∧
  (∀ d s, arrives (.domainStopAbort d none) s.mod = true → domSt s.mod d = .stopping →
      passed s.mod.now (s.mod.pwr.doms.get d).since (us 20) = true →
      Answers (.domainStopAbort d none) s fun m => domSt m d = .run ∧ evtSet .yard evStopRefused m = true ∧
        counted s.mod (.pwr 2) 1 m) ∧
  (∀ d w s, arrives (.domainStopAbort d (some w)) s.mod = true → domSt s.mod d = .stopping →
      (s.mod.pwr.doms.get d).by_ ≠ some .yardmaster →
      Answers (.domainStopAbort d (some w)) s fun m => domSt m d = .run ∧ evtSet .yard evStopRefused m = true ∧
        counted s.mod (.pwr 2) 1 m)

/-- DOMAIN_WAKE_REQUEST for a stopped domain whose parent, if it has one, runs, not a drawbar half's or a held shed's
core: WAKING when its step fits, else it waits; for a domain in WAKING or RUN, with no stop of it waiting, nothing
changes but the model's own record that the source fired; of one in STOPPING, not by the Yardmaster, the stop is
aborted with reason 0x02. DOMAIN_WAKE_SETTLED with no shed returning: the domain runs since now, and counts.
WAKE_TABLE_STEP when due: WAKING when its step fits, a shed core with its shed-wake grant; without it the core asks
for it and wakes when granted. DRAWBAR_HALF_WAKE_REQUEST for a stopped half that must wake, with its grant, its shed's
core running: WAKING when its step fits. DIAG_DOMAIN_WAKE and DIAG_DOMAIN_STOP outside Diagnostic are logged with KIND
5 and while BUSY with KIND 3, all of power as it was; in Diagnostic a wake of a stopped domain below 352 with its
parent running begins it when its step fits, and a stop of a running one that the mode does not require, with all
below stopped, begins it, outside hold-up. LOFT_BANK_IDLE after 10 ms below a quarter of the running cells, where a
bank may be spared, sets the highest running bank aside; LOFT_BANK_STOP of the bank set aside, empty, in Standalone or
Paired, whose step fits, stops it and counts (R483 to R489, R513; 06 R197, R216). -/
def Obligations.DomainsWake : Prop :=
  (∀ w d s, arrives (.domainWakeRequest w d) s.mod = true → domSt s.mod d = .waking ∨ domSt s.mod d = .run →
      (∀ e ∈ s.mod.pwr.waits, e.d ≠ d) → (408 ≤ d → d < 416 → (s.mod.trb.get (d - 408)).st ≠ .held) →
      Answers (.domainWakeRequest w d) s fun m => m = setDom d (fun o => { o with fired := some (w, s.mod.cyc) }) s.mod) ∧
  (∀ w d s, arrives (.domainWakeRequest w d) s.mod = true → domSt s.mod d = .stopping → (s.mod.pwr.doms.get d).by_ ≠ some .yardmaster →
      (∀ e ∈ s.mod.pwr.waits, e.d ≠ d) → ¬ (408 ≤ d ∧ d < 416) →
      Answers (.domainWakeRequest w d) s fun m => domSt m d = .run ∧ evtSet .yard evStopRefused m = true ∧ counted s.mod (.pwr 2) 1 m ∧
        (m.pwr.log.get m.pwr.logNewest).reason = 2 ∧ (m.pwr.log.get m.pwr.logNewest).refuser = w) ∧
  (∀ w d s, arrives (.domainWakeRequest w d) s.mod = true → domSt s.mod d = .stop →
      (∀ p, domParent d = some p → domRuns s.mod p = true) → ¬ (352 ≤ d ∧ d < 408) → (∀ e ∈ s.mod.pwr.waits, e.d ≠ d) →
      (408 ≤ d → d < 416 → (s.mod.trb.get (d - 408)).st ≠ .held) →
      (stepFits s.mod (fullLoad d) = true → Answers (.domainWakeRequest w d) s fun m => domSt m d = .waking ∧
        (m.pwr.doms.get d).since = s.mod.now ∧ (∀ k, k ≠ d → m.pwr.doms.get k = s.mod.pwr.doms.get k) ∧ m = { s.mod with pwr := m.pwr }) ∧
      (stepFits s.mod (fullLoad d) = false → Answers (.domainWakeRequest w d) s fun m =>
        m.pwr.doms = s.mod.pwr.doms.upd d (fun o => { o with fired := some (w, s.mod.cyc) }) ∧
        m.pwr.waits = s.mod.pwr.waits ++ [{ d := d, wake := true, src := w, by_ := none }])) ∧
  (∀ d s, arrives (.domainWakeSettled d) s.mod = true → domSt s.mod d = .waking → (∀ sh < 8, (s.mod.trb.get sh).st ≠ .returning) →
      Answers (.domainWakeSettled d) s fun m => domSt m d = .run ∧ (m.pwr.doms.get d).since = s.mod.now ∧
        counted s.mod (.pwr 3) 1 m) ∧
  (∀ d s, arrives (.wakeTableStep d) s.mod = true → wakeStepDue s.mod d = true → ¬ (408 ≤ d ∧ d < 416) →
      stepFits s.mod (fullLoad d) = true →
      Answers (.wakeTableStep d) s fun m => domSt m d = .waking ∧ (m.pwr.doms.get d).since = s.mod.now) ∧
  (∀ d s, arrives (.wakeTableStep d) s.mod = true → wakeStepDue s.mod d = true → 408 ≤ d → d < 416 →
      (hasGrant s.mod 1 (d - 408) = true → stepFits s.mod (fullLoad d) = true →
        Answers (.wakeTableStep d) s fun m => domSt m d = .waking ∧ (m.pwr.doms.get d).since = s.mod.now) ∧
      (∀ id, hasGrant s.mod 1 (d - 408) = false → decideLeave s.mod 1 (d - 408) = .granted id →
        Answers (.wakeTableStep d) s fun m => domSt m d = .waking ∧ (m.pwr.doms.get d).since = s.mod.now ∧
          hasGrant m 1 (d - 408) = true ∧ counted s.mod (.pwr 4) 1 m)) ∧
  (∀ sh h s, arrives (.drawbarHalfWakeRequest sh h) s.mod = true → halfMustWake s.mod sh h = true →
      domSt s.mod (352 + 7 * sh + h) = .stop → hasGrant s.mod 4 (7 * sh + h) = true → domRuns s.mod (408 + sh) = true →
      stepFits s.mod (fullLoad (352 + 7 * sh + h)) = true →
      Answers (.drawbarHalfWakeRequest sh h) s fun m => domSt m (352 + 7 * sh + h) = .waking) ∧
  (∀ v s, arrives (.diagDomainWake v) s.mod = true →
      (s.mod.mode.mode ≠ .diagnostic → Answers (.diagDomainWake v) s fun m => m.pwr = s.mod.pwr ∧ m.host.access.kind = 5) ∧
      (s.mod.mode.mode = .diagnostic → diagBusy s.mod = true → Answers (.diagDomainWake v) s fun m => m.pwr = s.mod.pwr ∧ m.host.access.kind = 3)) ∧
  (∀ v s, arrives (.diagDomainStop v) s.mod = true →
      (s.mod.mode.mode ≠ .diagnostic → Answers (.diagDomainStop v) s fun m => m.pwr = s.mod.pwr ∧ m.host.access.kind = 5) ∧
      (s.mod.mode.mode = .diagnostic → diagBusy s.mod = true → Answers (.diagDomainStop v) s fun m => m.pwr = s.mod.pwr ∧ m.host.access.kind = 3)) ∧
  (∀ v p s, arrives (.diagDomainWake v) s.mod = true → s.mod.mode.mode = .diagnostic → diagBusy s.mod = false →
      domSt s.mod (fieldOf v 15 0) = .stop → fieldOf v 15 0 < 352 → domParent (fieldOf v 15 0) = some p → domRuns s.mod p = true →
      stepFits s.mod (fullLoad (fieldOf v 15 0)) = true →
      Answers (.diagDomainWake v) s fun m => domSt m (fieldOf v 15 0) = .waking ∧ m.pwr.diagDom = fieldOf v 15 0) ∧
  (∀ v s, arrives (.diagDomainStop v) s.mod = true → s.mod.mode.mode = .diagnostic → diagBusy s.mod = false →
      domSt s.mod (fieldOf v 15 0) = .run → fieldOf v 15 0 < 448 → s.mod.pwr.holdup = none →
      modeRequires s.mod (fieldOf v 15 0) (some .host) = false →
      (domChildren (fieldOf v 15 0)).all (fun k => domSt s.mod k == .stop) = true → firedNow s.mod (fieldOf v 15 0) = none →
      stepFits s.mod (fullLoad (fieldOf v 15 0)) = true →
      Answers (.diagDomainStop v) s fun m => domSt m (fieldOf v 15 0) = .stopping ∧ m.pwr.diagDom = fieldOf v 15 0) ∧
  (∀ sh t b s, arrives (.loftBankIdle sh) s.mod = true → (s.mod.loft.get sh).lowAt = some t →
      (runningBanks s.mod sh).getLast? = some b → passed s.mod.now t (ms 10) = true → (s.mod.loft.get sh).noAlloc = none →
      loftLow s.mod sh = true → bankSpare s.mod sh = true →
      Answers (.loftBankIdle sh) s fun m => m = { s.mod with
        loft := s.mod.loft.upd sh (fun l => { l with noAlloc := some b }) }) ∧
  (∀ sh b s, arrives (.loftBankStop sh b) s.mod = true → (s.mod.loft.get sh).noAlloc = some b → loftBankEmpty s.mod sh b = true →
      bankSpare s.mod sh = true → s.mod.mode.mode = .standalone ∨ s.mod.mode.mode = .paired → domSt s.mod (bankDom sh b) = .run → firedNow s.mod (bankDom sh b) = none →
      s.mod.pwr.holdup = none → stepFits s.mod (fullLoad (bankDom sh b)) = true →
      Answers (.loftBankStop sh b) s fun m => domSt m (bankDom sh b) = .stopping ∧ (m.loft.get sh).noAlloc = none ∧
        counted s.mod (.lft sh 5) 1 m)

/-- PSU_TELEMETRY keeps what the PSU reports and the sum of what is drawn. PSU_GOOD of a newly good inlet of a powered
module: good, at low line below 180 V, INLET_CHANGE set. INLET_LOW_LINE below 180 V for 20 ms and INLET_HIGH_LINE at
185 V or more for 1 s: the inlet changes line and INLET_CHANGE is set. INLET_LOSS out of range for 2 ms: not good,
INLET_CHANGE set; with no inlet good and no leave queued, HOLDUP is set and hold-up begins now. HOLDUP_END 16 ms
after: the module has no power, in Cold, its outputs off for 100 ms, and the mailboxes' buffers read 0. POWER_RESTART
once those are over: with an inlet fed the module is powered with time 0; else it waits for mains. MAINS_APPLY while
waiting powers it (R490, R494 to R496, R505; 19 R556, R557). -/
def Obligations.InletsAndHoldup : Prop :=
  (∀ i p v h w s, arrives (.psuTelemetry i p v h w) s.mod = true →
      Answers (.psuTelemetry i p v h w) s fun m => (inletOf m i).present = p ∧ (inletOf m i).dV = v ∧ (inletOf m i).dHz = h ∧
        (inletOf m i).dW = w ∧ (inletOf m i).good = (inletOf s.mod i).good ∧ m.pwr.draw = m.pwr.a.dW + m.pwr.b.dW ∧
        ((p && inRange v h) = true → (inletOf m i).outSince = none) ∧
        m = { s.mod with pwr := { s.mod.pwr with a := m.pwr.a, b := m.pwr.b, draw := m.pwr.draw } }) ∧
  (∀ i s, arrives (.psuGood i) s.mod = true → s.mod.mode.powered = true → (inletOf s.mod i).good = false →
      inletFed (inletOf s.mod i) = true →
      Answers (.psuGood i) s fun m => (inletOf m i).good = true ∧ (inletOf m i).goodAt = s.mod.now ∧
        (inletOf m i).lowLine = decide ((inletOf s.mod i).dV < 1800) ∧ evtSet .yard evInletChange m = true) ∧
  (∀ i t s, arrives (.inletLowLine i) s.mod = true → (inletOf s.mod i).below180 = some t → (inletOf s.mod i).good = true →
      (inletOf s.mod i).lowLine = false → passed s.mod.now t (ms 20) = true →
      Answers (.inletLowLine i) s fun m => (inletOf m i).lowLine = true ∧ (inletOf m i).good = true ∧
        evtSet .yard evInletChange m = true) ∧
  (∀ i t s, arrives (.inletHighLine i) s.mod = true → (inletOf s.mod i).above185 = some t → (inletOf s.mod i).good = true →
      (inletOf s.mod i).lowLine = true → passed s.mod.now t (sec 1) = true →
      Answers (.inletHighLine i) s fun m => (inletOf m i).lowLine = false ∧ evtSet .yard evInletChange m = true) ∧
  (∀ i t s, arrives (.inletLoss i) s.mod = true → (inletOf s.mod i).outSince = some t → (inletOf s.mod i).good = true →
      passed s.mod.now t (ms 2) = true →
      AnswersBuf (.inletLoss i) s fun m _ => (inletOf m i).good = false ∧ evtSet .yard evInletChange m = true ∧
        (m.pwr.a.good = false → m.pwr.b.good = false → s.mod.pwr.holdup = none → s.mod.pwr.queue = [] →
          m.pwr.holdup = some s.mod.now ∧ evtSet .yard evHoldup m = true)) ∧
  (∀ t s, arrives .holdupEnd s.mod = true → s.mod.pwr.holdup = some t → passed s.mod.now t (ms 16) = true → Safe s →
      AnswersBuf .holdupEnd s fun m b => m.mode.powered = false ∧ m.mode.mode = .cold ∧ m.pwr.holdup = none ∧
        m.pwr.outsOff = some (s.mod.now + ms 100) ∧ m.pwr.a.good = false ∧ m.pwr.b.good = false ∧ m.sec.enrol = s.mod.sec.enrol ∧
        (∀ a, a < 0x10000 → Memory.read b a = 0#8) ∧ ∀ a, 0x10000 ≤ a → Memory.read b a = Memory.read s.mem a) ∧
  (∀ t s, arrives .powerRestart s.mod = true → s.mod.pwr.outsOff = some t → t ≤ s.mod.now →
      (inletFed s.mod.pwr.a = true ∨ inletFed s.mod.pwr.b = true → Answers .powerRestart s fun m =>
        m.now = 0 ∧ m.mode.powered = true ∧ m.mode.mode = .cold ∧ m.pwr.outsOff = none ∧ m.sec = s.mod.sec) ∧
      (inletFed s.mod.pwr.a = false → inletFed s.mod.pwr.b = false → Answers .powerRestart s fun m =>
        m = { s.mod with pwr := { s.mod.pwr with outsOff := none } })) ∧
  (∀ i s, arrives (.mainsApply i) s.mod = true → s.mod.mode.powered = false → s.mod.pwr.outsOff = none →
      Answers (.mainsApply i) s fun m => m.mode.powered = true ∧ m.now = 0 ∧ m.mode.mode = .cold ∧ (inletOf m i).present = true ∧
        m.sec = s.mod.sec)

/-- LEAVE_REQUEST of an operation that neither waits nor has its grant, alone in its cycle: the decision is R493's, in its
order: refused with reason 0x12 in hold-up, 0x13 with 32 queued, 0x15 for a shed held by heat, granted with none
queued, the estimate within the budget and the step fitting, else queued where it fits without the active grants, else
refused with 0x16 or 0x10. Refused, it is counted and raises LEAVE_REFUSED, with the queue and the grants as they were
(said for operations 3 and 7, whose refusal ends nothing else); queued, it is last in the queue and counted; granted,
its grant is active and counted (said for operations 5 to 7, which begin nothing else here); one that has had its turn
among several of the cycle is not decided again. LEAVE_GRANT of a queued request, of operation 5 to 7 and no command,
that fits: it leaves the queue and its grant is active. LEAVE_RELEASE of a grant whose operation has ended: no grant
has its number; of a scrub pass, with no error left in its shed, the pass is over and the time noted.
LEAVE_QUEUE_TIMEOUT, the queue holding requests of no command and of operations 3, 4, 6, 7 and 9: none that has waited
60 s stays, and where there was one LEAVE_REFUSED is set (R492, R493, R497). -/
def Obligations.LeaveIsGiven : Prop :=
  (∀ op u s, arrives (.leaveRequest op u) s.mod = true →
      s.mod.pwr.grants.any (fun g => g.op == op && g.unit == u && g.mbx.isNone) = false →
      s.mod.pwr.queue.any (fun q => q.op == op && q.unit == u && q.mbx.isNone) = false →
      (s.mod.pwr.askedAt = s.mod.cyc → s.mod.pwr.asked.contains (op, u) = false) → asksWith s op u = [(op, u)] →
      (∀ r, decideLeave s.mod op u = .refused r → op = 3 ∨ op = 7 → AnswersBuf (.leaveRequest op u) s fun m b => b = s.mem ∧
        m.pwr.grants = s.mod.pwr.grants ∧ m.pwr.queue = s.mod.pwr.queue ∧ evtSet .yard evLeaveRefused m = true ∧
        (m.pwr.log.get m.pwr.logNewest).reason = r ∧ counted s.mod (.pwr 6) 1 m) ∧
      (∀ id, decideLeave s.mod op u = .queued id → AnswersBuf (.leaveRequest op u) s fun m b => b = s.mem ∧
        m.pwr.queue = s.mod.pwr.queue ++ [{ id := id, op := op, unit := u, at_ := s.mod.now, mbx := none }] ∧
        m.pwr.grants = s.mod.pwr.grants ∧ counted s.mod (.pwr 5) 1 m) ∧
      (∀ id, decideLeave s.mod op u = .granted id → op = 5 ∨ op = 6 ∨ op = 7 → AnswersBuf (.leaveRequest op u) s fun m b => b = s.mem ∧
        m.pwr.grants = s.mod.pwr.grants ++ [{ id := id, op := op, unit := u, left := leaveEst op, mbx := none }] ∧
        m.pwr.queue = s.mod.pwr.queue ∧ counted s.mod (.pwr 4) 1 m)) ∧
  (∀ op u s, arrives (.leaveRequest op u) s.mod = true → s.mod.pwr.askedAt = s.mod.cyc → s.mod.pwr.asked.contains (op, u) = true →
      AnswersBuf (.leaveRequest op u) s fun m b => m = s.mod ∧ b = s.mem) ∧
  (∀ (op u : Nat) (s : State), decideLeave s.mod op u = (if s.mod.pwr.holdup.isSome then .refused 0x12
      else if 32 ≤ s.mod.pwr.queue.length then .refused 0x13
      else if op ≠ 1 ∧ ∃ sh ∈ leaveSheds op u, 2 ≤ (s.mod.pwr.therm.get sh).state then .refused 0x15
      else if s.mod.pwr.queue = [] ∧ committed s.mod + leaveEst op ≤ budget s.mod ∧ stepFits s.mod (leaveStep op) = true then
        .granted s.mod.pwr.nextId
      else if committedRun s.mod + leaveEst op ≤ budget s.mod then .queued s.mod.pwr.nextId
      else if capped s.mod = true then .refused 0x16 else .refused 0x10)) ∧
  (∀ q t s, arrives .leaveGrant s.mod = true → s.mod.pwr.queue = q :: t → s.mod.pwr.holdup = none →
      committed s.mod + leaveEst q.op ≤ budget s.mod → stepFits s.mod (leaveStep q.op) = true → q.mbx = none → q.op = 5 ∨ q.op = 6 ∨ q.op = 7 →
      AnswersBuf .leaveGrant s fun m b => b = s.mem ∧ m.pwr.queue = t ∧
        m.pwr.grants = s.mod.pwr.grants ++ [{ id := q.id, op := q.op, unit := q.unit, left := leaveEst q.op, mbx := none }]) ∧
  (∀ id g s, arrives (.leaveRelease id) s.mod = true → s.mod.pwr.grants.find? (fun k => k.id == id) = some g →
      opRuns s.mod g = false → g.op ≠ 8 →
      Answers (.leaveRelease id) s fun m => m = { s.mod with
        pwr := { s.mod.pwr with grants := s.mod.pwr.grants.filter (fun k => k.id != id) } }) ∧
  (∀ id g t s, arrives (.leaveRelease id) s.mod = true → s.mod.pwr.grants.find? (fun k => k.id == id) = some g → g.op = 8 →
      opRuns s.mod g = false → (s.mod.trb.get g.unit).scrubRun = some t → (∀ e ∈ s.mod.ecc, e.word.inShed g.unit = false) →
      (∀ e ∈ s.mod.tbl.aclBad, e.1 ≠ g.unit) →
      Answers (.leaveRelease id) s fun m => (m.trb.get g.unit).scrubRun = none ∧ (m.trb.get g.unit).scrubLast = some s.mod.now ∧
        (m.trb.get g.unit).scrubDue = t + sec 10 ∧ ∀ k ∈ m.pwr.grants, k.id ≠ id) ∧
  (∀ s, arrives .leaveQueueTimeout s.mod = true → s.mod.pwr.queue.all (fun q => [3, 4, 6, 7, 9].contains q.op && q.mbx.isNone) = true →
      AnswersBuf .leaveQueueTimeout s fun m b => b = s.mem ∧
        m.pwr.queue = s.mod.pwr.queue.filter (fun q => decide (s.mod.now < q.at_ + sec 60)) ∧
        (s.mod.pwr.queue.any (fun q => decide (q.at_ + sec 60 ≤ s.mod.now)) = true → evtSet .yard evLeaveRefused m = true))

/-- LANE_WAVE_END 450 ms after its grant with no wave to come: no wave trains and its grant is released; at stage 11 of
start-up, in a module without pairing, stage 14 follows. DRAWBAR_TRAINING_DONE of a pair in training, not waiting for
a place, with no shed returning and no first round of start-up: both halves run at full rate, calibrated, with no
failure kept, and, none waiting, every other half is as it was. DRAWBAR_TRAINING_FAIL of the first or second in a row:
the failure counts and the pair has not given up; of the third: both halves are out of service and have given up, and
DRAWBAR_DOWN is set in both sheds during start-up (said later where a shed of the two does not work). THERMAL_SAMPLE
keeps temperature and state, and THERM_WARN, THERM_HOLD and THERM_CRIT are set as their thresholds are entered; a
critical one quiesces the shed. SHED_RETURN_HOLD_END 100 ms after a quiesce, a thermal one below 105 °C, and
SHED_RESTORE of a held shed: the return begins; else nothing changes. SHED_STATE_COPY_DONE: the shed holds no ticket
and is past its copy, and outside the forwarding modes it works and RETURNED is logged. SCRUB_PASS not due changes
nothing; due, with leave granted, it runs since now; refused, it is due again in 1 s. SCRUB_LATE 60 s after the last
pass, or the load: SCRUB_LATE is set, once (16 R498, R502; 06 R214; 17 R520, R526, R527). -/
def Obligations.ShedsQuiesceAndReturn : Prop :=
  (∀ w t s, arrives .laneWaveEnd s.mod = true → s.mod.pwr.wave = some (w, t) → passed s.mod.now t (ms 450) = true →
      s.mod.pwr.waves = [] →
      Answers .laneWaveEnd s fun m => m.pwr.wave = none ∧ m.pwr.waves = [] ∧ hasGrant m 2 w = false ∧
        (s.mod.pwr.stage = 11 → (pairOf_ s.mod).enabled = false → s.mod.pwr.queue.any (fun q => q.op == 2) = false → m.pwr.stage = 14)) ∧
  (∀ k s, arrives (.drawbarTrainingDone k) s.mod = true → pairTraining s.mod k = true → s.mod.pwr.stage ≠ 7 ∨ s.mod.pwr.round ≠ 1 →
      (∀ sh < 8, (s.mod.trb.get sh).st ≠ .returning) → k ∉ s.mod.mesh.retrain →
      Answers (.drawbarTrainingDone k) s fun m => (∀ h ∈ pairHalves k, (m.mesh.halves.get h).st = .full ∧
          (m.mesh.halves.get h).fails = 0 ∧ (m.mesh.halves.get h).gaveUp = false ∧ (m.mesh.halves.get h).cal = true) ∧
        hasGrant m 3 k = false ∧
        (s.mod.mesh.retrain = [] → ∀ h, h ∉ pairHalves k → m.mesh.halves.get h = s.mod.mesh.halves.get h)) ∧
  (∀ k f s, arrives (.drawbarTrainingFail k) s.mod = true → pairTraining s.mod k = true →
      (∀ h ∈ pairHalves k, (s.mod.mesh.halves.get h).fails = f) →
      (f < 2 → Answers (.drawbarTrainingFail k) s fun m => ∀ h ∈ pairHalves k,
        ((m.mesh.halves.get h).st = .outOfService ∨ (m.mesh.halves.get h).st = .training) ∧
        (m.mesh.halves.get h).fails = f + 1 ∧ (m.mesh.halves.get h).gaveUp = false) ∧
      (2 ≤ f → s.mod.pwr.stage ≠ 7 ∨ s.mod.pwr.round ≠ 1 → (∀ sh < 8, (s.mod.trb.get sh).st ≠ .returning) → k ∉ s.mod.mesh.retrain →
        (s.mod.pwr.stage ≤ 8 ∨ shedWorks s.mod (shedsOfPair k).1 = false ∨ shedWorks s.mod (shedsOfPair k).2 = false) →
        Answers (.drawbarTrainingFail k) s fun m => (∀ h ∈ pairHalves k, (m.mesh.halves.get h).st = .outOfService ∧
            (m.mesh.halves.get h).fails = f + 1 ∧ (m.mesh.halves.get h).gaveUp = true) ∧ hasGrant m 3 k = false ∧
          (s.mod.pwr.stage ≤ 8 → evtSet (.shed (shedsOfPair k).1) evDrawbarDown m = true ∧
            evtSet (.shed (shedsOfPair k).2) evDrawbarDown m = true))) ∧
  (∀ sh v s, arrives (.thermalSample sh v) s.mod = true → domRuns s.mod (408 + sh) = true →
      let o := (s.mod.pwr.therm.get sh).state
      let n := thermNext o v.toNat
      (n < 3 ∨ o = 3 → Answers (.thermalSample sh v) s fun m => m.pwr.therm.get sh = { state := n, temp := v } ∧
        (o < 1 → 1 ≤ n → evtSet .yard evThermWarn m = true) ∧ (o < 2 → 2 ≤ n → evtSet .yard evThermHold m = true) ∧
        m.trb = s.mod.trb) ∧
      (o < 3 → n = 3 → Answers (.thermalSample sh v) s fun m => evtSet .yard evThermCrit m = true ∧
        ((m.trb.get sh).st = .quiesced ∨ (m.trb.get sh).st = .held))) ∧
  (∀ sh s, arrives (.shedReturnHoldEnd sh) s.mod = true →
      let d := (s.mod.trb.get sh).st = .quiesced ∧ passed s.mod.now (s.mod.trb.get sh).since (ms 100) = true ∧
        ((s.mod.trb.get sh).thermal = false ∨ (s.mod.pwr.therm.get sh).temp.toNat < 840)
      (d → Answers (.shedReturnHoldEnd sh) s fun m => (m.trb.get sh).st = .returning ∧ (m.trb.get sh).step = 1 ∧
        ∀ k, k ≠ sh → m.trb.get k = s.mod.trb.get k) ∧
      (¬ d → Answers (.shedReturnHoldEnd sh) s fun m => m = s.mod)) ∧
  (∀ v s, arrives (.shedRestore v) s.mod = true →
      Answers (.shedRestore v) s fun m => ∀ sh < 8,
        (v.getLsbD sh = true → (s.mod.trb.get sh).st = .held → (m.trb.get sh).st = .returning ∧ (m.trb.get sh).step = 1) ∧
        (v.getLsbD sh = false ∨ (s.mod.trb.get sh).st ≠ .held → m.trb.get sh = s.mod.trb.get sh)) ∧
  (∀ sh s, arrives (.shedStateCopyDone sh) s.mod = true → (s.mod.trb.get sh).st = .returning → (s.mod.trb.get sh).step = 5 →
      Answers (.shedStateCopyDone sh) s fun m => (∀ t, tkt? m sh t = none) ∧ (m.trb.get sh).step ≠ 5 ∧
        (s.mod.mode.mode ≠ .standalone → s.mod.mode.mode ≠ .paired → (m.trb.get sh).st = .forwarding ∧
          recorded (.shed sh) evReturned m = true)) ∧
  (∀ sh s, arrives (.scrubPass sh) s.mod = true →
      (s.mod.now < (s.mod.trb.get sh).scrubDue → Answers (.scrubPass sh) s fun m => m = s.mod) ∧
      ((s.mod.ost.get sh).loaded = true → (s.mod.trb.get sh).scrubRun = none → (s.mod.trb.get sh).scrubDue ≤ s.mod.now →
        s.mod.pwr.queue.any (fun q => q.op == 8 && q.unit == sh) = false →
        (∀ id, decideLeave s.mod 8 sh = .granted id →
          Answers (.scrubPass sh) s fun m => (m.trb.get sh).scrubRun = some s.mod.now ∧ hasGrant m 8 sh = true) ∧
        (∀ r, decideLeave s.mod 8 sh = .refused r →
          Answers (.scrubPass sh) s fun m => (m.trb.get sh).scrubRun = none ∧ (m.trb.get sh).scrubDue = s.mod.now + sec 1 ∧
            evtSet .yard evLeaveRefused m = true))) ∧
  (∀ sh s, arrives (.scrubLate sh) s.mod = true → (s.mod.ost.get sh).loaded = true → (s.mod.trb.get sh).scrubLate = false →
      passed s.mod.now ((s.mod.trb.get sh).scrubLast.getD (s.mod.pwr.doms.get (416 + sh)).since) (sec 60) = true →
      Answers (.scrubLate sh) s fun m => recorded (.shed sh) evScrubLate m = true ∧ (m.trb.get sh).scrubLate = true ∧
        m = { raised s.mod m with trb := m.trb })

/-- MODE_CHANGE: malformed INVALID_ARGUMENT; in transition or activating BUSY; Quiesced from a forwarding mode begins a
drain of 5 ms; Standalone from Quiesced with an ACTIVE timetable, Diagnostic from Quiesced and back are made at once;
any other WRONG_MODE. QUIESCE_DRAIN_END, Foltin running, 5 ms on or with nothing inside: Quiesced, what was inside
counted; else nothing changes. DIAGNOSTIC_SESSION_END: Quiesced. YARD_DISCOVERY_COMPLETE too early changes nothing;
with every drawbar up stage 9 follows; with no working shed the module enters Quiesced (CAUSE 3 the model's choice,
log 72). FOLTIN_WATCHDOG: the firmware is down, the session over, FOLTIN_RESTART set. FOLTIN_RESTART_DONE with no
drain: it serves again. SCHEDULED_RESET at its time leads to Cold with its CAUSE; MOD_RESET_ASSERT to Cold, held until
MOD_RESET_RELEASE, and (said with no frame in transmission) keeps time, slots and enrolment. DOMAIN_WAKE_SETTLED of
424 in Cold, mains good and no reset held: Harnessing at stage 2. RESET_GLITCH counts and sets RESET_GLITCH.
FIRMWARE_IMAGE_CHECK of the next slot: its image runs when it passes, at stage 3; when it fails the one after it is
next, and after the last Cold with CAUSE 9. PATCH_VERIFY at stage 5 leads to stage 6 with the patch's result. -/
def Obligations.ModesAndResets : Prop :=
  (∀ n s, arrives (.modeChange n) s.mod = true → running s.mod n 3 →
      let q := (s.mod.dax.boxes.get n).body
      let mode := s.mod.mode.mode
      let wish := leAt q 0 1
      let bad := (s.mod.dax.boxes.get n).len ≠ 4 ∨ 5 < wish ∨ leAt q 1 3 ≠ 0
      (bad → Ends (.modeChange n) s n stInvalid [] s.mod) ∧
      (¬ bad → inTransition s.mod = true ∨ activationOn s.mod = true → Ends (.modeChange n) s n stBusy [] s.mod) ∧
      (¬ bad → inTransition s.mod = false → activationOn s.mod = false →
        (mode = .standalone ∨ mode = .paired → wish = 4 → AnswersBuf (.modeChange n) s fun m b =>
          b = s.mem ∧ m.mode = { s.mod.mode with target := .quiesced, drainEnd := some (s.mod.now + ms 5), modeMbx := some n } ∧
          m.cpl.stopRenew = true ∧ m.tt = s.mod.tt ∧ m.line = s.mod.line) ∧
        (mode = .quiesced → wish = 2 → s.mod.tt.active.isSome = true → AnswersBuf (.modeChange n) s fun m _ => replied m n stOk ∧
          m.mode.mode = .standalone ∧ m.mode.target = .standalone ∧ m.mode.cause = 6) ∧
        (mode = .quiesced → wish = 5 → AnswersBuf (.modeChange n) s fun m _ => replied m n stOk ∧
          m.mode.mode = .diagnostic ∧ m.mode.target = .diagnostic ∧ m.mode.cause = 6) ∧
        (mode = .diagnostic → wish = 4 → AnswersBuf (.modeChange n) s fun m _ => replied m n stOk ∧
          m.mode.mode = .quiesced ∧ m.mode.cause = 6) ∧
        (((mode = .standalone ∨ mode = .paired ∨ mode = .diagnostic) ∧ wish ≠ 4) ∨ mode = .cold ∨ mode = .harnessing ∨
          (mode = .quiesced ∧ wish ≠ 5 ∧ (wish ≠ 2 ∨ s.mod.tt.active = none)) → Ends (.modeChange n) s n stWrongMode [] s.mod))) ∧
  (∀ t s, arrives .quiesceDrainEnd s.mod = true → s.mod.mode.drainEnd = some t →
      let inside := (heldFrames s.mod).filter (fun e => stillHeld e.2)
      (s.mod.dax.up = true → t ≤ s.mod.now ∨ inside = [] →
        AnswersBuf .quiesceDrainEnd s fun m _ => m.mode.mode = .quiesced ∧ m.mode.target = .quiesced ∧ m.mode.cause = 6 ∧
          m.mode.drainEnd = none ∧ m.mode.discard = s.mod.mode.discard + inside.length) ∧
      (s.mod.dax.up = false ∨ (s.mod.now < t ∧ inside ≠ []) →
        AnswersBuf .quiesceDrainEnd s fun m b => m = s.mod ∧ b = s.mem)) ∧
  (∀ s, arrives .diagnosticSessionEnd s.mod = true →
      (s.mod.mode.mode = .diagnostic → s.mod.mode.target = .diagnostic →
        Answers .diagnosticSessionEnd s fun m => m.mode = { s.mod.mode with mode := .quiesced, target := .quiesced, cause := 6 }) ∧
      (s.mod.mode.mode ≠ .diagnostic → Answers .diagnosticSessionEnd s fun m => m = s.mod)) ∧
  (∀ s, arrives .yardDiscoveryComplete s.mod = true →
      (s.mod.mode.mode ≠ .harnessing ∨ s.mod.pwr.stage ≠ 8 ∨ (∃ k < 28, pairSettled s.mod k = false) ∨
          (∃ sh < 8, shedWorks s.mod sh = true ∧ shedWakeOver s.mod sh = false) →
        Answers .yardDiscoveryComplete s fun m => m = s.mod) ∧
      (s.mod.mode.mode = .harnessing → s.mod.pwr.stage = 8 → workingSheds s.mod ≠ [] →
        (∀ sh < 8, shedWorks s.mod sh = true → domRuns s.mod (128 + 16 * sh + 15) = true) →
        (∀ k < 28, ∀ h ∈ pairHalves k, halfRuns (s.mod.mesh.halves.get h) = true) →
        Answers .yardDiscoveryComplete s fun m => m.mode = s.mod.mode ∧ m.pwr.stage = 9 ∧ m.tt.active = none) ∧
      (s.mod.mode.mode = .harnessing → s.mod.pwr.stage = 8 → workingSheds s.mod = [] →
        Answers .yardDiscoveryComplete s fun m => m.mode.mode = .quiesced ∧ m.mode.cause = 3 ∧ m.pwr.stage = 14)) ∧
  (∀ s, arrives .foltinWatchdog s.mod = true → s.mod.dax.up = true →
      AnswersBuf .foltinWatchdog s fun m _ => m.dax.up = false ∧ m.dax.restartAt = some s.mod.now ∧
        m.dax.restarts = s.mod.dax.restarts + 1 ∧ m.dax.version = none ∧ m.dax.session = 0 ∧ m.tt.act = none ∧
        evtSet .yard evFoltinRestart m = true ∧ m.cpl.stopRenew = true) ∧
  (∀ t s, arrives .foltinRestartDone s.mod = true → s.mod.dax.restartAt = some t → s.mod.mode.drainEnd = none →
      AnswersBuf .foltinRestartDone s fun m b => b = s.mem ∧
        m = { s.mod with dax := { s.mod.dax with up := true, restartAt := none } }) ∧
  (∀ s, arrives .modResetAssert s.mod = true → s.mod.mode.powered = true → s.mod.ext.inReset = false →
      AnswersBuf .modResetAssert s fun m _ => m.mode.mode = .cold ∧ m.mode.cause = 1 ∧ m.host.up = false ∧ m.tt.active = none ∧
        ((∀ p, (s.mod.line.ports.get p).tx = none) → m.ext.inReset = true ∧ m.now = s.mod.now ∧
          m.sec.slots = s.mod.sec.slots ∧ m.sec.enrol = s.mod.sec.enrol)) ∧
  (∀ s, arrives .modResetRelease s.mod = true → s.mod.mode.powered = true → s.mod.ext.inReset = true →
      Answers .modResetRelease s fun m => m = { s.mod with ext := { s.mod.ext with resetPin := true, inReset := false } }) ∧
  (∀ s, arrives (.domainWakeSettled 424) s.mod = true → domSt s.mod 424 = .waking → s.mod.mode.mode = .cold → s.mod.mode.powered = true →
      s.mod.ext.inReset = false → s.mod.mode.bootFailed = false → mainsGood s.mod = true → s.mod.pwr.holdup = none →
      s.mod.pwr.stage ≤ 5 → (∀ sh < 8, (s.mod.trb.get sh).st ≠ .returning) →
      Answers (.domainWakeSettled 424) s fun m => m.mode.mode = .harnessing ∧ m.mode.cause = s.mod.mode.cause ∧ m.pwr.stage = 2 ∧
        m.sec.toTry = bootOrder s.mod ∧ m.sec.boots = s.mod.sec.boots + 1) ∧
  (∀ t s, arrives .scheduledReset s.mod = true → s.mod.mode.resetAt = some t → t ≤ s.mod.now →
      AnswersBuf .scheduledReset s fun m _ => m.mode.mode = .cold ∧ m.mode.cause = s.mod.mode.resetCause ∧ m.mode.resetAt = none ∧
        m.host.up = false ∧ m.tt.active = none) ∧
  (∀ s, arrives .resetGlitch s.mod = true → s.mod.mode.powered = true → s.mod.ext.inReset = false →
      Answers .resetGlitch s fun m => m.ext = { s.mod.ext with glitches := s.mod.ext.glitches + 1 } ∧
        evtSet .yard evResetGlitch m = true) ∧
  (∀ k t s, arrives .firmwareImageCheck s.mod = true → s.mod.mode.mode = .harnessing → s.mod.sec.running = false →
      domRuns s.mod 424 = true → s.mod.sec.toTry = k :: t →
      AnswersBuf .firmwareImageCheck s fun m b =>
        (fwCheck s.mod s.mem k = secOk → b = s.mem ∧ m.sec.running = true ∧
          m.sec.runSlot = k ∧ m.dax.up = true ∧ m.pwr.stage = 3 ∧ m.sec.svn = BitVec.ofNat 32 (fwSvn (fwHeader s.mem k)) ∧
          m.sec.trial = ((s.mod.sec.slots.get k).st == .trial) ∧ (m.sec.trial = true → (m.sec.slots.get k).tried = true) ∧
          s.mod.sec.minSvn.toNat ≤ m.sec.minSvn.toNat) ∧
        (fwCheck s.mod s.mem k ≠ secOk → t ≠ [] → b = s.mem ∧ m.sec.running = false ∧
          m.sec.toTry = t ∧ m.sec.fallback = true ∧ m.sec.result.get k = fwCheck s.mod s.mem k ∧ m.mode = s.mod.mode ∧
          (m.sec.slots.get k).st = (if (s.mod.sec.slots.get k).st = .committed then .committed else .invalid)) ∧
        (fwCheck s.mod s.mem k ≠ secOk → t = [] → m.mode.mode = .cold ∧ m.mode.cause = 9 ∧ m.mode.bootFailed = true)) ∧
  (∀ s, arrives .patchVerify s.mod = true → s.mod.mode.mode = .harnessing → s.mod.dax.up = true → s.mod.pwr.stage = 5 →
      AnswersBuf .patchVerify s fun m b => b = s.mem ∧ m.pwr.stage = 6 ∧
        m.patch.result = (patchCheck s.mod (patchImage s.mod s.mem)).1 ∧
        (m.patch.verified = true ↔ (patchCheck s.mod (patchImage s.mod s.mem)).1 = 0) ∧
        ((patchCheck s.mod (patchImage s.mod s.mem)).1 ≠ 0 → (patchCheck s.mod (patchImage s.mod s.mem)).1 ≠ 8 →
          ∀ sh < 8, evtSet (.shed sh) evPatchFail m = true))

/-- STRAP_CHANGE: the live level is as given and what was sampled stays; a change after the sampling sets STRAP_CHANGE.
FACE_SENSOR_READ with its domain running: the face's state and hottest reading are kept, and FACE_HOT or FACE_COLD is
set where it enters that state. CPL_CABLE_CHANGE to another level: CPL_CABLE is set. MANAGEMENT_LINK_CHANGE: up with
its MAC and PHY running, or down with port 1037 reset (R564 to R574). -/
def Obligations.PinsAndFaces : Prop :=
  (∀ k v s, arrives (.strapChange k v) s.mod = true →
      Answers (.strapChange k v) s fun m => m.ext.gen4 = s.mod.ext.gen4 ∧ m.ext.refclk = s.mod.ext.refclk ∧
        (k = .gen4 → m.ext.liveGen4 = v ∧ m.ext.liveRefclk = s.mod.ext.liveRefclk) ∧
        (k = .refclk → m.ext.liveRefclk = v ∧ m.ext.liveGen4 = s.mod.ext.liveGen4) ∧
        (s.mod.ext.sampled = true → (k = .gen4 ∧ s.mod.ext.liveGen4 ≠ v) ∨ (k = .refclk ∧ s.mod.ext.liveRefclk ≠ v) →
          evtSet .yard evStrapChange m = true) ∧ m = { raised s.mod m with ext := m.ext }) ∧
  (∀ b l s, arrives (.faceSensorRead b l) s.mod = true → domRuns s.mod 446 = true →
      let r := l.foldl max (l.headD 0)
      let o := if b then s.mod.ext.faceB else s.mod.ext.faceT
      let n := faceNext (if b then 480 else 440) o.1 r
      Answers (.faceSensorRead b l) s fun m => (if b then m.ext.faceB else m.ext.faceT) = (n, min r.toNat 4095) ∧
        (if b then m.ext.faceT else m.ext.faceB) = (if b then s.mod.ext.faceT else s.mod.ext.faceB) ∧
        (n = 1 → o.1 ≠ 1 → evtSet .yard evFaceHot m = true) ∧ (n = 2 → o.1 ≠ 2 → evtSet .yard evFaceCold m = true) ∧
        m = { raised s.mod m with ext := m.ext }) ∧
  (∀ v s, arrives (.cplCableChange v) s.mod = true →
      (s.mod.ext.cable = v → Answers (.cplCableChange v) s fun m => m = s.mod) ∧
      (s.mod.ext.cable ≠ v → Answers (.cplCableChange v) s fun m => m.ext = { s.mod.ext with cable := v } ∧
        evtSet .yard evCplCable m = true)) ∧
  (∀ s, arrives (.managementLinkChange true) s.mod = true → s.mod.ext.mgmtLink = false → domRuns s.mod 440 = true →
      domRuns s.mod 441 = true →
      Answers (.managementLinkChange true) s fun m => m.ext = { s.mod.ext with mgmtLink := true } ∧
        (portSt m 1037).idleAt = s.mod.now) ∧
  (∀ s, arrives (.managementLinkChange false) s.mod = true → s.mod.ext.mgmtLink = true →
      Answers (.managementLinkChange false) s fun m => m.ext.mgmtLink = false ∧ (portSt m 1037).up = false ∧ (portSt m 1037).tx = none)

/-- Of the security commands of class A in their turn (R544): FW_WRITE into the running slot answers RUNNING_SLOT and
changes nothing; opening another slot with its first bytes makes it WRITING, every byte of it but those read 0; the
next bytes of a WRITING slot are stored at its end and nowhere else, the reply apart. FIRMWARE_UPDATE of a slot whose
image passes its checks: TRIAL, not tried, answered with its SVN, and with a reset asked for 100 ms away; of one that
fails, INVALID unless COMMITTED, answered with the result. FW_COMMIT in a trial: the running slot is COMMITTED, the
other one no longer, MIN_SVN never falls, no fuse is restored, and no trial is on. FW_STATUS answers SEC_BOOT (R532 to
R538, R545). -/
def Obligations.FirmwareIsWritten : Prop :=
  (∀ n s, arrives (.fwWrite n) s.mod = true → running s.mod n 0x71 → secTurn s.mod n = true → Safe s →
      let q := (s.mod.dax.boxes.get n).body
      let k := leAt q 0 1
      let size := leAt q 2 2
      k ≤ 1 → (s.mod.dax.boxes.get n).len = 8 + size → size ≤ 3584 → leAt q 4 4 + size ≤ 0x600000 →
      (leAt q 1 1 ≤ 1 → (8 ≤ size ∨ leAt q 1 1 = 1) → s.mod.sec.running = true → s.mod.sec.runSlot = k →
        Ends (.fwWrite n) s n stDenied [7#8] s.mod) ∧
      ((s.mod.sec.running = false ∨ s.mod.sec.runSlot ≠ k) → classCRuns s.mod n = false → size % 8 = 0 →
        (leAt q 1 1 = 1 → leAt q 4 4 = 0 → AnswersBuf (.fwWrite n) s fun m b => replied m n stOk ∧
          m.sec.slots.get k = { st := .writing, next := size } ∧
          (∀ i < size, Memory.read b (slotBase k + i) = (sliceOf q 8 size).getD i 0) ∧
          (∀ a, slotBase k + size ≤ a → a < slotBase k + 0x1000000 → Memory.read b a = 0#8) ∧
          (∀ a, ¬ (slotBase k ≤ a ∧ a < slotBase k + 0x1000000) → ¬ (mbxBase n ≤ a ∧ a < mbxBase n + 17) →
            Memory.read b a = Memory.read s.mem a)) ∧
        (leAt q 1 1 = 0 → 8 ≤ size → (s.mod.sec.slots.get k).st = .writing → leAt q 4 4 = (s.mod.sec.slots.get k).next →
          AnswersBuf (.fwWrite n) s fun m b => replied m n stOk ∧
            (m.sec.slots.get k).next = leAt q 4 4 + size ∧ (m.sec.slots.get k).st = .writing ∧
            (∀ i < size, Memory.read b (slotBase k + leAt q 4 4 + i) = (sliceOf q 8 size).getD i 0) ∧
            (∀ a, ¬ (slotBase k + leAt q 4 4 ≤ a ∧ a < slotBase k + leAt q 4 4 + size) → ¬ (mbxBase n ≤ a ∧ a < mbxBase n + 17) →
              Memory.read b a = Memory.read s.mem a)))) ∧
  (∀ n s, arrives (.firmwareUpdate n) s.mod = true → running s.mod n 0x70 →
      let q := (s.mod.dax.boxes.get n).body
      let k := leAt q 0 1
      (s.mod.dax.boxes.get n).len = 2 → k ≤ 1 → leAt q 1 1 ≤ 1 → (s.mod.sec.running = false ∨ s.mod.sec.runSlot ≠ k) →
      AnswersBuf (.firmwareUpdate n) s fun m _ => m.sec.slots.get (1 - k) = s.mod.sec.slots.get (1 - k) ∧
        (if fwCheck s.mod s.mem k = secOk then replied m n stOk ∧ (m.sec.slots.get k).st = .trial ∧
            (m.sec.slots.get k).tried = false ∧
            m.mode.resetAt = (if leAt q 1 1 = 1 then some (s.mod.now + ms 100) else s.mod.mode.resetAt)
          else replied m n (secStatus (fwCheck s.mod s.mem k)) ∧ m.mode = s.mod.mode ∧
            (m.sec.slots.get k).st = (if (s.mod.sec.slots.get k).st = .committed then .committed else .invalid))) ∧
  (∀ n s, arrives (.fwCommit n) s.mod = true → running s.mod n 0x72 → secTurn s.mod n = true → (s.mod.dax.boxes.get n).len = 0 →
      (s.mod.sec.trial = false → Ends (.fwCommit n) s n stOk [0#8] s.mod) ∧
      (s.mod.sec.trial = true → s.mod.sec.runSlot ≤ 1 → AnswersBuf (.fwCommit n) s fun m _ => replied m n stOk ∧
        (m.sec.slots.get s.mod.sec.runSlot).st = .committed ∧ (m.sec.slots.get (1 - s.mod.sec.runSlot)).st ≠ .committed ∧
        m.sec.trial = false ∧ s.mod.sec.minSvn.toNat ≤ m.sec.minSvn.toNat ∧ s.mod.sec.fuses &&& m.sec.fuses = s.mod.sec.fuses)) ∧
  (∀ n s, arrives (.fwStatus n) s.mod = true → running s.mod n 0x73 → secTurn s.mod n = true → (s.mod.dax.boxes.get n).len = 0 →
      Ends (.fwStatus n) s n stOk ([0, 0, 0, 0] ++ leBytes 4 (secBoot s.mod).toNat) s.mod)

/-- Security commands in their turn, which no earlier one of class A precedes (QUOTE out of its turn changes nothing):
ENROL of a module without an owner keeps the keys and policy given; with one it answers ENROLLED. QUOTE and the
authorised messages without an owner answer NOT_ENROLLED; QUOTE with one answers the report on the nonce. CHALLENGE
keeps a challenge issued now, CHALLENGE_LAPSE ends it after 60 s. DECOMMISSION outside Quiesced ends WRONG_MODE;
POLICY_SET and DECOMMISSION without a challenge in force are DENIED, the challenge used up, and so they are when the
signature fails; authorised, POLICY_SET sets the policy, and DECOMMISSION ends the enrolment, empties both banks and
asks for a reset 100 ms away. MACSEC_KEY whose fields fail ends INVALID_ARGUMENT. MACSEC_INSTALL_TX_SA keeps the
transmit SA under its AN, and no other changes; MACSEC_INSTALL_RX_SA keeps the receive SA in its channel, a new one
where the stall has fewer than 128; MACSEC_DELETE_SA erases the receive SA of the SCI, else its transmit SA;
MACSEC_SELECT_TX_SA makes an SA the transmit channel's; a delete or select of none ends INVALID_ARGUMENT (R539 to
R544; 12 R403). -/
def Obligations.OwnersAndKeys : Prop :=
  (∀ n s, arrives (.enrol n) s.mod = true → running s.mod n 0x74 → secTurn s.mod n = true →
      let q := (s.mod.dax.boxes.get n).body
      (s.mod.dax.boxes.get n).len = 118 → leAt q 0 1 ≤ 1 → leAt q 1 1 ≤ 1 → leAt q 2 2 = 0 →
      (s.mod.sec.enrol.isSome = true → Ends (.enrol n) s n stDenied [9#8] s.mod) ∧
      (s.mod.sec.enrol = none → AnswersBuf (.enrol n) s fun m _ => replied m n stOk ∧ ∃ e, m.sec.enrol = some e ∧
        e.auth = sliceOf q 4 57 ∧ e.ttKey = (if leAt q 1 1 = 1 then some (sliceOf q 61 57) else none) ∧ e.policy = leAt q 0 1)) ∧
  (∀ n s, arrives (.quote n) s.mod = true → running s.mod n 0x75 → secTurn s.mod n = true → (s.mod.dax.boxes.get n).len = 32 →
      (s.mod.sec.enrol = none → Ends (.quote n) s n stDenied [8#8] s.mod) ∧
      (∀ e, s.mod.sec.enrol = some e → Ends (.quote n) s n stOk
        ([0, 0, 0, 0] ++ quoteReport s.mod e (s.mod.dax.boxes.get n).body) s.mod)) ∧
  (∀ n s, arrives (.quote n) s.mod = true → secTurn s.mod n = false → AnswersBuf (.quote n) s fun m b => m = s.mod ∧ b = s.mem) ∧
  (∀ n s, arrives (.challenge n) s.mod = true → running s.mod n 0x76 → secTurn s.mod n = true → (s.mod.dax.boxes.get n).len = 0 →
      AnswersBuf (.challenge n) s fun m _ => replied m n stOk ∧ ∃ c, m.sec.challenge = some (c, s.mod.now) ∧ c.length = 32) ∧
  (∀ c t s, arrives .challengeLapse s.mod = true → s.mod.sec.challenge = some (c, t) →
      (passed s.mod.now t (sec 60) = true → Answers .challengeLapse s fun m => m = { s.mod with sec := { s.mod.sec with challenge := none } }) ∧
      (passed s.mod.now t (sec 60) = false → Answers .challengeLapse s fun m => m = s.mod)) ∧
  (∀ n s, arrives (.decommission n) s.mod = true → running s.mod n 0x77 → secTurn s.mod n = true → (s.mod.dax.boxes.get n).len = 114 →
      (s.mod.mode.mode ≠ .quiesced → Ends (.decommission n) s n stWrongMode [] s.mod) ∧
      (s.mod.mode.mode = .quiesced → classCRuns s.mod n = false → ∀ e, s.mod.sec.enrol = some e →
        (currentChallenge s.mod = none → Ends (.decommission n) s n stDenied [10#8] (useChallenge s.mod)) ∧
        ((currentChallenge s.mod).isSome = true → AnswersBuf (.decommission n) s fun m _ => m.sec.challenge = none ∧
          (if authorise s.mod e 0x77 [] (s.mod.dax.boxes.get n).body = none then replied m n stOk ∧ m.sec.enrol = none ∧
              (∀ k, (m.tt.banks.get k).st = .empty) ∧ m.tt.active = none ∧
              m.mode.resetAt = some (s.mod.now + ms 100) ∧ m.mode.resetCause = 1
            else replied m n stDenied ∧ m.sec.enrol = some e ∧ m.tt = s.mod.tt ∧ m.mode = s.mod.mode)))) ∧
  (∀ n s, arrives (.policySet n) s.mod = true → running s.mod n 0x78 → secTurn s.mod n = true →
      let q := (s.mod.dax.boxes.get n).body
      (s.mod.dax.boxes.get n).len = 116 → leAt q 0 1 ≤ 1 → leAt q 1 1 = 0 →
      (s.mod.sec.enrol = none → Ends (.policySet n) s n stDenied [8#8] s.mod) ∧
      (∀ e, s.mod.sec.enrol = some e →
        (currentChallenge s.mod = none → Ends (.policySet n) s n stDenied [10#8] (useChallenge s.mod)) ∧
        ((currentChallenge s.mod).isSome = true → AnswersBuf (.policySet n) s fun m _ => m.sec.challenge = none ∧
          (if authorise s.mod e 0x78 (sliceOf q 0 2) (sliceOf q 2 114) = none then replied m n stOk ∧
              m.sec.enrol = some { e with policy := leAt q 0 1 }
            else replied m n stDenied ∧ m.sec.enrol = some e)))) ∧
  (∀ n c o s, (c, o) ∈ [(Instr.macsecInstallTxSa n, 0), (Instr.macsecInstallRxSa n, 1), (Instr.macsecDeleteSa n, 2),
        (Instr.macsecSelectTxSa n, 3)] → arrives c s.mod = true → running s.mod n 0x50 → leAt (s.mod.dax.boxes.get n).body 0 1 = o →
      macsecFields s.mod (s.mod.dax.boxes.get n) = false → Ends c s n stInvalid [] s.mod) ∧
  (∀ n s, arrives (.macsecInstallTxSa n) s.mod = true → running s.mod n 0x50 →
      let q := (s.mod.dax.boxes.get n).body
      let k := (leAt q 2 2, leAt q 1 1)
      leAt q 0 1 = 0 → macsecFields s.mod (s.mod.dax.boxes.get n) = true →
      AnswersBuf (.macsecInstallTxSa n) s fun m _ => replied m n stOk ∧ m.line.rxSc = s.mod.line.rxSc ∧
        m.line.txSa.get k = some { sci := sliceOf q 4 8, ssci := sliceOf q 0x0C 4, salt := sliceOf q 0x10 12, key := sliceOf q 0x20 32,
                                   nextPn := some (leAt q 0x40 8) } ∧
        ∀ j, j ≠ k → m.line.txSa.get j = s.mod.line.txSa.get j) ∧
  (∀ n s, arrives (.macsecInstallRxSa n) s.mod = true → running s.mod n 0x50 →
      let q := (s.mod.dax.boxes.get n).body
      let p := leAt q 2 2
      let sci := sliceOf q 4 8
      let new := s.mod.line.rxSc.any (fun r => r.port == p && r.sci == sci) = false
      leAt q 0 1 = 1 → macsecFields s.mod (s.mod.dax.boxes.get n) = true →
      (new → 128 ≤ (stallChannels s.mod (stallOf p)).length → Ends (.macsecInstallRxSa n) s n stInvalid [] s.mod) ∧
      (¬ new ∨ (stallChannels s.mod (stallOf p)).length < 128 → AnswersBuf (.macsecInstallRxSa n) s fun m _ => replied m n stOk ∧
        m.line.txSa = s.mod.line.txSa ∧ ∃ r ∈ m.line.rxSc, r.port = p ∧ r.sci = sci ∧ r.sas.get (leAt q 1 1) =
          some { ssci := sliceOf q 0x0C 4, salt := sliceOf q 0x10 12, key := sliceOf q 0x20 32, low := leAt q 0x40 8 })) ∧
  (∀ n s, arrives (.macsecDeleteSa n) s.mod = true → running s.mod n 0x50 →
      let q := (s.mod.dax.boxes.get n).body
      let k := (leAt q 2 2, leAt q 1 1)
      let sci := sliceOf q 4 8
      let rx := s.mod.line.rxSc.any (fun r => r.port == k.1 && r.sci == sci && (r.sas.get k.2).isSome)
      let tx := (s.mod.line.txSa.get k).any (fun a => a.sci == sci)
      leAt q 0 1 = 2 → macsecFields s.mod (s.mod.dax.boxes.get n) = true →
      (allZero (sliceOf q 0x20 32) = false ∨ (rx = false ∧ tx = false) → Ends (.macsecDeleteSa n) s n stInvalid [] s.mod) ∧
      (allZero (sliceOf q 0x20 32) = true → rx = true → AnswersBuf (.macsecDeleteSa n) s fun m _ => replied m n stOk ∧
        m.line.txSa = s.mod.line.txSa ∧ ∀ r ∈ m.line.rxSc, r.port = k.1 → r.sci = sci → r.sas.get k.2 = none) ∧
      (allZero (sliceOf q 0x20 32) = true → rx = false → tx = true → AnswersBuf (.macsecDeleteSa n) s fun m _ => replied m n stOk ∧
        m.line.rxSc = s.mod.line.rxSc ∧ m.line.txSa.get k = none ∧ ∀ j, j ≠ k → m.line.txSa.get j = s.mod.line.txSa.get j)) ∧
  (∀ n s, arrives (.macsecSelectTxSa n) s.mod = true → running s.mod n 0x50 →
      let q := (s.mod.dax.boxes.get n).body
      let k := (leAt q 2 2, leAt q 1 1)
      leAt q 0 1 = 3 → macsecFields s.mod (s.mod.dax.boxes.get n) = true →
      (allZero (sliceOf q 0x20 32) = false ∨ s.mod.line.txSa.get k = none → Ends (.macsecSelectTxSa n) s n stInvalid [] s.mod) ∧
      (allZero (sliceOf q 0x20 32) = true → (s.mod.line.txSa.get k).isSome = true → AnswersBuf (.macsecSelectTxSa n) s fun m _ =>
        replied m n stOk ∧ m.line.txAn = s.mod.line.txAn.set k.1 k.2 ∧ m.line.rxSc = s.mod.line.rxSc))

/-- An event of a block with an event register gives that register the next EVT_SEQ modulo 2^16 and the event's bit that
sequence; every other bit and every other event register is unchanged; and of an event with a detail of its own, the
first of its cycle at its trouble log, the log holds what entering it makes of it. An event entered in a trouble log
that holds at most 64 records: the log's EVT_SEQ is the next, the sticky bit of the code keeps it and the severity,
and the other sticky bits are unchanged; at most 64 records stand. A Notice that repeats one of the last 1 ms writes
no record and counts as merged (that an event without a word address is told by its code alone is the model's choice,
log 24). Any other event writes a record: with fewer than 64 unread it comes last; with 64 unread one record is lost
and counted, the new one where the oldest is a Machine check or Fatal record and the new one is of lower severity,
else the oldest. -/
def Obligations.EventsAreLogged : Prop :=
  (∀ l e d a x, e.blk ≠ 0 →
      let r := x.evts.get (l, e.blk)
      let m := raiseQuiet l e d a x
      (m.evts.get (l, e.blk)).seq = r.seq + 1 ∧ (m.evts.get (l, e.blk)).bits.get e.bit = some (r.seq + 1) ∧
      (∀ i, i ≠ e.bit → (m.evts.get (l, e.blk)).bits.get i = r.bits.get i) ∧
      (∀ k, k ≠ (l, e.blk) → m.evts.get k = x.evts.get k)) ∧
  (∀ l e w a x, e.blk ≠ 31 → (x.logs.get l).busyIn x.cyc = false →
      ((raiseQuiet l e (some w) a x).logs.get l).toTStore = ((x.logs.get l).enter x.now (16 * e.blk + e.bit) e.sev a w).toTStore) ∧
  (∀ (g : TLog) now code sev addr detail, g.recs.length ≤ 64 →
      let m := g.enter now code sev addr detail
      let r : TRec := { seq := g.seq + 1, sev := sev, code := code, time := now / 1000, detail := detail }
      m.seq = g.seq + 1 ∧ m.sticky.get code = some (g.seq + 1, sev) ∧ (∀ k, k ≠ code → m.sticky.get k = g.sticky.get k) ∧
      m.recs.length ≤ 64 ∧
      (g.writes now code sev addr = false → m.recs = g.recs ∧ m.merged = g.merged + 1 ∧ m.lost = g.lost) ∧
      (g.writes now code sev addr = true → g.recs.length < 64 → m.recs = g.recs ++ [r] ∧ m.merged = g.merged ∧ m.lost = g.lost) ∧
      (g.writes now code sev addr = true → ∀ o ∈ g.recs.head?, g.recs.length = 64 → m.lost = g.lost + 1 ∧
        m.recs = if 3 ≤ sevRank o.sev ∧ sevRank sev < sevRank o.sev then g.recs else g.recs.tail ++ [r]))

/-- For every state whose addressed buffers are in canonical form (addresses strictly rising, no entry equal to what an
unlisted address reads as), whatever command stands at the front of the queue: if the step answers a next state, the
buffers of that state are in canonical form too, and its queue is the old one without its front command. The form of
the buffers is the model's (log 10). -/
def Obligations.StepsKeepTheBuffers : Prop :=
  ∀ s t : State, Safe s → step s = .next t → Safe t ∧ t.pending = s.pending.tail

/-- Right after reset no command waits, the addressed buffers are in canonical form, and these registers read as the
spec's tables reset them: YRD_MODE 0 (Cold, R32), TIM_CFG and TIM_JUMP (R313, R314), the HST_VEC_MAP registers (source
i on vector i, R433), HST_RING_STATUS of the first 64 rings (idle, R435), ISL_STATE (R477), TRB_STATUS and TRB_IRQ of
the yard (R528), LFT_WARN of the eight sheds (R222) and LNE_CLK of the 128 stalls (R72). -/
def Obligations.ResetIsCold : Prop :=
  State.reset.pending = [] ∧ Safe State.reset ∧ State.reset.mod.mode.mode = .cold ∧
  regValue State.reset.mod 0x100 = 0 ∧ regValue State.reset.mod 0x80020 = 0x06400000 ∧ regValue State.reset.mod 0x8002C = 1000 ∧
  (∀ k < 120, regValue State.reset.mod (0xC0400 + 4 * k) = BitVec.ofNat 32 (2 * k + 65536 * (2 * k + 1))) ∧
  regValue State.reset.mod 0xC05E0 = 240 ∧ (∀ n < 64, regValue State.reset.mod (0xC4004 + 64 * n) = 0x80000000) ∧
  regValue State.reset.mod 0xD0004 = 0xE00000FA ∧ regValue State.reset.mod 0xF0000 = 0xE000 ∧ regValue State.reset.mod 0xF0010 = 1 ∧
  (∀ i < 8, regValue State.reset.mod (0x1040010 + 0x1000000 * i) = 0xA8009000) ∧
  (∀ i < 8, ∀ j < 16, regValue State.reset.mod (0x1800010 + 0x1000000 * i + 0x40000 * j) = 3)
end

