-- ==== Sys2Proof/Laws/Memory.lean ====
section
/-! SUPPORT. Sys2Proof/Laws/Memory.lean: every operation on the addressed buffers keeps their canonical form, a byte written is
the byte read, and every other address reads as before. -/

namespace Sys2Proof.Machine

theorem Memory.wfFrom_mono {lo lo' : Nat} (h : lo' ≤ lo) (l : List Host.Cell) (w : Memory.wfFrom lo l = true) :
    Memory.wfFrom lo' l = true := by
  cases l with
  | nil => rfl
  | cons c t =>
    simp only [Memory.wfFrom, Bool.and_eq_true, decide_eq_true_eq] at w ⊢
    exact ⟨⟨le_trans h w.1.1, w.1.2⟩, w.2⟩

theorem Memory.wfFrom_write {lo a : Nat} {v : Byte} (h : lo ≤ a) (l : List Host.Cell)
    (w : Memory.wfFrom lo l = true) : Memory.wfFrom lo (Memory.write l a v) = true := by
  induction l generalizing lo with
  | nil => by_cases hv : v = 0#8 <;> simp [Memory.write, Memory.wfFrom, hv, h]
  | cons c t ih =>
    simp only [Memory.wfFrom, Bool.and_eq_true, decide_eq_true_eq, bne_iff_ne, ne_eq] at w
    obtain ⟨⟨h1, h2⟩, h3⟩ := w
    unfold Memory.write
    split
    · split
      · simp [Memory.wfFrom, h1, h2, h3]
      · rename_i hlt hv
        have := Memory.wfFrom_mono (lo' := c.1 + 1) (le_refl _) t h3
        simp [Memory.wfFrom, h, hv, h2, this, Nat.succ_le_of_lt hlt]
    · split
      · split
        · exact Memory.wfFrom_mono (by omega) t h3
        · rename_i hlt he hv
          subst he
          simp [Memory.wfFrom, h, hv, h3]
      · have := ih (by omega) h3
        simp [Memory.wfFrom, h1, h2, this]

theorem Memory.wf_write (l : List Host.Cell) (a : Nat) (v : Byte) (w : Memory.wf l = true) :
    Memory.wf (Memory.write l a v) = true := Memory.wfFrom_write (Nat.zero_le a) l w

theorem Memory.wf_writes (bytes : List Byte) (l : List Host.Cell) (a : Nat) (w : Memory.wf l = true) :
    Memory.wf (Memory.writes l a bytes) = true := by
  induction bytes generalizing l a with
  | nil => exact w
  | cons v vs ih => exact ih _ _ (Memory.wf_write l a v w)

theorem Memory.wfFrom_filter (p : Host.Cell → Bool) {lo : Nat} (l : List Host.Cell) (w : Memory.wfFrom lo l = true) :
    Memory.wfFrom lo (l.filter p) = true := by
  induction l generalizing lo with
  | nil => rfl
  | cons c t ih =>
    simp only [Memory.wfFrom, Bool.and_eq_true, decide_eq_true_eq] at w
    by_cases hp : p c
    · simp [hp, Memory.wfFrom, w.1.1, w.1.2, ih w.2]
    · simp only [hp, List.filter_cons]
      exact Memory.wfFrom_mono (by omega) _ (ih w.2)

theorem Memory.wf_erase (l : List Host.Cell) (lo hi : Nat) (w : Memory.wf l = true) :
    Memory.wf (Memory.erase l lo hi) = true := Memory.wfFrom_filter _ l w

theorem Memory.wf_nil : Memory.wf [] = true := rfl

theorem Memory.read_below {lo : Nat} (l : List Host.Cell) (w : Memory.wfFrom lo l = true) {a : Nat} (h : a < lo) :
    Memory.read l a = 0#8 := by
  induction l generalizing lo with
  | nil => rfl
  | cons c t ih =>
    simp only [Memory.wfFrom, Bool.and_eq_true, decide_eq_true_eq] at w
    have : c.1 ≠ a := by omega
    simp only [Memory.read, this, if_false]
    exact ih w.2 (by omega)

theorem Memory.read_write {lo : Nat} (l : List Host.Cell) (w : Memory.wfFrom lo l = true) (a b : Nat) (v : Byte) :
    Memory.read (Memory.write l a v) b = if b = a then v else Memory.read l b := by
  induction l generalizing lo with
  | nil =>
    by_cases hv : v = 0#8 <;> by_cases hb : b = a <;> simp [Memory.write, Memory.read, hv, hb, eq_comm]
    intro h; exact absurd h.symm hb
  | cons c t ih =>
    simp only [Memory.wfFrom, Bool.and_eq_true, decide_eq_true_eq] at w
    obtain ⟨⟨h1, h2⟩, h3⟩ := w
    unfold Memory.write
    split
    · rename_i hlt
      have hz : Memory.read (c :: t) a = 0#8 := by
        have : c.1 ≠ a := by omega
        simp only [Memory.read, this, if_false]
        exact Memory.read_below t h3 (by omega)
      split
      · rename_i hv
        by_cases hb : b = a
        · subst hb; simp [hz, hv]
        · simp [hb]
      · by_cases hb : b = a
        · simp [Memory.read, hb]
        · simp [Memory.read, hb, Ne.symm hb]
    · split
      · rename_i he
        split
        · rename_i hv
          by_cases hb : b = a
          · subst hb
            rw [Memory.read_below t h3 (by omega)]; simp [hv]
          · simp [Memory.read, hb, he, Ne.symm hb]
        · by_cases hb : b = a
          · simp [Memory.read, hb]
          · simp [Memory.read, hb, he, Ne.symm hb]
      · rename_i hlt he
        by_cases hc : c.1 = b
        · have : b ≠ a := by omega
          simp [Memory.read, hc, this]
        · simp only [Memory.read, hc, if_false]
          exact ih h3

theorem Memory.read_writes (bytes : List Byte) (l : List Host.Cell) (w : Memory.wf l = true) (a b : Nat)
    (h : b < a ∨ a + bytes.length ≤ b) :
    Memory.read (Memory.writes l a bytes) b = Memory.read l b := by
  induction bytes generalizing l a with
  | nil => rfl
  | cons v vs ih =>
    simp only [List.length_cons] at h
    rw [Memory.writes, ih _ (Memory.wf_write l a v w) _ (by omega), Memory.read_write l w]
    have : b ≠ a := by omega
    simp [this]

theorem Memory.read_erase (l : List Host.Cell) (lo hi b : Nat) (h : b < lo ∨ hi ≤ b) :
    Memory.read (Memory.erase l lo hi) b = Memory.read l b := by
  induction l with
  | nil => rfl
  | cons c t ih =>
    simp only [Memory.erase, List.filter_cons] at ih ⊢
    by_cases hc : c.1 = b
    · subst hc
      simp [h, Memory.read]
    · by_cases hp : (decide (c.1 < lo) || decide (hi ≤ c.1)) = true
      · simp only [hp, if_true, Memory.read, hc, if_false]; exact ih
      · simp only [hp, Memory.read, hc, if_false]; exact ih

end Sys2Proof.Machine
end

