-- ==== Sys2Proof/Laws/Map.lean ====
section
/-! SUPPORT. Sys2Proof/Laws/Map.lean: what reading a map after writing it gives. -/

namespace Sys2Proof.Machine

theorem Map.look_put_same {κ ν : Type} [DecidableEq κ] (k : κ) (v : ν) (l : List (κ × ν)) :
    Map.look k (Map.put k v l) = some v := by
  induction l with
  | nil => simp [Map.put, Map.look]
  | cons e l ih => by_cases h : e.1 = k <;> simp [Map.put, Map.look, h, ih]

theorem Map.look_put_other {κ ν : Type} [DecidableEq κ] {j k : κ} (h : j ≠ k) (v : ν) (l : List (κ × ν)) :
    Map.look j (Map.put k v l) = Map.look j l := by
  induction l with
  | nil => simp [Map.put, Map.look, Ne.symm h]
  | cons e l ih =>
    by_cases hk : e.1 = k
    · simp [Map.put, Map.look, hk, Ne.symm h]
    · by_cases hj : e.1 = j
      · subst hj; simp [Map.put, Map.look, hk]
      · simp [Map.put, Map.look, hk, hj, ih]

@[simp] theorem Map.get_set_same {κ ν : Type} [DecidableEq κ] (m : Map κ ν) (k : κ) (v : ν) :
    (m.set k v).get k = v := by
  simp [Map.get, Map.set, Map.look_put_same]

theorem Map.get_set_other {κ ν : Type} [DecidableEq κ] (m : Map κ ν) {j k : κ} (h : j ≠ k) (v : ν) :
    (m.set k v).get j = m.get j := by
  simp [Map.get, Map.set, Map.look_put_other h]

theorem Map.get_set {κ ν : Type} [DecidableEq κ] (m : Map κ ν) (j k : κ) (v : ν) :
    (m.set k v).get j = if j = k then v else m.get j := by
  by_cases h : j = k
  · subst h; simp
  · simp [h, Map.get_set_other m h]

@[simp] theorem Map.get_upd_same {κ ν : Type} [DecidableEq κ] (m : Map κ ν) (k : κ) (f : ν → ν) :
    (m.upd k f).get k = f (m.get k) := by simp [Map.upd]

theorem Map.get_upd_other {κ ν : Type} [DecidableEq κ] (m : Map κ ν) {j k : κ} (h : j ≠ k) (f : ν → ν) :
    (m.upd k f).get j = m.get j := by simp [Map.upd, Map.get_set_other m h]

@[simp] theorem Map.get_const {κ ν : Type} [DecidableEq κ] (d : ν) (k : κ) :
    (Map.const d : Map κ ν).get k = d := rfl

@[simp] theorem Map.dflt_set {κ ν : Type} [DecidableEq κ] (m : Map κ ν) (k : κ) (v : ν) :
    (m.set k v).dflt = m.dflt := rfl

theorem Map.put_put {κ ν : Type} [DecidableEq κ] (k : κ) (v w : ν) (l : List (κ × ν)) :
    Map.put k w (Map.put k v l) = Map.put k w l := by
  induction l with
  | nil => simp [Map.put]
  | cons e l ih => by_cases h : e.1 = k <;> simp [Map.put, h, ih]

@[simp] theorem Map.set_set {κ ν : Type} [DecidableEq κ] (m : Map κ ν) (k : κ) (v w : ν) :
    (m.set k v).set k w = m.set k w := by simp [Map.set, Map.put_put]

@[simp] theorem Map.upd_upd {κ ν : Type} [DecidableEq κ] (m : Map κ ν) (k : κ) (f g : ν → ν) :
    (m.upd k f).upd k g = m.upd k (fun v => g (f v)) := by simp [Map.upd]


/-- A fold whose every step keeps `g` keeps `g`. -/
theorem foldl_keeps {α β γ : Type} (g : α → γ) (f : α → β → α) (l : List β) (x : α) (h : ∀ a e, g (f a e) = g a) :
    g (l.foldl f x) = g x := by
  induction l generalizing x with
  | nil => rfl
  | cons e l ih => rw [List.foldl_cons, ih, h]

end Sys2Proof.Machine
end

