-- ==== Sys2Proof/Laws/State.lean ====
section
/-! SUPPORT. Sys2Proof/Laws/State.lean: what each update of one piece of the module leaves as it was, and what the piece
reads as after it. One theorem per update holds one equation per field. -/

namespace Sys2Proof.Machine

@[simp] theorem setBox_keeps (m : Nat) (f : Mailbox → Mailbox) (x : Mod) :
    (setBox m f x).now = x.now ∧ (setBox m f x).free = x.free ∧ (setBox m f x).rdata = x.rdata ∧
    (setBox m f x).out = x.out ∧ (setBox m f x).mode = x.mode ∧ (setBox m f x).evts = x.evts ∧
    (setBox m f x).logs = x.logs ∧ (setBox m f x).spills = x.spills ∧ (setBox m f x).ctrs = x.ctrs ∧
    (setBox m f x).pairs = x.pairs ∧ (setBox m f x).latch = x.latch ∧ (setBox m f x).pwr = x.pwr ∧
    (setBox m f x).isl = x.isl ∧ (setBox m f x).host = x.host ∧ (setBox m f x).sec = x.sec ∧
    (setBox m f x).patch = x.patch ∧ (setBox m f x).ost = x.ost ∧ (setBox m f x).trb = x.trb ∧
    (setBox m f x).ext = x.ext ∧ (setBox m f x).cpl = x.cpl ∧ (setBox m f x).tt = x.tt ∧
    (setBox m f x).line = x.line ∧ (setBox m f x).frames = x.frames ∧ (setBox m f x).nextF = x.nextF ∧
    (setBox m f x).tbl = x.tbl ∧ (setBox m f x).tkt = x.tkt ∧ (setBox m f x).loft = x.loft ∧
    (setBox m f x).mesh = x.mesh ∧ (setBox m f x).que = x.que ∧ (setBox m f x).cap = x.cap ∧
    (setBox m f x).tim = x.tim ∧
    (setBox m f x).ecc = x.ecc ∧ (setBox m f x).resid = x.resid := by
  and_intros <;> rfl

@[simp] theorem setBox_same (m : Nat) (f : Mailbox → Mailbox) (x : Mod) : (setBox m f x).dax.boxes.get m = f (x.dax.boxes.get m) := by
  simp [setBox]

@[simp] theorem setDom_keeps (d : Nat) (f : Dom → Dom) (x : Mod) :
    (setDom d f x).now = x.now ∧ (setDom d f x).free = x.free ∧ (setDom d f x).rdata = x.rdata ∧
    (setDom d f x).out = x.out ∧ (setDom d f x).mode = x.mode ∧ (setDom d f x).evts = x.evts ∧
    (setDom d f x).logs = x.logs ∧ (setDom d f x).spills = x.spills ∧ (setDom d f x).ctrs = x.ctrs ∧
    (setDom d f x).pairs = x.pairs ∧ (setDom d f x).latch = x.latch ∧ (setDom d f x).isl = x.isl ∧
    (setDom d f x).host = x.host ∧ (setDom d f x).dax = x.dax ∧ (setDom d f x).sec = x.sec ∧
    (setDom d f x).patch = x.patch ∧ (setDom d f x).ost = x.ost ∧ (setDom d f x).trb = x.trb ∧
    (setDom d f x).ext = x.ext ∧ (setDom d f x).cpl = x.cpl ∧ (setDom d f x).tt = x.tt ∧
    (setDom d f x).line = x.line ∧ (setDom d f x).frames = x.frames ∧ (setDom d f x).nextF = x.nextF ∧
    (setDom d f x).tbl = x.tbl ∧ (setDom d f x).tkt = x.tkt ∧ (setDom d f x).loft = x.loft ∧
    (setDom d f x).mesh = x.mesh ∧ (setDom d f x).que = x.que ∧ (setDom d f x).cap = x.cap ∧
    (setDom d f x).tim = x.tim ∧
    (setDom d f x).ecc = x.ecc ∧ (setDom d f x).resid = x.resid := by
  and_intros <;> rfl

@[simp] theorem setDom_same (d : Nat) (f : Dom → Dom) (x : Mod) : (setDom d f x).pwr.doms.get d = f (x.pwr.doms.get d) := by
  simp [setDom]

@[simp] theorem setPwr_keeps (f : Pwr → Pwr) (x : Mod) :
    (setPwr f x).now = x.now ∧ (setPwr f x).free = x.free ∧ (setPwr f x).rdata = x.rdata ∧ (setPwr f x).out = x.out ∧
    (setPwr f x).mode = x.mode ∧ (setPwr f x).evts = x.evts ∧ (setPwr f x).logs = x.logs ∧
    (setPwr f x).spills = x.spills ∧ (setPwr f x).ctrs = x.ctrs ∧ (setPwr f x).pairs = x.pairs ∧
    (setPwr f x).latch = x.latch ∧ (setPwr f x).isl = x.isl ∧ (setPwr f x).host = x.host ∧ (setPwr f x).dax = x.dax ∧
    (setPwr f x).sec = x.sec ∧ (setPwr f x).patch = x.patch ∧ (setPwr f x).ost = x.ost ∧ (setPwr f x).trb = x.trb ∧
    (setPwr f x).ext = x.ext ∧ (setPwr f x).cpl = x.cpl ∧ (setPwr f x).tt = x.tt ∧ (setPwr f x).line = x.line ∧
    (setPwr f x).frames = x.frames ∧ (setPwr f x).nextF = x.nextF ∧ (setPwr f x).tbl = x.tbl ∧
    (setPwr f x).tkt = x.tkt ∧ (setPwr f x).loft = x.loft ∧ (setPwr f x).mesh = x.mesh ∧ (setPwr f x).que = x.que ∧
    (setPwr f x).cap = x.cap ∧ (setPwr f x).tim = x.tim ∧
    (setPwr f x).ecc = x.ecc ∧ (setPwr f x).resid = x.resid := by
  and_intros <;> rfl

@[simp] theorem setPwr_same (f : Pwr → Pwr) (x : Mod) : (setPwr f x).pwr = f x.pwr := by
  simp [setPwr]

@[simp] theorem setTrb_keeps (s : Nat) (f : ShedTrb → ShedTrb) (x : Mod) :
    (setTrb s f x).now = x.now ∧ (setTrb s f x).free = x.free ∧ (setTrb s f x).rdata = x.rdata ∧
    (setTrb s f x).out = x.out ∧ (setTrb s f x).mode = x.mode ∧ (setTrb s f x).evts = x.evts ∧
    (setTrb s f x).logs = x.logs ∧ (setTrb s f x).spills = x.spills ∧ (setTrb s f x).ctrs = x.ctrs ∧
    (setTrb s f x).pairs = x.pairs ∧ (setTrb s f x).latch = x.latch ∧ (setTrb s f x).pwr = x.pwr ∧
    (setTrb s f x).isl = x.isl ∧ (setTrb s f x).host = x.host ∧ (setTrb s f x).dax = x.dax ∧
    (setTrb s f x).sec = x.sec ∧ (setTrb s f x).patch = x.patch ∧ (setTrb s f x).ost = x.ost ∧
    (setTrb s f x).ext = x.ext ∧ (setTrb s f x).cpl = x.cpl ∧ (setTrb s f x).tt = x.tt ∧
    (setTrb s f x).line = x.line ∧ (setTrb s f x).frames = x.frames ∧ (setTrb s f x).nextF = x.nextF ∧
    (setTrb s f x).tbl = x.tbl ∧ (setTrb s f x).tkt = x.tkt ∧ (setTrb s f x).loft = x.loft ∧
    (setTrb s f x).mesh = x.mesh ∧ (setTrb s f x).que = x.que ∧ (setTrb s f x).cap = x.cap ∧
    (setTrb s f x).tim = x.tim ∧
    (setTrb s f x).ecc = x.ecc ∧ (setTrb s f x).resid = x.resid := by
  and_intros <;> rfl

@[simp] theorem setTrb_same (s : Nat) (f : ShedTrb → ShedTrb) (x : Mod) : (setTrb s f x).trb.get s = f (x.trb.get s) := by
  simp [setTrb]

@[simp] theorem setOst_keeps (s : Nat) (f : Ost → Ost) (x : Mod) :
    (setOst s f x).now = x.now ∧ (setOst s f x).free = x.free ∧ (setOst s f x).rdata = x.rdata ∧
    (setOst s f x).out = x.out ∧ (setOst s f x).mode = x.mode ∧ (setOst s f x).evts = x.evts ∧
    (setOst s f x).logs = x.logs ∧ (setOst s f x).spills = x.spills ∧ (setOst s f x).ctrs = x.ctrs ∧
    (setOst s f x).pairs = x.pairs ∧ (setOst s f x).latch = x.latch ∧ (setOst s f x).pwr = x.pwr ∧
    (setOst s f x).isl = x.isl ∧ (setOst s f x).host = x.host ∧ (setOst s f x).dax = x.dax ∧
    (setOst s f x).sec = x.sec ∧ (setOst s f x).patch = x.patch ∧ (setOst s f x).trb = x.trb ∧
    (setOst s f x).ext = x.ext ∧ (setOst s f x).cpl = x.cpl ∧ (setOst s f x).tt = x.tt ∧
    (setOst s f x).line = x.line ∧ (setOst s f x).frames = x.frames ∧ (setOst s f x).nextF = x.nextF ∧
    (setOst s f x).tbl = x.tbl ∧ (setOst s f x).tkt = x.tkt ∧ (setOst s f x).loft = x.loft ∧
    (setOst s f x).mesh = x.mesh ∧ (setOst s f x).que = x.que ∧ (setOst s f x).cap = x.cap ∧
    (setOst s f x).tim = x.tim ∧
    (setOst s f x).ecc = x.ecc ∧ (setOst s f x).resid = x.resid := by
  and_intros <;> rfl

@[simp] theorem setOst_same (s : Nat) (f : Ost → Ost) (x : Mod) : (setOst s f x).ost.get s = f (x.ost.get s) := by
  simp [setOst]

@[simp] theorem setEng_keeps (s e : Nat) (f : Engine → Engine) (x : Mod) :
    (setEng s e f x).now = x.now ∧ (setEng s e f x).free = x.free ∧ (setEng s e f x).rdata = x.rdata ∧
    (setEng s e f x).out = x.out ∧ (setEng s e f x).mode = x.mode ∧ (setEng s e f x).evts = x.evts ∧
    (setEng s e f x).logs = x.logs ∧ (setEng s e f x).spills = x.spills ∧ (setEng s e f x).ctrs = x.ctrs ∧
    (setEng s e f x).pairs = x.pairs ∧ (setEng s e f x).latch = x.latch ∧ (setEng s e f x).pwr = x.pwr ∧
    (setEng s e f x).isl = x.isl ∧ (setEng s e f x).host = x.host ∧ (setEng s e f x).dax = x.dax ∧
    (setEng s e f x).sec = x.sec ∧ (setEng s e f x).patch = x.patch ∧ (setEng s e f x).trb = x.trb ∧
    (setEng s e f x).ext = x.ext ∧ (setEng s e f x).cpl = x.cpl ∧ (setEng s e f x).tt = x.tt ∧
    (setEng s e f x).line = x.line ∧ (setEng s e f x).frames = x.frames ∧ (setEng s e f x).nextF = x.nextF ∧
    (setEng s e f x).tbl = x.tbl ∧ (setEng s e f x).tkt = x.tkt ∧ (setEng s e f x).loft = x.loft ∧
    (setEng s e f x).mesh = x.mesh ∧ (setEng s e f x).que = x.que ∧ (setEng s e f x).cap = x.cap ∧
    (setEng s e f x).tim = x.tim ∧
    (setEng s e f x).ecc = x.ecc ∧ (setEng s e f x).resid = x.resid := by
  and_intros <;> rfl

@[simp] theorem setEng_same (s e : Nat) (f : Engine → Engine) (x : Mod) : ((setEng s e f x).ost.get s).engines.get e = f ((x.ost.get s).engines.get e) := by
  simp [setEng, setOst]

@[simp] theorem setRing_keeps (n : Nat) (f : Ring → Ring) (x : Mod) :
    (setRing n f x).now = x.now ∧ (setRing n f x).free = x.free ∧ (setRing n f x).rdata = x.rdata ∧
    (setRing n f x).out = x.out ∧ (setRing n f x).mode = x.mode ∧ (setRing n f x).evts = x.evts ∧
    (setRing n f x).logs = x.logs ∧ (setRing n f x).spills = x.spills ∧ (setRing n f x).ctrs = x.ctrs ∧
    (setRing n f x).pairs = x.pairs ∧ (setRing n f x).latch = x.latch ∧ (setRing n f x).pwr = x.pwr ∧
    (setRing n f x).isl = x.isl ∧ (setRing n f x).dax = x.dax ∧ (setRing n f x).sec = x.sec ∧
    (setRing n f x).patch = x.patch ∧ (setRing n f x).ost = x.ost ∧ (setRing n f x).trb = x.trb ∧
    (setRing n f x).ext = x.ext ∧ (setRing n f x).cpl = x.cpl ∧ (setRing n f x).tt = x.tt ∧
    (setRing n f x).line = x.line ∧ (setRing n f x).frames = x.frames ∧ (setRing n f x).nextF = x.nextF ∧
    (setRing n f x).tbl = x.tbl ∧ (setRing n f x).tkt = x.tkt ∧ (setRing n f x).loft = x.loft ∧
    (setRing n f x).mesh = x.mesh ∧ (setRing n f x).que = x.que ∧ (setRing n f x).cap = x.cap ∧
    (setRing n f x).tim = x.tim ∧
    (setRing n f x).ecc = x.ecc ∧ (setRing n f x).resid = x.resid := by
  and_intros <;> rfl

@[simp] theorem setRing_same (n : Nat) (f : Ring → Ring) (x : Mod) : (setRing n f x).host.rings.get n = f (x.host.rings.get n) := by
  simp [setRing]

@[simp] theorem setTt_keeps (f : TtSt → TtSt) (x : Mod) :
    (setTt f x).now = x.now ∧ (setTt f x).free = x.free ∧ (setTt f x).rdata = x.rdata ∧ (setTt f x).out = x.out ∧
    (setTt f x).mode = x.mode ∧ (setTt f x).evts = x.evts ∧ (setTt f x).logs = x.logs ∧
    (setTt f x).spills = x.spills ∧ (setTt f x).ctrs = x.ctrs ∧ (setTt f x).pairs = x.pairs ∧
    (setTt f x).latch = x.latch ∧ (setTt f x).pwr = x.pwr ∧ (setTt f x).isl = x.isl ∧ (setTt f x).host = x.host ∧
    (setTt f x).dax = x.dax ∧ (setTt f x).sec = x.sec ∧ (setTt f x).patch = x.patch ∧ (setTt f x).ost = x.ost ∧
    (setTt f x).trb = x.trb ∧ (setTt f x).ext = x.ext ∧ (setTt f x).cpl = x.cpl ∧ (setTt f x).line = x.line ∧
    (setTt f x).frames = x.frames ∧ (setTt f x).nextF = x.nextF ∧ (setTt f x).tbl = x.tbl ∧ (setTt f x).tkt = x.tkt ∧
    (setTt f x).loft = x.loft ∧ (setTt f x).mesh = x.mesh ∧ (setTt f x).que = x.que ∧ (setTt f x).cap = x.cap ∧
    (setTt f x).tim = x.tim ∧
    (setTt f x).ecc = x.ecc ∧ (setTt f x).resid = x.resid := by
  and_intros <;> rfl

@[simp] theorem setTt_same (f : TtSt → TtSt) (x : Mod) : (setTt f x).tt = f x.tt := by
  simp [setTt]

@[simp] theorem setShedTt_keeps (s : Nat) (f : ShedTt → ShedTt) (x : Mod) :
    (setShedTt s f x).now = x.now ∧ (setShedTt s f x).free = x.free ∧ (setShedTt s f x).rdata = x.rdata ∧
    (setShedTt s f x).out = x.out ∧ (setShedTt s f x).mode = x.mode ∧ (setShedTt s f x).evts = x.evts ∧
    (setShedTt s f x).logs = x.logs ∧ (setShedTt s f x).spills = x.spills ∧ (setShedTt s f x).ctrs = x.ctrs ∧
    (setShedTt s f x).pairs = x.pairs ∧ (setShedTt s f x).latch = x.latch ∧ (setShedTt s f x).pwr = x.pwr ∧
    (setShedTt s f x).isl = x.isl ∧ (setShedTt s f x).host = x.host ∧ (setShedTt s f x).dax = x.dax ∧
    (setShedTt s f x).sec = x.sec ∧ (setShedTt s f x).patch = x.patch ∧ (setShedTt s f x).ost = x.ost ∧
    (setShedTt s f x).trb = x.trb ∧ (setShedTt s f x).ext = x.ext ∧ (setShedTt s f x).cpl = x.cpl ∧
    (setShedTt s f x).line = x.line ∧ (setShedTt s f x).frames = x.frames ∧ (setShedTt s f x).nextF = x.nextF ∧
    (setShedTt s f x).tbl = x.tbl ∧ (setShedTt s f x).tkt = x.tkt ∧ (setShedTt s f x).loft = x.loft ∧
    (setShedTt s f x).mesh = x.mesh ∧ (setShedTt s f x).que = x.que ∧ (setShedTt s f x).cap = x.cap ∧
    (setShedTt s f x).tim = x.tim ∧
    (setShedTt s f x).ecc = x.ecc ∧ (setShedTt s f x).resid = x.resid := by
  and_intros <;> rfl

@[simp] theorem setShedTt_same (s : Nat) (f : ShedTt → ShedTt) (x : Mod) : (setShedTt s f x).tt.sheds.get s = f (x.tt.sheds.get s) := by
  simp [setShedTt, setTt]

@[simp] theorem setCpl_keeps (f : Cpl → Cpl) (x : Mod) :
    (setCpl f x).now = x.now ∧ (setCpl f x).free = x.free ∧ (setCpl f x).rdata = x.rdata ∧ (setCpl f x).out = x.out ∧
    (setCpl f x).mode = x.mode ∧ (setCpl f x).evts = x.evts ∧ (setCpl f x).logs = x.logs ∧
    (setCpl f x).spills = x.spills ∧ (setCpl f x).ctrs = x.ctrs ∧ (setCpl f x).pairs = x.pairs ∧
    (setCpl f x).latch = x.latch ∧ (setCpl f x).pwr = x.pwr ∧ (setCpl f x).isl = x.isl ∧ (setCpl f x).host = x.host ∧
    (setCpl f x).dax = x.dax ∧ (setCpl f x).sec = x.sec ∧ (setCpl f x).patch = x.patch ∧ (setCpl f x).ost = x.ost ∧
    (setCpl f x).trb = x.trb ∧ (setCpl f x).ext = x.ext ∧ (setCpl f x).tt = x.tt ∧ (setCpl f x).line = x.line ∧
    (setCpl f x).frames = x.frames ∧ (setCpl f x).nextF = x.nextF ∧ (setCpl f x).tbl = x.tbl ∧
    (setCpl f x).tkt = x.tkt ∧ (setCpl f x).loft = x.loft ∧ (setCpl f x).mesh = x.mesh ∧ (setCpl f x).que = x.que ∧
    (setCpl f x).cap = x.cap ∧ (setCpl f x).tim = x.tim ∧
    (setCpl f x).ecc = x.ecc ∧ (setCpl f x).resid = x.resid := by
  and_intros <;> rfl

@[simp] theorem setCpl_same (f : Cpl → Cpl) (x : Mod) : (setCpl f x).cpl = f x.cpl := by
  simp [setCpl]

@[simp] theorem setPort_keeps (p : Nat) (f : PortSt → PortSt) (x : Mod) :
    (setPort p f x).now = x.now ∧ (setPort p f x).free = x.free ∧ (setPort p f x).rdata = x.rdata ∧
    (setPort p f x).out = x.out ∧ (setPort p f x).mode = x.mode ∧ (setPort p f x).evts = x.evts ∧
    (setPort p f x).logs = x.logs ∧ (setPort p f x).spills = x.spills ∧ (setPort p f x).ctrs = x.ctrs ∧
    (setPort p f x).pairs = x.pairs ∧ (setPort p f x).latch = x.latch ∧ (setPort p f x).pwr = x.pwr ∧
    (setPort p f x).isl = x.isl ∧ (setPort p f x).host = x.host ∧ (setPort p f x).dax = x.dax ∧
    (setPort p f x).sec = x.sec ∧ (setPort p f x).patch = x.patch ∧ (setPort p f x).ost = x.ost ∧
    (setPort p f x).trb = x.trb ∧ (setPort p f x).ext = x.ext ∧ (setPort p f x).cpl = x.cpl ∧
    (setPort p f x).tt = x.tt ∧ (setPort p f x).frames = x.frames ∧ (setPort p f x).nextF = x.nextF ∧
    (setPort p f x).tbl = x.tbl ∧ (setPort p f x).tkt = x.tkt ∧ (setPort p f x).loft = x.loft ∧
    (setPort p f x).mesh = x.mesh ∧ (setPort p f x).que = x.que ∧ (setPort p f x).cap = x.cap ∧
    (setPort p f x).tim = x.tim ∧
    (setPort p f x).ecc = x.ecc ∧ (setPort p f x).resid = x.resid := by
  and_intros <;> rfl

@[simp] theorem setPort_same (p : Nat) (f : PortSt → PortSt) (x : Mod) : (setPort p f x).line.ports.get p = f (x.line.ports.get p) := by
  simp [setPort]

@[simp] theorem setLane_keeps (l : Nat) (f : LaneSt → LaneSt) (x : Mod) :
    (setLane l f x).now = x.now ∧ (setLane l f x).free = x.free ∧ (setLane l f x).rdata = x.rdata ∧
    (setLane l f x).out = x.out ∧ (setLane l f x).mode = x.mode ∧ (setLane l f x).evts = x.evts ∧
    (setLane l f x).logs = x.logs ∧ (setLane l f x).spills = x.spills ∧ (setLane l f x).ctrs = x.ctrs ∧
    (setLane l f x).pairs = x.pairs ∧ (setLane l f x).latch = x.latch ∧ (setLane l f x).pwr = x.pwr ∧
    (setLane l f x).isl = x.isl ∧ (setLane l f x).host = x.host ∧ (setLane l f x).dax = x.dax ∧
    (setLane l f x).sec = x.sec ∧ (setLane l f x).patch = x.patch ∧ (setLane l f x).ost = x.ost ∧
    (setLane l f x).trb = x.trb ∧ (setLane l f x).ext = x.ext ∧ (setLane l f x).cpl = x.cpl ∧
    (setLane l f x).tt = x.tt ∧ (setLane l f x).frames = x.frames ∧ (setLane l f x).nextF = x.nextF ∧
    (setLane l f x).tbl = x.tbl ∧ (setLane l f x).tkt = x.tkt ∧ (setLane l f x).loft = x.loft ∧
    (setLane l f x).mesh = x.mesh ∧ (setLane l f x).que = x.que ∧ (setLane l f x).cap = x.cap ∧
    (setLane l f x).tim = x.tim ∧
    (setLane l f x).ecc = x.ecc ∧ (setLane l f x).resid = x.resid := by
  and_intros <;> rfl

@[simp] theorem setLane_same (l : Nat) (f : LaneSt → LaneSt) (x : Mod) : (setLane l f x).line.lanes.get l = f (x.line.lanes.get l) := by
  simp [setLane]

@[simp] theorem setClk_keeps (g : Nat) (f : StallClk → StallClk) (x : Mod) :
    (setClk g f x).now = x.now ∧ (setClk g f x).free = x.free ∧ (setClk g f x).rdata = x.rdata ∧
    (setClk g f x).out = x.out ∧ (setClk g f x).mode = x.mode ∧ (setClk g f x).evts = x.evts ∧
    (setClk g f x).logs = x.logs ∧ (setClk g f x).spills = x.spills ∧ (setClk g f x).ctrs = x.ctrs ∧
    (setClk g f x).pairs = x.pairs ∧ (setClk g f x).latch = x.latch ∧ (setClk g f x).pwr = x.pwr ∧
    (setClk g f x).isl = x.isl ∧ (setClk g f x).host = x.host ∧ (setClk g f x).dax = x.dax ∧
    (setClk g f x).sec = x.sec ∧ (setClk g f x).patch = x.patch ∧ (setClk g f x).ost = x.ost ∧
    (setClk g f x).trb = x.trb ∧ (setClk g f x).ext = x.ext ∧ (setClk g f x).cpl = x.cpl ∧ (setClk g f x).tt = x.tt ∧
    (setClk g f x).frames = x.frames ∧ (setClk g f x).nextF = x.nextF ∧ (setClk g f x).tbl = x.tbl ∧
    (setClk g f x).tkt = x.tkt ∧ (setClk g f x).loft = x.loft ∧ (setClk g f x).mesh = x.mesh ∧
    (setClk g f x).que = x.que ∧ (setClk g f x).cap = x.cap ∧ (setClk g f x).tim = x.tim ∧
    (setClk g f x).ecc = x.ecc ∧ (setClk g f x).resid = x.resid := by
  and_intros <;> rfl

@[simp] theorem setClk_same (g : Nat) (f : StallClk → StallClk) (x : Mod) : (setClk g f x).line.clks.get g = f (x.line.clks.get g) := by
  simp [setClk]

@[simp] theorem setFrame_keeps (n : Nat) (f : Frame → Frame) (x : Mod) :
    (setFrame n f x).now = x.now ∧ (setFrame n f x).free = x.free ∧ (setFrame n f x).rdata = x.rdata ∧
    (setFrame n f x).out = x.out ∧ (setFrame n f x).mode = x.mode ∧ (setFrame n f x).evts = x.evts ∧
    (setFrame n f x).logs = x.logs ∧ (setFrame n f x).spills = x.spills ∧ (setFrame n f x).ctrs = x.ctrs ∧
    (setFrame n f x).pairs = x.pairs ∧ (setFrame n f x).latch = x.latch ∧ (setFrame n f x).pwr = x.pwr ∧
    (setFrame n f x).isl = x.isl ∧ (setFrame n f x).host = x.host ∧ (setFrame n f x).dax = x.dax ∧
    (setFrame n f x).sec = x.sec ∧ (setFrame n f x).patch = x.patch ∧ (setFrame n f x).ost = x.ost ∧
    (setFrame n f x).trb = x.trb ∧ (setFrame n f x).ext = x.ext ∧ (setFrame n f x).cpl = x.cpl ∧
    (setFrame n f x).tt = x.tt ∧ (setFrame n f x).line = x.line ∧ (setFrame n f x).nextF = x.nextF ∧
    (setFrame n f x).tbl = x.tbl ∧ (setFrame n f x).tkt = x.tkt ∧ (setFrame n f x).loft = x.loft ∧
    (setFrame n f x).mesh = x.mesh ∧ (setFrame n f x).que = x.que ∧ (setFrame n f x).cap = x.cap ∧
    (setFrame n f x).tim = x.tim ∧
    (setFrame n f x).ecc = x.ecc ∧ (setFrame n f x).resid = x.resid := by
  and_intros <;> rfl

@[simp] theorem setFrame_same (n : Nat) (f : Frame → Frame) (x : Mod) : (setFrame n f x).frames.get n = (x.frames.get n).map f := by
  simp [setFrame]

@[simp] theorem setCopy_keeps (n c : Nat) (f : Copy → Copy) (x : Mod) :
    (setCopy n c f x).now = x.now ∧ (setCopy n c f x).free = x.free ∧ (setCopy n c f x).rdata = x.rdata ∧
    (setCopy n c f x).out = x.out ∧ (setCopy n c f x).mode = x.mode ∧ (setCopy n c f x).evts = x.evts ∧
    (setCopy n c f x).logs = x.logs ∧ (setCopy n c f x).spills = x.spills ∧ (setCopy n c f x).ctrs = x.ctrs ∧
    (setCopy n c f x).pairs = x.pairs ∧ (setCopy n c f x).latch = x.latch ∧ (setCopy n c f x).pwr = x.pwr ∧
    (setCopy n c f x).isl = x.isl ∧ (setCopy n c f x).host = x.host ∧ (setCopy n c f x).dax = x.dax ∧
    (setCopy n c f x).sec = x.sec ∧ (setCopy n c f x).patch = x.patch ∧ (setCopy n c f x).ost = x.ost ∧
    (setCopy n c f x).trb = x.trb ∧ (setCopy n c f x).ext = x.ext ∧ (setCopy n c f x).cpl = x.cpl ∧
    (setCopy n c f x).tt = x.tt ∧ (setCopy n c f x).line = x.line ∧ (setCopy n c f x).nextF = x.nextF ∧
    (setCopy n c f x).tbl = x.tbl ∧ (setCopy n c f x).tkt = x.tkt ∧ (setCopy n c f x).loft = x.loft ∧
    (setCopy n c f x).mesh = x.mesh ∧ (setCopy n c f x).que = x.que ∧ (setCopy n c f x).cap = x.cap ∧
    (setCopy n c f x).tim = x.tim ∧
    (setCopy n c f x).ecc = x.ecc ∧ (setCopy n c f x).resid = x.resid := by
  and_intros <;> rfl

@[simp] theorem setCopy_same (n c : Nat) (f : Copy → Copy) (x : Mod) : (setCopy n c f x).frames.get n = (x.frames.get n).map (fun r => r.setCopy c f) := by
  simp [setCopy, setFrame]

@[simp] theorem putFrame_keeps (n : Nat) (r : Frame) (x : Mod) :
    (putFrame n r x).now = x.now ∧ (putFrame n r x).free = x.free ∧ (putFrame n r x).rdata = x.rdata ∧
    (putFrame n r x).out = x.out ∧ (putFrame n r x).mode = x.mode ∧ (putFrame n r x).evts = x.evts ∧
    (putFrame n r x).logs = x.logs ∧ (putFrame n r x).spills = x.spills ∧ (putFrame n r x).ctrs = x.ctrs ∧
    (putFrame n r x).pairs = x.pairs ∧ (putFrame n r x).latch = x.latch ∧ (putFrame n r x).pwr = x.pwr ∧
    (putFrame n r x).isl = x.isl ∧ (putFrame n r x).host = x.host ∧ (putFrame n r x).dax = x.dax ∧
    (putFrame n r x).sec = x.sec ∧ (putFrame n r x).patch = x.patch ∧ (putFrame n r x).ost = x.ost ∧
    (putFrame n r x).trb = x.trb ∧ (putFrame n r x).ext = x.ext ∧ (putFrame n r x).cpl = x.cpl ∧
    (putFrame n r x).tt = x.tt ∧ (putFrame n r x).line = x.line ∧ (putFrame n r x).nextF = x.nextF ∧
    (putFrame n r x).tbl = x.tbl ∧ (putFrame n r x).tkt = x.tkt ∧ (putFrame n r x).loft = x.loft ∧
    (putFrame n r x).mesh = x.mesh ∧ (putFrame n r x).que = x.que ∧ (putFrame n r x).cap = x.cap ∧
    (putFrame n r x).tim = x.tim ∧
    (putFrame n r x).ecc = x.ecc ∧ (putFrame n r x).resid = x.resid := by
  and_intros <;> rfl

@[simp] theorem putFrame_same (n : Nat) (r : Frame) (x : Mod) : (putFrame n r x).frames.get n = some r := by
  simp [putFrame]

@[simp] theorem setQue_keeps (p q : Nat) (f : QueSt → QueSt) (x : Mod) :
    (setQue p q f x).now = x.now ∧ (setQue p q f x).free = x.free ∧ (setQue p q f x).rdata = x.rdata ∧
    (setQue p q f x).out = x.out ∧ (setQue p q f x).mode = x.mode ∧ (setQue p q f x).evts = x.evts ∧
    (setQue p q f x).logs = x.logs ∧ (setQue p q f x).spills = x.spills ∧ (setQue p q f x).ctrs = x.ctrs ∧
    (setQue p q f x).pairs = x.pairs ∧ (setQue p q f x).latch = x.latch ∧ (setQue p q f x).pwr = x.pwr ∧
    (setQue p q f x).isl = x.isl ∧ (setQue p q f x).host = x.host ∧ (setQue p q f x).dax = x.dax ∧
    (setQue p q f x).sec = x.sec ∧ (setQue p q f x).patch = x.patch ∧ (setQue p q f x).ost = x.ost ∧
    (setQue p q f x).trb = x.trb ∧ (setQue p q f x).ext = x.ext ∧ (setQue p q f x).cpl = x.cpl ∧
    (setQue p q f x).tt = x.tt ∧ (setQue p q f x).line = x.line ∧ (setQue p q f x).frames = x.frames ∧
    (setQue p q f x).nextF = x.nextF ∧ (setQue p q f x).tbl = x.tbl ∧ (setQue p q f x).tkt = x.tkt ∧
    (setQue p q f x).loft = x.loft ∧ (setQue p q f x).mesh = x.mesh ∧ (setQue p q f x).cap = x.cap ∧
    (setQue p q f x).tim = x.tim ∧
    (setQue p q f x).ecc = x.ecc ∧ (setQue p q f x).resid = x.resid := by
  and_intros <;> rfl

@[simp] theorem setQue_same (p q : Nat) (f : QueSt → QueSt) (x : Mod) : (setQue p q f x).que.qs.get (p, q) = f (x.que.qs.get (p, q)) := by
  simp [setQue]

@[simp] theorem setShaper_keeps (p l n : Nat) (f : Shaper → Shaper) (x : Mod) :
    (setShaper p l n f x).now = x.now ∧ (setShaper p l n f x).free = x.free ∧ (setShaper p l n f x).rdata = x.rdata ∧
    (setShaper p l n f x).out = x.out ∧ (setShaper p l n f x).mode = x.mode ∧ (setShaper p l n f x).evts = x.evts ∧
    (setShaper p l n f x).logs = x.logs ∧ (setShaper p l n f x).spills = x.spills ∧
    (setShaper p l n f x).ctrs = x.ctrs ∧ (setShaper p l n f x).pairs = x.pairs ∧
    (setShaper p l n f x).latch = x.latch ∧ (setShaper p l n f x).pwr = x.pwr ∧ (setShaper p l n f x).isl = x.isl ∧
    (setShaper p l n f x).host = x.host ∧ (setShaper p l n f x).dax = x.dax ∧ (setShaper p l n f x).sec = x.sec ∧
    (setShaper p l n f x).patch = x.patch ∧ (setShaper p l n f x).ost = x.ost ∧ (setShaper p l n f x).trb = x.trb ∧
    (setShaper p l n f x).ext = x.ext ∧ (setShaper p l n f x).cpl = x.cpl ∧ (setShaper p l n f x).tt = x.tt ∧
    (setShaper p l n f x).line = x.line ∧ (setShaper p l n f x).frames = x.frames ∧
    (setShaper p l n f x).nextF = x.nextF ∧ (setShaper p l n f x).tbl = x.tbl ∧ (setShaper p l n f x).tkt = x.tkt ∧
    (setShaper p l n f x).loft = x.loft ∧ (setShaper p l n f x).mesh = x.mesh ∧ (setShaper p l n f x).cap = x.cap ∧
    (setShaper p l n f x).tim = x.tim ∧
    (setShaper p l n f x).ecc = x.ecc ∧ (setShaper p l n f x).resid = x.resid := by
  and_intros <;> rfl

@[simp] theorem setShaper_same (p l n : Nat) (f : Shaper → Shaper) (x : Mod) : (setShaper p l n f x).que.shapers.get (p, l, n) = f (x.que.shapers.get (p, l, n)) := by
  simp [setShaper]

@[simp] theorem setMeter_keeps (s i : Nat) (m : MeterSt) (x : Mod) :
    (setMeter s i m x).now = x.now ∧ (setMeter s i m x).free = x.free ∧ (setMeter s i m x).rdata = x.rdata ∧
    (setMeter s i m x).out = x.out ∧ (setMeter s i m x).mode = x.mode ∧ (setMeter s i m x).evts = x.evts ∧
    (setMeter s i m x).logs = x.logs ∧ (setMeter s i m x).spills = x.spills ∧ (setMeter s i m x).ctrs = x.ctrs ∧
    (setMeter s i m x).pairs = x.pairs ∧ (setMeter s i m x).latch = x.latch ∧ (setMeter s i m x).pwr = x.pwr ∧
    (setMeter s i m x).isl = x.isl ∧ (setMeter s i m x).host = x.host ∧ (setMeter s i m x).dax = x.dax ∧
    (setMeter s i m x).sec = x.sec ∧ (setMeter s i m x).patch = x.patch ∧ (setMeter s i m x).ost = x.ost ∧
    (setMeter s i m x).trb = x.trb ∧ (setMeter s i m x).ext = x.ext ∧ (setMeter s i m x).cpl = x.cpl ∧
    (setMeter s i m x).tt = x.tt ∧ (setMeter s i m x).line = x.line ∧ (setMeter s i m x).frames = x.frames ∧
    (setMeter s i m x).nextF = x.nextF ∧ (setMeter s i m x).tbl = x.tbl ∧ (setMeter s i m x).tkt = x.tkt ∧
    (setMeter s i m x).loft = x.loft ∧ (setMeter s i m x).mesh = x.mesh ∧ (setMeter s i m x).cap = x.cap ∧
    (setMeter s i m x).tim = x.tim ∧
    (setMeter s i m x).ecc = x.ecc ∧ (setMeter s i m x).resid = x.resid := by
  and_intros <;> rfl

@[simp] theorem setMeter_same (s i : Nat) (m : MeterSt) (x : Mod) : (setMeter s i m x).que.meters.get (s, i) = some m := by
  simp [setMeter]

@[simp] theorem setLoft_keeps (s : Nat) (f : Loft → Loft) (x : Mod) :
    (setLoft s f x).now = x.now ∧ (setLoft s f x).free = x.free ∧ (setLoft s f x).rdata = x.rdata ∧
    (setLoft s f x).out = x.out ∧ (setLoft s f x).mode = x.mode ∧ (setLoft s f x).evts = x.evts ∧
    (setLoft s f x).logs = x.logs ∧ (setLoft s f x).spills = x.spills ∧ (setLoft s f x).ctrs = x.ctrs ∧
    (setLoft s f x).pairs = x.pairs ∧ (setLoft s f x).latch = x.latch ∧ (setLoft s f x).pwr = x.pwr ∧
    (setLoft s f x).isl = x.isl ∧ (setLoft s f x).host = x.host ∧ (setLoft s f x).dax = x.dax ∧
    (setLoft s f x).sec = x.sec ∧ (setLoft s f x).patch = x.patch ∧ (setLoft s f x).ost = x.ost ∧
    (setLoft s f x).trb = x.trb ∧ (setLoft s f x).ext = x.ext ∧ (setLoft s f x).cpl = x.cpl ∧
    (setLoft s f x).tt = x.tt ∧ (setLoft s f x).line = x.line ∧ (setLoft s f x).frames = x.frames ∧
    (setLoft s f x).nextF = x.nextF ∧ (setLoft s f x).tbl = x.tbl ∧ (setLoft s f x).tkt = x.tkt ∧
    (setLoft s f x).mesh = x.mesh ∧ (setLoft s f x).que = x.que ∧ (setLoft s f x).cap = x.cap ∧
    (setLoft s f x).tim = x.tim ∧
    (setLoft s f x).ecc = x.ecc ∧ (setLoft s f x).resid = x.resid := by
  and_intros <;> rfl

@[simp] theorem setLoft_same (s : Nat) (f : Loft → Loft) (x : Mod) : (setLoft s f x).loft.get s = f (x.loft.get s) := by
  simp [setLoft]

@[simp] theorem setTkt_keeps (s : Nat) (f : TktCache → TktCache) (x : Mod) :
    (setTkt s f x).now = x.now ∧ (setTkt s f x).free = x.free ∧ (setTkt s f x).rdata = x.rdata ∧
    (setTkt s f x).out = x.out ∧ (setTkt s f x).mode = x.mode ∧ (setTkt s f x).evts = x.evts ∧
    (setTkt s f x).logs = x.logs ∧ (setTkt s f x).spills = x.spills ∧ (setTkt s f x).ctrs = x.ctrs ∧
    (setTkt s f x).pairs = x.pairs ∧ (setTkt s f x).latch = x.latch ∧ (setTkt s f x).pwr = x.pwr ∧
    (setTkt s f x).isl = x.isl ∧ (setTkt s f x).host = x.host ∧ (setTkt s f x).dax = x.dax ∧
    (setTkt s f x).sec = x.sec ∧ (setTkt s f x).patch = x.patch ∧ (setTkt s f x).ost = x.ost ∧
    (setTkt s f x).trb = x.trb ∧ (setTkt s f x).ext = x.ext ∧ (setTkt s f x).cpl = x.cpl ∧ (setTkt s f x).tt = x.tt ∧
    (setTkt s f x).line = x.line ∧ (setTkt s f x).frames = x.frames ∧ (setTkt s f x).nextF = x.nextF ∧
    (setTkt s f x).tbl = x.tbl ∧ (setTkt s f x).loft = x.loft ∧ (setTkt s f x).mesh = x.mesh ∧
    (setTkt s f x).que = x.que ∧ (setTkt s f x).cap = x.cap ∧ (setTkt s f x).tim = x.tim ∧
    (setTkt s f x).ecc = x.ecc ∧ (setTkt s f x).resid = x.resid := by
  and_intros <;> rfl

@[simp] theorem setTkt_same (s : Nat) (f : TktCache → TktCache) (x : Mod) : (setTkt s f x).tkt.get s = f (x.tkt.get s) := by
  simp [setTkt]

@[simp] theorem setHalf_keeps (s h : Nat) (f : Half → Half) (x : Mod) :
    (setHalf s h f x).now = x.now ∧ (setHalf s h f x).free = x.free ∧ (setHalf s h f x).rdata = x.rdata ∧
    (setHalf s h f x).out = x.out ∧ (setHalf s h f x).mode = x.mode ∧ (setHalf s h f x).evts = x.evts ∧
    (setHalf s h f x).logs = x.logs ∧ (setHalf s h f x).spills = x.spills ∧ (setHalf s h f x).ctrs = x.ctrs ∧
    (setHalf s h f x).pairs = x.pairs ∧ (setHalf s h f x).latch = x.latch ∧ (setHalf s h f x).pwr = x.pwr ∧
    (setHalf s h f x).isl = x.isl ∧ (setHalf s h f x).host = x.host ∧ (setHalf s h f x).dax = x.dax ∧
    (setHalf s h f x).sec = x.sec ∧ (setHalf s h f x).patch = x.patch ∧ (setHalf s h f x).ost = x.ost ∧
    (setHalf s h f x).trb = x.trb ∧ (setHalf s h f x).ext = x.ext ∧ (setHalf s h f x).cpl = x.cpl ∧
    (setHalf s h f x).tt = x.tt ∧ (setHalf s h f x).line = x.line ∧ (setHalf s h f x).frames = x.frames ∧
    (setHalf s h f x).nextF = x.nextF ∧ (setHalf s h f x).tbl = x.tbl ∧ (setHalf s h f x).tkt = x.tkt ∧
    (setHalf s h f x).loft = x.loft ∧ (setHalf s h f x).que = x.que ∧ (setHalf s h f x).cap = x.cap ∧
    (setHalf s h f x).tim = x.tim ∧
    (setHalf s h f x).ecc = x.ecc ∧ (setHalf s h f x).resid = x.resid := by
  and_intros <;> rfl

@[simp] theorem setHalf_same (s h : Nat) (f : Half → Half) (x : Mod) : (setHalf s h f x).mesh.halves.get (s, h) = f (x.mesh.halves.get (s, h)) := by
  simp [setHalf]

@[simp] theorem setStreams_keeps (s d : Nat) (f : List Strm → List Strm) (x : Mod) :
    (setStreams s d f x).now = x.now ∧ (setStreams s d f x).free = x.free ∧ (setStreams s d f x).rdata = x.rdata ∧
    (setStreams s d f x).out = x.out ∧ (setStreams s d f x).mode = x.mode ∧ (setStreams s d f x).evts = x.evts ∧
    (setStreams s d f x).logs = x.logs ∧ (setStreams s d f x).spills = x.spills ∧ (setStreams s d f x).ctrs = x.ctrs ∧
    (setStreams s d f x).pairs = x.pairs ∧ (setStreams s d f x).latch = x.latch ∧ (setStreams s d f x).pwr = x.pwr ∧
    (setStreams s d f x).isl = x.isl ∧ (setStreams s d f x).host = x.host ∧ (setStreams s d f x).dax = x.dax ∧
    (setStreams s d f x).sec = x.sec ∧ (setStreams s d f x).patch = x.patch ∧ (setStreams s d f x).ost = x.ost ∧
    (setStreams s d f x).trb = x.trb ∧ (setStreams s d f x).ext = x.ext ∧ (setStreams s d f x).cpl = x.cpl ∧
    (setStreams s d f x).tt = x.tt ∧ (setStreams s d f x).line = x.line ∧ (setStreams s d f x).frames = x.frames ∧
    (setStreams s d f x).nextF = x.nextF ∧ (setStreams s d f x).tbl = x.tbl ∧ (setStreams s d f x).tkt = x.tkt ∧
    (setStreams s d f x).loft = x.loft ∧ (setStreams s d f x).que = x.que ∧ (setStreams s d f x).cap = x.cap ∧
    (setStreams s d f x).tim = x.tim ∧
    (setStreams s d f x).ecc = x.ecc ∧ (setStreams s d f x).resid = x.resid := by
  and_intros <;> rfl

@[simp] theorem setStreams_same (s d : Nat) (f : List Strm → List Strm) (x : Mod) : (setStreams s d f x).mesh.streams.get (s, d) = f (x.mesh.streams.get (s, d)) := by
  simp [setStreams]

@[simp] theorem setReseq_keeps (s r : Nat) (f : Reseq → Reseq) (x : Mod) :
    (setReseq s r f x).now = x.now ∧ (setReseq s r f x).free = x.free ∧ (setReseq s r f x).rdata = x.rdata ∧
    (setReseq s r f x).out = x.out ∧ (setReseq s r f x).mode = x.mode ∧ (setReseq s r f x).evts = x.evts ∧
    (setReseq s r f x).logs = x.logs ∧ (setReseq s r f x).spills = x.spills ∧ (setReseq s r f x).ctrs = x.ctrs ∧
    (setReseq s r f x).pairs = x.pairs ∧ (setReseq s r f x).latch = x.latch ∧ (setReseq s r f x).pwr = x.pwr ∧
    (setReseq s r f x).isl = x.isl ∧ (setReseq s r f x).host = x.host ∧ (setReseq s r f x).dax = x.dax ∧
    (setReseq s r f x).sec = x.sec ∧ (setReseq s r f x).patch = x.patch ∧ (setReseq s r f x).ost = x.ost ∧
    (setReseq s r f x).trb = x.trb ∧ (setReseq s r f x).ext = x.ext ∧ (setReseq s r f x).cpl = x.cpl ∧
    (setReseq s r f x).tt = x.tt ∧ (setReseq s r f x).line = x.line ∧ (setReseq s r f x).frames = x.frames ∧
    (setReseq s r f x).nextF = x.nextF ∧ (setReseq s r f x).tbl = x.tbl ∧ (setReseq s r f x).tkt = x.tkt ∧
    (setReseq s r f x).loft = x.loft ∧ (setReseq s r f x).que = x.que ∧ (setReseq s r f x).cap = x.cap ∧
    (setReseq s r f x).tim = x.tim ∧
    (setReseq s r f x).ecc = x.ecc ∧ (setReseq s r f x).resid = x.resid := by
  and_intros <;> rfl

@[simp] theorem setReseq_same (s r : Nat) (f : Reseq → Reseq) (x : Mod) : (setReseq s r f x).mesh.reseq.get (s, r) = f (x.mesh.reseq.get (s, r)) := by
  simp [setReseq]

@[simp] theorem setCap_keeps (s : Nat) (f : ShedCap → ShedCap) (x : Mod) :
    (setCap s f x).now = x.now ∧ (setCap s f x).free = x.free ∧ (setCap s f x).rdata = x.rdata ∧
    (setCap s f x).out = x.out ∧ (setCap s f x).mode = x.mode ∧ (setCap s f x).evts = x.evts ∧
    (setCap s f x).logs = x.logs ∧ (setCap s f x).spills = x.spills ∧ (setCap s f x).ctrs = x.ctrs ∧
    (setCap s f x).pairs = x.pairs ∧ (setCap s f x).latch = x.latch ∧ (setCap s f x).pwr = x.pwr ∧
    (setCap s f x).isl = x.isl ∧ (setCap s f x).host = x.host ∧ (setCap s f x).dax = x.dax ∧
    (setCap s f x).sec = x.sec ∧ (setCap s f x).patch = x.patch ∧ (setCap s f x).ost = x.ost ∧
    (setCap s f x).trb = x.trb ∧ (setCap s f x).ext = x.ext ∧ (setCap s f x).cpl = x.cpl ∧ (setCap s f x).tt = x.tt ∧
    (setCap s f x).line = x.line ∧ (setCap s f x).frames = x.frames ∧ (setCap s f x).nextF = x.nextF ∧
    (setCap s f x).tbl = x.tbl ∧ (setCap s f x).tkt = x.tkt ∧ (setCap s f x).loft = x.loft ∧
    (setCap s f x).mesh = x.mesh ∧ (setCap s f x).que = x.que ∧ (setCap s f x).tim = x.tim ∧
    (setCap s f x).ecc = x.ecc ∧ (setCap s f x).resid = x.resid := by
  and_intros <;> rfl

@[simp] theorem setCap_same (s : Nat) (f : ShedCap → ShedCap) (x : Mod) : (setCap s f x).cap.sheds.get s = f (x.cap.sheds.get s) := by
  simp [setCap]

@[simp] theorem setPc_keeps (s n : Nat) (f : PerfCtr → PerfCtr) (x : Mod) :
    (setPc s n f x).now = x.now ∧ (setPc s n f x).free = x.free ∧ (setPc s n f x).rdata = x.rdata ∧
    (setPc s n f x).out = x.out ∧ (setPc s n f x).mode = x.mode ∧ (setPc s n f x).evts = x.evts ∧
    (setPc s n f x).logs = x.logs ∧ (setPc s n f x).spills = x.spills ∧ (setPc s n f x).ctrs = x.ctrs ∧
    (setPc s n f x).pairs = x.pairs ∧ (setPc s n f x).latch = x.latch ∧ (setPc s n f x).pwr = x.pwr ∧
    (setPc s n f x).isl = x.isl ∧ (setPc s n f x).host = x.host ∧ (setPc s n f x).dax = x.dax ∧
    (setPc s n f x).sec = x.sec ∧ (setPc s n f x).patch = x.patch ∧ (setPc s n f x).ost = x.ost ∧
    (setPc s n f x).trb = x.trb ∧ (setPc s n f x).ext = x.ext ∧ (setPc s n f x).cpl = x.cpl ∧
    (setPc s n f x).tt = x.tt ∧ (setPc s n f x).line = x.line ∧ (setPc s n f x).frames = x.frames ∧
    (setPc s n f x).nextF = x.nextF ∧ (setPc s n f x).tbl = x.tbl ∧ (setPc s n f x).tkt = x.tkt ∧
    (setPc s n f x).loft = x.loft ∧ (setPc s n f x).mesh = x.mesh ∧ (setPc s n f x).que = x.que ∧
    (setPc s n f x).tim = x.tim ∧
    (setPc s n f x).ecc = x.ecc ∧ (setPc s n f x).resid = x.resid := by
  and_intros <;> rfl

@[simp] theorem setPc_same (s n : Nat) (f : PerfCtr → PerfCtr) (x : Mod) : ((setPc s n f x).cap.sheds.get s).pcs.get n = f ((x.cap.sheds.get s).pcs.get n) := by
  simp [setPc, setCap]

@[simp] theorem setCapRing_keeps (r : Nat) (f : CapRing → CapRing) (x : Mod) :
    (setCapRing r f x).now = x.now ∧ (setCapRing r f x).free = x.free ∧ (setCapRing r f x).rdata = x.rdata ∧
    (setCapRing r f x).out = x.out ∧ (setCapRing r f x).mode = x.mode ∧ (setCapRing r f x).evts = x.evts ∧
    (setCapRing r f x).logs = x.logs ∧ (setCapRing r f x).spills = x.spills ∧ (setCapRing r f x).ctrs = x.ctrs ∧
    (setCapRing r f x).pairs = x.pairs ∧ (setCapRing r f x).latch = x.latch ∧ (setCapRing r f x).pwr = x.pwr ∧
    (setCapRing r f x).isl = x.isl ∧ (setCapRing r f x).host = x.host ∧ (setCapRing r f x).dax = x.dax ∧
    (setCapRing r f x).sec = x.sec ∧ (setCapRing r f x).patch = x.patch ∧ (setCapRing r f x).ost = x.ost ∧
    (setCapRing r f x).trb = x.trb ∧ (setCapRing r f x).ext = x.ext ∧ (setCapRing r f x).cpl = x.cpl ∧
    (setCapRing r f x).tt = x.tt ∧ (setCapRing r f x).line = x.line ∧ (setCapRing r f x).frames = x.frames ∧
    (setCapRing r f x).nextF = x.nextF ∧ (setCapRing r f x).tbl = x.tbl ∧ (setCapRing r f x).tkt = x.tkt ∧
    (setCapRing r f x).loft = x.loft ∧ (setCapRing r f x).mesh = x.mesh ∧ (setCapRing r f x).que = x.que ∧
    (setCapRing r f x).tim = x.tim ∧
    (setCapRing r f x).ecc = x.ecc ∧ (setCapRing r f x).resid = x.resid := by
  and_intros <;> rfl

@[simp] theorem setCapRing_same (r : Nat) (f : CapRing → CapRing) (x : Mod) : (setCapRing r f x).cap.rings.get r = f (x.cap.rings.get r) := by
  simp [setCapRing]

@[simp] theorem setGen_keeps (h : Nat) (f : GenSt → GenSt) (x : Mod) :
    (setGen h f x).now = x.now ∧ (setGen h f x).free = x.free ∧ (setGen h f x).rdata = x.rdata ∧
    (setGen h f x).out = x.out ∧ (setGen h f x).mode = x.mode ∧ (setGen h f x).evts = x.evts ∧
    (setGen h f x).logs = x.logs ∧ (setGen h f x).spills = x.spills ∧ (setGen h f x).ctrs = x.ctrs ∧
    (setGen h f x).pairs = x.pairs ∧ (setGen h f x).latch = x.latch ∧ (setGen h f x).pwr = x.pwr ∧
    (setGen h f x).isl = x.isl ∧ (setGen h f x).host = x.host ∧ (setGen h f x).dax = x.dax ∧
    (setGen h f x).sec = x.sec ∧ (setGen h f x).patch = x.patch ∧ (setGen h f x).ost = x.ost ∧
    (setGen h f x).trb = x.trb ∧ (setGen h f x).ext = x.ext ∧ (setGen h f x).tt = x.tt ∧
    (setGen h f x).line = x.line ∧ (setGen h f x).frames = x.frames ∧ (setGen h f x).nextF = x.nextF ∧
    (setGen h f x).tbl = x.tbl ∧ (setGen h f x).tkt = x.tkt ∧ (setGen h f x).loft = x.loft ∧
    (setGen h f x).mesh = x.mesh ∧ (setGen h f x).que = x.que ∧ (setGen h f x).cap = x.cap ∧
    (setGen h f x).tim = x.tim ∧
    (setGen h f x).ecc = x.ecc ∧ (setGen h f x).resid = x.resid := by
  and_intros <;> rfl

@[simp] theorem setGen_same (h : Nat) (f : GenSt → GenSt) (x : Mod) : (setGen h f x).cpl.gens.get h = f (x.cpl.gens.get h) := by
  simp [setGen]

@[simp] theorem setPair_keeps (p : PairId) (f : PairSt → PairSt) (x : Mod) :
    (setPair p f x).now = x.now ∧ (setPair p f x).free = x.free ∧ (setPair p f x).rdata = x.rdata ∧
    (setPair p f x).out = x.out ∧ (setPair p f x).mode = x.mode ∧ (setPair p f x).evts = x.evts ∧
    (setPair p f x).logs = x.logs ∧ (setPair p f x).spills = x.spills ∧ (setPair p f x).ctrs = x.ctrs ∧
    (setPair p f x).latch = x.latch ∧ (setPair p f x).pwr = x.pwr ∧ (setPair p f x).isl = x.isl ∧
    (setPair p f x).host = x.host ∧ (setPair p f x).dax = x.dax ∧ (setPair p f x).sec = x.sec ∧
    (setPair p f x).patch = x.patch ∧ (setPair p f x).ost = x.ost ∧ (setPair p f x).trb = x.trb ∧
    (setPair p f x).ext = x.ext ∧ (setPair p f x).cpl = x.cpl ∧ (setPair p f x).tt = x.tt ∧
    (setPair p f x).line = x.line ∧ (setPair p f x).frames = x.frames ∧ (setPair p f x).nextF = x.nextF ∧
    (setPair p f x).tbl = x.tbl ∧ (setPair p f x).tkt = x.tkt ∧ (setPair p f x).loft = x.loft ∧
    (setPair p f x).mesh = x.mesh ∧ (setPair p f x).que = x.que ∧ (setPair p f x).cap = x.cap ∧
    (setPair p f x).tim = x.tim ∧
    (setPair p f x).ecc = x.ecc ∧ (setPair p f x).resid = x.resid := by
  and_intros <;> rfl

@[simp] theorem setPair_same (p : PairId) (f : PairSt → PairSt) (x : Mod) : (setPair p f x).pairs.get p = f (x.pairs.get p) := by
  simp [setPair]

@[simp] theorem setTim_keeps (f : Tim → Tim) (x : Mod) :
    (setTim f x).now = x.now ∧ (setTim f x).free = x.free ∧ (setTim f x).rdata = x.rdata ∧ (setTim f x).out = x.out ∧
    (setTim f x).mode = x.mode ∧ (setTim f x).evts = x.evts ∧ (setTim f x).logs = x.logs ∧
    (setTim f x).spills = x.spills ∧ (setTim f x).ctrs = x.ctrs ∧ (setTim f x).pairs = x.pairs ∧
    (setTim f x).latch = x.latch ∧ (setTim f x).pwr = x.pwr ∧ (setTim f x).isl = x.isl ∧ (setTim f x).host = x.host ∧
    (setTim f x).dax = x.dax ∧ (setTim f x).sec = x.sec ∧ (setTim f x).patch = x.patch ∧ (setTim f x).ost = x.ost ∧
    (setTim f x).trb = x.trb ∧ (setTim f x).ext = x.ext ∧ (setTim f x).cpl = x.cpl ∧ (setTim f x).tt = x.tt ∧
    (setTim f x).line = x.line ∧ (setTim f x).frames = x.frames ∧ (setTim f x).nextF = x.nextF ∧
    (setTim f x).tbl = x.tbl ∧ (setTim f x).tkt = x.tkt ∧ (setTim f x).loft = x.loft ∧ (setTim f x).mesh = x.mesh ∧
    (setTim f x).que = x.que ∧ (setTim f x).cap = x.cap ∧
    (setTim f x).ecc = x.ecc ∧ (setTim f x).resid = x.resid := by
  and_intros <;> rfl

@[simp] theorem setTim_same (f : Tim → Tim) (x : Mod) : (setTim f x).tim = f x.tim := by
  simp [setTim]

@[simp] theorem count_keeps (c : CtrId) (n : Nat) (x : Mod) :
    (count c n x).now = x.now ∧ (count c n x).free = x.free ∧ (count c n x).rdata = x.rdata ∧
    (count c n x).out = x.out ∧ (count c n x).mode = x.mode ∧ (count c n x).evts = x.evts ∧
    (count c n x).logs = x.logs ∧ (count c n x).spills = x.spills ∧ (count c n x).pairs = x.pairs ∧
    (count c n x).latch = x.latch ∧ (count c n x).pwr = x.pwr ∧ (count c n x).isl = x.isl ∧
    (count c n x).host = x.host ∧ (count c n x).dax = x.dax ∧ (count c n x).sec = x.sec ∧
    (count c n x).patch = x.patch ∧ (count c n x).ost = x.ost ∧ (count c n x).trb = x.trb ∧
    (count c n x).ext = x.ext ∧ (count c n x).cpl = x.cpl ∧ (count c n x).tt = x.tt ∧ (count c n x).line = x.line ∧
    (count c n x).frames = x.frames ∧ (count c n x).nextF = x.nextF ∧ (count c n x).tbl = x.tbl ∧
    (count c n x).tkt = x.tkt ∧ (count c n x).loft = x.loft ∧ (count c n x).mesh = x.mesh ∧
    (count c n x).que = x.que ∧ (count c n x).cap = x.cap ∧ (count c n x).tim = x.tim ∧
    (count c n x).ecc = x.ecc ∧ (count c n x).resid = x.resid := by
  and_intros <;> rfl

@[simp] theorem count_same (c : CtrId) (n : Nat) (x : Mod) : (count c n x).ctrs.get c = (x.ctrs.get c).addIn x.cyc n := by
  simp [count]

@[simp] theorem tally_keeps (c : CtrId) (x : Mod) :
    (tally c x).now = x.now ∧ (tally c x).free = x.free ∧ (tally c x).rdata = x.rdata ∧ (tally c x).out = x.out ∧
    (tally c x).mode = x.mode ∧ (tally c x).evts = x.evts ∧ (tally c x).logs = x.logs ∧
    (tally c x).spills = x.spills ∧ (tally c x).pairs = x.pairs ∧ (tally c x).latch = x.latch ∧
    (tally c x).pwr = x.pwr ∧ (tally c x).isl = x.isl ∧ (tally c x).host = x.host ∧ (tally c x).dax = x.dax ∧
    (tally c x).sec = x.sec ∧ (tally c x).patch = x.patch ∧ (tally c x).ost = x.ost ∧ (tally c x).trb = x.trb ∧
    (tally c x).ext = x.ext ∧ (tally c x).cpl = x.cpl ∧ (tally c x).tt = x.tt ∧ (tally c x).line = x.line ∧
    (tally c x).frames = x.frames ∧ (tally c x).nextF = x.nextF ∧ (tally c x).tbl = x.tbl ∧ (tally c x).tkt = x.tkt ∧
    (tally c x).loft = x.loft ∧ (tally c x).mesh = x.mesh ∧ (tally c x).que = x.que ∧ (tally c x).cap = x.cap ∧
    (tally c x).tim = x.tim ∧
    (tally c x).ecc = x.ecc ∧ (tally c x).resid = x.resid := by
  and_intros <;> rfl

@[simp] theorem tally_same (c : CtrId) (x : Mod) : (tally c x).ctrs.get c = (x.ctrs.get c).addIn x.cyc 1 := by
  simp [tally, count]

@[simp] theorem emit_keeps (o : Out) (x : Mod) :
    (emit o x).now = x.now ∧ (emit o x).free = x.free ∧ (emit o x).rdata = x.rdata ∧ (emit o x).mode = x.mode ∧
    (emit o x).evts = x.evts ∧ (emit o x).logs = x.logs ∧ (emit o x).spills = x.spills ∧ (emit o x).ctrs = x.ctrs ∧
    (emit o x).pairs = x.pairs ∧ (emit o x).latch = x.latch ∧ (emit o x).pwr = x.pwr ∧ (emit o x).isl = x.isl ∧
    (emit o x).host = x.host ∧ (emit o x).dax = x.dax ∧ (emit o x).sec = x.sec ∧ (emit o x).patch = x.patch ∧
    (emit o x).ost = x.ost ∧ (emit o x).trb = x.trb ∧ (emit o x).ext = x.ext ∧ (emit o x).cpl = x.cpl ∧
    (emit o x).tt = x.tt ∧ (emit o x).line = x.line ∧ (emit o x).frames = x.frames ∧ (emit o x).nextF = x.nextF ∧
    (emit o x).tbl = x.tbl ∧ (emit o x).tkt = x.tkt ∧ (emit o x).loft = x.loft ∧ (emit o x).mesh = x.mesh ∧
    (emit o x).que = x.que ∧ (emit o x).cap = x.cap ∧ (emit o x).tim = x.tim ∧
    (emit o x).ecc = x.ecc ∧ (emit o x).resid = x.resid := by
  and_intros <;> rfl

@[simp] theorem emit_same (o : Out) (x : Mod) : (emit o x).out = (x.now, o) :: x.out := by
  simp [emit]

end Sys2Proof.Machine
end

