-- ==== Sys2Proof/Laws/Ops.lean ====
section
/-! SUPPORT. Sys2Proof/Laws/Ops.lean: everything the shared operations can do: sending, signalling, raising an event, counting,
logging an access, ending a Daxdy command. -/

namespace Sys2Proof.Machine

/-- What signalling can change: what left the block, and the pending vectors. -/
theorem signal_eq (n : Nat) (x : Mod) :
    signal n x = { x with out := (signal n x).out
                          host := { x.host with vecPending := (signal n x).host.vecPending } } := by
  unfold signal
  dsimp only
  split
  · rfl
  · split <;> rfl

/-- What entering a trouble log can change. -/
theorem logEvent_eq (l : Level) (c v a : Nat) (w : Word) (x : Mod) :
    logEvent l c v a w x = { x with logs := (logEvent l c v a w x).logs
                                    out := (logEvent l c v a w x).out
                                    host := { x.host with vecPending := (logEvent l c v a w x).host.vecPending } } := by
  unfold logEvent
  dsimp only
  split
  · rw [signal_eq]
  · rfl

/-- What an event without its notification can change. -/
theorem raiseQuiet_eq (l : Level) (e : Evt) (w : Option Word) (a : Nat) (x : Mod) :
    raiseQuiet l e w a x = { x with evts := (raiseQuiet l e w a x).evts
                                    logs := (raiseQuiet l e w a x).logs
                                    out := (raiseQuiet l e w a x).out
                                    host := { x.host with vecPending := (raiseQuiet l e w a x).host.vecPending } } := by
  unfold raiseQuiet
  dsimp only
  split <;> split <;> first | rfl | rw [logEvent_eq]

/-- What queuing a notification can change. -/
theorem notify_eq (n : Notif) (x : Mod) :
    notify n x = { x with evts := (notify n x).evts
                          logs := (notify n x).logs
                          out := (notify n x).out
                          host := { x.host with vecPending := (notify n x).host.vecPending }
                          dax := { x.dax with notifs := (notify n x).dax.notifs
                                              notifLost := (notify n x).dax.notifLost } } := by
  unfold notify
  split
  · rfl
  · rw [raiseQuiet_eq]

/-- What raising an event can change: event registers, trouble logs, what left the block, pending vectors, notifications. -/
theorem raiseWith_eq (l : Level) (e : Evt) (w : Option Word) (a : Nat) (x : Mod) :
    raiseWith l e w a x = { x with evts := (raiseWith l e w a x).evts
                                   logs := (raiseWith l e w a x).logs
                                   out := (raiseWith l e w a x).out
                                   host := { x.host with vecPending := (raiseWith l e w a x).host.vecPending }
                                   dax := { x.dax with notifs := (raiseWith l e w a x).dax.notifs
                                                       notifLost := (raiseWith l e w a x).dax.notifLost } } := by
  unfold raiseWith
  dsimp only
  split
  · rw [notify_eq, raiseQuiet_eq]
  · rw [raiseQuiet_eq]

@[simp] theorem signal_keeps (n : Nat) (x : Mod) :
    (signal n x).now = x.now ∧ (signal n x).free = x.free ∧ (signal n x).rdata = x.rdata ∧
    (signal n x).mode = x.mode ∧ (signal n x).evts = x.evts ∧ (signal n x).logs = x.logs ∧
    (signal n x).spills = x.spills ∧ (signal n x).ctrs = x.ctrs ∧ (signal n x).pairs = x.pairs ∧
    (signal n x).latch = x.latch ∧ (signal n x).pwr = x.pwr ∧ (signal n x).isl = x.isl ∧ (signal n x).dax = x.dax ∧
    (signal n x).sec = x.sec ∧ (signal n x).patch = x.patch ∧ (signal n x).ost = x.ost ∧ (signal n x).trb = x.trb ∧
    (signal n x).ext = x.ext ∧ (signal n x).cpl = x.cpl ∧ (signal n x).tt = x.tt ∧ (signal n x).line = x.line ∧
    (signal n x).frames = x.frames ∧ (signal n x).nextF = x.nextF ∧ (signal n x).tbl = x.tbl ∧
    (signal n x).tkt = x.tkt ∧ (signal n x).loft = x.loft ∧ (signal n x).mesh = x.mesh ∧ (signal n x).que = x.que ∧
    (signal n x).cap = x.cap ∧ (signal n x).tim = x.tim ∧ (signal n x).host.up = x.host.up ∧
    (signal n x).host.speed = x.host.speed ∧ (signal n x).host.width = x.host.width ∧
    (signal n x).host.degraded = x.host.degraded ∧ (signal n x).host.downCount = x.host.downCount ∧
    (signal n x).host.access = x.host.access ∧ (signal n x).host.unmapped = x.host.unmapped ∧
    (signal n x).host.puntMap = x.host.puntMap ∧ (signal n x).host.vec = x.host.vec ∧
    (signal n x).host.vecMasked = x.host.vecMasked ∧ (signal n x).host.funcMask = x.host.funcMask ∧
    (signal n x).host.rings = x.host.rings := by
  rw [signal_eq]
  and_intros <;> rfl

@[simp] theorem logEvent_keeps (l : Level) (c v a : Nat) (w : Word) (x : Mod) :
    (logEvent l c v a w x).now = x.now ∧ (logEvent l c v a w x).free = x.free ∧
    (logEvent l c v a w x).rdata = x.rdata ∧ (logEvent l c v a w x).mode = x.mode ∧
    (logEvent l c v a w x).evts = x.evts ∧ (logEvent l c v a w x).spills = x.spills ∧
    (logEvent l c v a w x).ctrs = x.ctrs ∧ (logEvent l c v a w x).pairs = x.pairs ∧
    (logEvent l c v a w x).latch = x.latch ∧ (logEvent l c v a w x).pwr = x.pwr ∧ (logEvent l c v a w x).isl = x.isl ∧
    (logEvent l c v a w x).dax = x.dax ∧ (logEvent l c v a w x).sec = x.sec ∧ (logEvent l c v a w x).patch = x.patch ∧
    (logEvent l c v a w x).ost = x.ost ∧ (logEvent l c v a w x).trb = x.trb ∧ (logEvent l c v a w x).ext = x.ext ∧
    (logEvent l c v a w x).cpl = x.cpl ∧ (logEvent l c v a w x).tt = x.tt ∧ (logEvent l c v a w x).line = x.line ∧
    (logEvent l c v a w x).frames = x.frames ∧ (logEvent l c v a w x).nextF = x.nextF ∧
    (logEvent l c v a w x).tbl = x.tbl ∧ (logEvent l c v a w x).tkt = x.tkt ∧ (logEvent l c v a w x).loft = x.loft ∧
    (logEvent l c v a w x).mesh = x.mesh ∧ (logEvent l c v a w x).que = x.que ∧ (logEvent l c v a w x).cap = x.cap ∧
    (logEvent l c v a w x).tim = x.tim ∧ (logEvent l c v a w x).host.up = x.host.up ∧
    (logEvent l c v a w x).host.speed = x.host.speed ∧ (logEvent l c v a w x).host.width = x.host.width ∧
    (logEvent l c v a w x).host.degraded = x.host.degraded ∧
    (logEvent l c v a w x).host.downCount = x.host.downCount ∧ (logEvent l c v a w x).host.access = x.host.access ∧
    (logEvent l c v a w x).host.unmapped = x.host.unmapped ∧ (logEvent l c v a w x).host.puntMap = x.host.puntMap ∧
    (logEvent l c v a w x).host.vec = x.host.vec ∧ (logEvent l c v a w x).host.vecMasked = x.host.vecMasked ∧
    (logEvent l c v a w x).host.funcMask = x.host.funcMask ∧ (logEvent l c v a w x).host.rings = x.host.rings := by
  rw [logEvent_eq]
  and_intros <;> rfl

@[simp] theorem raiseQuiet_keeps (l : Level) (e : Evt) (w : Option Word) (a : Nat) (x : Mod) :
    (raiseQuiet l e w a x).now = x.now ∧ (raiseQuiet l e w a x).free = x.free ∧
    (raiseQuiet l e w a x).rdata = x.rdata ∧ (raiseQuiet l e w a x).mode = x.mode ∧
    (raiseQuiet l e w a x).spills = x.spills ∧ (raiseQuiet l e w a x).ctrs = x.ctrs ∧
    (raiseQuiet l e w a x).pairs = x.pairs ∧ (raiseQuiet l e w a x).latch = x.latch ∧
    (raiseQuiet l e w a x).pwr = x.pwr ∧ (raiseQuiet l e w a x).isl = x.isl ∧ (raiseQuiet l e w a x).dax = x.dax ∧
    (raiseQuiet l e w a x).sec = x.sec ∧ (raiseQuiet l e w a x).patch = x.patch ∧ (raiseQuiet l e w a x).ost = x.ost ∧
    (raiseQuiet l e w a x).trb = x.trb ∧ (raiseQuiet l e w a x).ext = x.ext ∧ (raiseQuiet l e w a x).cpl = x.cpl ∧
    (raiseQuiet l e w a x).tt = x.tt ∧ (raiseQuiet l e w a x).line = x.line ∧
    (raiseQuiet l e w a x).frames = x.frames ∧ (raiseQuiet l e w a x).nextF = x.nextF ∧
    (raiseQuiet l e w a x).tbl = x.tbl ∧ (raiseQuiet l e w a x).tkt = x.tkt ∧ (raiseQuiet l e w a x).loft = x.loft ∧
    (raiseQuiet l e w a x).mesh = x.mesh ∧ (raiseQuiet l e w a x).que = x.que ∧ (raiseQuiet l e w a x).cap = x.cap ∧
    (raiseQuiet l e w a x).tim = x.tim ∧ (raiseQuiet l e w a x).host.up = x.host.up ∧
    (raiseQuiet l e w a x).host.speed = x.host.speed ∧ (raiseQuiet l e w a x).host.width = x.host.width ∧
    (raiseQuiet l e w a x).host.degraded = x.host.degraded ∧
    (raiseQuiet l e w a x).host.downCount = x.host.downCount ∧ (raiseQuiet l e w a x).host.access = x.host.access ∧
    (raiseQuiet l e w a x).host.unmapped = x.host.unmapped ∧ (raiseQuiet l e w a x).host.puntMap = x.host.puntMap ∧
    (raiseQuiet l e w a x).host.vec = x.host.vec ∧ (raiseQuiet l e w a x).host.vecMasked = x.host.vecMasked ∧
    (raiseQuiet l e w a x).host.funcMask = x.host.funcMask ∧ (raiseQuiet l e w a x).host.rings = x.host.rings := by
  rw [raiseQuiet_eq]
  and_intros <;> rfl

@[simp] theorem notify_keeps (n : Notif) (x : Mod) :
    (notify n x).now = x.now ∧ (notify n x).free = x.free ∧ (notify n x).rdata = x.rdata ∧
    (notify n x).mode = x.mode ∧ (notify n x).spills = x.spills ∧ (notify n x).ctrs = x.ctrs ∧
    (notify n x).pairs = x.pairs ∧ (notify n x).latch = x.latch ∧ (notify n x).pwr = x.pwr ∧
    (notify n x).isl = x.isl ∧ (notify n x).sec = x.sec ∧ (notify n x).patch = x.patch ∧ (notify n x).ost = x.ost ∧
    (notify n x).trb = x.trb ∧ (notify n x).ext = x.ext ∧ (notify n x).cpl = x.cpl ∧ (notify n x).tt = x.tt ∧
    (notify n x).line = x.line ∧ (notify n x).frames = x.frames ∧ (notify n x).nextF = x.nextF ∧
    (notify n x).tbl = x.tbl ∧ (notify n x).tkt = x.tkt ∧ (notify n x).loft = x.loft ∧ (notify n x).mesh = x.mesh ∧
    (notify n x).que = x.que ∧ (notify n x).cap = x.cap ∧ (notify n x).tim = x.tim ∧ (notify n x).dax.up = x.dax.up ∧
    (notify n x).dax.restartAt = x.dax.restartAt ∧ (notify n x).dax.restarts = x.dax.restarts ∧
    (notify n x).dax.boxes = x.dax.boxes ∧ (notify n x).dax.taken = x.dax.taken ∧
    (notify n x).dax.version = x.dax.version ∧ (notify n x).dax.session = x.dax.session ∧
    (notify n x).dax.sessions = x.dax.sessions ∧ (notify n x).dax.wdogMs = x.dax.wdogMs ∧
    (notify n x).dax.wdogFrom = x.dax.wdogFrom ∧ (notify n x).dax.posted = x.dax.posted ∧
    (notify n x).dax.postedLost = x.dax.postedLost ∧ (notify n x).dax.notifSeq = x.dax.notifSeq ∧
    (notify n x).dax.ptp = x.dax.ptp ∧ (notify n x).dax.ptpPorts = x.dax.ptpPorts ∧ (notify n x).host.up = x.host.up ∧
    (notify n x).host.speed = x.host.speed ∧ (notify n x).host.width = x.host.width ∧
    (notify n x).host.degraded = x.host.degraded ∧ (notify n x).host.downCount = x.host.downCount ∧
    (notify n x).host.access = x.host.access ∧ (notify n x).host.unmapped = x.host.unmapped ∧
    (notify n x).host.puntMap = x.host.puntMap ∧ (notify n x).host.vec = x.host.vec ∧
    (notify n x).host.vecMasked = x.host.vecMasked ∧ (notify n x).host.funcMask = x.host.funcMask ∧
    (notify n x).host.rings = x.host.rings := by
  rw [notify_eq]
  and_intros <;> rfl

@[simp] theorem raiseWith_keeps (l : Level) (e : Evt) (w : Option Word) (a : Nat) (x : Mod) :
    (raiseWith l e w a x).now = x.now ∧ (raiseWith l e w a x).free = x.free ∧ (raiseWith l e w a x).rdata = x.rdata ∧
    (raiseWith l e w a x).mode = x.mode ∧ (raiseWith l e w a x).spills = x.spills ∧
    (raiseWith l e w a x).ctrs = x.ctrs ∧ (raiseWith l e w a x).pairs = x.pairs ∧
    (raiseWith l e w a x).latch = x.latch ∧ (raiseWith l e w a x).pwr = x.pwr ∧ (raiseWith l e w a x).isl = x.isl ∧
    (raiseWith l e w a x).sec = x.sec ∧ (raiseWith l e w a x).patch = x.patch ∧ (raiseWith l e w a x).ost = x.ost ∧
    (raiseWith l e w a x).trb = x.trb ∧ (raiseWith l e w a x).ext = x.ext ∧ (raiseWith l e w a x).cpl = x.cpl ∧
    (raiseWith l e w a x).tt = x.tt ∧ (raiseWith l e w a x).line = x.line ∧ (raiseWith l e w a x).frames = x.frames ∧
    (raiseWith l e w a x).nextF = x.nextF ∧ (raiseWith l e w a x).tbl = x.tbl ∧ (raiseWith l e w a x).tkt = x.tkt ∧
    (raiseWith l e w a x).loft = x.loft ∧ (raiseWith l e w a x).mesh = x.mesh ∧ (raiseWith l e w a x).que = x.que ∧
    (raiseWith l e w a x).cap = x.cap ∧ (raiseWith l e w a x).tim = x.tim ∧ (raiseWith l e w a x).dax.up = x.dax.up ∧
    (raiseWith l e w a x).dax.restartAt = x.dax.restartAt ∧ (raiseWith l e w a x).dax.restarts = x.dax.restarts ∧
    (raiseWith l e w a x).dax.boxes = x.dax.boxes ∧ (raiseWith l e w a x).dax.taken = x.dax.taken ∧
    (raiseWith l e w a x).dax.version = x.dax.version ∧ (raiseWith l e w a x).dax.session = x.dax.session ∧
    (raiseWith l e w a x).dax.sessions = x.dax.sessions ∧ (raiseWith l e w a x).dax.wdogMs = x.dax.wdogMs ∧
    (raiseWith l e w a x).dax.wdogFrom = x.dax.wdogFrom ∧ (raiseWith l e w a x).dax.posted = x.dax.posted ∧
    (raiseWith l e w a x).dax.postedLost = x.dax.postedLost ∧ (raiseWith l e w a x).dax.notifSeq = x.dax.notifSeq ∧
    (raiseWith l e w a x).dax.ptp = x.dax.ptp ∧ (raiseWith l e w a x).dax.ptpPorts = x.dax.ptpPorts ∧
    (raiseWith l e w a x).host.up = x.host.up ∧ (raiseWith l e w a x).host.speed = x.host.speed ∧
    (raiseWith l e w a x).host.width = x.host.width ∧ (raiseWith l e w a x).host.degraded = x.host.degraded ∧
    (raiseWith l e w a x).host.downCount = x.host.downCount ∧ (raiseWith l e w a x).host.access = x.host.access ∧
    (raiseWith l e w a x).host.unmapped = x.host.unmapped ∧ (raiseWith l e w a x).host.puntMap = x.host.puntMap ∧
    (raiseWith l e w a x).host.vec = x.host.vec ∧ (raiseWith l e w a x).host.vecMasked = x.host.vecMasked ∧
    (raiseWith l e w a x).host.funcMask = x.host.funcMask ∧ (raiseWith l e w a x).host.rings = x.host.rings := by
  rw [raiseWith_eq]
  and_intros <;> rfl

@[simp] theorem raise_keeps (l : Level) (e : Evt) (x : Mod) :
    (raise l e x).now = x.now ∧ (raise l e x).free = x.free ∧ (raise l e x).rdata = x.rdata ∧
    (raise l e x).mode = x.mode ∧ (raise l e x).spills = x.spills ∧ (raise l e x).ctrs = x.ctrs ∧
    (raise l e x).pairs = x.pairs ∧ (raise l e x).latch = x.latch ∧ (raise l e x).pwr = x.pwr ∧
    (raise l e x).isl = x.isl ∧ (raise l e x).sec = x.sec ∧ (raise l e x).patch = x.patch ∧
    (raise l e x).ost = x.ost ∧ (raise l e x).trb = x.trb ∧ (raise l e x).ext = x.ext ∧ (raise l e x).cpl = x.cpl ∧
    (raise l e x).tt = x.tt ∧ (raise l e x).line = x.line ∧ (raise l e x).frames = x.frames ∧
    (raise l e x).nextF = x.nextF ∧ (raise l e x).tbl = x.tbl ∧ (raise l e x).tkt = x.tkt ∧
    (raise l e x).loft = x.loft ∧ (raise l e x).mesh = x.mesh ∧ (raise l e x).que = x.que ∧
    (raise l e x).cap = x.cap ∧ (raise l e x).tim = x.tim ∧ (raise l e x).dax.up = x.dax.up ∧
    (raise l e x).dax.restartAt = x.dax.restartAt ∧ (raise l e x).dax.restarts = x.dax.restarts ∧
    (raise l e x).dax.boxes = x.dax.boxes ∧ (raise l e x).dax.taken = x.dax.taken ∧
    (raise l e x).dax.version = x.dax.version ∧ (raise l e x).dax.session = x.dax.session ∧
    (raise l e x).dax.sessions = x.dax.sessions ∧ (raise l e x).dax.wdogMs = x.dax.wdogMs ∧
    (raise l e x).dax.wdogFrom = x.dax.wdogFrom ∧ (raise l e x).dax.posted = x.dax.posted ∧
    (raise l e x).dax.postedLost = x.dax.postedLost ∧ (raise l e x).dax.notifSeq = x.dax.notifSeq ∧
    (raise l e x).dax.ptp = x.dax.ptp ∧ (raise l e x).dax.ptpPorts = x.dax.ptpPorts ∧
    (raise l e x).host.up = x.host.up ∧ (raise l e x).host.speed = x.host.speed ∧
    (raise l e x).host.width = x.host.width ∧ (raise l e x).host.degraded = x.host.degraded ∧
    (raise l e x).host.downCount = x.host.downCount ∧ (raise l e x).host.access = x.host.access ∧
    (raise l e x).host.unmapped = x.host.unmapped ∧ (raise l e x).host.puntMap = x.host.puntMap ∧
    (raise l e x).host.vec = x.host.vec ∧ (raise l e x).host.vecMasked = x.host.vecMasked ∧
    (raise l e x).host.funcMask = x.host.funcMask ∧ (raise l e x).host.rings = x.host.rings := by
  unfold raise
  rw [raiseWith_eq]
  and_intros <;> rfl

@[simp] theorem raiseLock_keeps (l : Level) (b i o : Nat) (x : Mod) :
    (raiseLock l b i o x).now = x.now ∧ (raiseLock l b i o x).free = x.free ∧ (raiseLock l b i o x).rdata = x.rdata ∧
    (raiseLock l b i o x).mode = x.mode ∧ (raiseLock l b i o x).spills = x.spills ∧
    (raiseLock l b i o x).ctrs = x.ctrs ∧ (raiseLock l b i o x).pairs = x.pairs ∧
    (raiseLock l b i o x).latch = x.latch ∧ (raiseLock l b i o x).pwr = x.pwr ∧ (raiseLock l b i o x).isl = x.isl ∧
    (raiseLock l b i o x).sec = x.sec ∧ (raiseLock l b i o x).patch = x.patch ∧ (raiseLock l b i o x).ost = x.ost ∧
    (raiseLock l b i o x).trb = x.trb ∧ (raiseLock l b i o x).ext = x.ext ∧ (raiseLock l b i o x).cpl = x.cpl ∧
    (raiseLock l b i o x).tt = x.tt ∧ (raiseLock l b i o x).line = x.line ∧ (raiseLock l b i o x).frames = x.frames ∧
    (raiseLock l b i o x).nextF = x.nextF ∧ (raiseLock l b i o x).tbl = x.tbl ∧ (raiseLock l b i o x).tkt = x.tkt ∧
    (raiseLock l b i o x).loft = x.loft ∧ (raiseLock l b i o x).mesh = x.mesh ∧ (raiseLock l b i o x).que = x.que ∧
    (raiseLock l b i o x).cap = x.cap ∧ (raiseLock l b i o x).tim = x.tim ∧ (raiseLock l b i o x).dax.up = x.dax.up ∧
    (raiseLock l b i o x).dax.restartAt = x.dax.restartAt ∧ (raiseLock l b i o x).dax.restarts = x.dax.restarts ∧
    (raiseLock l b i o x).dax.boxes = x.dax.boxes ∧ (raiseLock l b i o x).dax.taken = x.dax.taken ∧
    (raiseLock l b i o x).dax.version = x.dax.version ∧ (raiseLock l b i o x).dax.session = x.dax.session ∧
    (raiseLock l b i o x).dax.sessions = x.dax.sessions ∧ (raiseLock l b i o x).dax.wdogMs = x.dax.wdogMs ∧
    (raiseLock l b i o x).dax.wdogFrom = x.dax.wdogFrom ∧ (raiseLock l b i o x).dax.posted = x.dax.posted ∧
    (raiseLock l b i o x).dax.postedLost = x.dax.postedLost ∧ (raiseLock l b i o x).dax.notifSeq = x.dax.notifSeq ∧
    (raiseLock l b i o x).dax.ptp = x.dax.ptp ∧ (raiseLock l b i o x).dax.ptpPorts = x.dax.ptpPorts ∧
    (raiseLock l b i o x).host.up = x.host.up ∧ (raiseLock l b i o x).host.speed = x.host.speed ∧
    (raiseLock l b i o x).host.width = x.host.width ∧ (raiseLock l b i o x).host.degraded = x.host.degraded ∧
    (raiseLock l b i o x).host.downCount = x.host.downCount ∧ (raiseLock l b i o x).host.access = x.host.access ∧
    (raiseLock l b i o x).host.unmapped = x.host.unmapped ∧ (raiseLock l b i o x).host.puntMap = x.host.puntMap ∧
    (raiseLock l b i o x).host.vec = x.host.vec ∧ (raiseLock l b i o x).host.vecMasked = x.host.vecMasked ∧
    (raiseLock l b i o x).host.funcMask = x.host.funcMask ∧ (raiseLock l b i o x).host.rings = x.host.rings := by
  unfold raiseLock
  rw [raiseWith_eq]
  and_intros <;> rfl

end Sys2Proof.Machine
end

