-- ==== Sys2Proof/Laws/Ecc.lean ====
section
/-! SUPPORT. Sys2Proof/Laws/Ecc.lean: what a read, a write and a check do that meet no error, and what a trouble log holds when
its cycle brings one event. -/

namespace Sys2Proof.Machine

/-- No error stands in a set of words. -/
def eccClean (w : EccWord → Bool) (x : Mod) : Prop := ∀ e ∈ x.ecc, w e.word = false

theorem eccClean_filter {w : EccWord → Bool} {x : Mod} (h : eccClean w x) : x.ecc.filter (fun e => w e.word) = [] := by
  rw [List.filter_eq_nil_iff]
  intro e he
  simp [h e he]

/-- A read of words without an error changes nothing (17 R518). -/
theorem eccRead_clean {w : EccWord → Bool} {x : Mod} (h : eccClean w x) : eccRead w x = (false, x) := by
  simp only [eccRead, eccClean_filter h, List.any_nil, List.foldl_nil]

/-- A repair is not begun where no error stands. -/
theorem eccRepair_clean {w : EccWord → Bool} {x : Mod} (h : eccClean w x) (r : Mod → Mod) : eccRepair w r x = x := by
  simp [eccRepair, eccRead_clean h]

/-- A write of words without an error leaves the errors as they stand. -/
theorem eccWrite_clean {w : EccWord → Bool} {x : Mod} (h : eccClean w x) : eccWrite w x = x := by
  have k : x.ecc.filter (fun e => !w e.word) = x.ecc := by
    rw [List.filter_eq_self]
    intro e he
    simp [h e he]
  simp only [eccWrite, k]

/-- After a write of some words no error stands in them. -/
theorem eccWrite_then_clean (w : EccWord → Bool) (x : Mod) : eccClean w (eccWrite w x) := by
  intro e he
  have k := (List.mem_filter.mp he).2
  simpa using k

/-- A read takes a correctable error away and leaves the others (17 R518). -/
theorem eccMeet_single {e : EccErr} (h : e.double = false) (x : Mod) : (eccMeet e x).ecc = x.ecc.filter (· != e) := by
  simp only [eccMeet, h, Bool.not_false, if_true]
  rw [raiseWith_eq]

/-- A read leaves an uncorrectable error standing, for its word alone can end it. -/
theorem eccMeet_double_keeps {e : EccErr} (h : e.double = true) (x : Mod) :
    (eccMeet e x).ecc.map (fun k => (k.word, k.double)) = x.ecc.map (fun k => (k.word, k.double)) := by
  have k : ∀ k : EccErr, ((if k = e then { k with seen := some x.cyc } else k).word,
      (if k = e then { k with seen := some x.cyc } else k).double) = (k.word, k.double) := by
    intro k
    by_cases hk : k = e <;> simp [hk]
  simp only [eccMeet, h, Bool.not_true, Bool.false_eq_true, if_false]
  split
  · rfl
  · rw [raiseWith_eq]
    simp [k]

/-- A unit without a failing check gives its result and changes nothing (17 R517). -/
theorem residue_clean {u : ResUnit} {x : Mod} (h : ∀ e ∈ x.resid, e.unit_ ≠ u) (p : Nat) : residue u p x = (false, x) := by
  have k : x.resid.find? (fun e => e.unit_ == u) = none := by
    rw [List.find?_eq_none]
    intro e he
    simpa using h e he
  simp only [residue, k]

/-- What orders a cycle's events stands in two logs alike. -/
def TLog.sameTurn (l k : TLog) : Prop := l.before = k.before ∧ l.came = k.came ∧ l.cyc = k.cyc ∧ l.ptr = k.ptr

theorem TLog.push_sameTurn (l : TLog) (r : TRec) : (l.push r).sameTurn l := by
  unfold TLog.push
  repeat' split
  all_goals exact ⟨rfl, rfl, rfl, rfl⟩

/-- An event that enters a log changes what the log holds and nothing that orders the cycle's events. -/
theorem TLog.enter_sameTurn (l : TLog) (now code sev addr : Nat) (w : Word) : (l.enter now code sev addr w).sameTurn l := by
  unfold TLog.enter
  dsimp only
  split
  · exact ⟨rfl, rfl, rfl, rfl⟩
  · obtain ⟨a, b, c, d⟩ := TLog.push_sameTurn
      (if sev = 0 then
        { { l with seq := l.seq + 1, sticky := l.sticky.set code (some (l.seq + 1, sev)) } with notices := (code, addr, now) :: l.notices }
       else { l with seq := l.seq + 1, sticky := l.sticky.set code (some (l.seq + 1, sev)) })
      { seq := l.seq + 1, sev := sev, code := code, time := now / 1000, detail := w }
    refine ⟨a.trans ?_, b.trans ?_, c.trans ?_, d.trans ?_⟩ <;> split <;> rfl

/-- The first event of a cycle enters upon what the log held (17 R523). -/
theorem TLog.take_first {l : TLog} {c : Nat} (h : l.busyIn c = false) (e : TEvt) :
    (l.take c e).before = l.toTStore ∧ (l.take c e).came = [e] ∧ (l.take c e).cyc = c := by
  simp only [TLog.take, h, Bool.false_eq_true, if_false]
  obtain ⟨a, b, d, _⟩ := TLog.enter_sameTurn _ e.time e.code e.sev e.addr e.detail
  exact ⟨a, b, d⟩

/-- A change of a log that took no event in this cycle is the change of its store, and what it meets is that store. -/
theorem TLog.change_quiet {l : TLog} {c : Nat} (h : l.busyIn c = false) (f : TStore → TStore) :
    l.change c f = { l with toTStore := f l.toTStore } := by simp [TLog.change, h]

theorem TLog.met_quiet {l : TLog} {c : Nat} (h : l.busyIn c = false) : l.met c = l.toTStore := by simp [TLog.met, h]

end Sys2Proof.Machine
end

