-- ==== Sys2Proof/Laws/Events.lean ====
section
/-! SUPPORT. Sys2Proof/Laws/Events.lean: an event raised is set, and raising an event clears none. -/

namespace Sys2Proof.Machine

@[simp] theorem signal_evtSet (n : Nat) (l : Level) (e : Evt) (x : Mod) :
    evtSet l e (signal n x) = evtSet l e x := by simp [evtSet]

theorem EvtReg.hit_isSome (r : EvtReg) (i j c : Nat) :
    ((r.hit i c).bits.get j).isSome = (decide (j = i) || (r.bits.get j).isSome) := by
  by_cases h : j = i <;> simp [EvtReg.hit, Map.get_set, h]

theorem raiseQuiet_evtSet (k : Level) (d : Evt) (w : Option Word) (a : Nat) (l : Level) (e : Evt) (x : Mod) :
    evtSet l e (raiseQuiet k d w a x)
      = ((decide (k = l) && decide (d.blk = e.blk) && decide (d.bit = e.bit) && decide (d.blk ≠ 0)) || evtSet l e x) := by
  have key : (raiseQuiet k d w a x).evts
      = if d.blk = 0 then x.evts else x.evts.set (k, d.blk) ((x.evts.get (k, d.blk)).hit d.bit x.cyc) := by
    unfold raiseQuiet
    by_cases h0 : d.blk = 0 <;> by_cases h31 : d.blk = 31 <;> simp [h0, h31]
  by_cases h0 : d.blk = 0
  · simp [evtSet, key, h0]
  · simp only [evtSet, key, if_neg h0]
    by_cases hk : (l, e.blk) = (k, d.blk)
    · have hl : l = k := (Prod.mk.inj hk).1
      have hb : e.blk = d.blk := (Prod.mk.inj hk).2
      subst hl
      simp [hb, EvtReg.hit_isSome, h0, eq_comm]
    · rw [Map.get_set_other _ hk]
      have : ¬(k = l ∧ d.blk = e.blk) := fun h => hk (by rw [h.1, h.2])
      by_cases hl : k = l
      · have hb : d.blk ≠ e.blk := fun h => this ⟨hl, h⟩
        simp [hb]
      · simp [hl]

theorem notify_evtSet_mono (n : Notif) (l : Level) (e : Evt) (x : Mod) (h : evtSet l e x = true) :
    evtSet l e (notify n x) = true := by
  unfold notify
  split
  · exact h
  · rw [raiseQuiet_evtSet]
    simp only [evtSet] at h ⊢
    simp [h]

theorem raiseWith_evtSet_mono (k : Level) (d : Evt) (w : Option Word) (a : Nat) (l : Level) (e : Evt) (x : Mod)
    (h : evtSet l e x = true) : evtSet l e (raiseWith k d w a x) = true := by
  have h1 : evtSet l e (raiseQuiet k d w a x) = true := by rw [raiseQuiet_evtSet, h]; simp
  unfold raiseWith
  dsimp only
  split
  · exact notify_evtSet_mono _ _ _ _ h1
  · exact h1

theorem raiseWith_evtSet (l : Level) (e : Evt) (w : Option Word) (a : Nat) (x : Mod) (h : e.blk ≠ 0) :
    evtSet l e (raiseWith l e w a x) = true := by
  have h1 : evtSet l e (raiseQuiet l e w a x) = true := by rw [raiseQuiet_evtSet]; simp [h]
  unfold raiseWith
  dsimp only
  split
  · exact notify_evtSet_mono _ _ _ _ h1
  · exact h1

@[simp] theorem raise_evtSet (l : Level) (e : Evt) (x : Mod) (h : e.blk ≠ 0) : evtSet l e (raise l e x) = true :=
  raiseWith_evtSet l e none 0 x h

theorem raise_evtSet_mono (k : Level) (d : Evt) (l : Level) (e : Evt) (x : Mod) (h : evtSet l e x = true) :
    evtSet l e (raise k d x) = true := raiseWith_evtSet_mono k d none 0 l e x h

/-- What raising an event changes, as a frame. -/
theorem raiseWith_raised (l : Level) (e : Evt) (w : Option Word) (a : Nat) (x : Mod) :
    raiseWith l e w a x = raised x (raiseWith l e w a x) := raiseWith_eq l e w a x

theorem raise_raised (l : Level) (e : Evt) (x : Mod) : raise l e x = raised x (raise l e x) := raiseWith_eq l e none 0 x

theorem notify_raised (n : Notif) (x : Mod) : notify n x = raised x (notify n x) := notify_eq n x

theorem signal_raised (n : Nat) (x : Mod) : signal n x = raised x (signal n x) := by
  conv_lhs => rw [signal_eq]
  simp [raised]

end Sys2Proof.Machine
end

