-- ==== Sys2Proof/Laws/Outcome.lean ====
section
/-! SUPPORT. Sys2Proof/Laws/Outcome.lean: a command that arrives completes with its effect. -/

namespace Sys2Proof.Machine

theorem cmd_arrives (c : Instr) (f : Mod → Mod) (s : State) (h : arrives c s.mod = true) :
    cmd c f s = .next { s with mod := f s.mod } := by simp [cmd, onMod, h]

theorem cmdAll_arrives (c : Instr) (f : Mod × List Host.Cell → Mod × List Host.Cell) (s : State)
    (h : arrives c s.mod = true) :
    cmdAll c f s = .next { s with mod := (f (s.mod, s.mem)).1, mem := (f (s.mod, s.mem)).2 } := by
  simp [cmdAll, onAll, h]

theorem cmd_stays (c : Instr) (f : Mod → Mod) (s : State) (h : arrives c s.mod = false) : cmd c f s = .next s := by
  simp [cmd, onMod, h]

theorem cmdAll_stays (c : Instr) (f : Mod × List Host.Cell → Mod × List Host.Cell) (s : State)
    (h : arrives c s.mod = false) : cmdAll c f s = .next s := by
  simp [cmdAll, onAll, h]

/-- A command of the module alone completes with whatever holds of its effect. -/
theorem answers_of {c : Instr} {s : State} {P : Mod → Prop} (f : Mod → Mod) (he : exec c s = cmd c f s)
    (ha : arrives c s.mod = true) (h : P (f s.mod)) : Answers c s P :=
  ⟨f s.mod, by rw [he, cmd_arrives c f s ha], h⟩

/-- A command that may write the addressed buffers completes with whatever holds of its effect. -/
theorem answersBuf_of {c : Instr} {s : State} {P : Mod → List Host.Cell → Prop}
    (f : Mod × List Host.Cell → Mod × List Host.Cell) (he : exec c s = cmdAll c f s) (ha : arrives c s.mod = true)
    (h : P (f (s.mod, s.mem)).1 (f (s.mod, s.mem)).2) : AnswersBuf c s P :=
  ⟨_, _, by rw [he, cmdAll_arrives c f s ha], h⟩

/-- A Daxdy command that runs reaches its handler. -/
theorem onCommand_running {n op : Nat} {x : Mod} (h : running x n op) (f : Mailbox → Mod × List Host.Cell → Mod × List Host.Cell)
    (b : List Host.Cell) : onCommand n op f (x, b) = f (x.dax.boxes.get n) (x, b) := by
  obtain ⟨h1, h2, h3, -⟩ := h
  unfold onCommand
  rcases h1 with h1 | h1 <;> simp [h1, h2, h3]

/-- A Daxdy command whose handler completes it ends with that reply. -/
theorem ends_of {c : Instr} {s : State} {n op st : Nat} {body : List Byte} {x : Mod}
    (f : Mailbox → Mod × List Host.Cell → Mod × List Host.Cell) (he : exec c s = cmdAll c (onCommand n op f) s)
    (ha : arrives c s.mod = true) (hr : running s.mod n op)
    (h : f (s.mod.dax.boxes.get n) (s.mod, s.mem) = complete n st body (x, s.mem)) : Ends c s n st body x := by
  rw [Ends, he, cmdAll_arrives c _ s ha, onCommand_running hr, h]

end Sys2Proof.Machine
end

