-- ==== Sys2Proof/Laws/Registers.lean ====
section
/-! SUPPORT. Sys2Proof/Laws/Registers.lean: an access to a register that can be reached does what the register does. -/

namespace Sys2Proof.Machine

theorem reach_reachable (off kind : Nat) (f : Mod → Mod) (x : Mod) (h : reachable x off = true) : reach off kind f x = f x := by
  unfold reachable at h
  unfold reach
  cases hi : offIsland off with
  | some i => simp [hi] at h; simp [h]
  | none =>
    simp [hi] at h
    by_cases h1 : off / 0x4000 = 0x44
    · simp [h1] at h; simp [h1, h]
    · simp [h1]

end Sys2Proof.Machine
end

