-- ==== Sys2Proof/Tests/Slice0.lean ====
section
/-! SUPPORT. Sys2Proof/Tests/Slice0.lean: small states; that the hypotheses of every statement are met, clause by clause; ill-formed
commands; the spec's worked examples. -/

namespace Sys2Proof.Tests

open Sys2Proof.Machine

set_option Elab.async false
set_option linter.unusedVariables false

/-- A timetable with five line ports of 100 Gb/s lanes: port 0 has four, port 1 pause and LPI, port 2
PFC, ports 3 and 4 outriders. -/
def content : TtContent :=
  { rates := .const 2, ports := [(0, { width := 4 }), (1, { fc := 1, lpiCap := true, lpi := true, lpiIdleUs := 5 }), (2, { fc := 2, pfcEn := 0xFF }), (3, { otrEn := true }),
    (4, { otrEn := true })] }

/-- A module that runs Standalone with that timetable ACTIVE, every domain running, the firmware and the host link up, 100 s after
power-on. -/
def m0 : Mod :=
  { now := sec 100
    mode := { mode := .standalone, target := .standalone }
    host := { up := true, vecMasked := .const false }
    dax := { up := true, version := some (3, 2) }
    pwr := { doms := .const { st := .run }, stage := 14, a := { present := true, dV := 2300, dHz := 500, good := true } }
    sec := { running := true, enrol := none }
    tt := { banks := (Map.const {}).set 0 { st := .active, content := some content, seq := 5 }, active := some 0 }
    ost := .const { loaded := true }
    line := { lanes := .const { signal := true, lock := true }, idle := .const false } }

/-- The state of a module with nothing in its buffers and nothing waiting. -/
def st (m : Mod) : State := { State.reset with mod := m }

/-- A Daxdy request of version 3.2 and SEQ 7. -/
def reqOf (op : Nat) (body : List Byte) : List Byte :=
  [2, 3] ++ leBytes 2 op ++ leBytes 4 7 ++ leBytes 2 body.length ++ zeros 6 ++ body

/-- The module with a Daxdy command of opcode `op` and that body running in mailbox `n`. -/
def box (n op : Nat) (body : List Byte) (m : Mod) : Mod :=
  setBox n (fun _ => { st := .running, req := reqOf op body }) m

/-- A frame of `n` bytes to `da` with ETHERTYPE `typ`, data of zeros behind `data`, and its FCS. -/
def ether (n : Nat) (da typ data : List Byte) : List Byte :=
  let b := fit (n - 4) (da ++ zeros 6 ++ typ ++ data)
  b ++ fcsOf b

/-- A unicast frame of 64 bytes of a local protocol. -/
def good : List Byte := ether 64 [0, 1, 2, 3, 4, 5] [0x88, 0xB5] []

/-- A MAC control frame of 64 bytes with that opcode. -/
def ctl (op : Byte) : List Byte := ether 64 [1, 0x80, 0xC2, 0, 0, 1] [0x88, 8] [op, 1, 0, 16]

/-- A frame that came in on port 0 when power came on. -/
def fr0 : Frame := { port := 0, bytes := good, arr := 0, epoch := 0, bank := some 0 }

/-- Port `p` is up. -/
def upPort (p : Nat) (m : Mod) : Mod := setPort p (fun k => { k with up := true }) m

/-- The module holds `fr` as frame 0. -/
def withFrame (fr : Frame) (m : Mod) : Mod := { putFrame 0 fr m with nextF := 1 }

/-- A ticket of generation 1. -/
def tkt0 : Tkt :=
  { sig := 1, port := 0, egress := 3, queue := 0, cls := 0, gen := 1, epoch := 0, minLen := 64, acts := {}, lastUse := 0, dep := 0
    nextHop := none }

/-- A frame that is admitted and complete now. -/
def frA : Frame := { fr0 with admitted := true, arr := sec 100 - 18000 }

/-- A complete frame of port 4 that hit ticket 0, the ticket, which may run outriders to port 3, and the module with both. -/
def frT : Frame := { fr0 with port := 4, admitted := true, tkt := some 0 }
def tktE : Tkt := { tkt0 with port := 4, elig := true, sig := sigOf (ticketKey m0 frT), gen := 0 }
def withTkt (k : Tkt) : Mod := withFrame frT (upPort 3 (putTkt 0 0 (some k) m0))

theorem isFor_frT {x : Mod} {k : Tkt} (h : ((frameCfg x frT).cfg 4).hashMask = ((frameCfg m0 frT).cfg 4).hashMask)
    (hs : k.sig = tktE.sig) (hp : k.port = 4) : k.isFor x frT = true := by
  have e : ticketKey x frT = ticketKey m0 frT := by unfold ticketKey; exact congrArg (fun n => Config.ticketHash (maskedHead n _) _) h
  rw [Tkt.isFor, e, hs, hp]
  exact Bool.and_eq_true_iff.mpr ⟨beq_self_eq_true _, rfl⟩

theorem frameTkt_frT {x : Mod} {k : Tkt} (h : k.isFor x frT = true) (ht : tkt? x (shedOfPort 4) 0 = some k) :
    frameTkt x frT = some (0, k) := by
  have ht' : tkt? x (shedOfPort frT.port) 0 = some k := ht
  show ((tkt? x (shedOfPort frT.port) 0).filter (·.isFor x frT)).map _ = _
  simp [ht', h]

theorem arbiterSkip_frT {x : Mod} {k : Tkt} (h : heldFrames x = [(0, frT)]) (hq : queuedNow x 0 k.egress = false) :
    arbiterSkip x 0 frT k = none := by
  have r (w) : rivals x 0 w = [] := by
    simp only [rivals, h, List.filterMap_cons, List.filterMap_nil]
    cases frameTkt x frT <;> simp
  simp [arbiterSkip, r, hq]

/-- An outrider on port 3 whose deadline has passed. -/
def otr0 : Otr := { tkt := 0, port := 3, queue := 0, cls := 0, acts := {}, len := 64, start := 0, gbps := 100, across := none }

/-- A frame whose declared length its last byte contradicts, decided on a result that did not know it. -/
def frC : Frame :=
  { fr0 with
      bytes := ether 70 [0, 1, 2, 3, 4, 5] [8, 0] [0x45, 0, 0, 200]
      admitted := true
      ended := true
      good := true
      decided := true
      guard := some { at_ := 0, acts := {}, dispo := .drop 0, verdict := .noTicket, trunc := false, reason := 0, fid := 0, vrf := 0
                      vid := 0, flags := 0, nextHop := none } }

/-- A unicast copy of frame 0 for queue 0 of port 1. -/
def copy0 : Copy := { kind := .unicast, port := 1, queue := 0, cls := 0, e := 64 }

/-- A frame with that copy, decided, whole and good. -/
def frD : Frame := { fr0 with admitted := true, ended := true, good := true, decided := true, copies := [copy0] }

/-- Shed 0 holds frame 0 in cell 0. -/
def held0 (m : Mod) : Mod :=
  setLoft 0 (fun l => { l with cells := l.cells.set 0 { count := 1, owner := 0 }
                               held := l.held.set 0 (some { desc := 0, cells := [0], pool := 1, port := 0, cls := 0 }) }) m

/-- A transmission of `n` bytes on a port since power came on. -/
def tx0 (f copy : Option Nat) (n : Nat) : TxNow := { f := f, copy := copy, start := 0, e := n, bytes := zeros n, end_ := sec 1 }

/-- Half 0 of shed 0 as `k`. -/
def half0 (k : Half) (m : Mod) : Mod := setHalf 0 0 (fun _ => k) m

/-- 496 bytes with their CRC-32 as a slot's 500, and with a wrong one. -/
def slotWith (l : List Byte) : YardSlot := { bytes := l ++ fcsOf l, parts := [] }
def slotBad (l : List Byte) : YardSlot := { bytes := l ++ (fcsOf l).map (· ^^^ 1#8), parts := [] }

theorem fcsOf_cons (l : List Byte) : ∃ a b c d, fcsOf l = [a, b, c, d] := ⟨_, _, _, _, rfl⟩

theorem cellOf_slotWith (l : List Byte) (h : l.length = 496) : cellOf (slotWith l) =
    some { stage := bitsOf (leAt (l ++ fcsOf l) 0 2) 15 14, src := bitsOf (leAt (l ++ fcsOf l) 0 2) 13 11
           dst := bitsOf (leAt (l ++ fcsOf l) 0 2) 10 8, int := bitsOf (leAt (l ++ fcsOf l) 0 2) 7 5
           seq := BitVec.ofNat 16 (leAt (l ++ fcsOf l) 2 2), parts := []
           creditCells := bitsOf (leAt (l ++ fcsOf l) 8 4) 15 0, creditDst := bitsOf (leAt (l ++ fcsOf l) 8 4) 18 16 } := by
  unfold cellOf
  refine if_pos ?_
  obtain ⟨a, b, c, d, e⟩ := fcsOf_cons l
  rw [show (slotWith l).bytes = l ++ fcsOf l from rfl, List.take_left' h]
  simp [sliceOf, List.drop_left' h, e]

theorem cellOf_slotBad (l : List Byte) (h : l.length = 496) : cellOf (slotBad l) = none := by
  unfold cellOf
  refine if_neg ?_
  obtain ⟨a, b, c, d, e⟩ := fcsOf_cons l
  rw [show (slotBad l).bytes = l ++ (fcsOf l).map (· ^^^ 1#8) from rfl, List.take_left' h]
  simp [sliceOf, List.drop_left' h, e]
  intro k
  exact absurd (congrArg (·.getLsbD 0) k) (by simp)

/-- A cell of stage two from shed 1 to shed 0, and the slot that a cell without payload is. -/
def cell0 : YardCell := { stage := 2, src := 1, dst := 0, int := 2, seq := 7, parts := [], creditCells := 0, creditDst := 0 }
def slotOf (c : YardCell) : YardSlot :=
  slotWith (leBytes 2 (at_ 14 2 c.stage + at_ 11 3 c.src + at_ 8 3 c.dst + at_ 5 3 c.int) ++ leBytes 2 c.seq.toNat ++ zeros 4
    ++ leBytes 4 (at_ 0 16 c.creditCells + at_ 16 3 c.creditDst) ++ zeros 484)

/-- The record of router MAC entry `i`. -/
def rmac (i : Byte) : List Byte := [i, 1, 0, 0, 0, 1, 2, 3, 4, 5] ++ zeros 6

/-- A TABLE_EDIT body: operation `op` on one record of the router MAC table. -/
def edit7 (op : Byte) (r : List Byte) : List Byte := [7, op, 1, 0, 16, 0, 0, 0] ++ r

/-- Table `t` holds `l` in every shed. -/
def withTab (t : Nat) (l : List Ent) (m : Mod) : Mod :=
  { m with tbl := { m.tbl with ents := (List.range 8).foldl (fun a s => a.set (s, t) l) m.tbl.ents } }

/-- Router MAC entry 3. -/
def ent7 : Ent := { pos := 3, key := [3], dat := rmac 3 }

/-- Changes of parts of the module. -/
def onTim (f : Tim → Tim) (m : Mod) : Mod := { m with tim := f m.tim }
def onTbl (f : Tbl → Tbl) (m : Mod) : Mod := { m with tbl := f m.tbl }
def onTt (f : TtSt → TtSt) (m : Mod) : Mod := { m with tt := f m.tt }
def onDax (f : Dax → Dax) (m : Mod) : Mod := { m with dax := f m.dax }
def onCpl (f : Cpl → Cpl) (m : Mod) : Mod := { m with cpl := f m.cpl }
def onPwr (f : Pwr → Pwr) (m : Mod) : Mod := { m with pwr := f m.pwr }
def onHost (f : HostSt → HostSt) (m : Mod) : Mod := { m with host := f m.host }
def onSec (f : Sec → Sec) (m : Mod) : Mod := { m with sec := f m.sec }
def onMode (f : ModeSt → ModeSt) (m : Mod) : Mod := { m with mode := f m.mode }
def onMesh (f : Mesh → Mesh) (m : Mod) : Mod := { m with mesh := f m.mesh }
def onExt (f : Ext → Ext) (m : Mod) : Mod := { m with ext := f m.ext }

/-- Domain `d` in state `k`. -/
def domAs (d : Nat) (k : Dom) (m : Mod) : Mod := onPwr (fun p => { p with doms := p.doms.set d k }) m

/-- Only shed 0 works: it is every key's home. -/
def one (m : Mod) : Mod := { m with trb := (Map.const { st := .quiesced }).set 0 {} }

/-- The L2 record of address 5 in FID 1 with that DEST and those flags, and its entry. -/
def l2rec (dest flags : Nat) : List Byte := l2Key 1 5 ++ leBytes 4 dest ++ leBytes 2 flags ++ zeros 18
def l2ent (dest flags : Nat) : Ent := { pos := 0, key := l2Key 1 5, dat := l2rec dest flags }

/-- A request of shed 0 to learn that address on port 2. -/
def learn0 : Learn := { src := 0, dest := 2, fid := 1, mac := 5, time := sec 100 }

/-- The module with shed 0 asked to learn, the table holding `l` and the home knowing `k` of the address. -/
def learning (l : List Ent) (k : L2Meta) (m : Mod) : Mod :=
  onTbl (fun t => { t with learns := t.learns.set 0 [learn0], meta_ := t.meta_.set (1, 5) k }) (withTab 1 l m)

/-- Bank 1 as `b`. -/
def bank1 (b : Bank) (m : Mod) : Mod := onTt (fun t => { t with banks := t.banks.set 1 b }) m

/-- A VALID bank newer than the active one, and its TT_ACTIVATE. -/
def valid1 : Bank := { st := .valid, seq := 6, len := 0x500, next := 0x500, content := some content }
def activate1 : List Byte := [1, 0, 0, 0, 6, 0, 0, 0] ++ zeros 32

/-- The module with such a request taken from mailbox `n`. -/
def taken (n op : Nat) (body : List Byte) (m : Mod) : Mod := setBox n (fun _ => { st := .taken, req := reqOf op body }) m

/-- The module Paired, with pairing enabled and both links up. -/
def paired : Mod :=
  onExt (fun e => { e with mgmtLink := true }) (onCpl (fun c => { c with link := true }) (onMode (fun k =>
    { k with mode := .paired, target := .paired }) (onTt (fun t => { t with banks := t.banks.set 0 { st := .active, seq := 5
                                                                                                     content := some { content with
                                                                                                       pair := { enabled := true } } } }) m0)))

/-- Ring `n` as `r`. -/
def ringAs (n : Nat) (r : Ring) (m : Mod) : Mod := onHost (fun h => { h with rings := h.rings.set n r }) m

/-- Engine 0 of shed 0 as `g`, with words of zeros in the stores at address 0. -/
def eng0 (g : Engine) (m : Mod) : Mod :=
  { m with ost := m.ost.upd 0 (fun o => { o with engines := o.engines.set 0 g
                                                 micro := o.micro.set 0 (some 0)
                                                 nano := o.nano.set 0 (some 0) }) }

/-- Standing of shed `k` in the trouble logic. -/
def trbAs (k : Nat) (t : ShedTrb) (m : Mod) : Mod := { m with trb := m.trb.set k t }

/-- An owner without a timetable key. -/
def owner : Enrol := { auth := zeros 57, ttKey := none, policy := 0, pub := [] }

/-- The module with MACsec on port 0, and with a transmit SA there under AN 3. -/
def secured : Mod :=
  onTt (fun t => { t with banks := t.banks.set 0 { st := .active, seq := 5, content := some { content with
    ports := [(0, { macsec := true })] } } }) m0
def sa3 (m : Mod) : Mod :=
  { m with line := { m.line with txSa := m.line.txSa.set (0, 3) (some { sci := zeros 8, ssci := zeros 4, salt := zeros 12,
                                                                        key := zeros 32, nextPn := some 1 }) } }

/-! ### The hypotheses of the statements are met -/

/-- The hypotheses of StepRunsFront are met, clause by clause. -/
theorem test_stepRunsFront_met :
    (∃ (s : State), s.pending = []) :=
  ⟨(st m0), by decide +kernel⟩

/-- The hypotheses of PortsComeAndGo are met, clause by clause. -/
theorem test_portsComeAndGo_met :
    (∃ p, ∃ (s : State), arrives (.portUp p) s.mod = true ∧ portDefined s.mod p = true ∧ (portSt s.mod p).up = false ∧ domRuns s.mod (stallOf p) = true ∧ (∀ l ∈ lanesOf s.mod p, (s.mod.line.lanes.get l).lock = true ∧ passed s.mod.now (s.mod.line.lanes.get l).since (ms 1) = true)) ∧
    (∃ p, ∃ (s : State), arrives (.portDown p) s.mod = true ∧ (portSt s.mod p).up = true ∧ lockLost s.mod p = true) ∧
    (∃ lane, ∃ p, ∃ (s : State), arrives (.laneLockLoss lane) s.mod = true ∧ (s.mod.line.lanes.get lane).lock = true ∧ portOfLane s.mod lane = some p ∧ p < 1024) ∧
    (∃ lane, ∃ p, ∃ (s : State), arrives (.laneLockRegain lane) s.mod = true ∧ (s.mod.line.lanes.get lane).lock = false ∧ laneLive s.mod lane = true ∧ portOfLane s.mod lane = some p ∧ (portSt s.mod p).up = true) ∧
    (∃ lane, ∃ (s : State), arrives (.laneLockAcquire lane) s.mod = true ∧ (s.mod.line.lanes.get lane).lock = false ∧ (s.mod.line.lanes.get lane).signal = true ∧ laneLive s.mod lane = true) :=
  ⟨⟨0, (st m0), by decide +kernel⟩,
   ⟨0, (st (setLane 3 (fun l => { l with lock := false, since := sec 99 }) (setPort 0 (fun k => { k with up := true }) m0))), by decide +kernel⟩,
   ⟨3, 0, (st (setPort 0 (fun k => { k with up := true }) m0)), by decide +kernel⟩,
   ⟨3, 0, (st (setLane 3 (fun l => { l with lock := false, since := sec 100 - us 2 }) (setPort 0 (fun k => { k with up := true }) m0))), by decide +kernel⟩,
   ⟨3, (st (setLane 3 (fun l => { l with lock := false }) m0)), by decide +kernel⟩⟩

/-- The hypotheses of FramesArriveAndEnd are met, clause by clause. -/
theorem test_framesArriveAndEnd_met :
    (∃ p, ∃ (rx : RxBytes), ∃ (side : CplSide), ∃ (s : State), arrives (.frameReceive p rx side) s.mod = true ∧ (p < 1024 ∨ p = 1036 ∨ p = 1037) ∧ forwarding s.mod = true ∧ portUpNow s.mod p = true ∧ rxShut s.mod p = false ∧ shedWorks s.mod (shedOfPort p) = true ∧ (∀ t ∈ (portSt s.mod p).lastIn, t ≤ s.mod.now) ∧ (p < 1024 → validCtl s.mod p rx = false)) ∧
    (∃ f, ∃ fr, ∃ err, ∃ (s : State), arrives (.frameEnd f err) s.mod = true ∧ frame? s.mod f = some fr ∧ fr.ended = false ∧ fr.direct = false ∧ byteAt s.mod fr fr.onWire.length ≤ s.mod.now ∧ (fr.port < 1024 → fr.onWire.length ≤ ((frameCfg s.mod fr).cfg fr.port).maxLen) ∧ let l := fr.onWire; let fcsOk := tailFcs l = fcsOf (noFcs l); 64 ≤ l.length ∧ fr.cut = none ∧ fr.err = false ∧ err = false ∧ fcsOk ∧ macControl l = false ∧ secFault s.mod fr = 0) ∧
    (∃ f, ∃ (fr : Frame), ∃ err, ∃ (s : State), arrives (.frameEnd f err) s.mod = true ∧ frame? s.mod f = some fr ∧ fr.ended = false ∧ fr.direct = false ∧ byteAt s.mod fr fr.onWire.length ≤ s.mod.now ∧ (fr.port < 1024 → fr.onWire.length ≤ ((frameCfg s.mod fr).cfg fr.port).maxLen) ∧ let l := fr.onWire; let fcsOk := tailFcs l = fcsOf (noFcs l); 64 ≤ l.length ∧ fr.cut = none ∧ fr.err = false ∧ err = false ∧ (¬fcsOk) ∧ tailFcs l ≠ stompFcs (noFcs l)) ∧
    (∃ f, ∃ (fr : Frame), ∃ err, ∃ (s : State), arrives (.frameEnd f err) s.mod = true ∧ frame? s.mod f = some fr ∧ fr.ended = false ∧ fr.direct = false ∧ byteAt s.mod fr fr.onWire.length ≤ s.mod.now ∧ (fr.port < 1024 → fr.onWire.length ≤ ((frameCfg s.mod fr).cfg fr.port).maxLen) ∧ let l := fr.onWire; let fcsOk := tailFcs l = fcsOf (noFcs l); l.length < 64) ∧
    (∃ f, ∃ (fr : Frame), ∃ (s : State), arrives (.frameOversize f) s.mod = true ∧ frame? s.mod f = some fr ∧ fr.ended = false ∧ fr.direct = false ∧ let most := ((frameCfg s.mod fr).cfg fr.port).maxLen; most < fr.onWire.length ∧ byteAt s.mod fr (most + 1) ≤ s.mod.now) :=
  ⟨⟨0, ({ bytes := good }), .plain, (st (upPort 0 m0)), by decide +kernel⟩,
   ⟨0, fr0, false, (st (withFrame fr0 m0)), by decide +kernel⟩,
   ⟨0, ({ fr0 with bytes := good.take 60 ++ [1, 2, 3, 4] }), false, (st (withFrame { fr0 with bytes := good.take 60 ++ [1, 2, 3, 4] } m0)), by decide +kernel⟩,
   ⟨0, ({ fr0 with bytes := good.take 63 }), false, (st (withFrame { fr0 with bytes := good.take 63 } m0)), by decide +kernel⟩,
   ⟨0, ({ fr0 with bytes := zeros 1519 }), (st (withFrame { fr0 with bytes := zeros 1519 } m0)), by decide +kernel⟩⟩

/-- The hypotheses of PauseStopsAPort are met, clause by clause. -/
theorem test_pauseStopsAPort_met :
    (∃ p, ∃ l, ∃ (s : State), arrives (.pauseFrameReceive p l) s.mod = true ∧ portUpNow s.mod p = true ∧ (portCfg s.mod p).fc = 1 ∧ validCtl s.mod p { bytes := l } = true) ∧
    (∃ p, ∃ l, ∃ (s : State), arrives (.pfcFrameReceive p l) s.mod = true ∧ portUpNow s.mod p = true ∧ (portCfg s.mod p).fc = 2 ∧ validCtl s.mod p { bytes := l } = true) ∧
    (∃ p, ∃ (cls : Option Nat), ∃ t, ∃ (s : State), arrives (.pauseExpiry p cls) s.mod = true ∧ ((portSt s.mod p).paused.get (cls.getD 8)).until_ = some t ∧ t ≤ s.mod.now) ∧
    (∃ p, ∃ (cls : Option Nat), ∃ (s : State), arrives (.pauseResend p cls) s.mod = true ∧ (portSt s.mod p).asked.get (cls.getD 8) = true ∧ (portSt s.mod p).ctl.any (fun e => e.1 == cls) = false ∧ passed s.mod.now ((portSt s.mod p).sentAt.get (cls.getD 8)) (bytesTime (portGbps (actCfg s.mod) p) (64 * (portCfg s.mod p).pauseTime.getD (cls.getD 0) 0xFFFF) / 2) = true) :=
  ⟨⟨1, (ctl 0), (st (upPort 1 m0)), by decide +kernel⟩,
   ⟨2, (ctl 1), (st (upPort 2 m0)), by decide +kernel⟩,
   ⟨1, none, (sec 100), (st (setPort 1 (fun k => { k with paused := k.paused.set 8 { until_ := some (sec 100) } }) m0)), by decide +kernel⟩,
   ⟨2, (some 7), (st (setPort 2 (fun k => { k with asked := k.asked.set 7 true }) m0)), by decide +kernel⟩⟩

/-- The hypotheses of LineRestsAndWakes are met, clause by clause. -/
theorem test_lineRestsAndWakes_met :
    (∃ p, ∃ (s : State), arrives (.lpiEnter p) s.mod = true ∧ (portCfg s.mod p).lpi = true ∧ (portCfg s.mod p).lpiCap = true ∧ portUpNow s.mod p = true ∧ (portSt s.mod p).tx = none ∧ (portSt s.mod p).txLpi = false ∧ (portSt s.mod p).ctl = [] ∧ (∀ q < 16, (queSt s.mod p q).ents = []) ∧ passed s.mod.now (portSt s.mod p).idleAt (us (portCfg s.mod p).lpiIdleUs) = true) ∧
    (∃ p, ∃ (s : State), arrives (.lpiWakeEnd p) s.mod = true ∧ (portSt s.mod p).lpiWake.isSome = true) ∧
    (∃ p, ∃ b, ∃ (s : State), arrives (.rxLpiChange p b) s.mod = true ∧ portUpNow s.mod p = true ∧ (portSt s.mod p).rxLpi ≠ b) ∧
    (∃ g, ∃ (s : State), arrives (.pipeStepDown g) s.mod = true ∧ (s.mod.line.clks.get g).one = false ∧ (s.mod.line.clks.get g).pin = false ∧ us 100 ≤ s.mod.now ∧ ((s.mod.line.clks.get g).arrivals.filter (fun t => s.mod.now < t + us 100)).length < 64000) ∧
    (∃ p, ∃ (n : FecCounts), ∃ (s : State), arrives (.fecDegrade p n) s.mod = true ∧ portUpNow s.mod p = true ∧ (∀ t ∈ (portSt s.mod p).fecAt, passed s.mod.now t (ms 1) = true)) ∧
    (∃ lane, ∃ (s : State), arrives (.laneSignalDetect lane) s.mod = true ∧ laneLive s.mod lane = true ∧ (s.mod.line.lanes.get lane).signal = false) :=
  ⟨⟨1, (st (setPort 1 (fun k => { k with up := true, idleAt := sec 100 - us 5 }) m0)), by decide +kernel⟩,
   ⟨1, (st (setPort 1 (fun k => { k with txLpi := true, lpiWake := some (sec 100) }) m0)), by decide +kernel⟩,
   ⟨1, true, (st (upPort 1 m0)), by decide +kernel⟩,
   ⟨127, (st m0), by decide +kernel⟩,
   ⟨1, ({ corr := 1, uncorr := 2, symbols := 4097 }), (st (setPort 1 (fun k => { k with up := true, fecAt := some (sec 100 - ms 1) }) m0)), by decide +kernel⟩,
   ⟨0, (st (setLane 0 (fun l => { l with signal := false }) m0)), by decide +kernel⟩⟩

/-- The hypotheses of LoftTakesAndFrees are met, clause by clause. -/
theorem test_loftTakesAndFrees_met :
    (∃ sh, ∃ c, ∃ r, ∃ (s : State), arrives (.cellDec sh c r) s.mod = true ∧ releasesWaiting sh c s.pending = [] ∧ { free := false, cell := c, req := r, desc := 0 } ∉ (s.mod.loft.get sh).relDone ∧ let k := (s.mod.loft.get sh).cells.get c; 2 ≤ k.count) ∧
    (∃ sh, ∃ c, ∃ r, ∃ (s : State), arrives (.cellDec sh c r) s.mod = true ∧ releasesWaiting sh c s.pending = [] ∧ { free := false, cell := c, req := r, desc := 0 } ∉ (s.mod.loft.get sh).relDone ∧ let k := (s.mod.loft.get sh).cells.get c; k.count < 2) ∧
    (∃ sh, ∃ c, ∃ r, ∃ d, ∃ (s : State), arrives (.cellFree sh c r d) s.mod = true ∧ releasesWaiting sh c s.pending = [] ∧ { free := true, cell := c, req := r, desc := d } ∉ (s.mod.loft.get sh).relDone ∧ let k := (s.mod.loft.get sh).cells.get c; d = k.owner ∧ k.count = 1) ∧
    (∃ sh, ∃ c, ∃ r, ∃ d, ∃ (s : State), arrives (.cellFree sh c r d) s.mod = true ∧ releasesWaiting sh c s.pending = [] ∧ { free := true, cell := c, req := r, desc := d } ∉ (s.mod.loft.get sh).relDone ∧ let k := (s.mod.loft.get sh).cells.get c; (d ≠ k.owner ∨ k.count = 0)) ∧
    (∃ sh, ∃ c, ∃ r, ∃ d, ∃ (s : State), arrives (.cellFree sh c r d) s.mod = true ∧ releasesWaiting sh c s.pending = [] ∧ { free := true, cell := c, req := r, desc := d } ∉ (s.mod.loft.get sh).relDone ∧ let k := (s.mod.loft.get sh).cells.get c; d = k.owner ∧ 2 ≤ k.count) ∧
    (∃ sh, ∃ c, ∃ e, ∃ (s : State), arrives (.freeRetry sh c) s.mod = true ∧ (s.mod.loft.get sh).retry.find? (fun e => e.1 == c) = some e ∧ e.2.2 = ((s.mod.loft.get sh).cells.get c).owner ∧ ((s.mod.loft.get sh).cells.get c).count = 1) ∧
    (∃ sh, ∃ (s : State), arrives (.loftAudit sh) s.mod = true ∧ passed s.mod.now (s.mod.loft.get sh).auditAt (ms 100) = true) :=
  ⟨⟨7, 196607, 5, (st (setLoft 7 (fun l => { l with cells := l.cells.set 196607 { count := 2, owner := 9 } }) m0)), by decide +kernel⟩,
   ⟨7, 0, 5, (st (setLoft 7 (fun l => { l with cells := l.cells.set 0 { count := 1, owner := 9 } }) m0)), by decide +kernel⟩,
   ⟨0, 0, 5, 9, (st (setLoft 0 (fun l => { l with cells := l.cells.set 0 { count := 1, owner := 9 } }) m0)), by decide +kernel⟩,
   ⟨0, 0, 5, 8, (st (setLoft 0 (fun l => { l with cells := l.cells.set 0 { count := 1, owner := 9 } }) m0)), by decide +kernel⟩,
   ⟨0, 0, 5, 9, (st (setLoft 0 (fun l => { l with cells := l.cells.set 0 { count := 2, owner := 9 } }) m0)), by decide +kernel⟩,
   ⟨0, 3, ((3, 5, 9)), (st (setLoft 0 (fun l => { l with cells := l.cells.set 3 { count := 1, owner := 9 }, retry := [(3, 5, 9)] }) m0)), by decide +kernel⟩,
   ⟨0, (st (setLoft 0 (fun l => { l with auditAt := sec 100 - ms 100 }) m0)), by decide +kernel⟩⟩

/-- The hypotheses of LoftAdmits are met, clause by clause. -/
theorem test_loftAdmits_met :
    (∃ f, ∃ fr, ∃ (s : State), ∃ k, arrives (.loftAdmission f) s.mod = true ∧ frame? s.mod f = some fr ∧ fr.admitted = false ∧ fr.refused = false ∧ 64 ≤ fr.bytes.length ∧ fr.bad = false ∧ byteAt s.mod fr 64 ≤ s.mod.now ∧ let c := frameCfg s.mod fr; let hv := vectorOf c fr false; let sh := shedOfPort fr.port; let reserve := cellsFor ((declaredBy hv 64).getD hv.pcfg.maxLen); let here := cellsFor (arrivedBytes s.mod fr); let need := max reserve here; decideAdmit s.mod c sh fr.port (portClass hv) need = .pool k ∧ need ≤ allocFree s.mod sh) ∧
    (∃ f, ∃ fr, ∃ (s : State), arrives (.loftAdmission f) s.mod = true ∧ frame? s.mod f = some fr ∧ fr.admitted = false ∧ fr.refused = false ∧ 64 ≤ fr.bytes.length ∧ fr.bad = false ∧ byteAt s.mod fr 64 ≤ s.mod.now ∧ let c := frameCfg s.mod fr; let hv := vectorOf c fr false; let sh := shedOfPort fr.port; let reserve := cellsFor ((declaredBy hv 64).getD hv.pcfg.maxLen); let here := cellsFor (arrivedBytes s.mod fr); let need := max reserve here; (decideAdmit s.mod c sh fr.port (portClass hv) need = .lossy ∨ (∃ k, decideAdmit s.mod c sh fr.port (portClass hv) need = .pool k) ∧ allocFree s.mod sh < need)) ∧
    (∃ f, ∃ (fr : Frame), ∃ (s : State), arrives (.loftAdmission f) s.mod = true ∧ frame? s.mod f = some fr ∧ fr.admitted = false ∧ fr.refused = false ∧ 64 ≤ fr.bytes.length ∧ fr.bad = false ∧ byteAt s.mod fr 64 ≤ s.mod.now ∧ let c := frameCfg s.mod fr; let hv := vectorOf c fr false; let sh := shedOfPort fr.port; let reserve := cellsFor ((declaredBy hv 64).getD hv.pcfg.maxLen); let here := cellsFor (arrivedBytes s.mod fr); let need := max reserve here; decideAdmit s.mod c sh fr.port (portClass hv) need = .headroom) :=
  ⟨⟨0, fr0, (st (withFrame fr0 m0)), 1, by decide +kernel⟩,
   ⟨0, fr0, (st (setLoft 0 (fun l => { l with uses := l.uses.set (1, 0) { shared := 196608 } }) (withFrame fr0 m0))), by decide +kernel, by decide +kernel, by decide +kernel, by decide +kernel, by decide +kernel, by decide +kernel, by decide +kernel, .inl (by decide +kernel)⟩,
   ⟨0, ({ fr0 with port := 1 }), (st (setLoft 0 (fun l => { l with uses := l.uses.set (1, 0) { shared := 196608 } }) (withFrame { fr0 with port := 1 } m0))), by decide +kernel⟩⟩

/-- The hypotheses of TicketsAge are met, clause by clause. -/
theorem test_ticketsAge_met :
    (∃ sh, ∃ (s : State), arrives (.ticketGenAdvance sh) s.mod = true ∧ (s.mod.tkt.get sh).genDue = true ∧ (∀ t ∈ (s.mod.tkt.get sh).genAt, passed s.mod.now t (us 1) = true)) ∧
    (∃ sh, ∃ (s : State), arrives (.ticketSweepDone sh) s.mod = true ∧ (s.mod.tkt.get sh).sweepAt.isSome = true) ∧
    (∃ sh, ∃ t, ∃ (s : State), arrives (.ticketSweepLate sh) s.mod = true ∧ (s.mod.tkt.get sh).sweepAt = some t ∧ t + us 200 < s.mod.now ∧ (s.mod.tkt.get sh).late = false) ∧
    (∃ sh, ∃ t, ∃ (k : Tkt), ∃ (s : State), arrives (.ticketBlockEnd sh t) s.mod = true ∧ tkt? s.mod sh t = some k ∧ k.blocked = true ∧ passed s.mod.now k.blockAt (ms (actCfg s.mod).blockMs) = true) ∧
    (∃ sh, ∃ t, ∃ (k : Tkt), ∃ w, ∃ (s : State), arrives (.refuteWindowEnd sh t) s.mod = true ∧ tkt? s.mod sh t = some k ∧ k.blocked = false ∧ k.windowAt = some w ∧ passed s.mod.now w (sec 1) = true) :=
  ⟨⟨7, (st (setTkt 7 (fun k => { k with genDue := true, genAt := some (sec 100 - us 1) }) m0)), by decide +kernel⟩,
   ⟨7, (st (setTkt 7 (fun k => { k with sweepAt := some 0 }) (putTkt 7 3 (some tkt0) m0))), by decide +kernel⟩,
   ⟨7, 0, (st (setTkt 7 (fun k => { k with sweepAt := some 0 }) m0)), by decide +kernel⟩,
   ⟨7, 32767, ({ tkt0 with blocked := true, blockAt := sec 99 }), (st (putTkt 7 32767 (some { tkt0 with blocked := true, blockAt := sec 99 }) m0)), by decide +kernel⟩,
   ⟨7, 32767, ({ tkt0 with windowAt := some (sec 99) }), (sec 99), (st (putTkt 7 32767 (some { tkt0 with windowAt := some (sec 99) }) m0)), by decide +kernel⟩⟩

/-- The hypotheses of GuardAndOutriders are met, clause by clause. -/
theorem test_guardAndOutriders_met :
    (∃ f, ∃ fr, ∃ (s : State), arrives (.guardResult f) s.mod = true ∧ frame? s.mod f = some fr ∧ s.mod.ecc = [] ∧ let x := refillAll s.mod; let r := resolve x fr (lastIn x fr); guardDue x fr = true ∧ s.mod.now ≤ fr.arr + 18000 ∧ sharing x fr (sameCycle x f fr) = [] ∧ ((recoverOf x fr r.hv).isSome && (rtagSeq r.hv).isSome) = false) ∧
    (∃ f, ∃ fr, ∃ (s : State), arrives (.guardRevision f) s.mod = true ∧ frame? s.mod f = some fr ∧ revisionDue s.mod fr = true ∧ fr.decided = true) ∧
    (∃ f, ∃ fr, ∃ t, ∃ k, ∃ (s : State), arrives (.outriderStart f) s.mod = true ∧ frame? s.mod f = some fr ∧ startFresh fr = true ∧ let x := refillAll s.mod; frameTkt x fr = some (t, k) ∧ startAt x fr k ≤ s.mod.now ∧ let p := k.egress; let body := pad60 (editFrame (recipeEdits x fr k) (noFcs fr.bytes)); let bytes := body ++ fcsOf body; skipRow x f fr k true = none ∧ arbiterSkip x f fr k = none) ∧
    (∃ f, ∃ fr, ∃ t, ∃ (k : Tkt), ∃ (s : State), ∃ c, arrives (.outriderStart f) s.mod = true ∧ frame? s.mod f = some fr ∧ startFresh fr = true ∧ let x := refillAll s.mod; frameTkt x fr = some (t, k) ∧ startAt x fr k ≤ s.mod.now ∧ let p := k.egress; let body := pad60 (editFrame (recipeEdits x fr k) (noFcs fr.bytes)); let bytes := body ++ fcsOf body; ((skipRow x f fr k true).or (arbiterSkip x f fr k)) = some c) ∧
    (∃ f, ∃ (fr : Frame), ∃ o, ∃ (s : State), arrives (.lateGuard f) s.mod = true ∧ frame? s.mod f = some fr ∧ fr.otr = some o ∧ o.st = .running ∧ otrDeadline fr o < s.mod.now ∧ fr.decided = false ∧ otrSending s.mod f o = true) :=
  ⟨⟨0, frA, (st (withFrame frA m0)), by decide +kernel⟩,
   ⟨0, frC, (st (withFrame frC m0)), by decide +kernel⟩,
   ⟨0, frT, 0, tktE, (st (withTkt tktE)), by decide +kernel, by decide +kernel, by decide +kernel, frameTkt_frT (isFor_frT (by decide +kernel) rfl rfl) (by rfl), by decide +kernel, (by unfold skipRow Tkt.hits; rw [isFor_frT (k := tktE) (by decide +kernel) rfl rfl]; decide +kernel), arbiterSkip_frT (by rfl) (by decide +kernel)⟩,
   ⟨0, frT, 0, ({ tktE with egress := 1 }), (st (withTkt { tktE with egress := 1 })), 10, by decide +kernel, by decide +kernel, by decide +kernel, frameTkt_frT (isFor_frT (by decide +kernel) rfl rfl) (by rfl), by decide +kernel, by decide +kernel⟩,
   ⟨0, ({ frT with otr := some otr0 }), otr0, (st (setPort 3 (fun k => { k with tx := some (tx0 (some 0) none 64) }) (withFrame { frT with otr := some otr0 } m0))), by decide +kernel⟩⟩

/-- The hypotheses of CopiesAreSent are met, clause by clause. -/
theorem test_copiesAreSent_met :
    (∃ f, ∃ c, ∃ fr, ∃ k, ∃ n, ∃ (s : State), arrives (.enqueue f c) s.mod = true ∧ frame? s.mod f = some fr ∧ fr.copy? c = some k ∧ copyDue s.mod f c fr k = true ∧ goesCt s.mod fr k = false ∧ copyWhole s.mod f fr k = true ∧ portDefined s.mod k.port = true ∧ portUpNow s.mod k.port = true ∧ knownE s.mod fr k = some n ∧ n ≤ (framePort s.mod fr k.port).maxLen ∧ s.mod.que.resBad = [] ∧ s.mod.ecc = [] ∧ (queSt s.mod k.port k.queue).ents = []) ∧
    (∃ p, ∃ (cls : Option Nat), ∃ stops, ∃ (rest : List (Option Nat × Bool)), ∃ (s : State), arrives (.scheduleFrame p) s.mod = true ∧ let x := refillAll s.mod; atBoundary x p = true ∧ (portSt x p).ctl = (cls, stops) :: rest) ∧
    (∃ p, ∃ (g : Pick), ∃ (q : Pick), ∃ (ent : QEnt), ∃ (ents : List QEnt), ∃ fr, ∃ k, ∃ (s : State), arrives (.scheduleFrame p) s.mod = true ∧ s.mod.ecc = [] ∧ s.mod.resid = [] ∧ let x := refillAll s.mod; let y := clearDeficits p x; atBoundary x p = true ∧ (portSt x p).ctl = [] ∧ tokensOk x p 2 0 = true ∧ pickGroup y p = some g ∧ pickQueue y p g.child = some q ∧ (queSt y p q.child).ents = ent :: ents ∧ frame? s.mod ent.f = some fr ∧ fr.copy? ent.copy = some k ∧ let z := takePick p g.child 0 q (takePick p 4 1 g y); pnSpent z fr k (pad60 (copyBody z fr k)) = false) ∧
    (∃ p, ∃ (s : State), arrives (.scheduleFrame p) s.mod = true ∧ (portSt s.mod p).txLpi = true ∧ (portSt s.mod p).lpiWake = none ∧ (List.range 16).any (fun q => (queSt s.mod p q).ents != []) = true) ∧
    (∃ p, ∃ t, ∃ (s : State), arrives (.txFrameEnd p) s.mod = true ∧ (portSt s.mod p).tx = some t ∧ t.end_ ≤ s.mod.now ∧ t.f = none) ∧
    (∃ p, ∃ t, ∃ f, ∃ c, ∃ fr, ∃ k, ∃ (s : State), arrives (.txFrameEnd p) s.mod = true ∧ (portSt s.mod p).tx = some t ∧ t.end_ ≤ s.mod.now ∧ t.f = some f ∧ t.copy = some c ∧ t.stomp = false ∧ frame? s.mod f = some fr ∧ fr.copy? c = some k ∧ f ≠ s.mod.nextF) ∧
    (∃ p, ∃ f, ∃ c, ∃ (fr : Frame), ∃ (k : Copy), ∃ t, ∃ (s : State), arrives (.ctOversizeStomp p) s.mod = true ∧ ctNow s.mod p = some (f, c, fr, k) ∧ (portSt s.mod p).tx = some t ∧ (portCfg s.mod p).maxLen < t.bytes.length ∧ t.start + bytesTime (portGbps (actCfg s.mod) p) ((portCfg s.mod p).maxLen - 4) ≤ s.mod.now) ∧
    (∃ p, ∃ f, ∃ c, ∃ (fr : Frame), ∃ (k : Copy), ∃ (h : Held), ∃ (s : State), arrives (.ctUnderrun p) s.mod = true ∧ ctNow s.mod p = some (f, c, fr, k) ∧ held? s.mod (copyHome fr k) f = some h ∧ copyHome fr k ≠ shedOfPort fr.port ∧ h.whole = false ∧ h.got < sentBytes s.mod p s.mod.now) :=
  ⟨⟨0, 0, frD, copy0, 64, (st (held0 (withFrame frD (upPort 1 m0)))), by decide +kernel⟩,
   ⟨1, none, true, ([]), (st (setPort 1 (fun k => { k with up := true, ctl := [(none, true)] }) m0)), by decide +kernel⟩,
   ⟨1, ({ child := 0, prio := 0, defs := [{ idx := 0, weight := 1, def_ := 192, e := 64 }] }), ({ child := 0, prio := 0, defs := [{ idx := 0, weight := 1, def_ := 192, e := 64 }] }), ({ f := 0, copy := 0, e := 64, at_ := 0 }), ([]), frD, copy0, (st (setQue 1 0 (fun k => { k with ents := [{ f := 0, copy := 0, e := 64, at_ := 0 }] }) (held0 (withFrame frD (upPort 1 m0))))), by decide +kernel⟩,
   ⟨1, (st (setQue 1 15 (fun k => { k with ents := [{ f := 0, copy := 0, e := 64, at_ := 0 }] }) (setPort 1 (fun k => { k with txLpi := true }) m0))), by decide +kernel⟩,
   ⟨1, (tx0 none none 64), (st (setPort 1 (fun k => { k with tx := some (tx0 none none 64) }) m0)), by decide +kernel⟩,
   ⟨1, (tx0 (some 0) (some 0) 64), 0, 0, frD, copy0, (st (setPort 1 (fun k => { k with tx := some (tx0 (some 0) (some 0) 64) }) (held0 (withFrame frD m0)))), by decide +kernel⟩,
   ⟨1, 0, 0, ({ frD with copies := [{ copy0 with ct := true }] }), ({ copy0 with ct := true }), (tx0 (some 0) (some 0) 1519), (st (setPort 1 (fun k => { k with tx := some (tx0 (some 0) (some 0) 1519) }) (withFrame { frD with copies := [{ copy0 with ct := true }] } m0))), by decide +kernel⟩,
   ⟨1, 0, 0, ({ frD with port := 128, copies := [{ copy0 with ct := true }] }), ({ copy0 with ct := true }), ({ desc := 0, cells := [0], pool := 1, port := 0, cls := 0 }), (st (setPort 1 (fun k => { k with tx := some (tx0 (some 0) (some 0) 64) }) (held0 (withFrame { frD with port := 128, copies := [{ copy0 with ct := true }] } m0)))), by decide +kernel⟩⟩

/-- The hypotheses of EnqueueConditions are met, clause by clause. -/
theorem test_enqueueConditions_met :
    (∃ (f : Nat), ∃ (c : Nat), ∃ (fr : Frame), ∃ (k : Copy), ∃ (ct : Bool), ∃ (x : Mod), frame? x f = some fr ∧ fr.copy? c = some k ∧ k.st ≠ .done ∧ let y := enqueueNow f c fr k ct x; let dropped (i : Nat) : Prop := counted x (queCtr k.port k.queue i) 1 y ∧ (queSt y k.port k.queue).ents = (queSt x k.port k.queue).ents ∧ ∀ r, frame? y f = some r → (r.copy? c).any (fun k => k.st == .done) = true; portDefined x k.port = false) ∧
    (∃ (f : Nat), ∃ (c : Nat), ∃ (fr : Frame), ∃ (k : Copy), ∃ (ct : Bool), ∃ (x : Mod), frame? x f = some fr ∧ fr.copy? c = some k ∧ k.st ≠ .done ∧ let y := enqueueNow f c fr k ct x; let dropped (i : Nat) : Prop := counted x (queCtr k.port k.queue i) 1 y ∧ (queSt y k.port k.queue).ents = (queSt x k.port k.queue).ents ∧ ∀ r, frame? y f = some r → (r.copy? c).any (fun k => k.st == .done) = true; portDefined x k.port = true ∧ portUpNow x k.port = false) ∧
    (∃ (f : Nat), ∃ (c : Nat), ∃ (fr : Frame), ∃ (k : Copy), ∃ (ct : Bool), ∃ (x : Mod), ∃ n, frame? x f = some fr ∧ fr.copy? c = some k ∧ k.st ≠ .done ∧ let y := enqueueNow f c fr k ct x; let dropped (i : Nat) : Prop := counted x (queCtr k.port k.queue i) 1 y ∧ (queSt y k.port k.queue).ents = (queSt x k.port k.queue).ents ∧ ∀ r, frame? y f = some r → (r.copy? c).any (fun k => k.st == .done) = true; portDefined x k.port = true ∧ portUpNow x k.port = true ∧ knownE x fr k = some n ∧ (framePort x fr k.port).maxLen < n) ∧
    (∃ (f : Nat), ∃ (c : Nat), ∃ (fr : Frame), ∃ (k : Copy), ∃ (ct : Bool), ∃ (x : Mod), ∃ n, frame? x f = some fr ∧ fr.copy? c = some k ∧ k.st ≠ .done ∧ let y := enqueueNow f c fr k ct x; let dropped (i : Nat) : Prop := counted x (queCtr k.port k.queue i) 1 y ∧ (queSt y k.port k.queue).ents = (queSt x k.port k.queue).ents ∧ ∀ r, frame? y f = some r → (r.copy? c).any (fun k => k.st == .done) = true; portDefined x k.port = true ∧ portUpNow x k.port = true ∧ knownE x fr k = some n ∧ n ≤ (framePort x fr k.port).maxLen ∧ x.que.resBad = [] ∧ x.ecc = [] ∧ (queSt x k.port k.queue).ents = []) :=
  ⟨⟨0, 0, ({ frD with copies := [{ copy0 with port := 5 }] }), ({ copy0 with port := 5 }), false, (withFrame { frD with copies := [{ copy0 with port := 5 }] } m0), by decide +kernel⟩,
   ⟨0, 0, frD, copy0, false, (withFrame frD m0), by decide +kernel⟩,
   ⟨0, 0, ({ frD with bytes := zeros 1519 }), copy0, false, (withFrame { frD with bytes := zeros 1519 } (upPort 1 m0)), 1519, by decide +kernel⟩,
   ⟨0, 0, frD, copy0, false, (withFrame frD (upPort 1 m0)), 64, by decide +kernel⟩⟩

/-- The hypotheses of YardCellsMove are met, clause by clause. -/
theorem test_yardCellsMove_met :
    (∃ sh, ∃ h, ∃ (c : YardSlot), ∃ (s : State), arrives (.yardCellReceive sh h c) s.mod = true ∧ halfRuns (s.mod.mesh.halves.get (sh, h)) = true ∧ shedWorks s.mod sh = true ∧ cellOf c = none) ∧
    (∃ sh, ∃ h, ∃ (c : YardSlot), ∃ (s : State), ∃ (k : YardCell), arrives (.yardCellReceive sh h c) s.mod = true ∧ halfRuns (s.mod.mesh.halves.get (sh, h)) = true ∧ shedWorks s.mod sh = true ∧ cellOf c = some k ∧ k.stage = 1 ∧ k.dst ≠ sh) ∧
    (∃ sh, ∃ h, ∃ c, ∃ (s : State), ∃ k, arrives (.yardCellReceive sh h c) s.mod = true ∧ halfRuns (s.mod.mesh.halves.get (sh, h)) = true ∧ shedWorks s.mod sh = true ∧ cellOf c = some k ∧ k.stage ≠ 0 ∧ k.dst = sh ∧ s.mod.resid = [] ∧ (s.mod.mesh.reseq.get (sh, k.src)).next = k.seq ∧ (s.mod.mesh.reseq.get (sh, k.src)).cells = []) ∧
    (∃ sh, ∃ h, ∃ (c : YardSlot), ∃ (s : State), ∃ (k : YardCell), arrives (.yardCellReceive sh h c) s.mod = true ∧ halfRuns (s.mod.mesh.halves.get (sh, h)) = true ∧ shedWorks s.mod sh = true ∧ cellOf c = some k ∧ k.stage = 0 ∧ k.creditCells ≠ 0) ∧
    (∃ sh, ∃ src, ∃ t, ∃ (s : State), arrives (.reseqTimeout sh src) s.mod = true ∧ cellComes sh src s.mod s.pending = false ∧ (s.mod.mesh.reseq.get (sh, src)).timer = some t ∧ (s.mod.mesh.reseq.get (sh, src)).cells ≠ [] ∧ passed s.mod.now t (us (actCfg s.mod).reseq / 4) = true) ∧
    (∃ (s : State), arrives .slotEpochBoundary s.mod = true) ∧
    (∃ sh, ∃ h, ∃ (s : State), arrives (.drawbarSlot sh h) s.mod = true ∧ shedWorks s.mod sh = true ∧ let k := s.mod.mesh.halves.get (sh, h); let t := s.mod.now / slotTime k; let p := peerOf sh h; let express := if t % 8 = h then expressStreams s.mod sh h else []; let next := s.mod.mesh.s2.get (sh, p); halfRuns k = true ∧ k.switchAt = none ∧ k.lastSlot ≠ some t ∧ t % 65536 ≠ 65535 ∧ (∀ d < 8, s.mod.mesh.streams.get (sh, d) = []) ∧ s.mod.mesh.s1.get (sh, sh) = [] ∧ express ≠ []) ∧
    (∃ sh, ∃ h, ∃ (s : State), ∃ (a : YardCell), arrives (.drawbarSlot sh h) s.mod = true ∧ shedWorks s.mod sh = true ∧ let k := s.mod.mesh.halves.get (sh, h); let t := s.mod.now / slotTime k; let p := peerOf sh h; let express := if t % 8 = h then expressStreams s.mod sh h else []; let next := s.mod.mesh.s2.get (sh, p); halfRuns k = true ∧ k.switchAt = none ∧ k.lastSlot ≠ some t ∧ t % 65536 ≠ 65535 ∧ (∀ d < 8, s.mod.mesh.streams.get (sh, d) = []) ∧ s.mod.mesh.s1.get (sh, sh) = [] ∧ express = [] ∧ readyS1 s.mod sh p = some a ∧ next = []) ∧
    (∃ sh, ∃ h, ∃ (s : State), ∃ (b : YardCell), ∃ (l : List YardCell), arrives (.drawbarSlot sh h) s.mod = true ∧ shedWorks s.mod sh = true ∧ let k := s.mod.mesh.halves.get (sh, h); let t := s.mod.now / slotTime k; let p := peerOf sh h; let express := if t % 8 = h then expressStreams s.mod sh h else []; let next := s.mod.mesh.s2.get (sh, p); halfRuns k = true ∧ k.switchAt = none ∧ k.lastSlot ≠ some t ∧ t % 65536 ≠ 65535 ∧ (∀ d < 8, s.mod.mesh.streams.get (sh, d) = []) ∧ s.mod.mesh.s1.get (sh, sh) = [] ∧ express = [] ∧ readyS1 s.mod sh p = none ∧ next = b :: l) ∧
    (∃ sh, ∃ h, ∃ (s : State), arrives (.drawbarSlot sh h) s.mod = true ∧ shedWorks s.mod sh = true ∧ let k := s.mod.mesh.halves.get (sh, h); let t := s.mod.now / slotTime k; let p := peerOf sh h; let express := if t % 8 = h then expressStreams s.mod sh h else []; let next := s.mod.mesh.s2.get (sh, p); halfRuns k = true ∧ k.switchAt = none ∧ k.lastSlot ≠ some t ∧ t % 65536 ≠ 65535 ∧ (∀ d < 8, s.mod.mesh.streams.get (sh, d) = []) ∧ s.mod.mesh.s1.get (sh, sh) = [] ∧ express = [] ∧ readyS1 s.mod sh p = none ∧ next = []) :=
  ⟨⟨0, 0, (slotBad (zeros 496)), (st (half0 { st := .full } m0)), by decide +kernel, by decide +kernel, by decide +kernel, cellOf_slotBad _ (by decide +kernel)⟩,
   ⟨0, 0, (slotOf { cell0 with stage := 1, dst := 7 }), (st (half0 { st := .halfRate } m0)), ({ cell0 with stage := 1, dst := 7 }), by decide +kernel, by decide +kernel, by decide +kernel, (cellOf_slotWith _ (by decide +kernel)).trans (by decide +kernel), by decide +kernel⟩,
   ⟨0, 0, (slotOf cell0), (st (onMesh (fun k => { k with reseq := (Map.const {}).set (0, 1) { next := 7 } }) (half0 { st := .full } m0))), cell0, by decide +kernel, by decide +kernel, by decide +kernel, (cellOf_slotWith _ (by decide +kernel)).trans (by decide +kernel), by decide +kernel⟩,
   ⟨0, 0, (slotOf { cell0 with stage := 0, creditCells := 3, creditDst := 2 }), (st (half0 { st := .full } m0)), ({ cell0 with stage := 0, creditCells := 3, creditDst := 2 }), by decide +kernel, by decide +kernel, by decide +kernel, (cellOf_slotWith _ (by decide +kernel)).trans (by decide +kernel), by decide +kernel⟩,
   ⟨0, 1, (sec 100 - us 1), (st (onMesh (fun k => { k with reseq := (Map.const {}).set (0, 1) { next := 6, cells := [cell0], timer := some (sec 100 - us 1) } }) m0)), by decide +kernel⟩,
   ⟨(st m0), by decide +kernel⟩,
   ⟨0, 0, (st (setPort 3 (fun k => { k with tx := some (tx0 (some 0) none 64) }) (withFrame { frT with otr := some { otr0 with across := some (0, 0) } } (half0 { st := .full } m0)))), by decide +kernel⟩,
   ⟨0, 0, (st (onMesh (fun k => { k with s1 := k.s1.set (0, 1) [{ cell0 with stage := 1, src := 0, dst := 1 }] }) (half0 { st := .full } m0))), ({ cell0 with stage := 1, src := 0, dst := 1 }), by decide +kernel⟩,
   ⟨0, 0, (st (onMesh (fun k => { k with s2 := k.s2.set (0, 1) [{ cell0 with src := 2, dst := 1 }] }) (half0 { st := .full } m0))), ({ cell0 with src := 2, dst := 1 }), ([]), by decide +kernel⟩,
   ⟨0, 0, (st (half0 { st := .full } m0)), by decide +kernel⟩⟩

/-- The hypotheses of DrawbarsChangeState are met, clause by clause. -/
theorem test_drawbarsChangeState_met :
    (∃ sh, ∃ h, ∃ (s : State), arrives (.drawbarCrcLimit sh h) s.mod = true ∧ halfRuns (s.mod.mesh.halves.get (sh, h)) = true ∧ 64 < ((s.mod.mesh.halves.get (sh, h)).crcTimes.filter (fun t => s.mod.now < t + ms 1)).length) ∧
    (∃ sh, ∃ h, ∃ (s : State), arrives (.hitchClockLockLoss sh h) s.mod = true ∧ halfRuns (s.mod.mesh.halves.get (sh, h)) = true) ∧
    (∃ sh, ∃ h, ∃ (s : State), arrives (.halfRateEnter sh h) s.mod = true ∧ (s.mod.mesh.halves.get (sh, h)).st = .full ∧ (s.mod.mesh.halves.get (sh, h)).express = 0 ∧ (s.mod.mesh.halves.get (sh, h)).switchAt = none ∧ (∃ t ∈ (s.mod.mesh.halves.get (sh, h)).lightAt, passed s.mod.now t (us 100) = true) ∧ sentIn s.mod sh h (us 100) < 15000000) ∧
    (∃ sh, ∃ h, ∃ (s : State), arrives (.halfRateReturn sh h) s.mod = true ∧ (s.mod.mesh.halves.get (sh, h)).st = .halfRate ∧ (s.mod.mesh.halves.get (sh, h)).switchAt = none ∧ ((s.mod.mesh.halves.get (sh, h)).wantFull = true ∨ 300000 < sentIn s.mod sh h (us 1))) ∧
    (∃ sh, ∃ h, ∃ t, ∃ (s : State), arrives (.rateSwitchOverEnd sh h) s.mod = true ∧ (s.mod.mesh.halves.get (sh, h)).switchAt = some t ∧ passed s.mod.now t 200000 = true) :=
  ⟨⟨0, 0, (st (half0 { st := .full, express := 100, crcTimes := List.replicate 65 (sec 100) } m0)), by decide +kernel⟩,
   ⟨0, 0, (st (half0 { st := .halfRate } m0)), by decide +kernel⟩,
   ⟨0, 0, (st (half0 { st := .full, lightAt := some (sec 100 - us 101) } m0)), by decide +kernel⟩,
   ⟨0, 0, (st (half0 { st := .halfRate, sent := [(sec 100, 300001)] } m0)), by decide +kernel⟩,
   ⟨0, 0, (sec 100 - 200000), (st (half0 { st := .full, switchAt := some (sec 100 - 200000) } m0)), by decide +kernel⟩⟩

/-- The hypotheses of QueuesAreServed are met, clause by clause. -/
theorem test_queuesAreServed_met :
    (∃ (s : State), arrives .refillTick s.mod = true ∧ s.mod.now % 5000 = 0 ∧ s.mod.que.refill ≠ some s.mod.now ∧ s.mod.que.resBad = [] ∧ s.mod.ecc = []) ∧
    (∃ (s : State), arrives .wredAverageTick s.mod = true ∧ s.mod.now % us 1 = 0 ∧ s.mod.que.avgAt ≠ some s.mod.now ∧ s.mod.que.resBad = [] ∧ s.mod.ecc = [] ∧ (s.mod.que.qs.ents.map (·.1)).Nodup) ∧
    (∃ p, ∃ q, ∃ (s : State), arrives (.queueUseRecountDone p q) s.mod = true) ∧
    (∃ g, ∃ (v : Word), ∃ (s : State), arrives (.depthSelectWrite g v) s.mod = true ∧ reachable s.mod (levelBase (.stall g) + 0xC000) = true) :=
  ⟨⟨(st m0), by decide +kernel⟩,
   ⟨(st m0), by decide +kernel⟩,
   ⟨1037, 15, (st (setQue 1037 15 (fun k => { k with recount := some 0 }) m0)), by decide +kernel⟩,
   ⟨0, 0xFFFFFFFF, (st m0), by decide +kernel⟩⟩

/-- The hypotheses of CapturesAndPerfCounters are met, clause by clause. -/
theorem test_capturesAndPerfCounters_met :
    (∃ r, ∃ (s : State), arrives (.lossMarkerWrite r) s.mod = true ∧ (s.mod.cap.rings.get r).enable = true ∧ (s.mod.cap.rings.get r).lost ≠ 0 ∧ (s.mod.cap.rings.get r).format ≠ 1 ∧ fitsRing s.mod r 64 = true) ∧
    (∃ r, ∃ l, ∃ (t : List (Nat × List Byte)), ∃ (s : State), arrives .captureRecordDma s.mod = true ∧ s.mod.cap.buf = (r, l) :: t ∧ s.mod.cap.dmaAt ≤ s.mod.now ∧ s.mod.ecc = []) ∧
    (∃ sh, ∃ t, ∃ (s : State), arrives (.ostlerSample sh) s.mod = true ∧ (s.mod.cap.sheds.get sh).ostAt = some t ∧ t ≤ s.mod.now ∧ (s.mod.cap.sheds.get sh).ostCfg.getLsbD 31 = true ∧ let r := fieldOf (s.mod.cap.sheds.get sh).ostCfg 27 24; ringIsV1 s.mod r = false ∧ (s.mod.cap.rings.get r).enable = true ∧ (s.mod.cap.rings.get r).lost = 0 ∧ fitsRing s.mod r 64 = true) ∧
    (∃ p, ∃ u, ∃ r, ∃ (s : State), arrives (.queueDepthExport p) s.mod = true ∧ (actCfg s.mod).exports.get (stallOf p) = some (u, r) ∧ portDefined s.mod p = true ∧ passed s.mod.now (s.mod.cap.exportAt.get p) (us u) = true ∧ ringIsV1 s.mod r = false ∧ (s.mod.cap.rings.get r).enable = true ∧ (s.mod.cap.rings.get r).lost = 0 ∧ fitsRing s.mod r 192 = true) ∧
    (∃ (v : Word), ∃ (s : State), arrives (.snapshotArm v) s.mod = true ∧ v.getLsbD 0 = true) ∧
    (∃ sh, ∃ t, ∃ (s : State), arrives (.snapshotTake sh) s.mod = true ∧ s.mod.cap.armed = some t ∧ shedWorks s.mod sh = true ∧ (s.mod.cap.sheds.get sh).snapDone = false ∧ t ≤ s.mod.now / 1000) ∧
    (∃ sh, ∃ n, ∃ (s : State), arrives (.pcOverflow sh n) s.mod = true ∧ ((s.mod.cap.sheds.get sh).pcs.get n).cfg.getLsbD 31 = true ∧ ((s.mod.cap.sheds.get sh).pcs.get n).val.toNat = 2 ^ 48 - 1) ∧
    (∃ sh, ∃ n, ∃ (v : Word), ∃ (s : State), arrives (.pcConfigWrite sh n true v) s.mod = true ∧ reachable s.mod (capOff sh (4 * n + 0x40)) = true) ∧
    (∃ sh, ∃ n, ∃ (v : Word), ∃ (s : State), arrives (.pcConfigWrite sh n false v) s.mod = true ∧ reachable s.mod (capOff sh (4 * n)) = true) ∧
    (∃ sh, ∃ (v : Word), ∃ (s : State), arrives (.precisePeriodWrite sh v) s.mod = true ∧ reachable s.mod (capOff sh 0x204) = true) ∧
    (∃ sh, ∃ (v : Word), ∃ (s : State), arrives (.preciseCfgWrite sh v) s.mod = true ∧ reachable s.mod (capOff sh 0x200) = true ∧ (fieldOf v 29 28 = 1 → portDefined s.mod (fieldOf v 10 0) = true)) :=
  ⟨⟨15, (st { m0 with cap := { m0.cap with rings := (Map.const {}).set 15 { enable := true, lost := 1, format := 2 } }, host := { m0.host with rings := (Map.const {}).set 79 { enable := true, sizeLog2 := 12, hostIdx := 0 } } }), by decide +kernel⟩,
   ⟨0, (zeros 64), ([]), (st { m0 with cap := { m0.cap with buf := [(0, zeros 64)] }, host := { m0.host with up := false } }), by decide +kernel⟩,
   ⟨0, (sec 100), (st (setCap 0 (fun c => { c with ostAt := some (sec 100), ostCfg := 0x80000000 }) { m0 with cap := { m0.cap with rings := (Map.const {}).set 0 { enable := true } }, host := { m0.host with rings := (Map.const {}).set 64 { enable := true, sizeLog2 := 12 } } })), by decide +kernel⟩,
   ⟨0, 5, 0, (st { m0 with cap := { m0.cap with rings := (Map.const {}).set 0 { enable := true } }, host := { m0.host with rings := (Map.const {}).set 64 { enable := true, sizeLog2 := 12 } }, tt := { m0.tt with banks := (Map.const {}).set 0 { st := .active, content := some { content with exports := .const (some (5, 0)) } } } }), by decide +kernel⟩,
   ⟨1, (st m0), by decide +kernel⟩,
   ⟨0, 5, (st { m0 with cap := { m0.cap with armed := some 5, sheds := .const { snapDone := false } } }), by decide +kernel⟩,
   ⟨0, 15, (st (setCap 0 (fun c => { c with pcs := c.pcs.set 15 { cfg := 0x80000000, val := BitVec.ofNat 48 (2 ^ 48 - 1) } }) m0)), by decide +kernel⟩,
   ⟨0, 15, 5, (st m0), by decide +kernel⟩,
   ⟨0, 0, 0xFFFFFFFF, (st m0), by decide +kernel⟩,
   ⟨0, 0xFFFFFFFF, (st m0), by decide +kernel⟩,
   ⟨0, 0xFFFFFFFF, (st m0), by decide +kernel⟩⟩

/-- The hypotheses of CountersSpillAndHarvest are met, clause by clause. -/
theorem test_countersSpillAndHarvest_met :
    (∃ (c : CtrId), ∃ (x : Mod), (x.ctrs.get c).acc < 2 ^ 36 - 1) ∧
    (∃ (c : CtrId), ∃ (x : Mod), (x.ctrs.get c).acc < 2 ^ 36 - 1 ∧ (x.ctrs.get c).value = 0xFFFFFFFFFFFFFFFF#64) ∧
    (∃ (c : CtrId), ∃ (s : State), arrives (.counterSpill c) s.mod = true ∧ 2 ^ 35 ≤ (s.mod.ctrs.get c).acc ∧ (s.mod.ctrs.get c).spilled = false) ∧
    (∃ (c : CtrId), ∃ (s : State), arrives (.counterHarvest c) s.mod = true ∧ 2 ^ 35 ≤ (s.mod.ctrs.get c).acc ∧ (s.mod.ctrs.get c).spilled = true ∧ s.mod.ecc = [] ∧ s.mod.resid = []) ∧
    (∃ (c : CtrId), ∃ g, ∃ (s : State), arrives (.spillLate c) s.mod = true ∧ (s.mod.ctrs.get c).acc = 2 ^ 36 - 1 ∧ (s.mod.ctrs.get c).late = false ∧ spillStall c = some g) :=
  ⟨⟨(.lne 0 0 28), m0, by decide +kernel⟩,
   ⟨(.lne 0 0 28), ({ m0 with ctrs := (Map.const {}).set (.lne 0 0 28) { hw := 0xFFFFFFFFFFFFFFFF } }), by decide +kernel⟩,
   ⟨(.lne 0 0 28), (st { m0 with ctrs := (Map.const {}).set (.lne 0 0 28) { acc := 2 ^ 35 } }), by decide +kernel⟩,
   ⟨(.lne 0 0 28), (st { m0 with ctrs := (Map.const {}).set (.lne 0 0 28) { acc := 2 ^ 35, spilled := true } }), by decide +kernel⟩,
   ⟨(.lne 0 0 28), 0, (st { m0 with ctrs := (Map.const {}).set (.lne 0 0 28) { acc := 2 ^ 36 - 1, spilled := true } }), by decide +kernel⟩⟩

/-- The hypotheses of WidePairs are met, clause by clause. -/
theorem test_widePairs_met :
    (∃ (p : PairId), ∃ (s : State), arrives (.counterLoRead p) s.mod = true ∧ reachable s.mod (pairOff p) = true ∧ s.mod.ecc = []) ∧
    (∃ (p : PairId), ∃ (v : Word), ∃ k, ∃ (s : State), arrives (.counterSelectWrite p v) s.mod = true ∧ selMask p = some k ∧ reachable s.mod (pairOff p - 4) = true) ∧
    (∃ (p : PairId), ∃ (v : Word), ∃ (s : State), arrives (.widePairLowWrite p v) s.mod = true ∧ (pairOpen s.mod p).1 = true ∧ reachable s.mod (pairOff p) = true) ∧
    (∃ (p : PairId), ∃ (v : Word), ∃ (lo : Word), ∃ (s : State), ∃ (c : CtrId), arrives (.widePairHighWrite p v) s.mod = true ∧ (pairOpen s.mod p).1 = true ∧ (s.mod.pairs.get p).held = some lo ∧ reachable s.mod (pairOff p + 4) = true ∧ pairCtr s.mod p = some c) ∧
    (∃ (p : PairId), ∃ (v : Word), ∃ (lo : Word), ∃ (s : State), ∃ sh, arrives (.widePairHighWrite p v) s.mod = true ∧ (pairOpen s.mod p).1 = true ∧ (s.mod.pairs.get p).held = some lo ∧ reachable s.mod (pairOff p + 4) = true ∧ p = .capPc sh) ∧
    (∃ (p : PairId), ∃ (v : Word), ∃ (lo : Word), ∃ (s : State), arrives (.widePairHighWrite p v) s.mod = true ∧ (pairOpen s.mod p).1 = true ∧ (s.mod.pairs.get p).held = some lo ∧ reachable s.mod (pairOff p + 4) = true ∧ p = .snapTime) ∧
    (∃ (p : PairId), ∃ (v : Word), ∃ (lo : Word), ∃ (s : State), ∃ n, arrives (.widePairHighWrite p v) s.mod = true ∧ (pairOpen s.mod p).1 = true ∧ (s.mod.pairs.get p).held = some lo ∧ reachable s.mod (pairOff p + 4) = true ∧ p = .ringBase n) ∧
    (∃ (p : PairId), ∃ (v : Word), ∃ (lo : Word), ∃ (s : State), ∃ n, arrives (.widePairHighWrite p v) s.mod = true ∧ (pairOpen s.mod p).1 = true ∧ (s.mod.pairs.get p).held = some lo ∧ reachable s.mod (pairOff p + 4) = true ∧ p = .ringWb n) ∧
    (∃ (p : PairId), ∃ (c : CtrId), ∃ (v : Word), ∃ (s : State), arrives (.widePairHighWrite p v) s.mod = true ∧ pairCtr s.mod p = some c ∧ (pairOpen s.mod p).1 = true ∧ (s.mod.pairs.get p).held = none ∧ reachable s.mod (pairOff p + 4) = true) :=
  ⟨⟨(.lne 0), (st m0), by decide +kernel⟩,
   ⟨(.lne 0), 0xFFFFFFFF, 0x77F, (st m0), by decide +kernel⟩,
   ⟨(.lne 0), 5, (st m0), by decide +kernel⟩,
   ⟨(.lne 0), 5, 9, (st { m0 with pairs := (Map.const {}).set (.lne 0) { held := some 9 } }), (.lne 0 0 0), by decide +kernel⟩,
   ⟨(.capPc 0), 5, 9, (st { m0 with pairs := (Map.const {}).set (.capPc 0) { held := some 9 } }), 0, by decide +kernel⟩,
   ⟨.snapTime, 5, 9, (st { m0 with pairs := (Map.const {}).set (.snapTime) { held := some 9 } }), by decide +kernel⟩,
   ⟨(.ringBase 0), 5, 9, (st { m0 with pairs := (Map.const {}).set (.ringBase 0) { held := some 9 } }), 0, by decide +kernel⟩,
   ⟨(.ringWb 0), 5, 9, (st { m0 with pairs := (Map.const {}).set (.ringWb 0) { held := some 9 } }), 0, by decide +kernel⟩,
   ⟨(.lne 0), (.lne 0 0 0), 5, (st m0), by decide +kernel⟩⟩

/-- The hypotheses of EventsClearBySequence are met, clause by clause. -/
theorem test_eventsClearBySequence_met :
    (∃ (l : Level), ∃ (e : Evt), ∃ (w : Option Word), ∃ (a : Nat), ∃ (x : Mod), e.blk ≠ 0) ∧
    (∃ (l : Level), ∃ (e : Evt), ∃ (w : Option Word), ∃ (a : Nat), ∃ (x : Mod), ∃ i, e.blk ≠ 0 ∧ let r := x.evts.get (l, e.blk); let q := (raiseQuiet l e w a x).evts.get (l, e.blk); i ≠ e.bit) ∧
    (∃ (l : Level), ∃ b, ∃ (v : Word), ∃ (s : State), arrives (.evtSeqWrite l b v) s.mod = true ∧ b ≠ 0 ∧ reachable s.mod (evtOffset l b) = true ∧ ((l, b) = (.yard, 4) → timBusy s.mod = false) ∧ let q := BitVec.ofNat 16 (fieldOf v 31 16); let r := s.mod.evts.get (l, b); serialNewer q (r.readable s.mod.cyc) = false) ∧
    (∃ (l : Level), ∃ b, ∃ (v : Word), ∃ (s : State), arrives (.evtSeqWrite l b v) s.mod = true ∧ b ≠ 0 ∧ reachable s.mod (evtOffset l b) = true ∧ ((l, b) = (.yard, 4) → timBusy s.mod = false) ∧ let q := BitVec.ofNat 16 (fieldOf v 31 16); let r := s.mod.evts.get (l, b); r.seq = 0 ∧ q = 0) ∧
    (∃ (l : Level), ∃ b, ∃ (v : Word), ∃ (s : State), arrives (.evtSeqWrite l b v) s.mod = true ∧ b ≠ 0 ∧ reachable s.mod (evtOffset l b) = true ∧ ((l, b) = (.yard, 4) → timBusy s.mod = false) ∧ let q := BitVec.ofNat 16 (fieldOf v 31 16); let r := s.mod.evts.get (l, b); serialNewer q (r.readable s.mod.cyc) = true) :=
  ⟨⟨(.shed 0), evFreeReject, none, 0, m0, by decide +kernel⟩,
   ⟨(.shed 0), evFreeReject, none, 0, m0, 15, by decide +kernel⟩,
   ⟨(.shed 0), 9, 0x00010000, (st (let m := raise (.shed 0) evFreeReject m0; { m with now := m.now + 625 })), by decide +kernel⟩,
   ⟨(.shed 0), 9, 0, (st m0), by decide +kernel⟩,
   ⟨(.shed 0), 9, 0x00020000, (st (raise (.shed 0) evFreeReject m0)), by decide +kernel⟩⟩

/-- The hypotheses of RegisterWritesApply are met, clause by clause. -/
theorem test_registerWritesApply_met :
    (∃ (v : Word), ∃ (s : State), let d : List (Option Byte) := (leBytes 4 v.toNat).map some; arrives (.registerWrite 0xE0030 d false) s.mod = true) ∧
    (∃ (v : Word), ∃ (s : State), let d : List (Option Byte) := (leBytes 4 v.toNat).map some; arrives (.registerWrite 0xD0000 d false) s.mod = true) ∧
    (∃ (v : Word), ∃ (s : State), ∃ k, let d : List (Option Byte) := (leBytes 4 v.toNat).map some; k < 120 ∧ arrives (.registerWrite (0xC0400 + 4 * k) d false) s.mod = true) ∧
    (∃ (v : Word), ∃ (s : State), ∃ k, let d : List (Option Byte) := (leBytes 4 v.toNat).map some; k < 64 ∧ arrives (.registerWrite (0xC0100 + 4 * k) d false) s.mod = true) ∧
    (∃ (v : Word), ∃ (s : State), ∃ (l : Level), let d : List (Option Byte) := (leBytes 4 v.toNat).map some; let off := levelBase l + evtPage l 0 + 0x10; regAt off = some ⟨l, evtPage l 0, 0x10⟩ ∧ reachable s.mod off = true ∧ arrives (.registerWrite off d false) s.mod = true) ∧
    (∃ off, ∃ (d : List (Option Byte)), ∃ (s : State), arrives (.registerWrite off d true) s.mod = true) ∧
    (∃ off, ∃ (d : List (Option Byte)), ∃ (s : State), arrives (.registerWrite off d false) s.mod = true ∧ oneRun d = false ∧ (∀ g ∈ touched off d, (regAt g).any regDefined = false)) ∧
    (∃ off, ∃ (d : List (Option Byte)), ∃ g, ∃ (s : State), arrives (.registerWrite off d false) s.mod = true ∧ oneRun d = false ∧ g ∈ touched off d ∧ (regAt g).any regDefined = true) ∧
    (∃ off, ∃ (d : List (Option Byte)), ∃ g, ∃ (r : RegAt), ∃ (s : State), arrives (.registerWrite off d false) s.mod = true ∧ oneRun d = true ∧ touched off d = [g] ∧ enables (partOf off d g) ≠ 15 ∧ regAt g = some r ∧ regDefined r = true) ∧
    (∃ off, ∃ (v : Word), ∃ (r : RegAt), ∃ (p : PairId), ∃ k, ∃ (s : State), regAt (plainOff off) = some r ∧ regDefined r = true ∧ pairReg r = some (p, 0) ∧ selMask p = some k ∧ reachable s.mod (plainOff off) = true ∧ reachable s.mod (pairOff p - 4) = true ∧ let w := (s.mod.pairs.get p).sel; let f := BitVec.ofNat 32 k; arrives (.setAliasWrite off v) s.mod = true) ∧
    (∃ off, ∃ (v : Word), ∃ (r : RegAt), ∃ (p : PairId), ∃ k, ∃ (s : State), regAt (plainOff off) = some r ∧ regDefined r = true ∧ pairReg r = some (p, 0) ∧ selMask p = some k ∧ reachable s.mod (plainOff off) = true ∧ reachable s.mod (pairOff p - 4) = true ∧ let w := (s.mod.pairs.get p).sel; let f := BitVec.ofNat 32 k; arrives (.clearAliasWrite off v) s.mod = true) ∧
    (∃ off, ∃ (v : Word), ∃ (r : RegAt), ∃ (p : PairId), ∃ k, ∃ (s : State), regAt (plainOff off) = some r ∧ regDefined r = true ∧ pairReg r = some (p, 0) ∧ selMask p = some k ∧ reachable s.mod (plainOff off) = true ∧ reachable s.mod (pairOff p - 4) = true ∧ let w := (s.mod.pairs.get p).sel; let f := BitVec.ofNat 32 k; arrives (.toggleAliasWrite off v) s.mod = true) ∧
    (∃ (v : Word), ∃ (s : State), let w := s.mod.pwr.domSel; arrives (.setAliasWrite 0xE1030 v) s.mod = true ∧ w &&& 0xFFFF#32 = w) ∧
    (∃ (v : Word), ∃ (s : State), let w := s.mod.pwr.domSel; arrives (.clearAliasWrite 0xE2030 v) s.mod = true ∧ w &&& 0xFFFF#32 = w) ∧
    (∃ (v : Word), ∃ (s : State), let w := s.mod.pwr.domSel; arrives (.toggleAliasWrite 0xE3030 v) s.mod = true ∧ w &&& 0xFFFF#32 = w) ∧
    (∃ off, ∃ (v : Word), ∃ (r : RegAt), ∃ (s : State), regAt (plainOff off) = some r ∧ pairReg r = none ∧ let k := BitVec.ofNat 32 (rwMask r); let w := BitVec.ofNat 32 (aliasOld s.mod r); let whole := fun u => if rwMask r = 0 then s.mod else writeReg (plainOff off) (u &&& k) s.mod; arrives (.setAliasWrite off v) s.mod = true) ∧
    (∃ off, ∃ (v : Word), ∃ (r : RegAt), ∃ (s : State), regAt (plainOff off) = some r ∧ pairReg r = none ∧ let k := BitVec.ofNat 32 (rwMask r); let w := BitVec.ofNat 32 (aliasOld s.mod r); let whole := fun u => if rwMask r = 0 then s.mod else writeReg (plainOff off) (u &&& k) s.mod; arrives (.clearAliasWrite off v) s.mod = true) ∧
    (∃ off, ∃ (v : Word), ∃ (r : RegAt), ∃ (s : State), regAt (plainOff off) = some r ∧ pairReg r = none ∧ let k := BitVec.ofNat 32 (rwMask r); let w := BitVec.ofNat 32 (aliasOld s.mod r); let whole := fun u => if rwMask r = 0 then s.mod else writeReg (plainOff off) (u &&& k) s.mod; arrives (.toggleAliasWrite off v) s.mod = true) ∧
    (∃ off, ∃ (v : Word), ∃ (r : RegAt), ∃ (p : PairId), ∃ i, ∃ (s : State), ∃ (c : Instr), regAt (plainOff off) = some r ∧ pairReg r = some (p, i + 1) ∧ c ∈ [Instr.setAliasWrite off v, .clearAliasWrite off v, .toggleAliasWrite off v] ∧ arrives c s.mod = true) :=
  ⟨⟨0xFFFFFFFF, (st m0), by decide +kernel⟩,
   ⟨0xFFFFFFFF, (st m0), by decide +kernel⟩,
   ⟨0x07FF0005, (st m0), 119, by decide +kernel⟩,
   ⟨0xFFFFFFFF, (st m0), 63, by decide +kernel⟩,
   ⟨0x80000007, (st m0), (.shed 7), by decide +kernel⟩,
   ⟨0xC0000, ([some 1, some 2]), (st m0), by decide +kernel⟩,
   ⟨0x200000, ([some 1, none, some 2]), (st m0), by decide +kernel⟩,
   ⟨0x80020, ([some 1, none, some 2]), 0x80020, (st m0), by decide +kernel⟩,
   ⟨0x80020, ([some 1]), 0x80020, (⟨.yard, 0x80000, 0x020⟩), (st m0), by decide +kernel⟩,
   ⟨25170176, 0xFFFFFFFF, (⟨.stall 0, 0, 256⟩), (.lne 0), 0x77F, (st m0), by decide +kernel⟩,
   ⟨25174272, 0xFFFFFFFF, (⟨.stall 0, 0, 256⟩), (.lne 0), 0x77F, (st m0), by decide +kernel⟩,
   ⟨25178368, 0xFFFFFFFF, (⟨.stall 0, 0, 256⟩), (.lne 0), 0x77F, (st m0), by decide +kernel⟩,
   ⟨0xFFFFFFFF, (st m0), by decide +kernel⟩,
   ⟨0xFFFFFFFF, (st m0), by decide +kernel⟩,
   ⟨0xFFFFFFFF, (st m0), by decide +kernel⟩,
   ⟨0x81020, 0xFFFFFFFF, (⟨.yard, 0x80000, 0x020⟩), (st m0), by decide +kernel⟩,
   ⟨0x82020, 0xFFFFFFFF, (⟨.yard, 0x80000, 0x020⟩), (st m0), by decide +kernel⟩,
   ⟨0x83020, 0xFFFFFFFF, (⟨.yard, 0x80000, 0x020⟩), (st m0), by decide +kernel⟩,
   ⟨0xC5008, 5, (⟨.yard, 0xC4000, 0x008⟩), (.ringBase 0), 0, (st m0), (.setAliasWrite 0xC5008 5), by decide +kernel⟩⟩

/-- The hypotheses of ReadsLatchAndPop are met, clause by clause. -/
theorem test_readsLatchAndPop_met :
    (∃ (l : LatchId), ∃ (s : State), arrives (.latchRead l) s.mod = true ∧ reachable s.mod (latchOff l) = true ∧ groupWords s.mod l ≠ []) ∧
    (∃ (l : Level), ∃ (r : TRec), ∃ (t : List TRec), ∃ (s : State), arrives (.troubleRecordPop l) s.mod = true ∧ reachable s.mod (latchOff (.troubleRec l)) = true ∧ s.mod.ecc = [] ∧ ((s.mod.logs.get l).met s.mod.cyc).recs = r :: t) ∧
    (∃ (l : Level), ∃ (s : State), arrives (.troubleRecordPop l) s.mod = true ∧ reachable s.mod (latchOff (.troubleRec l)) = true ∧ s.mod.ecc = [] ∧ ((s.mod.logs.get l).met s.mod.cyc).recs = []) ∧
    (∃ (s : State), ∃ (l : Level), arrives (.latchRead (.troubleRec l)) s.mod = true) ∧
    (∃ (s : State), ∃ c, arrives (.latchRead (.capSec c)) s.mod = true ∧ reachable s.mod (latchOff (.capSec c)) = true) ∧
    (∃ (s : State), ∃ g, arrives (.latchRead (.tsqData g)) s.mod = true) ∧
    (∃ (s : State), arrives (.latchRead .nowSec) s.mod = true) :=
  ⟨⟨.mono, (st m0), by decide +kernel⟩,
   ⟨(.shed 0), ({ seq := 1, sev := 1, code := 2, time := 3, detail := 4 }), ([]), (st { m0 with logs := (Map.const {}).set (.shed 0) { recs := [{ seq := 1, sev := 1, code := 2, time := 3, detail := 4 }] } }), by decide +kernel⟩,
   ⟨.yard, (st m0), by decide +kernel⟩,
   ⟨(st m0), (.stall 127), by decide +kernel⟩,
   ⟨(st m0), 4, by decide +kernel⟩,
   ⟨(st m0), 127, by decide +kernel⟩,
   ⟨(st m0), by decide +kernel⟩⟩

/-- The hypotheses of TimeUnitChanges are met, clause by clause. -/
theorem test_timeUnitChanges_met :
    (∃ servo, ∃ force, ∃ (sec : BitVec 48), ∃ (ns : BitVec 30), ∃ (s : State), arrives (.timeUnitSet servo force sec ns) s.mod = true ∧ s.mod.tim.op = none ∧ s.mod.tim.queue = [] ∧ (servo = true → s.mod.tim.servo = 1 ∨ s.mod.tim.servo = 2) ∧ (servo = true ∨ force = true ∨ s.mod.tim.source = 0) ∧ ns.toNat < 1000000000) ∧
    (∃ servo, ∃ force, ∃ (off : BitVec 64), ∃ (s : State), arrives (.timeUnitStep servo force off) s.mod = true ∧ s.mod.tim.op = none ∧ s.mod.tim.queue = [] ∧ (servo = true → s.mod.tim.servo = 1 ∨ s.mod.tim.servo = 2) ∧ (servo = true ∨ force = true ∨ s.mod.tim.source = 0) ∧ inTime (unitsAt s.mod s.mod.now + off.toInt) = true ∧ (force = true ∨ s.mod.tim.isSet = false ∨ off.toInt.natAbs ≤ s.mod.tim.jump * 65536)) ∧
    (∃ servo, ∃ force, ∃ (freq : BitVec 32), ∃ (s : State), arrives (.timeUnitFrequency servo force freq) s.mod = true ∧ s.mod.tim.op = none ∧ s.mod.tim.queue = [] ∧ (servo = true → s.mod.tim.servo = 1 ∨ s.mod.tim.servo = 2) ∧ (servo = true ∨ force = true ∨ s.mod.tim.source = 0) ∧ -128000000 ≤ freq.toInt ∧ freq.toInt ≤ 128000000 ∧ (force = true ∨ (freq.toInt - s.mod.tim.freq.toInt).natAbs ≤ s.mod.tim.jump * 256)) ∧
    (∃ (o : TimeOp), ∃ (servo force : Bool), ∃ (s : State), let c : Instr := match o with | .set sec ns => .timeUnitSet servo force sec ns | .step off => .timeUnitStep servo force off | .freq f => .timeUnitFrequency servo force f; arrives c s.mod = true ∧ s.mod.tim.op = none ∧ s.mod.tim.queue = [] ∧ (servo = true → s.mod.tim.servo = 1 ∨ s.mod.tim.servo = 2) ∧ let owned := servo = true ∨ force = true ∨ s.mod.tim.source = 0; (¬owned)) ∧
    (∃ (o : TimeOp), ∃ (servo force : Bool), ∃ (s : State), let c : Instr := match o with | .set sec ns => .timeUnitSet servo force sec ns | .step off => .timeUnitStep servo force off | .freq f => .timeUnitFrequency servo force f; arrives c s.mod = true ∧ s.mod.tim.op = none ∧ s.mod.tim.queue = [] ∧ (servo = true → s.mod.tim.servo = 1 ∨ s.mod.tim.servo = 2) ∧ let owned := servo = true ∨ force = true ∨ s.mod.tim.source = 0; owned ∧ timeInvalid s.mod o = true) ∧
    (∃ (o : TimeOp), ∃ (servo force : Bool), ∃ (s : State), ∃ (off : BitVec 64), let c : Instr := match o with | .set sec ns => .timeUnitSet servo force sec ns | .step off => .timeUnitStep servo force off | .freq f => .timeUnitFrequency servo force f; arrives c s.mod = true ∧ s.mod.tim.op = none ∧ s.mod.tim.queue = [] ∧ (servo = true → s.mod.tim.servo = 1 ∨ s.mod.tim.servo = 2) ∧ let owned := servo = true ∨ force = true ∨ s.mod.tim.source = 0; owned ∧ o = .step off ∧ timeInvalid s.mod o = false ∧ force = false ∧ s.mod.tim.isSet = true ∧ s.mod.tim.jump * 65536 < off.toInt.natAbs) ∧
    (∃ (o : TimeOp), ∃ (servo force : Bool), ∃ (s : State), ∃ (f : BitVec 32), let c : Instr := match o with | .set sec ns => .timeUnitSet servo force sec ns | .step off => .timeUnitStep servo force off | .freq f => .timeUnitFrequency servo force f; arrives c s.mod = true ∧ s.mod.tim.op = none ∧ s.mod.tim.queue = [] ∧ (servo = true → s.mod.tim.servo = 1 ∨ s.mod.tim.servo = 2) ∧ let owned := servo = true ∨ force = true ∨ s.mod.tim.source = 0; owned ∧ o = .freq f ∧ timeInvalid s.mod o = false ∧ force = false ∧ s.mod.tim.jump * 256 < (f.toInt - s.mod.tim.freq.toInt).natAbs) ∧
    (∃ (r : TimeReq), ∃ (s : State), arrives .timeOpTakeEffect s.mod = true ∧ s.mod.tim.op = some r ∧ s.mod.tim.queue = [] ∧ timeInvalid s.mod r.op = false) :=
  ⟨⟨false, false, 5, 999999999, (st m0), by decide +kernel⟩,
   ⟨true, false, 65536000, (st (onTim (fun t => { t with servo := 2 }) m0)), by decide +kernel⟩,
   ⟨false, true, 128000000, (st (onTim (fun t => { t with source := 1 }) m0)), by decide +kernel⟩,
   ⟨(.freq 5), false, false, (st (onTim (fun t => { t with source := 1 }) m0)), by decide +kernel⟩,
   ⟨(.set 5 1000000000), false, false, (st m0), by decide +kernel⟩,
   ⟨(.step 65536001), true, false, (st (onTim (fun t => { t with isSet := true, servo := 1 }) m0)), 65536001, by decide +kernel⟩,
   ⟨(.freq 256001), true, false, (st (onTim (fun t => { t with servo := 2 }) m0)), 256001, by decide +kernel⟩,
   ⟨({ op := .freq 5, servo := false, force := true, at_ := 0 }), (st (onTim (fun t => { t with op := some { op := .freq 5, servo := false, force := true, at_ := 0 } }) m0)), by decide +kernel⟩⟩

/-- The hypotheses of ServoAndReference are met, clause by clause. -/
theorem test_servoAndReference_met :
    (∃ (s : State), arrives .refLock s.mod = true ∧ domRuns s.mod 439 = true) ∧
    (∃ (s : State), arrives .refLoss s.mod = true ∧ s.mod.tim.refLock = true) ∧
    (∃ (s : State), arrives .servoHoldoverEnter s.mod = true ∧ s.mod.tim.source ≠ 0 ∧ (s.mod.tim.servo = 1 ∨ s.mod.tim.servo = 2) ∧ (s.mod.tim.source = 2 → ∀ t ∈ (s.mod.tim.ins.get 4).lastAt, t + ms 1100 ≤ s.mod.now)) ∧
    (∃ (o : BitVec 64), ∃ (s : State), arrives (.servoHoldoverExit o) s.mod = true ∧ (s.mod.tim.servo = 3 ∨ s.mod.tim.servo = 4) ∧ (s.mod.tim.source ≠ 1 ∨ stewardLess s.mod = false) ∧ o.toInt.natAbs ≤ s.mod.tim.jump * 65536) ∧
    (∃ (o : BitVec 64), ∃ (s : State), arrives (.servoHoldoverExit o) s.mod = true ∧ (s.mod.tim.servo = 3 ∨ s.mod.tim.servo = 4) ∧ (s.mod.tim.source ≠ 1 ∨ stewardLess s.mod = false) ∧ s.mod.tim.servo = 3 ∧ s.mod.tim.jump * 65536 < o.toInt.natAbs) ∧
    (∃ (o : BitVec 64), ∃ (s : State), arrives (.servoHoldoverExit o) s.mod = true ∧ (s.mod.tim.servo = 3 ∨ s.mod.tim.servo = 4) ∧ (s.mod.tim.source ≠ 1 ∨ stewardLess s.mod = false) ∧ s.mod.tim.servo = 4 ∧ s.mod.tim.jump * 65536 < o.toInt.natAbs) :=
  ⟨⟨(st m0), by decide +kernel⟩,
   ⟨(st (onTim (fun t => { t with refLock := true }) m0)), by decide +kernel⟩,
   ⟨(st (onTim (fun t => { t with source := 1, servo := 2 }) m0)), by decide +kernel⟩,
   ⟨65536000, (st (onTim (fun t => { t with servo := 3 }) m0)), by decide +kernel⟩,
   ⟨65536001, (st (onTim (fun t => { t with servo := 3 }) m0)), by decide +kernel⟩,
   ⟨65536001, (st (onTim (fun t => { t with servo := 4 }) m0)), by decide +kernel⟩⟩

/-- The hypotheses of PulsesAndCaptures are met, clause by clause. -/
theorem test_pulsesAndCaptures_met :
    (∃ o, ∃ (v : Word), ∃ (s : State), arrives (.pulseOutputArm o v) s.mod = true ∧ v.getLsbD 31 = true ∧ let p0 : Pulse := { s.mod.tim.outs.get o with cfg := v &&& 0x60FFFFFF#32 }; p0.width ≠ 0 ∧ p0.periodic = false ∧ unitsAt s.mod s.mod.now ≤ p0.start) ∧
    (∃ o, ∃ (v : Word), ∃ (s : State), arrives (.pulseOutputArm o v) s.mod = true ∧ v.getLsbD 31 = true ∧ let p0 : Pulse := { s.mod.tim.outs.get o with cfg := v &&& 0x60FFFFFF#32 }; p0.width ≠ 0 ∧ p0.periodic = true ∧ p0.width * 16 < p0.period.toNat % 2 ^ 30) ∧
    (∃ o, ∃ (v : Word), ∃ (s : State), arrives (.pulseOutputArm o v) s.mod = true ∧ v.getLsbD 31 = true ∧ let p0 : Pulse := { s.mod.tim.outs.get o with cfg := v &&& 0x60FFFFFF#32 }; p0.width ≠ 0 ∧ p0.periodic = false ∧ p0.start < unitsAt s.mod s.mod.now) ∧
    (∃ o, ∃ (v : Word), ∃ (s : State), arrives (.pulseOutputArm o v) s.mod = true ∧ v.getLsbD 31 = true ∧ let p0 : Pulse := { s.mod.tim.outs.get o with cfg := v &&& 0x60FFFFFF#32 }; p0.width ≠ 0 ∧ p0.periodic = true ∧ p0.period.toNat % 2 ^ 30 ≤ p0.width * 16) ∧
    (∃ o, ∃ t, ∃ (s : State), arrives (.pulseOutputFire o) s.mod = true ∧ (s.mod.tim.outs.get o).next = some t ∧ t ≤ unitsAt s.mod s.mod.now ∧ domRuns s.mod 438 = true) ∧
    (∃ (s : State), arrives .ppsOutEdge s.mod = true ∧ domRuns s.mod 438 = true ∧ s.mod.tim.isSet = true ∧ (todNow s.mod).ns = 0 ∧ s.mod.tim.ppsOut = none) ∧
    (∃ c, ∃ r, ∃ (s : State), arrives (.captureInputEdge c r) s.mod = true ∧ domRuns s.mod 439 = true ∧ (s.mod.tim.ins.get c).takes r = true ∧ (∀ t ∈ (s.mod.tim.ins.get c).lastAt, t + 50000 ≤ s.mod.now)) ∧
    (∃ c, ∃ e, ∃ (t : List (Nat × Nat × Nat × Bool)), ∃ (s : State), arrives (.captureStampPop c) s.mod = true ∧ (s.mod.tim.ins.get c).fifo = e :: t) ∧
    (∃ c, ∃ (v : Word), ∃ (s : State), arrives (.captureOvfClear c v) s.mod = true ∧ bitOf v.toNat 27 = true ∧ (s.mod.tim.ins.get c).lostAt ≠ some s.mod.cyc) ∧
    (∃ g, ∃ (e : TsEnt), ∃ (t : List TsEnt), ∃ (s : State), arrives (.tsqPop g) s.mod = true ∧ reachable s.mod (latchOff (.tsqData g)) = true ∧ (s.mod.tim.tsqs.get g).ents = e :: t) ∧
    (∃ g, ∃ (v : Word), ∃ (s : State), arrives (.tsqOvfClear g v) s.mod = true ∧ reachable s.mod (levelBase (.stall g) + 0x10004) = true ∧ bitOf v.toNat 30 = true ∧ (s.mod.tim.tsqs.get g).lostAt ≠ some s.mod.cyc) ∧
    (∃ (s : State), arrives .timeNowRead s.mod = true) :=
  ⟨⟨7, 0x80000001, (st (onTim (fun t => { t with outs := t.outs.set 7 { secLo := 100 } }) m0)), by decide +kernel⟩,
   ⟨7, 0xC0000001, (st (onTim (fun t => { t with outs := t.outs.set 7 { period := 17 } }) m0)), by decide +kernel⟩,
   ⟨7, 0x80000001, (st (onTim (fun t => { t with isSet := true }) m0)), by decide +kernel⟩,
   ⟨7, 0xC0000001, (st (onTim (fun t => { t with outs := t.outs.set 7 { period := 16 } }) m0)), by decide +kernel⟩,
   ⟨7, 0, (st (onTim (fun t => { t with outs := t.outs.set 7 { next := some 0, armed := true } }) m0)), by decide +kernel⟩,
   ⟨(st (onTim (fun t => { t with isSet := true }) m0)), by decide +kernel⟩,
   ⟨4, true, (st (onTim (fun t => { t with ins := t.ins.set 4 { en := true, lastAt := some (sec 100 - 50000) } }) m0)), by decide +kernel⟩,
   ⟨4, ((1, 2, 3, true)), ([]), (st (onTim (fun t => { t with ins := t.ins.set 4 { en := true, fifo := [(1, 2, 3, true)] } }) m0)), by decide +kernel⟩,
   ⟨4, 0x08000000, (st (onTim (fun t => { t with ins := t.ins.set 4 { ovf := true } }) m0)), by decide +kernel⟩,
   ⟨0, ({ id := 1, port := 2, ns := 3, sec := 4 }), ([]), (st (onTim (fun t => { t with tsqs := t.tsqs.set 0 { ents := [{ id := 1, port := 2, ns := 3, sec := 4 }] } }) m0)), by decide +kernel⟩,
   ⟨0, 0x40000000, (st (onTim (fun t => { t with tsqs := t.tsqs.set 0 { ovf := true } }) m0)), by decide +kernel⟩,
   ⟨(st m0), by decide +kernel⟩⟩

/-- The hypotheses of TimeMessages are met, clause by clause. -/
theorem test_timeMessages_met :
    (∃ n, ∃ (s : State), arrives (.timePort n) s.mod = true ∧ running s.mod n 0x0040 ∧ let b := s.mod.dax.boxes.get n; let q := b.body; b.len = 12 ∧ leAt q 0 2 < 1024 ∧ portDefined s.mod (leAt q 0 2) = true ∧ bitOf (leAt q 2 1) 3 = false ∧ bitsOf (leAt q 2 1) 7 6 = 0 ∧ -7 ≤ (BitVec.ofNat 8 (leAt q 3 1)).toInt ∧ (BitVec.ofNat 8 (leAt q 3 1)).toInt ≤ 4) ∧
    (∃ n, ∃ (s : State), arrives (.ptpConfig n) s.mod = true ∧ running s.mod n 0x0042 ∧ let b := s.mod.dax.boxes.get n; let q := b.body; b.len = 8 ∧ leAt q 0 1 < 4 ∧ leAt q 2 1 < 4 ∧ leAt q 3 1 < 8 ∧ leAt q 7 1 = 0 ∧ (bitOf (leAt q 3 1) 1 = true → ∀ j < 4, j ≠ leAt q 0 1 → (s.mod.dax.ptp.get j).steers = false)) ∧
    (∃ n, ∃ (s : State), arrives (.timeStep n) s.mod = true ∧ running s.mod n 0x0041 ∧ let b := s.mod.dax.boxes.get n; let q := b.body; let off := BitVec.ofNat 64 (leAt q 8 8); let force := bitOf (leAt q 0 1) 0; b.len = 16 ∧ leAt q 0 1 < 2 ∧ (force = true → s.mod.dax.version = some (3, 2)) ∧ allZero (sliceOf q 1 7) = true ∧ s.mod.tim.op = none ∧ s.mod.tim.queue = [] ∧ (force = true ∨ s.mod.tim.source = 0) ∧ inTime (unitsAt s.mod s.mod.now + off.toInt) = true ∧ (force = true ∨ s.mod.tim.isSet = false ∨ off.toInt.natAbs ≤ s.mod.tim.jump * 65536)) ∧
    (∃ off, ∃ (v : Word), ∃ t, ∃ (s : State), arrives .postedWriteLand s.mod = true ∧ s.mod.tim.posted = some (off, v, t)) :=
  ⟨⟨14, (st (box 14 0x0040 ([1, 0, 0, 4] ++ zeros 8) m0)), by decide +kernel⟩,
   ⟨0, (st (box 0 0x0042 [0, 0, 3, 3, 0, 0, 0, 0] m0)), by decide +kernel⟩,
   ⟨0, (st (box 0 0x0041 (zeros 8 ++ leBytes 8 65536000) m0)), by decide +kernel⟩,
   ⟨0x030, 5, 0, (st (onTim (fun t => { t with posted := some (0x030, 5, 0) }) m0)), by decide +kernel⟩⟩

/-- The hypotheses of MalformedEditsEnd are met, clause by clause. -/
theorem test_malformedEditsEnd_met :
    (∃ n, ∃ (c : Instr), ∃ o, ∃ (s : State), (c, o) ∈ [(Instr.tableEditInsert n, 0), (Instr.tableEditChange n, 1), (Instr.tableEditDelete n, 2)] ∧ arrives c s.mod = true ∧ running s.mod n 0x10 ∧ let q := (s.mod.dax.boxes.get n).body; let bad := leAt q 2 2 = 0 ∨ sizeOk (leAt q 0 1) (leAt q 4 2) = false ∨ leAt q 6 2 ≠ 0 ∨ (s.mod.dax.boxes.get n).len ≠ 8 + leAt q 2 2 * leAt q 4 2 ∨ (leAt q 0 1 = 6 ∧ leAt q 2 2 ≠ 1) ∨ (leAt q 0 1 = 14 ∧ versionAtLeast s.mod 3 0 = false); let r := sliceOf q 8 (leAt q 4 2); let key := keyOf (leAt q 0 1) r; let v := viewOf s.mod (hostBegins s.mod (leAt q 0 1) key) s.mod.tt.active; leAt q 1 1 = o ∧ bad) ∧
    (∃ n, ∃ (c : Instr), ∃ o, ∃ (s : State), (c, o) ∈ [(Instr.tableEditInsert n, 0), (Instr.tableEditChange n, 1), (Instr.tableEditDelete n, 2)] ∧ arrives c s.mod = true ∧ running s.mod n 0x10 ∧ let q := (s.mod.dax.boxes.get n).body; let bad := leAt q 2 2 = 0 ∨ sizeOk (leAt q 0 1) (leAt q 4 2) = false ∨ leAt q 6 2 ≠ 0 ∨ (s.mod.dax.boxes.get n).len ≠ 8 + leAt q 2 2 * leAt q 4 2 ∨ (leAt q 0 1 = 6 ∧ leAt q 2 2 ≠ 1) ∨ (leAt q 0 1 = 14 ∧ versionAtLeast s.mod 3 0 = false); let r := sliceOf q 8 (leAt q 4 2); let key := keyOf (leAt q 0 1) r; let v := viewOf s.mod (hostBegins s.mod (leAt q 0 1) key) s.mod.tt.active; leAt q 1 1 = o ∧ (¬ bad) ∧ s.mod.tt.act.any (·.loading) = true) ∧
    (∃ n, ∃ (c : Instr), ∃ o, ∃ (s : State), (c, o) ∈ [(Instr.tableEditInsert n, 0), (Instr.tableEditChange n, 1), (Instr.tableEditDelete n, 2)] ∧ arrives c s.mod = true ∧ running s.mod n 0x10 ∧ let q := (s.mod.dax.boxes.get n).body; let bad := leAt q 2 2 = 0 ∨ sizeOk (leAt q 0 1) (leAt q 4 2) = false ∨ leAt q 6 2 ≠ 0 ∨ (s.mod.dax.boxes.get n).len ≠ 8 + leAt q 2 2 * leAt q 4 2 ∨ (leAt q 0 1 = 6 ∧ leAt q 2 2 ≠ 1) ∨ (leAt q 0 1 = 14 ∧ versionAtLeast s.mod 3 0 = false); let r := sliceOf q 8 (leAt q 4 2); let key := keyOf (leAt q 0 1) r; let v := viewOf s.mod (hostBegins s.mod (leAt q 0 1) key) s.mod.tt.active; leAt q 1 1 = o ∧ (¬ bad) ∧ s.mod.tt.act.any (·.loading) = false ∧ editTurn s.mod n = true ∧ leAt q 2 2 = 1 ∧ s.mod.tbl.edits = [] ∧ o ≠ 2 ∧ recordOk (portDefined s.mod) (leAt q 0 1) r = false) ∧
    (∃ n, ∃ (c : Instr), ∃ o, ∃ (s : State), (c, o) ∈ [(Instr.tableEditInsert n, 0), (Instr.tableEditChange n, 1), (Instr.tableEditDelete n, 2)] ∧ arrives c s.mod = true ∧ running s.mod n 0x10 ∧ let q := (s.mod.dax.boxes.get n).body; let bad := leAt q 2 2 = 0 ∨ sizeOk (leAt q 0 1) (leAt q 4 2) = false ∨ leAt q 6 2 ≠ 0 ∨ (s.mod.dax.boxes.get n).len ≠ 8 + leAt q 2 2 * leAt q 4 2 ∨ (leAt q 0 1 = 6 ∧ leAt q 2 2 ≠ 1) ∨ (leAt q 0 1 = 14 ∧ versionAtLeast s.mod 3 0 = false); let r := sliceOf q 8 (leAt q 4 2); let key := keyOf (leAt q 0 1) r; let v := viewOf s.mod (hostBegins s.mod (leAt q 0 1) key) s.mod.tt.active; leAt q 1 1 = o ∧ (¬ bad) ∧ s.mod.tt.act.any (·.loading) = false ∧ editTurn s.mod n = true ∧ leAt q 2 2 = 1 ∧ s.mod.tbl.edits = [] ∧ (o = 2 ∨ (o = 1 ∧ recordOk (portDefined s.mod) (leAt q 0 1) r = true ∧ refsBad v (leAt q 0 1) r = false ∧ (leAt q 0 1 = 14 → handleTaken v key r = false))) ∧ v.find (leAt q 0 1) key = none) ∧
    (∃ n, ∃ (s : State), arrives (.tableEditInsert n) s.mod = true ∧ running s.mod n 0x10 ∧ 2 < leAt (s.mod.dax.boxes.get n).body 1 1) ∧
    (∃ n, ∃ (s : State), arrives (.queueConfig n) s.mod = true ∧ running s.mod n 0x17 ∧ let q := (s.mod.dax.boxes.get n).body; let bad := leAt q 0 2 = 0 ∨ 64 < leAt q 0 2 ∨ leAt q 2 2 ≠ 0 ∨ (s.mod.dax.boxes.get n).len ≠ 4 + 32 * leAt q 0 2; bad) ∧
    (∃ n, ∃ (s : State), arrives (.queueConfig n) s.mod = true ∧ running s.mod n 0x17 ∧ let q := (s.mod.dax.boxes.get n).body; let bad := leAt q 0 2 = 0 ∨ 64 < leAt q 0 2 ∨ leAt q 2 2 ≠ 0 ∨ (s.mod.dax.boxes.get n).len ≠ 4 + 32 * leAt q 0 2; (¬ bad) ∧ s.mod.tt.act.any (·.loading) = true) :=
  ⟨⟨0, (.tableEditChange 0), 1, (st (box 0 0x10 [7, 1, 0, 0, 16, 0, 0, 0] m0)), by decide +kernel⟩,
   ⟨0, (.tableEditInsert 0), 0, (st (onTt (fun t => { t with act := some { bank := 1, mbx := none, loading := true } }) (box 0 0x10 (edit7 0 (rmac 3)) m0))), by decide +kernel⟩,
   ⟨0, (.tableEditInsert 0), 0, (st (box 0 0x10 (edit7 0 (rmac 64)) m0)), by decide +kernel⟩,
   ⟨0, (.tableEditDelete 0), 2, (st (box 0 0x10 (edit7 2 (rmac 3)) m0)), by decide +kernel⟩,
   ⟨0, (st (box 0 0x10 (edit7 3 (rmac 3)) m0)), by decide +kernel⟩,
   ⟨0, (st (box 0 0x17 [0, 0, 0, 0] m0)), by decide +kernel⟩,
   ⟨0, (st (onTt (fun t => { t with act := some { bank := 1, mbx := none, loading := true } }) (box 0 0x17 ([1, 0, 0, 0] ++ zeros 32) m0))), by decide +kernel⟩⟩

/-- The hypotheses of TableEditsCommit are met, clause by clause. -/
theorem test_tableEditsCommit_met :
    (∃ n, ∃ (c : Instr), ∃ o, ∃ (s : State), (c, o) ∈ [(Instr.tableEditInsert n, 0), (Instr.tableEditChange n, 1), (Instr.tableEditDelete n, 2)] ∧ arrives c s.mod = true ∧ running s.mod n 0x10 ∧ let q := (s.mod.dax.boxes.get n).body; let tab := leAt q 0 1; let r := sliceOf q 8 (leAt q 4 2); let key := keyOf tab r; let s0 := hostBegins s.mod tab key; let v := viewOf s.mod s0 s.mod.tt.active; let l := s.mod.tbl.ents.get (s0, tab); leAt q 1 1 = o ∧ leAt q 2 2 = 1 ∧ sizeOk tab (leAt q 4 2) = true ∧ leAt q 6 2 = 0 ∧ editTurn s.mod n = true ∧ (tab = 14 → versionAtLeast s.mod 3 0 = true) ∧ (s.mod.dax.boxes.get n).len = 8 + leAt q 4 2 ∧ s.mod.tt.act.any (·.loading) = false ∧ s.mod.tbl.edits = [] ∧ s.mod.tbl.quar = [] ∧ (if o = 2 then (v.find tab key).isSome = true ∧ inUse v tab (leNat key) = false ∧ (tab = 12 → wredNamed s.mod (leNat key) = false) else (o = 1 → (v.find tab key).isSome = true) ∧ recordOk (portDefined s.mod) tab r = true ∧ refsBad v tab r = false ∧ (tab = 14 → handleTaken v key r = false) ∧ refsThere v tab r = true ∧ fullFor tab key (storedRec tab r) l = false)) ∧
    (∃ n, ∃ (s : State), arrives (.queueConfig n) s.mod = true ∧ running s.mod n 0x17 ∧ let q := (s.mod.dax.boxes.get n).body; let r := sliceOf q 4 32; let sh := shedOfPort (leAt r 0 2); leAt q 0 2 = 1 ∧ leAt q 2 2 = 0 ∧ (s.mod.dax.boxes.get n).len = 36 ∧ s.mod.tt.act.any (·.loading) = false ∧ editTurn s.mod n = true ∧ s.mod.tbl.edits = [] ∧ nodeOk (portDefined s.mod) r = true ∧ wredMissing s.mod r = false) :=
  ⟨⟨0, (.tableEditInsert 0), 0, (st (box 0 0x10 (edit7 0 (rmac 3)) m0)), by decide +kernel⟩,
   ⟨0, (st (box 0 0x17 ([1, 0, 0, 0] ++ zeros 6 ++ [1] ++ zeros 13 ++ [64] ++ zeros 11) m0)), by decide +kernel⟩⟩

/-- The hypotheses of ReplicasCommit are met, clause by clause. -/
theorem test_replicasCommit_met :
    (∃ sh, ∃ (e : Edit), ∃ (s : State), arrives (.replicaWriteReceive sh) s.mod = true ∧ shedWorks s.mod sh = true ∧ s.mod.tbl.edits.find? (·.needs sh) = some e ∧ e.tab ≠ 0) ∧
    (∃ (e : Edit), ∃ (t : List Edit), ∃ (s : State), arrives .editReplicasCommitted s.mod = true ∧ s.mod.tbl.edits = e :: t ∧ editDone s.mod e = true) ∧
    (∃ t, ∃ sh, ∃ (s : State), arrives (.replicaCompare t) s.mod = true ∧ t ≠ 13 ∧ s.mod.tbl.edits = [] ∧ (workingSheds s.mod).filter (fun k => s.mod.tbl.ents.get (k, t) != s.mod.tbl.ents.get (majorityShed s.mod t, t)) = [sh] ∧ 3 ≤ (workingSheds s.mod).length) ∧
    (∃ meter, ∃ i, ∃ (q : Quar), ∃ (s : State), arrives (.quarantineEnd meter i) s.mod = true ∧ s.mod.tbl.quar.find? (fun k => k.meter == meter && k.idx == i) = some q ∧ s.mod.tbl.edits.any (fun e => e.at_ ≤ q.at_) = false ∧ (heldFrames s.mod).any (fun f => f.2.admAt.any (· < q.at_) || (f.2.admAt.isSome && f.2.bank != s.mod.tt.active)) = false ∧ (∀ n < 15, (s.mod.dax.boxes.get n).phase ≠ 0x200)) ∧
    (∃ sh, ∃ h, ∃ (s : State), arrives (.cursorExpiry sh h) s.mod = true) ∧
    (∃ sh, ∃ sl, ∃ i, ∃ (s : State), arrives (.aclParityRepair sh sl i) s.mod = true ∧ (sh, sl, i) ∈ s.mod.tbl.aclBad) :=
  ⟨⟨3, ({ kind := 0, tab := 7, op := 0, key := [3], dat := rmac 3, at_ := 0, begin_ := 0, done := [0], mbx := some 0 }), (st (onTbl (fun t => { t with edits := [{ kind := 0, tab := 7, op := 0, key := [3], dat := rmac 3, at_ := 0, begin_ := 0, done := [0], mbx := some 0 }] }) m0)), by decide +kernel⟩,
   ⟨({ kind := 0, tab := 7, op := 0, key := [3], dat := rmac 3, at_ := 0, begin_ := 0, done := List.range 8, mbx := none }), ([]), (st (onTbl (fun t => { t with edits := [{ kind := 0, tab := 7, op := 0, key := [3], dat := rmac 3, at_ := 0, begin_ := 0, done := List.range 8, mbx := none }] }) m0)), by decide +kernel⟩,
   ⟨7, 5, (st (onTbl (fun t => { t with ents := t.ents.set (5, 7) [] }) (withTab 7 [ent7] m0))), by decide +kernel⟩,
   ⟨true, 9, ({ meter := true, idx := 9, at_ := 5 }), (st (onTbl (fun t => { t with quar := [{ meter := true, idx := 9, at_ := 5 }] }) m0)), by decide +kernel⟩,
   ⟨0, 3, (st (onTbl (fun t => { t with cursors := t.cursors.set 0 [{ handle := 3, shed := 0, tab := 1, pos := 0, lastAt := 0 }] }) m0)), by decide +kernel⟩,
   ⟨0, 15, 4095, (st (onTbl (fun t => { t with aclBad := [(0, 15, 4095)] }) m0)), by decide +kernel⟩⟩

/-- The hypotheses of StationsAreLearned are met, clause by clause. -/
theorem test_stationsAreLearned_met :
    (∃ sh, ∃ (l : Learn), ∃ (t : List Learn), ∃ (s : State), arrives (.learnRequestHandle sh) s.mod = true ∧ s.mod.tbl.learns.get sh = l :: t ∧ shedWorks s.mod sh = true ∧ s.mod.tbl.edits = [] ∧ let v := viewOf s.mod sh s.mod.tt.active; let x0 : Mod := { s.mod with tbl := { s.mod.tbl with learns := s.mod.tbl.learns.set sh t, asked := s.mod.tbl.asked.set (l.src, l.fid, l.mac) none } }; v.find 1 l.key = none ∧ l.del = false ∧ fullFor 1 l.key (learnedRec l) (s.mod.tbl.ents.get (sh, 1)) = false) ∧
    (∃ sh, ∃ (l : Learn), ∃ (t : List Learn), ∃ (s : State), ∃ (e : Ent), arrives (.learnRequestHandle sh) s.mod = true ∧ s.mod.tbl.learns.get sh = l :: t ∧ shedWorks s.mod sh = true ∧ s.mod.tbl.edits = [] ∧ let v := viewOf s.mod sh s.mod.tt.active; let x0 : Mod := { s.mod with tbl := { s.mod.tbl with learns := s.mod.tbl.learns.set sh t, asked := s.mod.tbl.asked.set (l.src, l.fid, l.mac) none } }; v.find 1 l.key = some e ∧ (isStatic e.dat = true ∨ (l.del = false ∧ leAt e.dat 8 4 = l.dest))) ∧
    (∃ sh, ∃ (l : Learn), ∃ (t : List Learn), ∃ (s : State), ∃ (e : Ent), arrives (.learnRequestHandle sh) s.mod = true ∧ s.mod.tbl.learns.get sh = l :: t ∧ shedWorks s.mod sh = true ∧ s.mod.tbl.edits = [] ∧ let v := viewOf s.mod sh s.mod.tt.active; let x0 : Mod := { s.mod with tbl := { s.mod.tbl with learns := s.mod.tbl.learns.set sh t, asked := s.mod.tbl.asked.set (l.src, l.fid, l.mac) none } }; v.find 1 l.key = some e ∧ isStatic e.dat = false ∧ l.del = false ∧ leAt e.dat 8 4 ≠ l.dest ∧ (metaOf s.mod l.key).frozenAt.isSome = true) ∧
    (∃ sh, ∃ (l : Learn), ∃ (t : List Learn), ∃ (s : State), ∃ (e : Ent), arrives (.learnRequestHandle sh) s.mod = true ∧ s.mod.tbl.learns.get sh = l :: t ∧ shedWorks s.mod sh = true ∧ s.mod.tbl.edits = [] ∧ let v := viewOf s.mod sh s.mod.tt.active; let x0 : Mod := { s.mod with tbl := { s.mod.tbl with learns := s.mod.tbl.learns.set sh t, asked := s.mod.tbl.asked.set (l.src, l.fid, l.mac) none } }; v.find 1 l.key = some e ∧ isStatic e.dat = false ∧ l.del = false ∧ leAt e.dat 8 4 ≠ l.dest ∧ (metaOf s.mod l.key).frozenAt = none ∧ contested (actCfg s.mod).holdUs (metaOf s.mod l.key).portTime l.time = true) ∧
    (∃ sh, ∃ (l : Learn), ∃ (t : List Learn), ∃ (s : State), ∃ (e : Ent), arrives (.learnRequestHandle sh) s.mod = true ∧ s.mod.tbl.learns.get sh = l :: t ∧ shedWorks s.mod sh = true ∧ s.mod.tbl.edits = [] ∧ let v := viewOf s.mod sh s.mod.tt.active; let x0 : Mod := { s.mod with tbl := { s.mod.tbl with learns := s.mod.tbl.learns.set sh t, asked := s.mod.tbl.asked.set (l.src, l.fid, l.mac) none } }; v.find 1 l.key = some e ∧ isStatic e.dat = false ∧ l.del = false ∧ leAt e.dat 8 4 ≠ l.dest ∧ (metaOf s.mod l.key).frozenAt = none ∧ contested (actCfg s.mod).holdUs (metaOf s.mod l.key).portTime l.time = false ∧ (metaOf s.mod l.key).moves.length < 8) ∧
    (∃ sh, ∃ fid, ∃ (mac : BitVec 48), ∃ t, ∃ (e : Ent), ∃ (s : State), arrives (.freezeEnd sh fid mac) s.mod = true ∧ s.mod.tbl.edits = [] ∧ (metaOf s.mod (l2Key fid mac.toNat)).frozenAt = some t ∧ (viewOf s.mod sh s.mod.tt.active).find 1 (l2Key fid mac.toNat) = some e ∧ homeOf s.mod fid mac = sh ∧ passed s.mod.now t (sec (actCfg s.mod).flapS) = true) ∧
    (∃ sh, ∃ fid, ∃ (mac : BitVec 48), ∃ (tick : BitVec 20), ∃ (s : State), arrives (.hitRefresh sh fid mac tick) s.mod = true ∧ (sh, fid, mac, tick) ∈ s.mod.tbl.pend ∧ (s.mod.tbl.ents.get (homeOf s.mod fid mac, 1)).any (fun e => e.key == l2Key fid mac.toNat && !isStatic e.dat) = true) ∧
    (∃ sh, ∃ fid, ∃ (mac : BitVec 48), ∃ (e : Ent), ∃ (s : State), arrives (.agingVisit sh fid mac) s.mod = true ∧ s.mod.tbl.edits = [] ∧ homeOf s.mod fid mac = sh ∧ shedWorks s.mod sh = true ∧ (viewOf s.mod sh s.mod.tt.active).find 1 (l2Key fid mac.toNat) = some e ∧ isStatic e.dat = false ∧ (metaOf s.mod (l2Key fid mac.toNat)).synced = false ∧ ((actCfg s.mod).fid fid).ageTick < (ageTick s.mod - (metaOf s.mod (l2Key fid mac.toNat)).hit).toNat ∧ (∀ sh' tick, Instr.hitRefresh sh' fid mac tick ∉ s.pending)) :=
  ⟨⟨0, learn0, ([]), (st (learning [] {} m0)), by decide +kernel⟩,
   ⟨0, learn0, ([]), (st (learning [l2ent 2 0] {} m0)), (l2ent 2 0), by decide +kernel⟩,
   ⟨0, learn0, ([]), (st (learning [l2ent 1 0] { frozenAt := some 0 } m0)), (l2ent 1 0), by decide +kernel⟩,
   ⟨0, learn0, ([]), (st (learning [l2ent 1 0] { portTime := sec 100 - us 1000 } m0)), (l2ent 1 0), by decide +kernel⟩,
   ⟨0, learn0, ([]), (st (learning [l2ent 1 0] { portTime := sec 99, moves := List.replicate 7 (sec 100) } m0)), (l2ent 1 0), by decide +kernel⟩,
   ⟨0, 1, 5, (sec 90), (l2ent 1 0), (st (learning [l2ent 1 0] { frozenAt := some (sec 90) } (one m0))), by decide +kernel, by decide +kernel, by decide +kernel, by decide +kernel, (by decide +kernel : ∀ k : BitVec 3, homeNow (learning [l2ent 1 0] { frozenAt := some (sec 90) } (one m0)) k.toNat = 0) _, by decide +kernel⟩,
   ⟨0, 1, 5, 9, (st (learning [l2ent 1 0] {} (onTbl (fun t => { t with pend := [(0, 1, 5, 9)] }) m0))), by decide +kernel, by decide +kernel, (by decide +kernel : ∀ k : BitVec 3, (((learning [l2ent 1 0] {} (onTbl (fun t => { t with pend := [(0, 1, 5, 9)] }) m0)).tbl.ents.get (homeNow (learning [l2ent 1 0] {} (onTbl (fun t => { t with pend := [(0, 1, 5, 9)] }) m0)) k.toNat, 1)).any (fun e => e.key == l2Key 1 5 && !isStatic e.dat)) = true) _⟩,
   ⟨0, 1, 5, (l2ent 1 0), (st (learning [l2ent 1 0] { hit := 6000 } (one m0))), by decide +kernel, by decide +kernel, (by decide +kernel : ∀ k : BitVec 3, homeNow (learning [l2ent 1 0] { hit := 6000 } (one m0)) k.toNat = 0) _, by decide +kernel, by decide +kernel, by decide +kernel, by decide +kernel, by decide +kernel, fun _ _ => List.not_mem_nil⟩⟩

/-- The hypotheses of SearchesAnswer are met, clause by clause. -/
theorem test_searchesAnswer_met :
    (∃ n, ∃ sh, ∃ (s : State), arrives (.search n) s.mod = true ∧ running s.mod n 0x11 ∧ let q := (s.mod.dax.boxes.get n).body; replicaOf s.mod (leAt q 1 1) = some sh ∧ let bad := leAt q 0 1 = 0 ∨ 9 < leAt q 0 1 ∨ leAt q 2 2 ≠ 0 ∨ (s.mod.dax.boxes.get n).len < 4 ∨ sizeOk (leAt q 0 1) (q.drop 4).length = false ∨ keyOnly (leAt q 0 1) (q.drop 4) = false; bad) ∧
    (∃ n, ∃ sh, ∃ (s : State), ∃ (e : Ent), arrives (.search n) s.mod = true ∧ running s.mod n 0x11 ∧ let q := (s.mod.dax.boxes.get n).body; replicaOf s.mod (leAt q 1 1) = some sh ∧ let bad := leAt q 0 1 = 0 ∨ 9 < leAt q 0 1 ∨ leAt q 2 2 ≠ 0 ∨ (s.mod.dax.boxes.get n).len < 4 ∨ sizeOk (leAt q 0 1) (q.drop 4).length = false ∨ keyOnly (leAt q 0 1) (q.drop 4) = false; (¬ bad) ∧ (viewOf s.mod sh s.mod.tt.active).find (leAt q 0 1) (keyOf (leAt q 0 1) (q.drop 4)) = some e) ∧
    (∃ n, ∃ sh, ∃ (s : State), arrives (.search n) s.mod = true ∧ running s.mod n 0x11 ∧ let q := (s.mod.dax.boxes.get n).body; replicaOf s.mod (leAt q 1 1) = some sh ∧ let bad := leAt q 0 1 = 0 ∨ 9 < leAt q 0 1 ∨ leAt q 2 2 ≠ 0 ∨ (s.mod.dax.boxes.get n).len < 4 ∨ sizeOk (leAt q 0 1) (q.drop 4).length = false ∨ keyOnly (leAt q 0 1) (q.drop 4) = false; (¬ bad) ∧ (viewOf s.mod sh s.mod.tt.active).find (leAt q 0 1) (keyOf (leAt q 0 1) (q.drop 4)) = none) ∧
    (∃ n, ∃ (s : State), arrives (.search n) s.mod = true ∧ running s.mod n 0x11 ∧ 8 ≤ leAt (s.mod.dax.boxes.get n).body 1 1 ∧ leAt (s.mod.dax.boxes.get n).body 1 1 ≠ 0xFF) ∧
    (∃ n, ∃ sh, ∃ (s : State), arrives (.next n) s.mod = true ∧ running s.mod n 0x12 ∧ let q := (s.mod.dax.boxes.get n).body; replicaOf s.mod (leAt q 1 1) = some sh ∧ let bad := (s.mod.dax.boxes.get n).len ≠ 16 ∨ leAt q 0 1 = 0 ∨ 5 < leAt q 0 1 ∨ leAt q 2 1 = 0 ∨ 64 < leAt q 2 1 ∨ 8 ≤ leAt q 3 1 ∨ leAt q 0x0E 2 ≠ 0; bad) ∧
    (∃ n, ∃ sh, ∃ (s : State), arrives (.next n) s.mod = true ∧ running s.mod n 0x12 ∧ let q := (s.mod.dax.boxes.get n).body; replicaOf s.mod (leAt q 1 1) = some sh ∧ let bad := (s.mod.dax.boxes.get n).len ≠ 16 ∨ leAt q 0 1 = 0 ∨ 5 < leAt q 0 1 ∨ leAt q 2 1 = 0 ∨ 64 < leAt q 2 1 ∨ 8 ≤ leAt q 3 1 ∨ leAt q 0x0E 2 ≠ 0; (¬ bad) ∧ leAt q 4 4 ≠ 0 ∧ cursorOf s.mod (leAt q 4 4) = none) ∧
    (∃ n, ∃ sh, ∃ (s : State), arrives (.next n) s.mod = true ∧ running s.mod n 0x12 ∧ let q := (s.mod.dax.boxes.get n).body; replicaOf s.mod (leAt q 1 1) = some sh ∧ let bad := (s.mod.dax.boxes.get n).len ≠ 16 ∨ leAt q 0 1 = 0 ∨ 5 < leAt q 0 1 ∨ leAt q 2 1 = 0 ∨ 64 < leAt q 2 1 ∨ 8 ≤ leAt q 3 1 ∨ leAt q 0x0E 2 ≠ 0; (¬ bad) ∧ leAt q 4 4 = 0 ∧ 16 ≤ ((s.mod.tbl.cursors.get sh).filter (fun c => decide (s.mod.now ≤ c.lastAt + sec 10))).length) ∧
    (∃ n, ∃ sh, ∃ (c : Cursor), ∃ (x : Mod), ∃ (s : State), arrives (.next n) s.mod = true ∧ running s.mod n 0x12 ∧ let q := (s.mod.dax.boxes.get n).body; let open_ := (s.mod.tbl.cursors.get sh).filter (fun c => decide (s.mod.now ≤ c.lastAt + sec 10)); (s.mod.dax.boxes.get n).len = 16 ∧ 0 < leAt q 0 1 ∧ leAt q 0 1 ≤ 5 ∧ 0 < leAt q 2 1 ∧ leAt q 2 1 ≤ 64 ∧ leAt q 3 1 < 8 ∧ leAt q 0x0E 2 = 0 ∧ (replicaOf s.mod (leAt q 1 1)).isSome = true ∧ (if leAt q 4 4 = 0 then replicaOf s.mod (leAt q 1 1) = some sh ∧ open_.length < 16 ∧ c = { handle := s.mod.tbl.nextCur, shed := sh, tab := leAt q 0 1, pos := 0, lastAt := s.mod.now } ∧ x = { s.mod with tbl := { s.mod.tbl with cursors := s.mod.tbl.cursors.set sh open_, nextCur := if (s.mod.tbl.nextCur + 1) % 2 ^ 32 = 0 then 1 else (s.mod.tbl.nextCur + 1) % 2 ^ 32 } } else cursorOf s.mod (leAt q 4 4) = some (sh, c) ∧ c.tab = leAt q 0 1 ∧ x = s.mod)) ∧
    (∃ n, ∃ (s : State), arrives (.journalRead n) s.mod = true ∧ running s.mod n 0x14 ∧ let q := (s.mod.dax.boxes.get n).body; let bad := (s.mod.dax.boxes.get n).len ≠ 16 ∨ leAt q 4 2 = 0 ∨ 4096 < leAt q 4 2 ∨ leAt q 6 2 ≠ 0 ∨ leAt q 8 8 % 64 ≠ 0; let oldest := s.mod.tbl.jNext - s.mod.tbl.journal.length; let start := if leAt q 0 4 < oldest then firstPart s.mod.tbl.journal oldest else leAt q 0 4; let recs := (s.mod.tbl.journal.drop (start - oldest)).take (leAt q 4 2); bad) ∧
    (∃ n, ∃ (s : State), arrives (.journalRead n) s.mod = true ∧ running s.mod n 0x14 ∧ let q := (s.mod.dax.boxes.get n).body; let bad := (s.mod.dax.boxes.get n).len ≠ 16 ∨ leAt q 4 2 = 0 ∨ 4096 < leAt q 4 2 ∨ leAt q 6 2 ≠ 0 ∨ leAt q 8 8 % 64 ≠ 0; let oldest := s.mod.tbl.jNext - s.mod.tbl.journal.length; let start := if leAt q 0 4 < oldest then firstPart s.mod.tbl.journal oldest else leAt q 0 4; let recs := (s.mod.tbl.journal.drop (start - oldest)).take (leAt q 4 2); (¬ bad)) ∧
    (∃ n, ∃ (s : State), arrives (.ticketRead n) s.mod = true ∧ running s.mod n 0x15 ∧ let q := (s.mod.dax.boxes.get n).body; let bad := (s.mod.dax.boxes.get n).len ≠ 4 ∨ 8 ≤ leAt q 0 1 ∨ leAt q 1 1 ≠ 0 ∨ 2 ^ 15 ≤ leAt q 2 2; bad) ∧
    (∃ n, ∃ (s : State), ∃ (k : Tkt), arrives (.ticketRead n) s.mod = true ∧ running s.mod n 0x15 ∧ let q := (s.mod.dax.boxes.get n).body; let bad := (s.mod.dax.boxes.get n).len ≠ 4 ∨ 8 ≤ leAt q 0 1 ∨ leAt q 1 1 ≠ 0 ∨ 2 ^ 15 ≤ leAt q 2 2; (¬ bad) ∧ tkt? s.mod (leAt q 0 1) (leAt q 2 2) = some k) ∧
    (∃ n, ∃ (s : State), arrives (.ticketRead n) s.mod = true ∧ running s.mod n 0x15 ∧ let q := (s.mod.dax.boxes.get n).body; let bad := (s.mod.dax.boxes.get n).len ≠ 4 ∨ 8 ≤ leAt q 0 1 ∨ leAt q 1 1 ≠ 0 ∨ 2 ^ 15 ≤ leAt q 2 2; (¬ bad) ∧ tkt? s.mod (leAt q 0 1) (leAt q 2 2) = none) :=
  ⟨⟨0, 0, (st (box 0 0x11 ([0, 0, 0, 0] ++ zeros 16) m0)), by decide +kernel⟩,
   ⟨0, 7, (st (withTab 7 [ent7] (box 0 0x11 ([7, 7, 0, 0, 3] ++ zeros 15) m0))), ent7, by decide +kernel⟩,
   ⟨0, 0, (st (box 0 0x11 ([7, 0xFF, 0, 0, 3] ++ zeros 15) m0)), by decide +kernel⟩,
   ⟨0, (st (box 0 0x11 ([7, 8, 0, 0, 3] ++ zeros 15) m0)), by decide +kernel⟩,
   ⟨0, 0, (st (box 0 0x12 ([1, 0, 65, 0] ++ zeros 12) m0)), by decide +kernel⟩,
   ⟨0, 0, (st (box 0 0x12 ([1, 0, 64, 0, 9] ++ zeros 11) m0)), by decide +kernel⟩,
   ⟨0, 0, (st (onTbl (fun t => { t with cursors := t.cursors.set 0 (List.replicate 16 { handle := 1, shed := 0, tab := 1, pos := 0, lastAt := sec 90 }) }) (box 0 0x12 ([1, 0, 1, 0] ++ zeros 12) m0))), by decide +kernel⟩,
   ⟨0, 0, ({ handle := m0.tbl.nextCur, shed := 0, tab := 1, pos := 0, lastAt := sec 100 }), (onTbl (fun t => { t with cursors := t.cursors.set 0 [], nextCur := t.nextCur + 1 }) (withTab 1 [l2ent 1 0] (box 0 0x12 ([1, 0, 1, 0] ++ zeros 12) m0))), (st (withTab 1 [l2ent 1 0] (box 0 0x12 ([1, 0, 1, 0] ++ zeros 12) m0))), by decide +kernel⟩,
   ⟨0, (st (box 0 0x14 (zeros 16) m0)), by decide +kernel⟩,
   ⟨0, (st (box 0 0x14 ([0, 0, 0, 0, 0, 16, 0, 0] ++ zeros 8) m0)), by decide +kernel⟩,
   ⟨0, (st (box 0 0x15 [8, 0, 0, 0] m0)), by decide +kernel⟩,
   ⟨0, (st (putTkt 7 32767 (some tkt0) (box 0 0x15 [7, 0, 0xFF, 0x7F] m0))), tkt0, by decide +kernel⟩,
   ⟨0, (st (box 0 0x15 [7, 0, 0xFF, 0x7F] m0)), by decide +kernel⟩⟩

/-- The hypotheses of FlushesAndReads are met, clause by clause. -/
theorem test_flushesAndReads_met :
    (∃ n, ∃ (s : State), arrives (.flushByPort n) s.mod = true ∧ running s.mod n 0x13 ∧ let b := s.mod.dax.boxes.get n; let q := b.body; let bad := b.len ≠ 8 ∨ destOk (portDefined s.mod) (leAt q 0 4) 2 = false ∨ 4 ≤ leAt q 6 1 ∨ leAt q 7 1 ≠ 0 ∨ (bitOf (leAt q 6 1) 0 = true ∧ 2 ^ 14 ≤ leAt q 4 2); let ask := askLeaves n 5 (workingSheds s.mod) (setBox n (fun b => { b with began := true, leave := [] }) s.mod); bad) ∧
    (∃ n, ∃ (s : State), arrives (.flushByPort n) s.mod = true ∧ running s.mod n 0x13 ∧ let b := s.mod.dax.boxes.get n; let q := b.body; let bad := b.len ≠ 8 ∨ destOk (portDefined s.mod) (leAt q 0 4) 2 = false ∨ 4 ≤ leAt q 6 1 ∨ leAt q 7 1 ≠ 0 ∨ (bitOf (leAt q 6 1) 0 = true ∧ 2 ^ 14 ≤ leAt q 4 2); let ask := askLeaves n 5 (workingSheds s.mod) (setBox n (fun b => { b with began := true, leave := [] }) s.mod); (¬ bad) ∧ ask.1 = false) ∧
    (∃ n, ∃ (s : State), arrives (.flushByPort n) s.mod = true ∧ running s.mod n 0x13 ∧ let b := s.mod.dax.boxes.get n; let q := b.body; let bad := b.len ≠ 8 ∨ destOk (portDefined s.mod) (leAt q 0 4) 2 = false ∨ 4 ≤ leAt q 6 1 ∨ leAt q 7 1 ≠ 0 ∨ (bitOf (leAt q 6 1) 0 = true ∧ 2 ^ 14 ≤ leAt q 4 2); let ask := askLeaves n 5 (workingSheds s.mod) (setBox n (fun b => { b with began := true, leave := [] }) s.mod); let hit := (s.mod.tbl.ents.get (lowestShed s.mod, 1)).filter (fun e => !isStatic e.dat && leAt e.dat 8 4 == leAt q 0 4 && decide ((metaOf s.mod e.key).portTime / 1000 < s.mod.now / 1000) && (bitOf (leAt q 6 1) 1 || (metaOf s.mod e.key).frozenAt.isNone) && (!bitOf (leAt q 6 1) 0 || l2Fid e.key == leAt q 4 2)); (¬ bad) ∧ ask.1 = true ∧ (ask.2.dax.boxes.get n).leave = [] ∧ s.mod.tbl.edits = []) ∧
    (∃ n, ∃ (s : State), arrives (.flushByPort n) s.mod = true ∧ running s.mod n 0x13 ∧ let b := s.mod.dax.boxes.get n; let q := b.body; let bad := b.len ≠ 8 ∨ destOk (portDefined s.mod) (leAt q 0 4) 2 = false ∨ 4 ≤ leAt q 6 1 ∨ leAt q 7 1 ≠ 0 ∨ (bitOf (leAt q 6 1) 0 = true ∧ 2 ^ 14 ≤ leAt q 4 2); let ask := askLeaves n 5 (workingSheds s.mod) (setBox n (fun b => { b with began := true, leave := [] }) s.mod); (¬ bad) ∧ ask.1 = true ∧ (ask.2.dax.boxes.get n).leave ≠ []) ∧
    (∃ n, ∃ (s : State), arrives (.ticketFlush n) s.mod = true ∧ running s.mod n 0x16 ∧ let b := s.mod.dax.boxes.get n; let q := b.body; let bad := b.len ≠ 1 ∨ (8 ≤ leAt q 0 1 ∧ leAt q 0 1 ≠ 0xFF); let ask := askLeaves n 6 (flushSheds s.mod (leAt q 0 1)) (setBox n (fun b => { b with began := true, leave := [] }) s.mod); bad) ∧
    (∃ n, ∃ (s : State), arrives (.ticketFlush n) s.mod = true ∧ running s.mod n 0x16 ∧ let b := s.mod.dax.boxes.get n; let q := b.body; let bad := b.len ≠ 1 ∨ (8 ≤ leAt q 0 1 ∧ leAt q 0 1 ≠ 0xFF); let ask := askLeaves n 6 (flushSheds s.mod (leAt q 0 1)) (setBox n (fun b => { b with began := true, leave := [] }) s.mod); (¬ bad) ∧ ask.1 = false) ∧
    (∃ n, ∃ (s : State), arrives (.ticketFlush n) s.mod = true ∧ running s.mod n 0x16 ∧ let b := s.mod.dax.boxes.get n; let q := b.body; let bad := b.len ≠ 1 ∨ (8 ≤ leAt q 0 1 ∧ leAt q 0 1 ≠ 0xFF); let ask := askLeaves n 6 (flushSheds s.mod (leAt q 0 1)) (setBox n (fun b => { b with began := true, leave := [] }) s.mod); (¬ bad) ∧ ask.1 = true ∧ (ask.2.dax.boxes.get n).leave = []) ∧
    (∃ n, ∃ (s : State), arrives (.ticketFlush n) s.mod = true ∧ running s.mod n 0x16 ∧ let b := s.mod.dax.boxes.get n; let q := b.body; let bad := b.len ≠ 1 ∨ (8 ≤ leAt q 0 1 ∧ leAt q 0 1 ≠ 0xFF); let ask := askLeaves n 6 (flushSheds s.mod (leAt q 0 1)) (setBox n (fun b => { b with began := true, leave := [] }) s.mod); (¬ bad) ∧ ask.1 = true ∧ (ask.2.dax.boxes.get n).leave ≠ []) ∧
    (∃ n, ∃ (s : State), arrives (.counterRead n) s.mod = true ∧ running s.mod n 0x18 ∧ let b := s.mod.dax.boxes.get n; let q := b.body; let bad := b.len ≠ 24 ∨ 8 ≤ leAt q 0 1 ∨ leAt q 1 3 ≠ 0 ∨ 2 ^ 20 ≤ leAt q 4 4 ∨ leAt q 8 2 = 0 ∨ 4096 < leAt q 8 2 ∨ 2 ^ 20 < leAt q 4 4 + leAt q 8 2 ∨ allZero (sliceOf q 0x0A 6) = false ∨ leAt q 0x10 8 % 8 ≠ 0; bad) ∧
    (∃ n, ∃ (s : State), arrives (.counterRead n) s.mod = true ∧ running s.mod n 0x18 ∧ let b := s.mod.dax.boxes.get n; let q := b.body; let bad := b.len ≠ 24 ∨ 8 ≤ leAt q 0 1 ∨ leAt q 1 3 ≠ 0 ∨ 2 ^ 20 ≤ leAt q 4 4 ∨ leAt q 8 2 = 0 ∨ 4096 < leAt q 8 2 ∨ 2 ^ 20 < leAt q 4 4 + leAt q 8 2 ∨ allZero (sliceOf q 0x0A 6) = false ∨ leAt q 0x10 8 % 8 ≠ 0; (¬ bad)) ∧
    (∃ n, ∃ (s : State), arrives (.captureRing n) s.mod = true ∧ running s.mod n 0x30 ∧ let b := s.mod.dax.boxes.get n; let q := b.body; let bad := b.len ≠ 4 ∨ 16 ≤ leAt q 0 1 ∨ ¬ (leAt q 1 1 = 1 ∨ leAt q 1 1 = 2) ∨ 2 ≤ leAt q 2 1 ∨ leAt q 3 1 ≠ 0 ∨ (leAt q 1 1 = 2 ∧ versionAtLeast s.mod 3 1 = false) ∨ (leAt q 1 1 = 1 ∧ leAt q 2 1 = 1 ∧ ringNamedV2 s.mod (leAt q 0 1) = true); bad) ∧
    (∃ n, ∃ (s : State), arrives (.captureRing n) s.mod = true ∧ running s.mod n 0x30 ∧ let b := s.mod.dax.boxes.get n; let q := b.body; let bad := b.len ≠ 4 ∨ 16 ≤ leAt q 0 1 ∨ ¬ (leAt q 1 1 = 1 ∨ leAt q 1 1 = 2) ∨ 2 ≤ leAt q 2 1 ∨ leAt q 3 1 ≠ 0 ∨ (leAt q 1 1 = 2 ∧ versionAtLeast s.mod 3 1 = false) ∨ (leAt q 1 1 = 1 ∧ leAt q 2 1 = 1 ∧ ringNamedV2 s.mod (leAt q 0 1) = true); (¬ bad)) :=
  ⟨⟨0, (st (box 0 0x13 (zeros 7) m0)), by decide +kernel⟩,
   ⟨0, (st (onPwr (fun p => { p with holdup := some 0 }) (box 0 0x13 (zeros 8) m0))), by decide +kernel⟩,
   ⟨0, (st (box 0 0x13 (zeros 8) m0)), by decide +kernel⟩,
   ⟨0, (st (onPwr (fun p => { p with queue := [{ id := 0, op := 6, unit := 0, at_ := 0, mbx := none }], nextId := 1 }) (box 0 0x13 (zeros 8) m0))), by decide +kernel⟩,
   ⟨0, (st (box 0 0x16 [8] m0)), by decide +kernel⟩,
   ⟨0, (st (onPwr (fun p => { p with holdup := some 0 }) (box 0 0x16 [0xFF] m0))), by decide +kernel⟩,
   ⟨0, (st (box 0 0x16 [7] m0)), by decide +kernel⟩,
   ⟨0, (st (onPwr (fun p => { p with queue := [{ id := 0, op := 6, unit := 0, at_ := 0, mbx := none }], nextId := 1 }) (box 0 0x16 [7] m0))), by decide +kernel⟩,
   ⟨0, (st (box 0 0x18 (zeros 24) m0)), by decide +kernel⟩,
   ⟨0, (st (box 0 0x18 ([7, 0, 0, 0, 0, 0, 0, 0, 1, 0] ++ zeros 14) m0)), by decide +kernel⟩,
   ⟨0, (st (box 0 0x30 [16, 2, 0, 0] m0)), by decide +kernel⟩,
   ⟨0, (st (box 0 0x30 [15, 1, 0, 0] m0)), by decide +kernel⟩⟩

/-- The hypotheses of BanksAreWritten are met, clause by clause. -/
theorem test_banksAreWritten_met :
    (∃ n, ∃ (s : State), arrives (.ttOpen n) s.mod = true ∧ running s.mod n 0x20 ∧ Safe s ∧ let q := (s.mod.dax.boxes.get n).body; let k := leAt q 0 1; (s.mod.dax.boxes.get n).len = 16 ∧ k ≤ 1 ∧ leAt q 1 7 = 0 ∧ 0x500 ≤ leAt q 8 8 ∧ leAt q 8 8 ≤ 0x20000000 ∧ (s.mod.tt.banks.get k).st = .active) ∧
    (∃ n, ∃ (s : State), arrives (.ttOpen n) s.mod = true ∧ running s.mod n 0x20 ∧ Safe s ∧ let q := (s.mod.dax.boxes.get n).body; let k := leAt q 0 1; (s.mod.dax.boxes.get n).len = 16 ∧ k ≤ 1 ∧ leAt q 1 7 = 0 ∧ 0x500 ≤ leAt q 8 8 ∧ leAt q 8 8 ≤ 0x20000000 ∧ (s.mod.tt.banks.get k).st = .retiring ∨ (s.mod.tt.banks.get k).st = .verifying) ∧
    (∃ n, ∃ (s : State), arrives (.ttOpen n) s.mod = true ∧ running s.mod n 0x20 ∧ Safe s ∧ let q := (s.mod.dax.boxes.get n).body; let k := leAt q 0 1; (s.mod.dax.boxes.get n).len = 16 ∧ k ≤ 1 ∧ leAt q 1 7 = 0 ∧ 0x500 ≤ leAt q 8 8 ∧ leAt q 8 8 ≤ 0x20000000 ∧ (s.mod.tt.banks.get k).st ∈ [.empty, .writing, .valid, .invalid] ∧ (activating s.mod k = true ∨ (s.mod.tt.banks.get (1 - k)).st = .writing)) ∧
    (∃ n, ∃ (s : State), arrives (.ttOpen n) s.mod = true ∧ running s.mod n 0x20 ∧ Safe s ∧ let q := (s.mod.dax.boxes.get n).body; let k := leAt q 0 1; (s.mod.dax.boxes.get n).len = 16 ∧ k ≤ 1 ∧ leAt q 1 7 = 0 ∧ 0x500 ≤ leAt q 8 8 ∧ leAt q 8 8 ≤ 0x20000000 ∧ (s.mod.tt.banks.get k).st ∈ [.empty, .writing, .valid, .invalid] ∧ activating s.mod k = false ∧ (s.mod.tt.banks.get (1 - k)).st ≠ .writing) ∧
    (∃ n, ∃ (s : State), arrives (.ttWrite n) s.mod = true ∧ running s.mod n 0x21 ∧ Safe s ∧ let q := (s.mod.dax.boxes.get n).body; let k := leAt q 0 1; let size := leAt q 2 2; let bank := s.mod.tt.banks.get k; k ≤ 1 ∧ leAt q 1 1 = 0 ∧ 8 ≤ size ∧ size ≤ 3584 ∧ (s.mod.dax.boxes.get n).len = 8 + size ∧ bank.st = .writing ∧ leAt q 4 4 + size ≤ bank.len ∧ bank.len ≤ 0x20000000 ∧ (size % 8 = 0 ∨ leAt q 4 4 + size = bank.len) ∧ let same := leAt q 4 4 + size ≤ bank.next ∧ Memory.reads s.mem (bankBase k + leAt q 4 4) size = sliceOf q 8 size; leAt q 4 4 < bank.next ∧ same) ∧
    (∃ n, ∃ (s : State), arrives (.ttWrite n) s.mod = true ∧ running s.mod n 0x21 ∧ Safe s ∧ let q := (s.mod.dax.boxes.get n).body; let k := leAt q 0 1; let size := leAt q 2 2; let bank := s.mod.tt.banks.get k; k ≤ 1 ∧ leAt q 1 1 = 0 ∧ 8 ≤ size ∧ size ≤ 3584 ∧ (s.mod.dax.boxes.get n).len = 8 + size ∧ bank.st = .writing ∧ leAt q 4 4 + size ≤ bank.len ∧ bank.len ≤ 0x20000000 ∧ (size % 8 = 0 ∨ leAt q 4 4 + size = bank.len) ∧ let same := leAt q 4 4 + size ≤ bank.next ∧ Memory.reads s.mem (bankBase k + leAt q 4 4) size = sliceOf q 8 size; leAt q 4 4 ≠ bank.next ∧ (¬ (leAt q 4 4 < bank.next ∧ same))) ∧
    (∃ n, ∃ (s : State), arrives (.ttWrite n) s.mod = true ∧ running s.mod n 0x21 ∧ Safe s ∧ let q := (s.mod.dax.boxes.get n).body; let k := leAt q 0 1; let size := leAt q 2 2; let bank := s.mod.tt.banks.get k; k ≤ 1 ∧ leAt q 1 1 = 0 ∧ 8 ≤ size ∧ size ≤ 3584 ∧ (s.mod.dax.boxes.get n).len = 8 + size ∧ bank.st = .writing ∧ leAt q 4 4 + size ≤ bank.len ∧ bank.len ≤ 0x20000000 ∧ (size % 8 = 0 ∨ leAt q 4 4 + size = bank.len) ∧ let same := leAt q 4 4 + size ≤ bank.next ∧ Memory.reads s.mem (bankBase k + leAt q 4 4) size = sliceOf q 8 size; leAt q 4 4 = bank.next) ∧
    (∃ n, ∃ (s : State), arrives (.ttClose n) s.mod = true ∧ running s.mod n 0x22 ∧ let k := leAt (s.mod.dax.boxes.get n).body 0 1; let bank := s.mod.tt.banks.get k; (s.mod.dax.boxes.get n).len = 1 ∧ k ≤ 1 ∧ bank.st ≠ .writing) ∧
    (∃ n, ∃ (s : State), arrives (.ttClose n) s.mod = true ∧ running s.mod n 0x22 ∧ let k := leAt (s.mod.dax.boxes.get n).body 0 1; let bank := s.mod.tt.banks.get k; (s.mod.dax.boxes.get n).len = 1 ∧ k ≤ 1 ∧ bank.st = .writing ∧ bank.len ≤ bank.next) ∧
    (∃ n, ∃ (s : State), arrives (.ttClose n) s.mod = true ∧ running s.mod n 0x22 ∧ let k := leAt (s.mod.dax.boxes.get n).body 0 1; let bank := s.mod.tt.banks.get k; (s.mod.dax.boxes.get n).len = 1 ∧ k ≤ 1 ∧ bank.st = .writing ∧ bank.next < bank.len) ∧
    (∃ n, ∃ (s : State), arrives (.ttInvalidate n) s.mod = true ∧ running s.mod n 0x24 ∧ Safe s ∧ let k := leAt (s.mod.dax.boxes.get n).body 0 1; (s.mod.dax.boxes.get n).len = 1 ∧ k ≤ 1 ∧ (s.mod.tt.banks.get k).st = .active) ∧
    (∃ n, ∃ (s : State), arrives (.ttInvalidate n) s.mod = true ∧ running s.mod n 0x24 ∧ Safe s ∧ let k := leAt (s.mod.dax.boxes.get n).body 0 1; (s.mod.dax.boxes.get n).len = 1 ∧ k ≤ 1 ∧ (s.mod.tt.banks.get k).st = .empty) ∧
    (∃ n, ∃ (s : State), arrives (.ttInvalidate n) s.mod = true ∧ running s.mod n 0x24 ∧ Safe s ∧ let k := leAt (s.mod.dax.boxes.get n).body 0 1; (s.mod.dax.boxes.get n).len = 1 ∧ k ≤ 1 ∧ (s.mod.tt.banks.get k).st ∈ [.retiring, .verifying] ∨ ((s.mod.tt.banks.get k).st ∈ [.valid, .invalid, .writing] ∧ activating s.mod k = true)) ∧
    (∃ n, ∃ (s : State), arrives (.ttInvalidate n) s.mod = true ∧ running s.mod n 0x24 ∧ Safe s ∧ let k := leAt (s.mod.dax.boxes.get n).body 0 1; (s.mod.dax.boxes.get n).len = 1 ∧ k ≤ 1 ∧ (s.mod.tt.banks.get k).st ∈ [.valid, .invalid, .writing] ∧ activating s.mod k = false) ∧
    (∃ n, ∃ (s : State), arrives (.ttStatus n) s.mod = true ∧ running s.mod n 0x25 ∧ (s.mod.dax.boxes.get n).len = 0) :=
  ⟨⟨0, (st (box 0 0x20 ([0, 0, 0, 0, 0, 0, 0, 0, 0, 5] ++ zeros 6) m0)), by decide +kernel⟩,
   ⟨0, (st (bank1 { st := .verifying } (box 0 0x20 ([1, 0, 0, 0, 0, 0, 0, 0, 0, 5] ++ zeros 6) m0))), by decide +kernel⟩,
   ⟨0, (st (onTt (fun t => { t with act := some { bank := 1, mbx := none, loading := true } }) (bank1 valid1 (box 0 0x20 ([1, 0, 0, 0, 0, 0, 0, 0, 0, 5] ++ zeros 6) m0)))), by decide +kernel⟩,
   ⟨0, (st (box 0 0x20 ([1, 0, 0, 0, 0, 0, 0, 0, 0, 0, 0, 0x20] ++ zeros 4) m0)), by decide +kernel⟩,
   ⟨0, (st (bank1 { st := .writing, len := 0x501, next := 0x4F8 } (box 0 0x21 ([1, 0, 8, 0, 0xF0, 4, 0, 0] ++ zeros 8) m0))), by decide +kernel⟩,
   ⟨0, (st (bank1 { st := .writing, len := 0x501, next := 0x4F8 } (box 0 0x21 ([1, 0, 8, 0, 0, 0, 0, 0] ++ List.replicate 8 1) m0))), by decide +kernel⟩,
   ⟨0, (st (bank1 { st := .writing, len := 0x501, next := 0x4F8 } (box 0 0x21 ([1, 0, 9, 0, 0xF8, 4, 0, 0] ++ zeros 9) m0))), by decide +kernel⟩,
   ⟨0, (st (box 0 0x22 [0] m0)), by decide +kernel⟩,
   ⟨0, (st (bank1 { st := .writing, len := 0x500, next := 0x500 } (box 0 0x22 [1] m0))), by decide +kernel⟩,
   ⟨0, (st (bank1 { st := .writing, len := 0x501, next := 0x500 } (box 0 0x22 [1] m0))), by decide +kernel⟩,
   ⟨0, (st (box 0 0x24 [0] m0)), by decide +kernel⟩,
   ⟨0, (st (box 0 0x24 [1] m0)), by decide +kernel⟩,
   ⟨0, (st (bank1 { st := .verifying } (box 0 0x24 [1] m0))), by decide +kernel⟩,
   ⟨0, (st (bank1 valid1 (box 0 0x24 [1] m0))), by decide +kernel⟩,
   ⟨0, (st (box 0 0x25 [] m0)), by decide +kernel⟩⟩

/-- The hypotheses of ActivationsAreAsked are met, clause by clause. -/
theorem test_activationsAreAsked_met :
    (∃ n, ∃ (s : State), arrives (.ttActivate n) s.mod = true ∧ running s.mod n 0x23 ∧ let q := (s.mod.dax.boxes.get n).body; let k := leAt q 0 1; let bank := s.mod.tt.banks.get k; let stale := s.mod.tt.active.any (fun o => !serialNewer bank.seq (s.mod.tt.banks.get o).seq); let x0 := setBox n (fun b => { b with began := true, phase := 0, leave := [] }) (setTt (fun t => { t with act := some { bank := k, mbx := some n } }) s.mod); let ask := askLeaves n 5 (workingSheds s.mod) x0; (s.mod.dax.boxes.get n).len = 40 ∧ k ≤ 1 ∧ leAt q 1 3 = 0 ∧ s.mod.mode.mode ∉ [.standalone, .paired, .quiesced]) ∧
    (∃ n, ∃ (s : State), arrives (.ttActivate n) s.mod = true ∧ running s.mod n 0x23 ∧ let q := (s.mod.dax.boxes.get n).body; let k := leAt q 0 1; let bank := s.mod.tt.banks.get k; let stale := s.mod.tt.active.any (fun o => !serialNewer bank.seq (s.mod.tt.banks.get o).seq); let x0 := setBox n (fun b => { b with began := true, phase := 0, leave := [] }) (setTt (fun t => { t with act := some { bank := k, mbx := some n } }) s.mod); let ask := askLeaves n 5 (workingSheds s.mod) x0; (s.mod.dax.boxes.get n).len = 40 ∧ k ≤ 1 ∧ leAt q 1 3 = 0 ∧ s.mod.mode.mode ∈ [.standalone, .paired, .quiesced] ∧ activationOn s.mod = true) ∧
    (∃ n, ∃ (s : State), arrives (.ttActivate n) s.mod = true ∧ running s.mod n 0x23 ∧ let q := (s.mod.dax.boxes.get n).body; let k := leAt q 0 1; let bank := s.mod.tt.banks.get k; let stale := s.mod.tt.active.any (fun o => !serialNewer bank.seq (s.mod.tt.banks.get o).seq); let x0 := setBox n (fun b => { b with began := true, phase := 0, leave := [] }) (setTt (fun t => { t with act := some { bank := k, mbx := some n } }) s.mod); let ask := askLeaves n 5 (workingSheds s.mod) x0; (s.mod.dax.boxes.get n).len = 40 ∧ k ≤ 1 ∧ leAt q 1 3 = 0 ∧ s.mod.mode.mode ∈ [.standalone, .paired, .quiesced] ∧ activationOn s.mod = false ∧ draining s.mod = true) ∧
    (∃ n, ∃ (s : State), arrives (.ttActivate n) s.mod = true ∧ running s.mod n 0x23 ∧ let q := (s.mod.dax.boxes.get n).body; let k := leAt q 0 1; let bank := s.mod.tt.banks.get k; let stale := s.mod.tt.active.any (fun o => !serialNewer bank.seq (s.mod.tt.banks.get o).seq); let x0 := setBox n (fun b => { b with began := true, phase := 0, leave := [] }) (setTt (fun t => { t with act := some { bank := k, mbx := some n } }) s.mod); let ask := askLeaves n 5 (workingSheds s.mod) x0; (s.mod.dax.boxes.get n).len = 40 ∧ k ≤ 1 ∧ leAt q 1 3 = 0 ∧ s.mod.mode.mode ∈ [.standalone, .paired, .quiesced] ∧ activationOn s.mod = false ∧ draining s.mod = false ∧ bank.st ≠ .valid) ∧
    (∃ n, ∃ (s : State), arrives (.ttActivate n) s.mod = true ∧ running s.mod n 0x23 ∧ let q := (s.mod.dax.boxes.get n).body; let k := leAt q 0 1; let bank := s.mod.tt.banks.get k; let stale := s.mod.tt.active.any (fun o => !serialNewer bank.seq (s.mod.tt.banks.get o).seq); let x0 := setBox n (fun b => { b with began := true, phase := 0, leave := [] }) (setTt (fun t => { t with act := some { bank := k, mbx := some n } }) s.mod); let ask := askLeaves n 5 (workingSheds s.mod) x0; (s.mod.dax.boxes.get n).len = 40 ∧ k ≤ 1 ∧ leAt q 1 3 = 0 ∧ s.mod.mode.mode ∈ [.standalone, .paired, .quiesced] ∧ activationOn s.mod = false ∧ draining s.mod = false ∧ bank.st = .valid ∧ (bank.seq ≠ BitVec.ofNat 32 (leAt q 4 4) ∨ bank.digest ≠ digestOf (sliceOf q 8 32))) ∧
    (∃ n, ∃ (s : State), arrives (.ttActivate n) s.mod = true ∧ running s.mod n 0x23 ∧ let q := (s.mod.dax.boxes.get n).body; let k := leAt q 0 1; let bank := s.mod.tt.banks.get k; let stale := s.mod.tt.active.any (fun o => !serialNewer bank.seq (s.mod.tt.banks.get o).seq); let x0 := setBox n (fun b => { b with began := true, phase := 0, leave := [] }) (setTt (fun t => { t with act := some { bank := k, mbx := some n } }) s.mod); let ask := askLeaves n 5 (workingSheds s.mod) x0; (s.mod.dax.boxes.get n).len = 40 ∧ k ≤ 1 ∧ leAt q 1 3 = 0 ∧ s.mod.mode.mode ∈ [.standalone, .paired, .quiesced] ∧ activationOn s.mod = false ∧ draining s.mod = false ∧ bank.st = .valid ∧ bank.seq = BitVec.ofNat 32 (leAt q 4 4) ∧ bank.digest = digestOf (sliceOf q 8 32) ∧ stale = true) ∧
    (∃ n, ∃ (s : State), arrives (.ttActivate n) s.mod = true ∧ running s.mod n 0x23 ∧ let q := (s.mod.dax.boxes.get n).body; let k := leAt q 0 1; let bank := s.mod.tt.banks.get k; let stale := s.mod.tt.active.any (fun o => !serialNewer bank.seq (s.mod.tt.banks.get o).seq); let x0 := setBox n (fun b => { b with began := true, phase := 0, leave := [] }) (setTt (fun t => { t with act := some { bank := k, mbx := some n } }) s.mod); let ask := askLeaves n 5 (workingSheds s.mod) x0; (s.mod.dax.boxes.get n).len = 40 ∧ k ≤ 1 ∧ leAt q 1 3 = 0 ∧ s.mod.mode.mode ∈ [.standalone, .paired, .quiesced] ∧ activationOn s.mod = false ∧ draining s.mod = false ∧ bank.st = .valid ∧ bank.seq = BitVec.ofNat 32 (leAt q 4 4) ∧ bank.digest = digestOf (sliceOf q 8 32) ∧ stale = false ∧ ask.1 = true ∧ (ask.2.dax.boxes.get n).leave = []) ∧
    (∃ n, ∃ (s : State), arrives (.ttActivate n) s.mod = true ∧ running s.mod n 0x23 ∧ let q := (s.mod.dax.boxes.get n).body; let k := leAt q 0 1; let bank := s.mod.tt.banks.get k; let stale := s.mod.tt.active.any (fun o => !serialNewer bank.seq (s.mod.tt.banks.get o).seq); let x0 := setBox n (fun b => { b with began := true, phase := 0, leave := [] }) (setTt (fun t => { t with act := some { bank := k, mbx := some n } }) s.mod); let ask := askLeaves n 5 (workingSheds s.mod) x0; (s.mod.dax.boxes.get n).len = 40 ∧ k ≤ 1 ∧ leAt q 1 3 = 0 ∧ s.mod.mode.mode ∈ [.standalone, .paired, .quiesced] ∧ activationOn s.mod = false ∧ draining s.mod = false ∧ bank.st = .valid ∧ bank.seq = BitVec.ofNat 32 (leAt q 4 4) ∧ bank.digest = digestOf (sliceOf q 8 32) ∧ stale = false ∧ ask.1 = true ∧ (ask.2.dax.boxes.get n).leave ≠ []) ∧
    (∃ n, ∃ (s : State), arrives (.ttActivate n) s.mod = true ∧ running s.mod n 0x23 ∧ let q := (s.mod.dax.boxes.get n).body; let k := leAt q 0 1; let bank := s.mod.tt.banks.get k; let stale := s.mod.tt.active.any (fun o => !serialNewer bank.seq (s.mod.tt.banks.get o).seq); let x0 := setBox n (fun b => { b with began := true, phase := 0, leave := [] }) (setTt (fun t => { t with act := some { bank := k, mbx := some n } }) s.mod); let ask := askLeaves n 5 (workingSheds s.mod) x0; (s.mod.dax.boxes.get n).len = 40 ∧ k ≤ 1 ∧ leAt q 1 3 = 0 ∧ s.mod.mode.mode ∈ [.standalone, .paired, .quiesced] ∧ activationOn s.mod = false ∧ draining s.mod = false ∧ bank.st = .valid ∧ bank.seq = BitVec.ofNat 32 (leAt q 4 4) ∧ bank.digest = digestOf (sliceOf q 8 32) ∧ stale = false ∧ ask.1 = false) ∧
    (∃ sh, ∃ (d : Digest), ∃ (a : Activation), ∃ (s : State), arrives (.shedLoadDone sh d) s.mod = true ∧ (s.mod.trb.get sh).st ≠ .returning ∧ s.mod.tt.act = some a ∧ a.loading = true ∧ shedWorks s.mod sh = true ∧ a.okAt.get sh = false ∧ loadGranted s.mod sh a.mbx = true ∧ d = (s.mod.tt.banks.get a.bank).digest) ∧
    (∃ sh, ∃ (d : Digest), ∃ (a : Activation), ∃ (s : State), arrives (.shedLoadDone sh d) s.mod = true ∧ (s.mod.trb.get sh).st ≠ .returning ∧ s.mod.tt.act = some a ∧ a.loading = true ∧ shedWorks s.mod sh = true ∧ a.okAt.get sh = false ∧ loadGranted s.mod sh a.mbx = true ∧ d ≠ (s.mod.tt.banks.get a.bank).digest ∧ a.loads.get sh = 0) ∧
    (∃ sh, ∃ (d : Digest), ∃ (a : Activation), ∃ (s : State), arrives (.shedLoadDone sh d) s.mod = true ∧ (s.mod.trb.get sh).st ≠ .returning ∧ s.mod.tt.act = some a ∧ a.loading = true ∧ shedWorks s.mod sh = true ∧ a.okAt.get sh = false ∧ loadGranted s.mod sh a.mbx = true ∧ d ≠ (s.mod.tt.banks.get a.bank).digest ∧ a.loads.get sh ≠ 0) :=
  ⟨⟨0, (st (onMode (fun k => { k with mode := .harnessing }) (box 0 0x23 activate1 m0))), by decide +kernel⟩,
   ⟨0, (st (onTt (fun t => { t with act := some { bank := 1, mbx := none } }) (box 0 0x23 activate1 m0))), by decide +kernel⟩,
   ⟨0, (st (bank1 { valid1 with st := .retiring } (box 0 0x23 activate1 m0))), by decide +kernel⟩,
   ⟨0, (st (box 0 0x23 activate1 m0)), by decide +kernel⟩,
   ⟨0, (st (bank1 { valid1 with seq := 7 } (box 0 0x23 activate1 m0))), by decide +kernel⟩,
   ⟨0, (st (onTt (fun t => { t with banks := t.banks.upd 0 (fun b => { b with seq := 6 }) }) (bank1 valid1 (box 0 0x23 activate1 m0)))), by decide +kernel⟩,
   ⟨0, (st (bank1 valid1 (box 0 0x23 activate1 (one m0)))), by decide +kernel⟩,
   ⟨0, (st (onPwr (fun p => { p with queue := [{ id := 0, op := 6, unit := 0, at_ := 0, mbx := none }], nextId := 1 }) (bank1 valid1 (box 0 0x23 activate1 (one m0))))), by decide +kernel⟩,
   ⟨0, (st (onPwr (fun p => { p with holdup := some 0 }) (bank1 valid1 (box 0 0x23 activate1 (one m0))))), by decide +kernel⟩,
   ⟨7, 0, ({ bank := 1, mbx := none, loading := true }), (st (onPwr (fun p => { p with grants := [{ id := 0, op := 5, unit := 7, left := 0, mbx := none }] }) (onTt (fun t => { t with act := some { bank := 1, mbx := none, loading := true } }) (bank1 valid1 m0)))), by decide +kernel⟩,
   ⟨7, 1, ({ bank := 1, mbx := none, loading := true }), (st (onPwr (fun p => { p with grants := [{ id := 0, op := 5, unit := 7, left := 0, mbx := none }] }) (onTt (fun t => { t with act := some { bank := 1, mbx := none, loading := true } }) (bank1 valid1 m0)))), by decide +kernel⟩,
   ⟨7, 1, ({ bank := 1, mbx := none, loading := true, loads := .const 1 }), (st (onPwr (fun p => { p with grants := [{ id := 0, op := 5, unit := 7, left := 0, mbx := none }] }) (onTt (fun t => { t with act := some { bank := 1, mbx := none, loading := true, loads := .const 1 } }) (bank1 valid1 m0)))), by decide +kernel⟩⟩

/-- The hypotheses of TimetablesFlip are met, clause by clause. -/
theorem test_timetablesFlip_met :
    (∃ (a : Activation), ∃ t, ∃ (s : State), arrives .timetableFlip s.mod = true ∧ s.mod.tt.act = some a ∧ a.flipT = some t ∧ t ≤ s.mod.now / 1000) ∧
    (∃ t, ∃ (s : State), arrives .drainEnd s.mod = true ∧ s.mod.tt.retireT = some t ∧ (oldFrames s.mod = [] ∨ passed s.mod.now t (ms 5) = true)) :=
  ⟨⟨({ bank := 1, mbx := none, flipT := some 100000000000 }), 100000000000, (st (onTt (fun t => { t with act := some { bank := 1, mbx := none, flipT := some 100000000000 } }) (bank1 valid1 m0))), by decide +kernel⟩,
   ⟨(sec 100), (st (onTt (fun t => { t with retireT := some (sec 100), active := some 1 }) (bank1 { valid1 with st := .active } m0))), by decide +kernel⟩⟩

/-- The hypotheses of TimetablesAreChecked are met, clause by clause. -/
theorem test_timetablesAreChecked_met :
    (∃ k, ∃ (s : State), arrives (.verificationDone k) s.mod = true ∧ s.mod.tt.startVerify = [] ∧ (s.mod.tt.banks.get k).st = .verifying) ∧
    (∃ k, ∃ (s : State), arrives .shedDigestCheck s.mod = true ∧ s.mod.tt.active = some k ∧ s.mod.dax.up = true ∧ (∀ t ∈ s.mod.tt.digestAt, passed s.mod.now t (sec 1) = true)) ∧
    (∃ t, ∃ (s : State), arrives .partnerMismatch s.mod = true ∧ s.mod.cpl.mismatch = some t ∧ s.mod.mode.mode = .paired ∧ t + sec 1 < s.mod.now ∧ s.mod.cpl.mmRaised = false ∧ activationOn s.mod = false ∧ s.mod.cpl.partner.any (·.activating) = false) ∧
    (∃ (s : State), arrives .startActivation s.mod = true ∧ s.mod.mode.mode = .harnessing ∧ s.mod.pwr.stage = 9 ∧ s.mod.tt.startDone = true ∧ s.mod.tt.act = none ∧ startChoice s.mod = none) ∧
    (∃ (s : State), ∃ k, ∃ u, arrives .startActivation s.mod = true ∧ s.mod.mode.mode = .harnessing ∧ s.mod.pwr.stage = 9 ∧ s.mod.tt.startDone = true ∧ s.mod.tt.act = none ∧ startChoice s.mod = some (k, u) ∧ s.mod.pwr.holdup = none ∧ s.mod.pwr.queue.length + (workingSheds s.mod).length ≤ 32 ∧ (∀ sh ∈ workingSheds s.mod, (s.mod.pwr.therm.get sh).state < 2) ∧ committedRun s.mod + leaveEst 5 ≤ budget s.mod) :=
  ⟨⟨1, (st (bank1 { valid1 with st := .verifying } m0)), by decide +kernel⟩,
   ⟨0, (st (onTt (fun t => { t with digestAt := some (sec 99) }) m0)), by decide +kernel⟩,
   ⟨(sec 98), (st (onCpl (fun c => { c with mismatch := some (sec 98) }) (onMode (fun k => { k with mode := .paired }) m0))), by decide +kernel⟩,
   ⟨(st (onMode (fun k => { k with mode := .harnessing }) (onPwr (fun p => { p with stage := 9 }) (onTt (fun t => { t with startDone := true }) m0)))), by decide +kernel⟩,
   ⟨(st (onMode (fun k => { k with mode := .harnessing }) (onPwr (fun p => { p with stage := 9 }) (onTt (fun t => { t with startDone := true }) (bank1 valid1 { m0 with trb := .const { st := .quiesced } }))))), 1, false, by decide +kernel⟩⟩

/-- The hypotheses of CommandsEndWithAReply are met, clause by clause. -/
theorem test_commandsEndWithAReply_met :
    (∃ (n st : Nat), ∃ (body : List Byte), ∃ (x : Mod), ∃ (b : List Host.Cell), Memory.wf b = true ∧ (x.dax.boxes.get n).quiet = false) ∧
    (∃ (n st : Nat), ∃ (body : List Byte), ∃ (x : Mod), ∃ (b : List Host.Cell), ∃ i, Memory.wf b = true ∧ (x.dax.boxes.get n).quiet = false ∧ let y := complete n st body (x, b); let bytes := replyHeader x.dax.version (x.dax.boxes.get n).opcode (x.dax.boxes.get n).reqSeq body.length st 0 ++ body; i < bytes.length) ∧
    (∃ (n st : Nat), ∃ (body : List Byte), ∃ (x : Mod), ∃ (b : List Host.Cell), ∃ a, Memory.wf b = true ∧ (x.dax.boxes.get n).quiet = false ∧ let y := complete n st body (x, b); let bytes := replyHeader x.dax.version (x.dax.boxes.get n).opcode (x.dax.boxes.get n).reqSeq body.length st 0 ++ body; (¬ (mbxBase n ≤ a ∧ a < mbxBase n + bytes.length))) ∧
    (∃ (n st : Nat), ∃ (body : List Byte), ∃ (x : Mod), ∃ (b : List Host.Cell), Memory.wf b = true ∧ (x.dax.boxes.get n).quiet = false) ∧
    (∃ (n st : Nat), ∃ (body : List Byte), ∃ (x : Mod), ∃ (b : List Host.Cell), ∃ k, Memory.wf b = true ∧ (x.dax.boxes.get n).quiet = false ∧ let y := complete n st body (x, b); let bytes := replyHeader x.dax.version (x.dax.boxes.get n).opcode (x.dax.boxes.get n).reqSeq body.length st 0 ++ body; k ≠ n) ∧
    (∃ (n st : Nat), ∃ (body : List Byte), ∃ (x : Mod), ∃ (b : List Host.Cell), Memory.wf b = true ∧ (x.dax.boxes.get n).quiet = false ∧ let y := complete n st body (x, b); let bytes := replyHeader x.dax.version (x.dax.boxes.get n).opcode (x.dax.boxes.get n).reqSeq body.length st 0 ++ body; x.host.up = true ∧ x.host.vecMasked.get (vecOf x n) = false ∧ x.host.funcMask = false) ∧
    (∃ (n st : Nat), ∃ (body : List Byte), ∃ (x : Mod), ∃ (b : List Host.Cell), Memory.wf b = true ∧ (x.dax.boxes.get n).quiet = true) ∧
    (∃ (n st : Nat), ∃ (body : List Byte), ∃ (x : Mod), ∃ (b : List Host.Cell), ∃ k, Memory.wf b = true ∧ (x.dax.boxes.get n).quiet = true ∧ k ≠ n) :=
  ⟨⟨0, 0, ([1]), (box 0 1 [] m0), ([]), by decide +kernel⟩,
   ⟨0, 0, ([1]), (box 0 1 [] m0), ([]), 16, by decide +kernel⟩,
   ⟨0, 0, ([1]), (box 0 1 [] m0), ([]), 17, by decide +kernel⟩,
   ⟨0, 0, ([1]), (box 0 1 [] m0), ([]), by decide +kernel⟩,
   ⟨0, 0, ([1]), (box 0 1 [] m0), ([]), 14, by decide +kernel⟩,
   ⟨0, 0, ([1]), (box 0 1 [] m0), ([]), by decide +kernel⟩,
   ⟨0, 0, ([1]), (setBox 0 (fun k => { k with quiet := true }) (box 0 1 [] m0)), ([]), by decide +kernel⟩,
   ⟨0, 0, ([1]), (setBox 0 (fun k => { k with quiet := true }) (box 0 1 [] m0)), ([]), 14, by decide +kernel⟩⟩

/-- The hypotheses of RequestsAreTakenAndStart are met, clause by clause. -/
theorem test_requestsAreTakenAndStart_met :
    (∃ n, ∃ (s : State), arrives (.doorbellRing n) s.mod = true ∧ n < 15 ∧ (s.mod.dax.boxes.get n).shown = .idle ∨ (s.mod.dax.boxes.get n).shown = .done) ∧
    (∃ n, ∃ (s : State), arrives (.doorbellRing n) s.mod = true ∧ n < 15 ∧ (s.mod.dax.boxes.get n).shown ∈ [.taken, .running, .extended]) ∧
    (∃ n, ∃ (s : State), arrives (.commandTaken n) s.mod = true ∧ s.mod.dax.up = true ∧ (s.mod.dax.boxes.get n).ring = true ∧ (s.mod.dax.boxes.get n).busy = false ∧ ringsWith s.mod n = [n] ∧ let req := Memory.reads s.mem (mbxBase n) 3968; let seq := BitVec.ofNat 32 (leAt req 4 4); (∀ k ∈ (s.mod.dax.boxes.get n).stored, k.1 ≠ seq)) ∧
    (∃ n, ∃ (s : State), ∃ st, ∃ (bytes : List Byte), arrives (.commandTaken n) s.mod = true ∧ s.mod.dax.up = true ∧ (s.mod.dax.boxes.get n).ring = true ∧ (s.mod.dax.boxes.get n).busy = false ∧ ringsWith s.mod n = [n] ∧ let req := Memory.reads s.mem (mbxBase n) 3968; let seq := BitVec.ofNat 32 (leAt req 4 4); (s.mod.dax.boxes.get n).stored = some (seq, st, bytes)) ∧
    (∃ n, ∃ k, ∃ rest, ∃ (s : State), arrives (.commandTaken n) s.mod = true ∧ s.mod.dax.up = true ∧ (s.mod.dax.boxes.get n).ring = true ∧ (s.mod.dax.boxes.get n).busy = false ∧ ringsWith s.mod n = k :: rest ∧ rest ≠ []) ∧
    (∃ n, ∃ (s : State), arrives (.commandStart n) s.mod = true ∧ s.mod.dax.up = true ∧ (s.mod.dax.boxes.get n).st = .taken ∧ mayStart s.mod n = true ∧ let b := s.mod.dax.boxes.get n; let v := (leAt b.req 1 1, leAt b.req 0 1); let bad := 3952 < b.len ∨ leAt b.req 10 1 ≠ 0 ∨ leAt b.req 11 1 ≠ 0 ∨ leAt b.req 12 4 ≠ 0; let known := opcodeIn (s.mod.dax.version.getD (3, 2)) b.opcode; b.opcode ≠ 1 ∧ s.mod.dax.version ≠ some v) ∧
    (∃ n, ∃ (s : State), arrives (.commandStart n) s.mod = true ∧ s.mod.dax.up = true ∧ (s.mod.dax.boxes.get n).st = .taken ∧ mayStart s.mod n = true ∧ let b := s.mod.dax.boxes.get n; let v := (leAt b.req 1 1, leAt b.req 0 1); let bad := 3952 < b.len ∨ leAt b.req 10 1 ≠ 0 ∨ leAt b.req 11 1 ≠ 0 ∨ leAt b.req 12 4 ≠ 0; let known := opcodeIn (s.mod.dax.version.getD (3, 2)) b.opcode; (b.opcode = 1 ∨ s.mod.dax.version = some v) ∧ known = false) ∧
    (∃ n, ∃ (s : State), arrives (.commandStart n) s.mod = true ∧ s.mod.dax.up = true ∧ (s.mod.dax.boxes.get n).st = .taken ∧ mayStart s.mod n = true ∧ let b := s.mod.dax.boxes.get n; let v := (leAt b.req 1 1, leAt b.req 0 1); let bad := 3952 < b.len ∨ leAt b.req 10 1 ≠ 0 ∨ leAt b.req 11 1 ≠ 0 ∨ leAt b.req 12 4 ≠ 0; let known := opcodeIn (s.mod.dax.version.getD (3, 2)) b.opcode; (b.opcode = 1 ∨ s.mod.dax.version = some v) ∧ known = true ∧ bad) ∧
    (∃ n, ∃ (s : State), arrives (.commandStart n) s.mod = true ∧ s.mod.dax.up = true ∧ (s.mod.dax.boxes.get n).st = .taken ∧ mayStart s.mod n = true ∧ let b := s.mod.dax.boxes.get n; let v := (leAt b.req 1 1, leAt b.req 0 1); let bad := 3952 < b.len ∨ leAt b.req 10 1 ≠ 0 ∨ leAt b.req 11 1 ≠ 0 ∨ leAt b.req 12 4 ≠ 0; let known := opcodeIn (s.mod.dax.version.getD (3, 2)) b.opcode; (b.opcode = 1 ∨ s.mod.dax.version = some v) ∧ known = true ∧ (¬ bad) ∧ opcodeClass b.opcode = 2 ∧ classCRuns s.mod n = true) ∧
    (∃ n, ∃ (s : State), arrives (.commandStart n) s.mod = true ∧ s.mod.dax.up = true ∧ (s.mod.dax.boxes.get n).st = .taken ∧ mayStart s.mod n = true ∧ let b := s.mod.dax.boxes.get n; let v := (leAt b.req 1 1, leAt b.req 0 1); let bad := 3952 < b.len ∨ leAt b.req 10 1 ≠ 0 ∨ leAt b.req 11 1 ≠ 0 ∨ leAt b.req 12 4 ≠ 0; let known := opcodeIn (s.mod.dax.version.getD (3, 2)) b.opcode; (b.opcode = 1 ∨ s.mod.dax.version = some v) ∧ known = true ∧ (¬ bad) ∧ (opcodeClass b.opcode ≠ 2 ∨ classCRuns s.mod n = false)) ∧
    (∃ n, ∃ (s : State), arrives (.commandDeadline n) s.mod = true ∧ s.mod.dax.up = true ∧ (s.mod.dax.boxes.get n).busy = true ∧ (s.mod.dax.boxes.get n).due < s.mod.now ∧ (s.mod.dax.boxes.get n).quiet = false) :=
  ⟨⟨14, (st m0), by decide +kernel⟩,
   ⟨0, (st (taken 0 1 [] m0)), by decide +kernel⟩,
   ⟨14, (st (setBox 14 (fun k => { k with ring := true, stored := some (1, 0, []) }) m0)), by decide +kernel⟩,
   ⟨14, (Sys2Proof.Tests.st (setBox 14 (fun k => { k with ring := true, stored := some (0, 0, []) }) m0)), 0, ([]), by decide +kernel⟩,
   ⟨14, 0, ([14]), (st (setBox 14 (fun k => { k with ring := true }) (setBox 0 (fun k => { k with ring := true }) m0))), by decide +kernel⟩,
   ⟨0, (st (onDax (fun d => { d with version := some (3, 1) }) (taken 0 2 [] m0))), by decide +kernel⟩,
   ⟨0, (st (taken 0 0x79 [] m0)), by decide +kernel⟩,
   ⟨0, (st (setBox 0 (fun k => { k with req := reqOf 1 [] |>.set 12 1 }) (taken 0 1 [] m0))), by decide +kernel⟩,
   ⟨0, (st (box 1 0x70 [] (taken 0 0x23 [] m0))), by decide +kernel⟩,
   ⟨0, (st (taken 0 0x23 [] m0)), by decide +kernel⟩,
   ⟨0, (st (setBox 0 (fun k => { k with due := sec 100 - 1 }) (box 0 2 [] m0))), by decide +kernel⟩⟩

/-- The hypotheses of BufferWritesAreStored are met, clause by clause. -/
theorem test_bufferWritesAreStored_met :
    (∃ off, ∃ (bytes : List Byte), ∃ (s : State), arrives (.mailboxBufferWrite off bytes) s.mod = true ∧ Safe s ∧ (s.mod.dax.boxes.get (off / 0x1000)).shown ∉ [.taken, .running]) ∧
    (∃ off, ∃ (bytes : List Byte), ∃ (s : State), arrives (.mailboxBufferWrite off bytes) s.mod = true ∧ Safe s ∧ (s.mod.dax.boxes.get (off / 0x1000)).shown ∈ [.taken, .running]) :=
  ⟨⟨0, ([1, 2]), (st m0), by decide +kernel⟩,
   ⟨0xFFF8, ([1, 2]), (st (setBox 15 (fun k => { k with st := .taken }) m0)), by decide +kernel⟩⟩

/-- The hypotheses of NotificationsAndSessions are met, clause by clause. -/
theorem test_notificationsAndSessions_met :
    (∃ (s : State), arrives .notificationPost s.mod = true ∧ s.mod.dax.up = true ∧ s.mod.dax.posted = false ∧ s.mod.dax.version.isSome = true ∧ (0 < s.mod.dax.notifLost ∨ s.mod.dax.notifs ≠ [])) ∧
    (∃ (s : State), arrives .notificationAck s.mod = true ∧ s.mod.dax.posted = true) ∧
    (∃ (s : State), arrives (.doorbellRing 15) s.mod = true ∧ s.mod.dax.posted = true) ∧
    (∃ t, ∃ (s : State), arrives .hostSilent s.mod = true ∧ ringComes s.pending = false ∧ s.mod.dax.wdogFrom = some t ∧ s.mod.dax.wdogMs ≠ 0 ∧ passed s.mod.now t (ms s.mod.dax.wdogMs) = true) ∧
    (∃ (v : Word), ∃ (s : State), arrives (.hostWatchdogWrite v) s.mod = true) ∧
    (∃ n, ∃ (s : State), arrives (.hello n) s.mod = true ∧ running s.mod n 1 ∧ let q := (s.mod.dax.boxes.get n).body; let bad := (s.mod.dax.boxes.get n).len ≠ 8 ∨ 1 < leAt q 3 1 ∨ leAt q 4 4 ≠ 0; let others := (List.range 15).any (fun k => k != n && (s.mod.dax.boxes.get k).busy && !(s.mod.dax.boxes.get k).quiet); bad) ∧
    (∃ n, ∃ (s : State), arrives (.hello n) s.mod = true ∧ running s.mod n 1 ∧ let q := (s.mod.dax.boxes.get n).body; let bad := (s.mod.dax.boxes.get n).len ≠ 8 ∨ 1 < leAt q 3 1 ∨ leAt q 4 4 ≠ 0; let others := (List.range 15).any (fun k => k != n && (s.mod.dax.boxes.get k).busy && !(s.mod.dax.boxes.get k).quiet); (¬ bad) ∧ negotiate (leAt q 1 1) (leAt q 0 1) (leAt q 2 1) = none) ∧
    (∃ n, ∃ (s : State), ∃ (v : Nat × Nat), arrives (.hello n) s.mod = true ∧ running s.mod n 1 ∧ let q := (s.mod.dax.boxes.get n).body; let bad := (s.mod.dax.boxes.get n).len ≠ 8 ∨ 1 < leAt q 3 1 ∨ leAt q 4 4 ≠ 0; let others := (List.range 15).any (fun k => k != n && (s.mod.dax.boxes.get k).busy && !(s.mod.dax.boxes.get k).quiet); (¬ bad) ∧ negotiate (leAt q 1 1) (leAt q 0 1) (leAt q 2 1) = some v ∧ others = true ∧ leAt q 3 1 = 0) ∧
    (∃ n, ∃ (s : State), ∃ (v : Nat × Nat), arrives (.hello n) s.mod = true ∧ running s.mod n 1 ∧ let q := (s.mod.dax.boxes.get n).body; let bad := (s.mod.dax.boxes.get n).len ≠ 8 ∨ 1 < leAt q 3 1 ∨ leAt q 4 4 ≠ 0; let others := (List.range 15).any (fun k => k != n && (s.mod.dax.boxes.get k).busy && !(s.mod.dax.boxes.get k).quiet); (¬ bad) ∧ negotiate (leAt q 1 1) (leAt q 0 1) (leAt q 2 1) = some v ∧ (others = false ∨ leAt q 3 1 = 1)) ∧
    (∃ n, ∃ (s : State), arrives (.moduleInfo n) s.mod = true ∧ running s.mod n 2 ∧ (s.mod.dax.boxes.get n).len ≠ 0) ∧
    (∃ n, ∃ (s : State), arrives (.moduleInfo n) s.mod = true ∧ running s.mod n 2 ∧ (s.mod.dax.boxes.get n).len = 0) :=
  ⟨⟨(st (onDax (fun d => { d with notifs := [{ kind := 1, level := 0, sev := 0, source := 0, time := 0, detail := zeros 16 }] }) m0)), by decide +kernel⟩,
   ⟨(st (onDax (fun d => { d with posted := true }) m0)), by decide +kernel⟩,
   ⟨(st (onDax (fun d => { d with posted := true }) m0)), by decide +kernel⟩,
   ⟨(sec 99), (st (onDax (fun d => { d with wdogFrom := some (sec 99), wdogMs := 1000 }) m0)), by decide +kernel⟩,
   ⟨0xFFFFFFFF, (st m0), by decide +kernel⟩,
   ⟨0, (st (box 0 1 [2, 3, 3, 2, 0, 0, 0, 0] m0)), by decide +kernel⟩,
   ⟨0, (st (box 0 1 [0, 1, 1, 0, 0, 0, 0, 0] m0)), by decide +kernel⟩,
   ⟨0, (st (taken 1 2 [] (box 0 1 [2, 3, 3, 0, 0, 0, 0, 0] m0))), ((3, 2)), by decide +kernel⟩,
   ⟨0, (st (taken 1 2 [] (box 0 1 [9, 2, 2, 1, 0, 0, 0, 0] m0))), ((2, 6)), by decide +kernel⟩,
   ⟨0, (st (box 0 2 [0] m0)), by decide +kernel⟩,
   ⟨0, (st (box 0 2 [] m0)), by decide +kernel⟩⟩

/-- The hypotheses of HeartbeatsAreExchanged are met, clause by clause. -/
theorem test_heartbeatsAreExchanged_met :
    (∃ (p : Path), ∃ (s : State), arrives (.heartbeatSend p) s.mod = true ∧ heartbeatDue s.mod p = true) ∧
    (∃ (p : Path), ∃ (l : List Byte), ∃ (s : State), arrives (.heartbeatReceive p l) s.mod = true ∧ couplerRuns s.mod = true ∧ (pairOf_ s.mod).enabled = true ∧ pathLinked s.mod p = true ∧ heartbeatValid s.mod p l = true) ∧
    (∃ (p : Path), ∃ (l : List Byte), ∃ (s : State), arrives (.heartbeatReceive p l) s.mod = true ∧ couplerRuns s.mod = true ∧ (pairOf_ s.mod).enabled = true ∧ pathLinked s.mod p = true ∧ heartbeatValid s.mod p l = false) ∧
    (∃ (p : Path), ∃ t, ∃ (s : State), arrives (.pathLost p) s.mod = true ∧ heartComes p s.mod s.pending = false ∧ (s.mod.cpl.paths.get p).lastRx = some t ∧ (s.mod.cpl.paths.get p).up = true ∧ passed s.mod.now t (ms 3) = true) ∧
    (∃ (p : Path), ∃ (s : State), arrives (.dyingGasp p) s.mod = true ∧ couplerRuns s.mod = true ∧ pathLinked s.mod p = true) :=
  ⟨⟨.coupler, (st paired), by decide +kernel⟩,
   ⟨.mgmt, ([0, 4, 0x10] ++ zeros 200), (st paired), by decide +kernel⟩,
   ⟨.mgmt, ([0, 4, 0] ++ zeros 200), (st paired), by decide +kernel⟩,
   ⟨.coupler, (sec 100 - ms 3), (st (onCpl (fun c => { c with paths := c.paths.set .coupler { lastRx := some (sec 100 - ms 3), up := true } }) paired)), by decide +kernel⟩,
   ⟨.coupler, (st paired), by decide +kernel⟩⟩

/-- The hypotheses of TheLeaseIsKept are met, clause by clause. -/
theorem test_theLeaseIsKept_met :
    (∃ (s : State), arrives .leaseRenewal s.mod = true ∧ s.mod.cpl.holder = true ∧ s.mod.dax.up = true ∧ s.mod.cpl.stopRenew = false ∧ s.mod.mode.mode = .paired ∧ s.mod.cpl.renewDue ≤ s.mod.now ∧ s.mod.now < s.mod.cpl.ownEnd) ∧
    (∃ (s : State), arrives .leaseEnd s.mod = true ∧ s.mod.cpl.holder = true ∧ s.mod.cpl.ownEnd ≤ s.mod.now) ∧
    (∃ t, ∃ (s : State), arrives .leaseViewEnd s.mod = true ∧ s.mod.cpl.viewEnd = some t ∧ t ≤ s.mod.now ∧ (s.mod.cpl.paths.get .coupler).up = true ∧ (s.mod.cpl.paths.get .mgmt).up = true ∧ mayTake s.mod = true) ∧
    (∃ n, ∃ (s : State), arrives (.reinsHandover n) s.mod = true ∧ running s.mod n 0x61 ∧ (s.mod.dax.boxes.get n).len ≠ 0) ∧
    (∃ n, ∃ (s : State), arrives (.reinsHandover n) s.mod = true ∧ running s.mod n 0x61 ∧ (s.mod.dax.boxes.get n).len = 0 ∧ s.mod.mode.mode ≠ .standalone ∧ s.mod.mode.mode ≠ .paired) ∧
    (∃ n, ∃ (s : State), arrives (.reinsHandover n) s.mod = true ∧ running s.mod n 0x61 ∧ (s.mod.dax.boxes.get n).len = 0 ∧ (s.mod.mode.mode = .standalone ∨ s.mod.mode.mode = .paired)) :=
  ⟨⟨(st (onCpl (fun c => { c with holder := true, renewDue := sec 100, ownEnd := sec 100 + 1 }) paired)), by decide +kernel⟩,
   ⟨(st (onCpl (fun c => { c with holder := true, ownEnd := sec 100 }) paired)), by decide +kernel⟩,
   ⟨(sec 100), (st (onCpl (fun c => { c with viewEnd := some (sec 100), paths := .const { up := true }, partner := some {} }) paired)), by decide +kernel⟩,
   ⟨0, (st (box 0 0x61 [0] m0)), by decide +kernel⟩,
   ⟨0, (st (box 0 0x61 [] (onMode (fun k => { k with mode := .quiesced, target := .quiesced }) m0))), by decide +kernel⟩,
   ⟨0, (st (box 0 0x61 [] paired)), by decide +kernel⟩⟩

/-- The hypotheses of TheCouplerTrains are met, clause by clause. -/
theorem test_theCouplerTrains_met :
    (∃ (s : State), arrives .couplerTrainingDone s.mod = true ∧ s.mod.cpl.training = true) ∧
    (∃ (s : State), arrives .couplerTrainingFail s.mod = true ∧ s.mod.cpl.training = true) ∧
    (∃ (s : State), arrives .couplerLinkDown s.mod = true ∧ s.mod.cpl.link = true) ∧
    (∃ n, ∃ (s : State), arrives (.pairRestart n) s.mod = true ∧ running s.mod n 0x60 ∧ let ask := askLeaves n 9 [0] (setBox n (fun b => { b with began := true, leave := [] }) s.mod); (s.mod.dax.boxes.get n).len ≠ 0) ∧
    (∃ n, ∃ (s : State), arrives (.pairRestart n) s.mod = true ∧ running s.mod n 0x60 ∧ let ask := askLeaves n 9 [0] (setBox n (fun b => { b with began := true, leave := [] }) s.mod); (s.mod.dax.boxes.get n).len = 0 ∧ s.mod.mode.mode ≠ .standalone ∧ s.mod.mode.mode ≠ .paired) ∧
    (∃ n, ∃ (s : State), arrives (.pairRestart n) s.mod = true ∧ running s.mod n 0x60 ∧ let ask := askLeaves n 9 [0] (setBox n (fun b => { b with began := true, leave := [] }) s.mod); (s.mod.dax.boxes.get n).len = 0 ∧ (s.mod.mode.mode = .standalone ∨ s.mod.mode.mode = .paired) ∧ ask.1 = false) ∧
    (∃ n, ∃ (s : State), arrives (.pairRestart n) s.mod = true ∧ running s.mod n 0x60 ∧ let ask := askLeaves n 9 [0] (setBox n (fun b => { b with began := true, leave := [] }) s.mod); (s.mod.dax.boxes.get n).len = 0 ∧ (s.mod.mode.mode = .standalone ∨ s.mod.mode.mode = .paired) ∧ ask.1 = true ∧ (ask.2.dax.boxes.get n).leave = []) ∧
    (∃ n, ∃ (s : State), arrives (.pairRestart n) s.mod = true ∧ running s.mod n 0x60 ∧ let ask := askLeaves n 9 [0] (setBox n (fun b => { b with began := true, leave := [] }) s.mod); (s.mod.dax.boxes.get n).len = 0 ∧ (s.mod.mode.mode = .standalone ∨ s.mod.mode.mode = .paired) ∧ ask.1 = true ∧ (ask.2.dax.boxes.get n).leave ≠ []) :=
  ⟨⟨(st (onCpl (fun c => { c with training := true }) m0)), by decide +kernel⟩,
   ⟨(st (onCpl (fun c => { c with training := true, fails := 2 }) m0)), by decide +kernel⟩,
   ⟨(st paired), by decide +kernel⟩,
   ⟨0, (st (box 0 0x60 [0] paired)), by decide +kernel⟩,
   ⟨0, (st (box 0 0x60 [] (onMode (fun k => { k with mode := .quiesced, target := .quiesced }) m0))), by decide +kernel⟩,
   ⟨0, (st (onPwr (fun p => { p with holdup := some 0 }) (box 0 0x60 [] paired))), by decide +kernel⟩,
   ⟨0, (st (box 0 0x60 [] paired)), by decide +kernel⟩,
   ⟨0, (st (onPwr (fun p => { p with queue := [{ id := 0, op := 6, unit := 0, at_ := 0, mbx := none }], nextId := 1 }) (box 0 0x60 [] paired))), by decide +kernel⟩⟩

/-- The hypotheses of SyncAndHandover are met, clause by clause. -/
theorem test_syncAndHandover_met :
    (∃ (r : List Byte), ∃ (t : List (List Byte)), ∃ (s : State), arrives .syncRecordSend s.mod = true ∧ s.mod.mode.mode = .paired ∧ s.mod.cpl.link = true ∧ couplerRuns s.mod = true ∧ s.mod.dax.up = true ∧ s.mod.cpl.unsent = r :: t ∧ s.mod.cpl.unacked.length < 65536) ∧
    (∃ (l : List Byte), ∃ (s : State), arrives (.syncRecordReceive l) s.mod = true ∧ s.mod.mode.mode = .paired ∧ s.mod.cpl.link = true ∧ couplerRuns s.mod = true ∧ let seq := BitVec.ofNat 32 (leAt l 0 4); let fid := leAt l 6 2 % 2 ^ 14; let mac := BitVec.ofNat 48 (beAt l 8 6); let home := homeOf s.mod fid mac; (seq = s.mod.cpl.syncAck + 1 ∨ s.mod.cpl.resyncIn = true)) ∧
    (∃ (l : List Byte), ∃ (s : State), arrives (.syncRecordReceive l) s.mod = true ∧ s.mod.mode.mode = .paired ∧ s.mod.cpl.link = true ∧ couplerRuns s.mod = true ∧ let seq := BitVec.ofNat 32 (leAt l 0 4); let fid := leAt l 6 2 % 2 ^ 14; let mac := BitVec.ofNat 48 (beAt l 8 6); let home := homeOf s.mod fid mac; seq ≠ s.mod.cpl.syncAck + 1 ∧ s.mod.cpl.resyncIn = false) ∧
    (∃ (s : State), arrives .bulkResyncDone s.mod = true ∧ (s.mod.cpl.resyncIn = true ∨ s.mod.cpl.resyncOut = true) ∧ (s.mod.cpl.resyncOut = true → hasGrant s.mod 10 0 = true ∧ s.mod.cpl.unsent = [])) ∧
    (∃ h, ∃ (q : BitVec 16), ∃ (s : State), arrives (.genHandoverRecord h q) s.mod = true ∧ s.mod.mode.mode = .paired ∧ s.mod.cpl.link = true ∧ (genRecords s.mod).any (fun r => leAt r 0 2 == h && leAt r 3 1 % 2 == (pairOf_ s.mod).role) = true) ∧
    (∃ h, ∃ (s : State), arrives (.genHandoverAck h) s.mod = true ∧ s.mod.mode.mode = .paired ∧ (s.mod.cpl.gens.get h).keeps = true) ∧
    (∃ h, ∃ t, ∃ (s : State), arrives (.genHandoverResend h) s.mod = true ∧ (s.mod.cpl.gens.get h).sentAt = some t ∧ (s.mod.cpl.gens.get h).keeps = true ∧ s.mod.mode.mode = .paired ∧ s.mod.cpl.link = true ∧ passed s.mod.now t (ms 10) = true) ∧
    (∃ h, ∃ t, ∃ (r : List Byte), ∃ (s : State), arrives (.recoveryReset h) s.mod = true ∧ offerComes h s.mod s.pending = false ∧ (s.mod.cpl.recs.get h).lastPass = some t ∧ ((s.mod.tbl.ents.get (lowestShed s.mod, 0x0E)).map (·.dat)).find? (fun r => leAt r 0 2 == h && bitOf (leAt r 2 1) 1) = some r ∧ (s.mod.cpl.recs.get h).takeAny = false ∧ passed s.mod.now t (ms (leAt r 0x14 2)) = true) :=
  ⟨⟨(zeros 24), ([]), (st (onCpl (fun c => { c with unsent := [zeros 24] }) paired)), by decide +kernel⟩,
   ⟨([1] ++ zeros 23), (st paired), by decide +kernel⟩,
   ⟨([2] ++ zeros 23), (st paired), by decide +kernel⟩,
   ⟨(st (onCpl (fun c => { c with resyncIn := true }) paired)), by decide +kernel⟩,
   ⟨9, 5, (st (withTab 0x0E [{ pos := 0, key := [9], dat := [9, 0, 1, 0] ++ zeros 28 }] paired)), by decide +kernel⟩,
   ⟨9, (st (onCpl (fun c => { c with gens := c.gens.set 9 { keeps := true } }) paired)), by decide +kernel⟩,
   ⟨9, (sec 99), (st (onCpl (fun c => { c with gens := c.gens.set 9 { keeps := true, sentAt := some (sec 99) } }) paired)), by decide +kernel⟩,
   ⟨9, (sec 99), ([9, 0, 2] ++ zeros 17 ++ [0xE8, 3] ++ zeros 10), (st (onCpl (fun c => { c with recs := c.recs.set 9 { takeAny := false, lastPass := some (sec 99) } }) (withTab 0x0E [{ pos := 0, key := [9], dat := [9, 0, 2] ++ zeros 17 ++ [0xE8, 3] ++ zeros 10 }] paired))), by decide +kernel⟩⟩

/-- The hypotheses of RingsStartAndStop are met, clause by clause. -/
theorem test_ringsStartAndStop_met :
    (∃ n, ∃ (v : Word), ∃ (s : State), arrives (.ringDoorbell n v) s.mod = true ∧ (s.mod.host.rings.get n).enable = false) ∧
    (∃ n, ∃ (v : Word), ∃ (s : State), arrives (.ringDoorbell n v) s.mod = true ∧ (s.mod.host.rings.get n).enable = true ∧ let r := s.mod.host.rings.get n; let bad := 2 ^ 31 ≤ idxDiff v.toNat r.hostIdx ∨ (ringSize r < idxDiff v.toNat r.modIdx ∧ idxDiff v.toNat r.modIdx < 2 ^ 31); (¬ bad)) ∧
    (∃ n, ∃ (v : Word), ∃ (s : State), arrives (.ringDoorbell n v) s.mod = true ∧ (s.mod.host.rings.get n).enable = true ∧ let r := s.mod.host.rings.get n; let bad := 2 ^ 31 ≤ idxDiff v.toNat r.hostIdx ∨ (ringSize r < idxDiff v.toNat r.modIdx ∧ idxDiff v.toNat r.modIdx < 2 ^ 31); bad) ∧
    (∃ n, ∃ (v : Word), ∃ (s : State), arrives (.ringEnable n v) s.mod = true ∧ let r := s.mod.host.rings.get n; let r1 := ringCfgSet n v r; r.enable = false ∧ ringCfgValid n r1 = true) ∧
    (∃ n, ∃ (v : Word), ∃ (s : State), arrives (.ringEnable n v) s.mod = true ∧ let r := s.mod.host.rings.get n; let r1 := ringCfgSet n v r; r.enable = false ∧ ringCfgValid n r1 = false) ∧
    (∃ n, ∃ (v : Word), ∃ (s : State), arrives (.ringEnable n v) s.mod = true ∧ let r := s.mod.host.rings.get n; let r1 := ringCfgSet n v r; r.enable = true ∧ r1 = r) ∧
    (∃ n, ∃ (v : Word), ∃ (s : State), arrives (.ringEnable n v) s.mod = true ∧ let r := s.mod.host.rings.get n; let r1 := ringCfgSet n v r; r.enable = true ∧ r1 ≠ r) ∧
    (∃ n, ∃ (v : Word), ∃ (s : State), arrives (.ringDisable n v) s.mod = true ∧ (s.mod.host.rings.get n).enable = true) ∧
    (∃ n, ∃ t, ∃ (s : State), arrives (.ringStopDone n) s.mod = true ∧ (s.mod.host.rings.get n).stopping = some t) ∧
    (∃ n, ∃ t, ∃ (s : State), arrives (.ringModerationTimer n) s.mod = true ∧ (s.mod.host.rings.get n).unsigAt = some t ∧ (s.mod.host.rings.get n).enable = true ∧ passed s.mod.now t (us (s.mod.host.rings.get n).modTime) = true) :=
  ⟨⟨63, 1, (st m0), by decide +kernel⟩,
   ⟨0, 64, (st (ringAs 0 { enable := true, sizeLog2 := 6 } m0)), by decide +kernel⟩,
   ⟨0, 65, (st (ringAs 0 { enable := true, sizeLog2 := 6 } m0)), by decide +kernel⟩,
   ⟨63, 0x83000000, (st m0), by decide +kernel⟩,
   ⟨63, 0x82800000, (st m0), by decide +kernel⟩,
   ⟨0, 0x83000000, (st (ringAs 0 { enable := true, sizeLog2 := 6 } m0)), by decide +kernel⟩,
   ⟨0, 0x83800000, (st (ringAs 0 { enable := true, sizeLog2 := 6 } m0)), by decide +kernel⟩,
   ⟨87, 0, (st (ringAs 87 { enable := true, sizeLog2 := 6 } m0)), by decide +kernel⟩,
   ⟨87, (sec 100), (st (ringAs 87 { sizeLog2 := 6, stopping := some (sec 100) } m0)), by decide +kernel⟩,
   ⟨87, (sec 100 - us 5), (st (ringAs 87 { enable := true, sizeLog2 := 6, modTime := 5, unsigAt := some (sec 100 - us 5), unsig := 1 } m0)), by decide +kernel⟩⟩

/-- The hypotheses of DescriptorsAreFetched are met, clause by clause. -/
theorem test_descriptorsAreFetched_met :
    (∃ n, ∃ (d : List Byte), ∃ (buf : List Byte), ∃ (s : State), ∃ k, arrives (.injectDescriptorFetch n d buf) s.mod = true ∧ (s.mod.host.rings.get n).enable = true ∧ ringType n (s.mod.host.rings.get n) = 0 ∧ (s.mod.host.rings.get n).hostIdx ≠ (s.mod.host.rings.get n).modIdx ∧ s.mod.host.up = true ∧ let r := s.mod.host.rings.get n; let status := if injectOk s.mod d = false then some 3 else if forwarding s.mod = false then some 2 else none; status = some k) ∧
    (∃ n, ∃ (d : List Byte), ∃ (buf : List Byte), ∃ (s : State), arrives (.injectDescriptorFetch n d buf) s.mod = true ∧ (s.mod.host.rings.get n).enable = true ∧ ringType n (s.mod.host.rings.get n) = 0 ∧ (s.mod.host.rings.get n).hostIdx ≠ (s.mod.host.rings.get n).modIdx ∧ s.mod.host.up = true ∧ let r := s.mod.host.rings.get n; let status := if injectOk s.mod d = false then some 3 else if forwarding s.mod = false then some 2 else none; status = none ∧ bitOf (leAt d 0x0D 1) 0 = true) ∧
    (∃ n, ∃ (d : List Byte), ∃ (buf : List Byte), ∃ (s : State), ∃ (fr : Frame), arrives (.injectDescriptorFetch n d buf) s.mod = true ∧ (s.mod.host.rings.get n).enable = true ∧ ringType n (s.mod.host.rings.get n) = 0 ∧ (s.mod.host.rings.get n).hostIdx ≠ (s.mod.host.rings.get n).modIdx ∧ s.mod.host.up = true ∧ let r := s.mod.host.rings.get n; let status := if injectOk s.mod d = false then some 3 else if forwarding s.mod = false then some 2 else none; status = none ∧ bitOf (leAt d 0x0D 1) 0 = false ∧ let x1 := loftAdmit s.mod.nextF (newFrame (injectFrame s.mod n d buf) s.mod); frame? x1 s.mod.nextF = some fr) ∧
    (∃ n, ∃ (s : State), arrives (.dmaReadError n) s.mod = true ∧ (s.mod.host.rings.get n).enable = true) ∧
    (∃ n, ∃ (s : State), arrives (.dmaWriteRefused (88 + n)) s.mod = true ∧ (running s.mod n 0x14 ∨ running s.mod n 0x18)) ∧
    (∃ n, ∃ (s : State), arrives (.dmaWriteRefused n) s.mod = true ∧ n < 88 ∧ (s.mod.host.rings.get n).enable = true) ∧
    (∃ v, ∃ (s : State), arrives (.vectorUnmask v) s.mod = true) :=
  ⟨⟨0, (zeros 32), ([]), (st (ringAs 0 { enable := true, sizeLog2 := 6, hostIdx := 1 } m0)), 3, by decide +kernel⟩,
   ⟨0, (zeros 8 ++ [60, 0, 0, 0, 15, 1] ++ zeros 18), (zeros 60), (st (ringAs 0 { enable := true, sizeLog2 := 6, hostIdx := 1 } m0)), by decide +kernel⟩,
   ⟨0, (zeros 8 ++ [60, 0, 0, 0, 0, 0] ++ zeros 18), (zeros 60), (st (ringAs 0 { enable := true, sizeLog2 := 6, hostIdx := 1 } m0)), ((frame? (loftAdmit m0.nextF (newFrame (injectFrame (ringAs 0 { enable := true, sizeLog2 := 6, hostIdx := 1 } m0) 0 (zeros 8 ++ [60, 0, 0, 0, 0, 0] ++ zeros 18) (zeros 60)) (ringAs 0 { enable := true, sizeLog2 := 6, hostIdx := 1 } m0))) m0.nextF).getD fr0), by decide +kernel⟩,
   ⟨0, (st (ringAs 0 { enable := true, sizeLog2 := 6, hostIdx := 1 } m0)), by decide +kernel⟩,
   ⟨0, (st (box 0 0x14 [] m0)), by decide +kernel⟩,
   ⟨63, (st (ringAs 63 { enable := true, sizeLog2 := 6, hostIdx := 1 } m0)), by decide +kernel⟩,
   ⟨2047, (st (onHost (fun h => { h with vecMasked := .const true, vecPending := h.vecPending.set 2047 true }) m0)), by decide +kernel⟩⟩

/-- The hypotheses of TheHostLink are met, clause by clause. -/
theorem test_theHostLink_met :
    (∃ sp, ∃ w, ∃ (s : State), arrives (.hostLinkUp sp w) s.mod = true ∧ s.mod.host.up = false ∧ domRuns s.mod 434 = true ∧ s.mod.ext.sampled = true ∧ s.mod.mode.mode ≠ .cold ∧ (s.mod.ext.gen4 = true ∨ sp ≤ 4)) ∧
    (∃ (s : State), arrives .hostLinkDown s.mod = true ∧ s.mod.host.up = true) ∧
    (∃ (s : State), arrives .perstAssert s.mod = true ∧ s.mod.host.up = true) ∧
    (∃ (s : State), arrives .functionLevelReset s.mod = true ∧ s.mod.host.up = true) ∧
    (∃ (s : State), arrives .hostLinkWaitEnd s.mod = true ∧ s.mod.pwr.stage = 4 ∧ s.mod.host.up = false ∧ passed s.mod.now s.mod.pwr.stageAt (ms 300) = true) :=
  ⟨⟨4, 16, (st (onExt (fun e => { e with sampled := true, gen4 := false }) (onHost (fun h => { h with up := false }) m0))), by decide +kernel⟩,
   ⟨(st (ringAs 3 { enable := true, sizeLog2 := 6 } (box 2 1 [] m0))), by decide +kernel⟩,
   ⟨(st (ringAs 3 { enable := true, sizeLog2 := 6 } (box 2 1 [] m0))), by decide +kernel⟩,
   ⟨(st (ringAs 3 { enable := true, sizeLog2 := 6 } (box 2 1 [] m0))), by decide +kernel⟩,
   ⟨(st (onPwr (fun p => { p with stage := 4, stageAt := sec 99 }) (onHost (fun h => { h with up := false }) m0))), by decide +kernel⟩⟩

/-- The hypotheses of CrossingsTimeOut are met, clause by clause. -/
theorem test_crossingsTimeOut_met :
    (∃ (n : BitVec 12), ∃ (f : BitVec 12), ∃ k, ∃ off, ∃ (s : State), arrives (.handshakeTimeout n f k off) s.mod = true ∧ answerComes s n = false) ∧
    (∃ (n : BitVec 12), ∃ (s : State), arrives (.handshakeStaleAnswer n) s.mod = true ∧ s.mod.isl.stale.any (fun e => e.1 == n) = true) ∧
    (∃ (n : BitVec 12), ∃ (f : BitVec 12), ∃ k, ∃ (s : State), arrives (.fifoStallTimeout n f k) s.mod = true) ∧
    (∃ (n : BitVec 12), ∃ (f : BitVec 12), ∃ k, ∃ off, ∃ (s : State), arrives (.handshakeTimeout n f k off) s.mod = true ∧ answerComes s n = true) :=
  ⟨⟨0x200, 0, 2, 0xFFFFFFF, (st m0), by decide +kernel⟩,
   ⟨0x200, (st { m0 with isl := { m0.isl with stale := [(0x200, 0)] } }), by decide +kernel⟩,
   ⟨0x200, 0, 2, (st m0), by decide +kernel⟩,
   ⟨0x200, 0, 2, 0xFFFFFFF, ({ st m0 with pending := [.handshakeStaleAnswer 0x200] }), by decide +kernel⟩⟩

/-- The hypotheses of EnginesRunRoutines are met, clause by clause. -/
theorem test_enginesRunRoutines_met :
    (∃ sh, ∃ e, ∃ k, ∃ code, ∃ (tag : BitVec 16), ∃ (s : State), arrives (.ostlerCommand sh e k code tag) s.mod = true ∧ 255 ≤ (engine s.mod sh e).queue.length ∧ k < engineKinds e) ∧
    (∃ sh, ∃ e, ∃ k, ∃ code, ∃ (tag : BitVec 16), ∃ (s : State), arrives (.ostlerCommand sh e k code tag) s.mod = true ∧ (engine s.mod sh e).queue.length < 255 ∧ k < engineKinds e ∧ let new : OstCmd := { kind := k, code := code, tag := tag }; ((engine s.mod sh e).halted = true ∨ (s.mod.ost.get sh).loaded = false ∨ ∃ r, (engine s.mod sh e).run = some r ∧ ((engine s.mod sh e).open_ = false ∨ (e ≠ 0 ∧ e ≠ 3) ∨ ∀ c ∈ (engine s.mod sh e).queue ++ [new], r.cmd.kind ≤ c.kind))) ∧
    (∃ sh, ∃ e, ∃ k, ∃ code, ∃ (tag : BitVec 16), ∃ (s : State), arrives (.ostlerCommand sh e k code tag) s.mod = true ∧ (engine s.mod sh e).queue.length < 255 ∧ k < engineKinds e ∧ let new : OstCmd := { kind := k, code := code, tag := tag }; (engine s.mod sh e).halted = false ∧ (s.mod.ost.get sh).loaded = true ∧ (engine s.mod sh e).run = none ∧ (engine s.mod sh e).queue = [] ∧ (engine s.mod sh e).outside = [] ∧ (engine s.mod sh e).suspended = []) ∧
    (∃ sh, ∃ e, ∃ k, ∃ code, ∃ (tag : BitVec 16), ∃ (s : State), ∃ (r : OstRun), arrives (.ostlerCommand sh e k code tag) s.mod = true ∧ (engine s.mod sh e).queue.length < 255 ∧ k < engineKinds e ∧ let new : OstCmd := { kind := k, code := code, tag := tag }; (engine s.mod sh e).halted = false ∧ (s.mod.ost.get sh).loaded = true ∧ (engine s.mod sh e).run = some r ∧ (engine s.mod sh e).open_ = true ∧ (e = 0 ∨ e = 3) ∧ k < r.cmd.kind ∧ (engine s.mod sh e).queue = [] ∧ (engine s.mod sh e).outside = []) ∧
    (∃ sh, ∃ e, ∃ (s : State), arrives (.ostlerConditionMet sh e) s.mod = true ∧ (engine s.mod sh e).waits = true) ∧
    (∃ sh, ∃ e, ∃ (r : OstRun), ∃ (s : State), arrives (.ostlerWaitTimeout sh e) s.mod = true ∧ waitDue s.mod sh e = true ∧ .ostlerConditionMet sh e ∉ s.pending ∧ (engine s.mod sh e).run = some r) ∧
    (∃ sh, ∃ e, ∃ (r : OstRun), ∃ (s : State), arrives (.ostlerRoutineEnd sh e) s.mod = true ∧ (engine s.mod sh e).halted = false ∧ (engine s.mod sh e).run = some r) ∧
    (∃ sh, ∃ e, ∃ k, ∃ (s : State), arrives (.ostlerMachineCheck sh e k) s.mod = true ∧ (engine s.mod sh e).halted = false ∧ (engine s.mod sh e).run.isSome = true ∧ let third := 2 ≤ ((s.mod.ost.get sh).mchecks.filter (fun t => s.mod.now < t + sec 1)).length; third) ∧
    (∃ sh, ∃ e, ∃ k, ∃ (s : State), arrives (.ostlerMachineCheck sh e k) s.mod = true ∧ (engine s.mod sh e).halted = false ∧ (engine s.mod sh e).run.isSome = true ∧ let third := 2 ≤ ((s.mod.ost.get sh).mchecks.filter (fun t => s.mod.now < t + sec 1)).length; (¬ third)) ∧
    (∃ sh, ∃ (s : State), arrives (.ostlerWordRewrite sh) s.mod = true ∧ (s.mod.ost.get sh).bad ≠ []) ∧
    (∃ sh, ∃ e, ∃ (s : State), arrives (.ostlerEngineRestart sh e) s.mod = true ∧ (engine s.mod sh e).halted = true ∧ (s.mod.ost.get sh).bistFrom = none) ∧
    (∃ sh, ∃ (v : Word), ∃ (s : State), arrives (.storeBist sh v) s.mod = true ∧ reachable s.mod (ostDiagOff sh) = true ∧ s.mod.mode.mode ≠ .diagnostic) ∧
    (∃ sh, ∃ (v : Word), ∃ (s : State), arrives (.storeBist sh v) s.mod = true ∧ reachable s.mod (ostDiagOff sh) = true ∧ s.mod.mode.mode = .diagnostic ∧ v.getLsbD 0 = true ∧ (s.mod.ost.get sh).bistFrom = none) ∧
    (∃ sh, ∃ pass, ∃ t, ∃ (s : State), arrives (.storeBistDone sh pass) s.mod = true ∧ (s.mod.ost.get sh).bistFrom = some t) :=
  ⟨⟨0, 0, 1, 5, 9, (st (eng0 { halted := true, queue := List.replicate 255 { kind := 0, code := 0, tag := 0 } } m0)), by decide +kernel⟩,
   ⟨0, 0, 1, 5, 9, (st (eng0 { halted := true, queue := List.replicate 254 { kind := 0, code := 0, tag := 0 } } m0)), by decide +kernel⟩,
   ⟨0, 0, 1, 5, 9, (st (eng0 {} m0)), by decide +kernel⟩,
   ⟨0, 0, 1, 5, 9, (st (eng0 { st := .issuing, run := some { cmd := { kind := 2, code := 0, tag := 0 } } } m0)), ({ cmd := { kind := 2, code := 0, tag := 0 } }), by decide +kernel⟩,
   ⟨0, 0, (st (eng0 { st := .waiting, cond := 1, run := some { cmd := { kind := 0, code := 0, tag := 0 } } } m0)), by decide +kernel⟩,
   ⟨0, 0, ({ cmd := { kind := 0, code := 0, tag := 0 }, timeouts := 2 }), (st (eng0 { st := .waiting, cond := 1, run := some { cmd := { kind := 0, code := 0, tag := 0 }, timeouts := 2 } } m0)), by decide +kernel⟩,
   ⟨0, 0, ({ cmd := { kind := 0, code := 0, tag := 0 } }), (st (eng0 { st := .issuing, run := some { cmd := { kind := 0, code := 0, tag := 0 } } } m0)), by decide +kernel⟩,
   ⟨0, 0, 4, (st (let x := eng0 { st := .issuing, run := some { cmd := { kind := 0, code := 0, tag := 0 } } } m0; { x with ost := x.ost.upd 0 (fun o => { o with mchecks := [sec 100, sec 100 - 5] }) })), by decide +kernel⟩,
   ⟨0, 0, 4, (st (eng0 { st := .issuing, run := some { cmd := { kind := 0, code := 0, tag := 0 } } } m0)), by decide +kernel⟩,
   ⟨0, (st { m0 with ost := m0.ost.upd 0 (fun o => { o with bad := [(true, 3)] }) }), by decide +kernel⟩,
   ⟨0, 0, (st (eng0 { halted := true } m0)), by decide +kernel⟩,
   ⟨7, 1, (st m0), by decide +kernel⟩,
   ⟨7, 1, (st (onMode (fun k => { k with mode := .diagnostic, target := .diagnostic }) m0)), by decide +kernel⟩,
   ⟨7, true, 0, (st { m0 with ost := m0.ost.upd 7 (fun o => { o with bistFrom := some 0 }) }), by decide +kernel⟩⟩

/-- The hypotheses of DomainsStop are met, clause by clause. -/
theorem test_domainsStop_met :
    (∃ (by_ : StopBy), ∃ d, ∃ (s : State), ∃ r, arrives (.domainStopRequest by_ d) s.mod = true ∧ mayAsk s.mod by_ d = true ∧ let reason := if s.mod.pwr.holdup.isSome then some 0x12 else if domSt s.mod d = .waking then some 0x06 else if stopExempt s.mod by_ = false ∧ modeRequires s.mod d (some by_) = true then some 0x01 else if (domChildren d).any (fun k => domSt s.mod k != .stop) = true then some 0x03 else if ownRuleHolds s.mod by_ d = false then some 0x05 else if by_ ≠ .yardmaster ∧ ((wakeComes s d).isSome = true ∨ (firedNow s.mod d).isSome = true) then some 0x02 else none; (domSt s.mod d = .run ∨ domSt s.mod d = .waking) ∧ reason = some r) ∧
    (∃ (by_ : StopBy), ∃ d, ∃ (s : State), arrives (.domainStopRequest by_ d) s.mod = true ∧ mayAsk s.mod by_ d = true ∧ let reason := if s.mod.pwr.holdup.isSome then some 0x12 else if domSt s.mod d = .waking then some 0x06 else if stopExempt s.mod by_ = false ∧ modeRequires s.mod d (some by_) = true then some 0x01 else if (domChildren d).any (fun k => domSt s.mod k != .stop) = true then some 0x03 else if ownRuleHolds s.mod by_ d = false then some 0x05 else if by_ ≠ .yardmaster ∧ ((wakeComes s d).isSome = true ∨ (firedNow s.mod d).isSome = true) then some 0x02 else none; domSt s.mod d = .run ∧ reason = none ∧ stepFits s.mod (fullLoad (d)) = true) ∧
    (∃ (by_ : StopBy), ∃ d, ∃ (s : State), arrives (.domainStopRequest by_ d) s.mod = true ∧ mayAsk s.mod by_ d = true ∧ let reason := if s.mod.pwr.holdup.isSome then some 0x12 else if domSt s.mod d = .waking then some 0x06 else if stopExempt s.mod by_ = false ∧ modeRequires s.mod d (some by_) = true then some 0x01 else if (domChildren d).any (fun k => domSt s.mod k != .stop) = true then some 0x03 else if ownRuleHolds s.mod by_ d = false then some 0x05 else if by_ ≠ .yardmaster ∧ ((wakeComes s d).isSome = true ∨ (firedNow s.mod d).isSome = true) then some 0x02 else none; domSt s.mod d = .run ∧ reason = none ∧ stepFits s.mod (fullLoad (d)) = false) ∧
    (∃ sh, ∃ h, ∃ (s : State), ∃ r, arrives (.drawbarHalfStopRequest sh h) s.mod = true ∧ let d := 352 + 7 * sh + h; let reason := if s.mod.pwr.holdup.isSome then some 0x12 else if domSt s.mod d = .waking then some 0x06 else if stopExempt s.mod .drawbar = false ∧ modeRequires s.mod d (some .drawbar) = true then some 0x01 else if (domChildren d).any (fun k => domSt s.mod k != .stop) = true then some 0x03 else if ownRuleHolds s.mod .drawbar d = false then some 0x05 else if (wakeComes s d).isSome = true ∨ (firedNow s.mod d).isSome = true then some 0x02 else none; (domSt s.mod d = .run ∨ domSt s.mod d = .waking) ∧ reason = some r) ∧
    (∃ sh, ∃ h, ∃ (s : State), arrives (.drawbarHalfStopRequest sh h) s.mod = true ∧ let d := 352 + 7 * sh + h; let reason := if s.mod.pwr.holdup.isSome then some 0x12 else if domSt s.mod d = .waking then some 0x06 else if stopExempt s.mod .drawbar = false ∧ modeRequires s.mod d (some .drawbar) = true then some 0x01 else if (domChildren d).any (fun k => domSt s.mod k != .stop) = true then some 0x03 else if ownRuleHolds s.mod .drawbar d = false then some 0x05 else if (wakeComes s d).isSome = true ∨ (firedNow s.mod d).isSome = true then some 0x02 else none; domSt s.mod d = .run ∧ reason = none ∧ stepFits s.mod (fullLoad (d)) = true) ∧
    (∃ sh, ∃ h, ∃ (s : State), arrives (.drawbarHalfStopRequest sh h) s.mod = true ∧ let d := 352 + 7 * sh + h; let reason := if s.mod.pwr.holdup.isSome then some 0x12 else if domSt s.mod d = .waking then some 0x06 else if stopExempt s.mod .drawbar = false ∧ modeRequires s.mod d (some .drawbar) = true then some 0x01 else if (domChildren d).any (fun k => domSt s.mod k != .stop) = true then some 0x03 else if ownRuleHolds s.mod .drawbar d = false then some 0x05 else if (wakeComes s d).isSome = true ∨ (firedNow s.mod d).isSome = true then some 0x02 else none; domSt s.mod d = .run ∧ reason = none ∧ stepFits s.mod (fullLoad (d)) = false) ∧
    (∃ d, ∃ (s : State), arrives (.domainStopDrained d) s.mod = true ∧ domSt s.mod d = .stopping ∧ (s.mod.pwr.doms.get d).wakeAft = none ∧ (domChildren d).all (fun k => domSt s.mod k == .stop) = true ∧ (∀ sh < 8, (s.mod.trb.get sh).st ≠ .returning)) ∧
    (∃ d, ∃ (s : State), arrives (.domainStopAbort d none) s.mod = true ∧ domSt s.mod d = .stopping ∧ passed s.mod.now (s.mod.pwr.doms.get d).since (us 20) = true) ∧
    (∃ d, ∃ w, ∃ (s : State), arrives (.domainStopAbort d (some w)) s.mod = true ∧ domSt s.mod d = .stopping ∧ (s.mod.pwr.doms.get d).by_ ≠ some .yardmaster) :=
  ⟨⟨.yardmaster, 0, (st (onPwr (fun p => { p with holdup := some 0 }) m0)), 0x12, by decide +kernel⟩,
   ⟨.yardmaster, 0, (st m0), by decide +kernel⟩,
   ⟨.yardmaster, 0, (st (onPwr (fun p => { p with steps := [(sec 100, 1417)] }) m0)), by decide +kernel⟩,
   ⟨0, 0, (st (onPwr (fun p => { p with holdup := some 0 }) m0)), 0x12, by decide +kernel⟩,
   ⟨0, 0, (st (onMesh (fun m => { m with halves := ((Map.const { st := .full }).set (0, 0) { st := .halfRate }).set (1, 0) { st := .halfRate } }) m0)), by decide +kernel⟩,
   ⟨0, 0, (st (onPwr (fun p => { p with steps := [(sec 100, 1500)] }) (onMesh (fun m => { m with halves := ((Map.const { st := .full }).set (0, 0) { st := .halfRate }).set (1, 0) { st := .halfRate } }) m0))), by decide +kernel⟩,
   ⟨0, (st (domAs 0 { st := .stopping, by_ := some .yardmaster } m0)), by decide +kernel⟩,
   ⟨0, (st (domAs 0 { st := .stopping, by_ := some .yardmaster, since := sec 100 - us 20 } m0)), by decide +kernel⟩,
   ⟨0, 6, (st (domAs 0 { st := .stopping, by_ := some .firmware } m0)), by decide +kernel⟩⟩

/-- The hypotheses of DomainsWake are met, clause by clause. -/
theorem test_domainsWake_met :
    (∃ w, ∃ d, ∃ (s : State), arrives (.domainWakeRequest w d) s.mod = true ∧ (domSt s.mod d = .waking ∨ domSt s.mod d = .run) ∧ (∀ e ∈ s.mod.pwr.waits, e.d ≠ d) ∧ (408 ≤ d → d < 416 → (s.mod.trb.get (d - 408)).st ≠ .held)) ∧
    (∃ w, ∃ d, ∃ (s : State), arrives (.domainWakeRequest w d) s.mod = true ∧ domSt s.mod d = .stopping ∧ (s.mod.pwr.doms.get d).by_ ≠ some .yardmaster ∧ (∀ e ∈ s.mod.pwr.waits, e.d ≠ d) ∧ (¬ (408 ≤ d ∧ d < 416))) ∧
    (∃ w, ∃ d, ∃ (s : State), arrives (.domainWakeRequest w d) s.mod = true ∧ domSt s.mod d = .stop ∧ (∀ p, domParent d = some p → domRuns s.mod p = true) ∧ (¬ (352 ≤ d ∧ d < 408)) ∧ (∀ e ∈ s.mod.pwr.waits, e.d ≠ d) ∧ (408 ≤ d → d < 416 → (s.mod.trb.get (d - 408)).st ≠ .held) ∧ stepFits s.mod (fullLoad d) = true) ∧
    (∃ w, ∃ d, ∃ (s : State), arrives (.domainWakeRequest w d) s.mod = true ∧ domSt s.mod d = .stop ∧ (∀ p, domParent d = some p → domRuns s.mod p = true) ∧ (¬ (352 ≤ d ∧ d < 408)) ∧ (∀ e ∈ s.mod.pwr.waits, e.d ≠ d) ∧ (408 ≤ d → d < 416 → (s.mod.trb.get (d - 408)).st ≠ .held) ∧ stepFits s.mod (fullLoad d) = false) ∧
    (∃ d, ∃ (s : State), arrives (.domainWakeSettled d) s.mod = true ∧ domSt s.mod d = .waking ∧ (∀ sh < 8, (s.mod.trb.get sh).st ≠ .returning)) ∧
    (∃ d, ∃ (s : State), arrives (.wakeTableStep d) s.mod = true ∧ wakeStepDue s.mod d = true ∧ (¬ (408 ≤ d ∧ d < 416)) ∧ stepFits s.mod (fullLoad d) = true) ∧
    (∃ d, ∃ (s : State), arrives (.wakeTableStep d) s.mod = true ∧ wakeStepDue s.mod d = true ∧ 408 ≤ d ∧ d < 416 ∧ hasGrant s.mod 1 (d - 408) = true ∧ stepFits s.mod (fullLoad d) = true) ∧
    (∃ d, ∃ (s : State), ∃ id, arrives (.wakeTableStep d) s.mod = true ∧ wakeStepDue s.mod d = true ∧ 408 ≤ d ∧ d < 416 ∧ hasGrant s.mod 1 (d - 408) = false ∧ decideLeave s.mod 1 (d - 408) = .granted id) ∧
    (∃ sh, ∃ h, ∃ (s : State), arrives (.drawbarHalfWakeRequest sh h) s.mod = true ∧ halfMustWake s.mod sh h = true ∧ domSt s.mod (352 + 7 * sh + h) = .stop ∧ hasGrant s.mod 4 (7 * sh + h) = true ∧ domRuns s.mod (408 + sh) = true ∧ stepFits s.mod (fullLoad (352 + 7 * sh + h)) = true) ∧
    (∃ (v : Word), ∃ (s : State), arrives (.diagDomainWake v) s.mod = true ∧ s.mod.mode.mode ≠ .diagnostic) ∧
    (∃ (v : Word), ∃ (s : State), arrives (.diagDomainWake v) s.mod = true ∧ s.mod.mode.mode = .diagnostic ∧ diagBusy s.mod = true) ∧
    (∃ (v : Word), ∃ (s : State), arrives (.diagDomainStop v) s.mod = true ∧ s.mod.mode.mode ≠ .diagnostic) ∧
    (∃ (v : Word), ∃ (s : State), arrives (.diagDomainStop v) s.mod = true ∧ s.mod.mode.mode = .diagnostic ∧ diagBusy s.mod = true) ∧
    (∃ (v : Word), ∃ p, ∃ (s : State), arrives (.diagDomainWake v) s.mod = true ∧ s.mod.mode.mode = .diagnostic ∧ diagBusy s.mod = false ∧ domSt s.mod (fieldOf v 15 0) = .stop ∧ fieldOf v 15 0 < 352 ∧ domParent (fieldOf v 15 0) = some p ∧ domRuns s.mod p = true ∧ stepFits s.mod (fullLoad (fieldOf v 15 0)) = true) ∧
    (∃ (v : Word), ∃ (s : State), arrives (.diagDomainStop v) s.mod = true ∧ s.mod.mode.mode = .diagnostic ∧ diagBusy s.mod = false ∧ domSt s.mod (fieldOf v 15 0) = .run ∧ fieldOf v 15 0 < 448 ∧ s.mod.pwr.holdup = none ∧ modeRequires s.mod (fieldOf v 15 0) (some .host) = false ∧ (domChildren (fieldOf v 15 0)).all (fun k => domSt s.mod k == .stop) = true ∧ firedNow s.mod (fieldOf v 15 0) = none ∧ stepFits s.mod (fullLoad (fieldOf v 15 0)) = true) ∧
    (∃ sh, ∃ t, ∃ b, ∃ (s : State), arrives (.loftBankIdle sh) s.mod = true ∧ (s.mod.loft.get sh).lowAt = some t ∧ (runningBanks s.mod sh).getLast? = some b ∧ passed s.mod.now t (ms 10) = true ∧ (s.mod.loft.get sh).noAlloc = none ∧ loftLow s.mod sh = true ∧ bankSpare s.mod sh = true) ∧
    (∃ sh, ∃ b, ∃ (s : State), arrives (.loftBankStop sh b) s.mod = true ∧ (s.mod.loft.get sh).noAlloc = some b ∧ loftBankEmpty s.mod sh b = true ∧ bankSpare s.mod sh = true ∧ (s.mod.mode.mode = .standalone ∨ s.mod.mode.mode = .paired) ∧ domSt s.mod (bankDom sh b) = .run ∧ firedNow s.mod (bankDom sh b) = none ∧ s.mod.pwr.holdup = none ∧ stepFits s.mod (fullLoad (bankDom sh b)) = true) :=
  ⟨⟨1, 447, (st m0), by decide +kernel⟩,
   ⟨1, 256, (st (domAs 256 { st := .stopping, by_ := some .loft } m0)), by decide +kernel⟩,
   ⟨1, 256, (st (domAs 256 {} m0)), by decide +kernel⟩,
   ⟨6, 415, (st (onPwr (fun p => { p with steps := [(sec 100, 1500)] }) (domAs 415 {} m0))), by decide +kernel⟩,
   ⟨0, (st (domAs 0 { st := .waking } m0)), by decide +kernel⟩,
   ⟨424, (st (onMode (fun k => { k with mode := .cold }) (domAs 424 {} m0))), by decide +kernel⟩,
   ⟨415, (st (onPwr (fun p => { p with stage := 6, wAt := sec 99, grants := [{ id := 0, op := 1, unit := 7, left := 0, mbx := none }] }) (domAs 415 {} m0))), by decide +kernel⟩,
   ⟨415, (st (onPwr (fun p => { p with stage := 6, wAt := sec 99 }) (domAs 415 {} m0))), 0, by decide +kernel⟩,
   ⟨0, 0, (st (onPwr (fun p => { p with grants := [{ id := 0, op := 4, unit := 0, left := 0, mbx := none }] }) (domAs 352 {} (half0 { sent := [(sec 100, 800001)] } m0)))), by decide +kernel⟩,
   ⟨5, (st m0), by decide +kernel⟩,
   ⟨5, (st (onMode (fun k => { k with mode := .diagnostic, target := .diagnostic }) (onPwr (fun p => { p with diagBusy := true, diagDom := 3 }) (domAs 3 { st := .waking } m0)))), by decide +kernel⟩,
   ⟨5, (st m0), by decide +kernel⟩,
   ⟨5, (st (onMode (fun k => { k with mode := .diagnostic, target := .diagnostic }) (onPwr (fun p => { p with diagBusy := true, diagDom := 3 }) (domAs 3 { st := .waking } m0)))), by decide +kernel⟩,
   ⟨0x40000100, 408, (st (onMode (fun k => { k with mode := .diagnostic, target := .diagnostic }) (domAs 256 {} m0))), by decide +kernel⟩,
   ⟨0x20000000, (st (onMode (fun k => { k with mode := .diagnostic, target := .diagnostic }) m0)), by decide +kernel⟩,
   ⟨0, (sec 99), 11, (st (setLoft 0 (fun l => { l with lowAt := some (sec 99) }) m0)), by decide +kernel⟩,
   ⟨0, 11, (st (setLoft 0 (fun l => { l with noAlloc := some 11 }) m0)), by decide +kernel⟩⟩

/-- The hypotheses of InletsAndHoldup are met, clause by clause. -/
theorem test_inletsAndHoldup_met :
    (∃ (i : Inlet), ∃ p, ∃ v, ∃ h, ∃ w, ∃ (s : State), arrives (.psuTelemetry i p v h w) s.mod = true) ∧
    (∃ (i : Inlet), ∃ (s : State), arrives (.psuGood i) s.mod = true ∧ s.mod.mode.powered = true ∧ (inletOf s.mod i).good = false ∧ inletFed (inletOf s.mod i) = true) ∧
    (∃ (i : Inlet), ∃ t, ∃ (s : State), arrives (.inletLowLine i) s.mod = true ∧ (inletOf s.mod i).below180 = some t ∧ (inletOf s.mod i).good = true ∧ (inletOf s.mod i).lowLine = false ∧ passed s.mod.now t (ms 20) = true) ∧
    (∃ (i : Inlet), ∃ t, ∃ (s : State), arrives (.inletHighLine i) s.mod = true ∧ (inletOf s.mod i).above185 = some t ∧ (inletOf s.mod i).good = true ∧ (inletOf s.mod i).lowLine = true ∧ passed s.mod.now t (sec 1) = true) ∧
    (∃ (i : Inlet), ∃ t, ∃ (s : State), arrives (.inletLoss i) s.mod = true ∧ (inletOf s.mod i).outSince = some t ∧ (inletOf s.mod i).good = true ∧ passed s.mod.now t (ms 2) = true) ∧
    (∃ t, ∃ (s : State), arrives .holdupEnd s.mod = true ∧ s.mod.pwr.holdup = some t ∧ passed s.mod.now t (ms 16) = true ∧ Safe s) ∧
    (∃ t, ∃ (s : State), arrives .powerRestart s.mod = true ∧ s.mod.pwr.outsOff = some t ∧ t ≤ s.mod.now ∧ (inletFed s.mod.pwr.a = true ∨ inletFed s.mod.pwr.b = true)) ∧
    (∃ t, ∃ (s : State), arrives .powerRestart s.mod = true ∧ s.mod.pwr.outsOff = some t ∧ t ≤ s.mod.now ∧ inletFed s.mod.pwr.a = false ∧ inletFed s.mod.pwr.b = false) ∧
    (∃ (i : Inlet), ∃ (s : State), arrives (.mainsApply i) s.mod = true ∧ s.mod.mode.powered = false ∧ s.mod.pwr.outsOff = none) :=
  ⟨⟨.b, true, 2650, 630, 100, (st m0), by decide +kernel⟩,
   ⟨.b, (st (onPwr (fun p => { p with b := { present := true, dV := 850, dHz := 470 } }) m0)), by decide +kernel⟩,
   ⟨.a, (sec 100 - ms 20), (st (onPwr (fun p => { p with a := { p.a with below180 := some (sec 100 - ms 20) } }) m0)), by decide +kernel⟩,
   ⟨.a, (sec 99), (st (onPwr (fun p => { p with a := { p.a with above185 := some (sec 99), lowLine := true } }) m0)), by decide +kernel⟩,
   ⟨.a, (sec 100 - ms 2), (st (onPwr (fun p => { p with a := { p.a with outSince := some (sec 100 - ms 2) } }) m0)), by decide +kernel⟩,
   ⟨(sec 100 - ms 16), (st (onPwr (fun p => { p with holdup := some (sec 100 - ms 16) }) m0)), by decide +kernel⟩,
   ⟨(sec 100), (st (onPwr (fun p => { p with outsOff := some (sec 100) }) m0)), by decide +kernel⟩,
   ⟨(sec 100), (st (onPwr (fun p => { p with outsOff := some (sec 100), a := {} }) m0)), by decide +kernel⟩,
   ⟨.a, (st (onMode (fun k => { k with powered := false }) m0)), by decide +kernel⟩⟩

/-- The hypotheses of LeaveIsGiven are met, clause by clause. -/
theorem test_leaveIsGiven_met :
    (∃ op, ∃ u, ∃ (s : State), ∃ r, arrives (.leaveRequest op u) s.mod = true ∧ s.mod.pwr.grants.any (fun g => g.op == op && g.unit == u && g.mbx.isNone) = false ∧ s.mod.pwr.queue.any (fun q => q.op == op && q.unit == u && q.mbx.isNone) = false ∧ (s.mod.pwr.askedAt = s.mod.cyc → s.mod.pwr.asked.contains (op, u) = false) ∧ asksWith s op u = [(op, u)] ∧ decideLeave s.mod op u = .refused r ∧ (op = 3 ∨ op = 7)) ∧
    (∃ op, ∃ u, ∃ (s : State), ∃ id, arrives (.leaveRequest op u) s.mod = true ∧ s.mod.pwr.grants.any (fun g => g.op == op && g.unit == u && g.mbx.isNone) = false ∧ s.mod.pwr.queue.any (fun q => q.op == op && q.unit == u && q.mbx.isNone) = false ∧ (s.mod.pwr.askedAt = s.mod.cyc → s.mod.pwr.asked.contains (op, u) = false) ∧ asksWith s op u = [(op, u)] ∧ decideLeave s.mod op u = .queued id) ∧
    (∃ op, ∃ u, ∃ (s : State), ∃ id, arrives (.leaveRequest op u) s.mod = true ∧ s.mod.pwr.grants.any (fun g => g.op == op && g.unit == u && g.mbx.isNone) = false ∧ s.mod.pwr.queue.any (fun q => q.op == op && q.unit == u && q.mbx.isNone) = false ∧ (s.mod.pwr.askedAt = s.mod.cyc → s.mod.pwr.asked.contains (op, u) = false) ∧ asksWith s op u = [(op, u)] ∧ decideLeave s.mod op u = .granted id ∧ (op = 5 ∨ op = 6 ∨ op = 7)) ∧
    (∃ op, ∃ u, ∃ (s : State), arrives (.leaveRequest op u) s.mod = true ∧ s.mod.pwr.askedAt = s.mod.cyc ∧ s.mod.pwr.asked.contains (op, u) = true) ∧
    (∃ (q : LeaveReq), ∃ (t : List LeaveReq), ∃ (s : State), arrives .leaveGrant s.mod = true ∧ s.mod.pwr.queue = q :: t ∧ s.mod.pwr.holdup = none ∧ committed s.mod + leaveEst q.op ≤ budget s.mod ∧ stepFits s.mod (leaveStep q.op) = true ∧ q.mbx = none ∧ (q.op = 5 ∨ q.op = 6 ∨ q.op = 7)) ∧
    (∃ id, ∃ (g : Grant), ∃ (s : State), arrives (.leaveRelease id) s.mod = true ∧ s.mod.pwr.grants.find? (fun k => k.id == id) = some g ∧ opRuns s.mod g = false ∧ g.op ≠ 8) ∧
    (∃ id, ∃ (g : Grant), ∃ t, ∃ (s : State), arrives (.leaveRelease id) s.mod = true ∧ s.mod.pwr.grants.find? (fun k => k.id == id) = some g ∧ g.op = 8 ∧ opRuns s.mod g = false ∧ (s.mod.trb.get g.unit).scrubRun = some t ∧ (∀ e ∈ s.mod.ecc, e.word.inShed g.unit = false) ∧ (∀ e ∈ s.mod.tbl.aclBad, e.1 ≠ g.unit)) ∧
    (∃ (s : State), arrives .leaveQueueTimeout s.mod = true ∧ s.mod.pwr.queue.all (fun q => [3, 4, 6, 7, 9].contains q.op && q.mbx.isNone) = true) :=
  ⟨⟨3, 27, (st (onPwr (fun p => { p with holdup := some 0 }) m0)), 0x12, by decide +kernel⟩,
   ⟨7, 7, (st (onPwr (fun p => { p with queue := [{ id := 0, op := 6, unit := 0, at_ := 0, mbx := none }], nextId := 1 }) m0)), 1, by decide +kernel⟩,
   ⟨7, 7, (st m0), 0, by decide +kernel⟩,
   ⟨3, 27, (st (onPwr (fun p => { p with askedAt := m0.cyc, asked := [(3, 27)] }) m0)), by decide +kernel⟩,
   ⟨({ id := 0, op := 6, unit := 0, at_ := 0, mbx := none }), ([]), (st (onPwr (fun p => { p with queue := [{ id := 0, op := 6, unit := 0, at_ := 0, mbx := none }] }) m0)), by decide +kernel⟩,
   ⟨3, ({ id := 3, op := 7, unit := 0, left := 0, mbx := none }), (st (onPwr (fun p => { p with grants := [{ id := 3, op := 7, unit := 0, left := 0, mbx := none }] }) m0)), by decide +kernel⟩,
   ⟨3, ({ id := 3, op := 8, unit := 0, left := 0, mbx := none }), (sec 99), (st (trbAs 0 { scrubRun := some (sec 99) } (onPwr (fun p => { p with grants := [{ id := 3, op := 8, unit := 0, left := 0, mbx := none }] }) m0))), by decide +kernel⟩,
   ⟨(st (onPwr (fun p => { p with queue := [{ id := 0, op := 6, unit := 0, at_ := 0, mbx := none }] }) m0)), by decide +kernel⟩⟩

/-- The hypotheses of ShedsQuiesceAndReturn are met, clause by clause. -/
theorem test_shedsQuiesceAndReturn_met :
    (∃ w, ∃ t, ∃ (s : State), arrives .laneWaveEnd s.mod = true ∧ s.mod.pwr.wave = some (w, t) ∧ passed s.mod.now t (ms 450) = true ∧ s.mod.pwr.waves = []) ∧
    (∃ k, ∃ (s : State), arrives (.drawbarTrainingDone k) s.mod = true ∧ pairTraining s.mod k = true ∧ (s.mod.pwr.stage ≠ 7 ∨ s.mod.pwr.round ≠ 1) ∧ (∀ sh < 8, (s.mod.trb.get sh).st ≠ .returning) ∧ k ∉ s.mod.mesh.retrain) ∧
    (∃ k, ∃ f, ∃ (s : State), arrives (.drawbarTrainingFail k) s.mod = true ∧ pairTraining s.mod k = true ∧ (∀ h ∈ pairHalves k, (s.mod.mesh.halves.get h).fails = f) ∧ f < 2) ∧
    (∃ k, ∃ f, ∃ (s : State), arrives (.drawbarTrainingFail k) s.mod = true ∧ pairTraining s.mod k = true ∧ (∀ h ∈ pairHalves k, (s.mod.mesh.halves.get h).fails = f) ∧ 2 ≤ f ∧ (s.mod.pwr.stage ≠ 7 ∨ s.mod.pwr.round ≠ 1) ∧ (∀ sh < 8, (s.mod.trb.get sh).st ≠ .returning) ∧ k ∉ s.mod.mesh.retrain ∧ (s.mod.pwr.stage ≤ 8 ∨ shedWorks s.mod (shedsOfPair k).1 = false ∨ shedWorks s.mod (shedsOfPair k).2 = false)) ∧
    (∃ sh, ∃ (v : BitVec 12), ∃ (s : State), arrives (.thermalSample sh v) s.mod = true ∧ domRuns s.mod (408 + sh) = true ∧ let o := (s.mod.pwr.therm.get sh).state; let n := thermNext o v.toNat; (n < 3 ∨ o = 3)) ∧
    (∃ sh, ∃ (v : BitVec 12), ∃ (s : State), arrives (.thermalSample sh v) s.mod = true ∧ domRuns s.mod (408 + sh) = true ∧ let o := (s.mod.pwr.therm.get sh).state; let n := thermNext o v.toNat; o < 3 ∧ n = 3) ∧
    (∃ sh, ∃ (s : State), arrives (.shedReturnHoldEnd sh) s.mod = true ∧ let d := (s.mod.trb.get sh).st = .quiesced ∧ passed s.mod.now (s.mod.trb.get sh).since (ms 100) = true ∧ ((s.mod.trb.get sh).thermal = false ∨ (s.mod.pwr.therm.get sh).temp.toNat < 840); d) ∧
    (∃ sh, ∃ (s : State), arrives (.shedReturnHoldEnd sh) s.mod = true ∧ let d := (s.mod.trb.get sh).st = .quiesced ∧ passed s.mod.now (s.mod.trb.get sh).since (ms 100) = true ∧ ((s.mod.trb.get sh).thermal = false ∨ (s.mod.pwr.therm.get sh).temp.toNat < 840); (¬ d)) ∧
    (∃ (v : Word), ∃ (s : State), arrives (.shedRestore v) s.mod = true) ∧
    (∃ sh, ∃ (s : State), arrives (.shedStateCopyDone sh) s.mod = true ∧ (s.mod.trb.get sh).st = .returning ∧ (s.mod.trb.get sh).step = 5) ∧
    (∃ sh, ∃ (s : State), arrives (.scrubPass sh) s.mod = true ∧ s.mod.now < (s.mod.trb.get sh).scrubDue) ∧
    (∃ sh, ∃ (s : State), ∃ id, arrives (.scrubPass sh) s.mod = true ∧ (s.mod.ost.get sh).loaded = true ∧ (s.mod.trb.get sh).scrubRun = none ∧ (s.mod.trb.get sh).scrubDue ≤ s.mod.now ∧ s.mod.pwr.queue.any (fun q => q.op == 8 && q.unit == sh) = false ∧ decideLeave s.mod 8 sh = .granted id) ∧
    (∃ sh, ∃ (s : State), ∃ r, arrives (.scrubPass sh) s.mod = true ∧ (s.mod.ost.get sh).loaded = true ∧ (s.mod.trb.get sh).scrubRun = none ∧ (s.mod.trb.get sh).scrubDue ≤ s.mod.now ∧ s.mod.pwr.queue.any (fun q => q.op == 8 && q.unit == sh) = false ∧ decideLeave s.mod 8 sh = .refused r) ∧
    (∃ sh, ∃ (s : State), arrives (.scrubLate sh) s.mod = true ∧ (s.mod.ost.get sh).loaded = true ∧ (s.mod.trb.get sh).scrubLate = false ∧ passed s.mod.now ((s.mod.trb.get sh).scrubLast.getD (s.mod.pwr.doms.get (416 + sh)).since) (sec 60) = true) :=
  ⟨⟨3, (sec 100 - ms 450), (st (onPwr (fun p => { p with wave := some (3, sec 100 - ms 450) }) m0)), by decide +kernel⟩,
   ⟨0, (st (half0 { st := .training } m0)), by decide +kernel⟩,
   ⟨0, 1, (st (setHalf 1 0 (fun _ => { st := .training, fails := 1 }) (half0 { st := .training, fails := 1 } m0))), by decide +kernel⟩,
   ⟨0, 2, (st (trbAs 1 { st := .quiesced } (setHalf 1 0 (fun _ => { st := .training, fails := 2 }) (half0 { st := .training, fails := 2 } (onPwr (fun p => { p with stage := 9 }) m0))))), by decide +kernel⟩,
   ⟨0, 0x370, (st (onPwr (fun p => { p with therm := p.therm.set 0 { state := 3 } }) m0)), by decide +kernel⟩,
   ⟨0, 880, (st m0), by decide +kernel⟩,
   ⟨5, (st (trbAs 5 { st := .quiesced, since := sec 100 - ms 100 } m0)), by decide +kernel⟩,
   ⟨5, (st m0), by decide +kernel⟩,
   ⟨3, (st m0), by decide +kernel⟩,
   ⟨5, (st (trbAs 5 { st := .returning, step := 5 } m0)), by decide +kernel⟩,
   ⟨5, (st (trbAs 5 { scrubDue := sec 101 } m0)), by decide +kernel⟩,
   ⟨5, (st m0), 0, by decide +kernel⟩,
   ⟨5, (st (onPwr (fun p => { p with holdup := some 0 }) m0)), 0x12, by decide +kernel⟩,
   ⟨5, (st (trbAs 5 { scrubLast := some (sec 40) } m0)), by decide +kernel⟩⟩

/-- The hypotheses of ModesAndResets are met, clause by clause. -/
theorem test_modesAndResets_met :
    (∃ n, ∃ (s : State), arrives (.modeChange n) s.mod = true ∧ running s.mod n 3 ∧ let q := (s.mod.dax.boxes.get n).body; let mode := s.mod.mode.mode; let wish := leAt q 0 1; let bad := (s.mod.dax.boxes.get n).len ≠ 4 ∨ 5 < wish ∨ leAt q 1 3 ≠ 0; bad) ∧
    (∃ n, ∃ (s : State), arrives (.modeChange n) s.mod = true ∧ running s.mod n 3 ∧ let q := (s.mod.dax.boxes.get n).body; let mode := s.mod.mode.mode; let wish := leAt q 0 1; let bad := (s.mod.dax.boxes.get n).len ≠ 4 ∨ 5 < wish ∨ leAt q 1 3 ≠ 0; (¬ bad) ∧ (inTransition s.mod = true ∨ activationOn s.mod = true)) ∧
    (∃ n, ∃ (s : State), arrives (.modeChange n) s.mod = true ∧ running s.mod n 3 ∧ let q := (s.mod.dax.boxes.get n).body; let mode := s.mod.mode.mode; let wish := leAt q 0 1; let bad := (s.mod.dax.boxes.get n).len ≠ 4 ∨ 5 < wish ∨ leAt q 1 3 ≠ 0; (¬ bad) ∧ inTransition s.mod = false ∧ activationOn s.mod = false ∧ (mode = .standalone ∨ mode = .paired) ∧ wish = 4) ∧
    (∃ n, ∃ (s : State), arrives (.modeChange n) s.mod = true ∧ running s.mod n 3 ∧ let q := (s.mod.dax.boxes.get n).body; let mode := s.mod.mode.mode; let wish := leAt q 0 1; let bad := (s.mod.dax.boxes.get n).len ≠ 4 ∨ 5 < wish ∨ leAt q 1 3 ≠ 0; (¬ bad) ∧ inTransition s.mod = false ∧ activationOn s.mod = false ∧ mode = .quiesced ∧ wish = 2 ∧ s.mod.tt.active.isSome = true) ∧
    (∃ n, ∃ (s : State), arrives (.modeChange n) s.mod = true ∧ running s.mod n 3 ∧ let q := (s.mod.dax.boxes.get n).body; let mode := s.mod.mode.mode; let wish := leAt q 0 1; let bad := (s.mod.dax.boxes.get n).len ≠ 4 ∨ 5 < wish ∨ leAt q 1 3 ≠ 0; (¬ bad) ∧ inTransition s.mod = false ∧ activationOn s.mod = false ∧ mode = .quiesced ∧ wish = 5) ∧
    (∃ n, ∃ (s : State), arrives (.modeChange n) s.mod = true ∧ running s.mod n 3 ∧ let q := (s.mod.dax.boxes.get n).body; let mode := s.mod.mode.mode; let wish := leAt q 0 1; let bad := (s.mod.dax.boxes.get n).len ≠ 4 ∨ 5 < wish ∨ leAt q 1 3 ≠ 0; (¬ bad) ∧ inTransition s.mod = false ∧ activationOn s.mod = false ∧ mode = .diagnostic ∧ wish = 4) ∧
    (∃ n, ∃ (s : State), arrives (.modeChange n) s.mod = true ∧ running s.mod n 3 ∧ let q := (s.mod.dax.boxes.get n).body; let mode := s.mod.mode.mode; let wish := leAt q 0 1; let bad := (s.mod.dax.boxes.get n).len ≠ 4 ∨ 5 < wish ∨ leAt q 1 3 ≠ 0; (¬ bad) ∧ inTransition s.mod = false ∧ activationOn s.mod = false ∧ ((mode = .standalone ∨ mode = .paired ∨ mode = .diagnostic) ∧ wish ≠ 4) ∨ mode = .cold ∨ mode = .harnessing ∨ (mode = .quiesced ∧ wish ≠ 5 ∧ (wish ≠ 2 ∨ s.mod.tt.active = none))) ∧
    (∃ t, ∃ (s : State), arrives .quiesceDrainEnd s.mod = true ∧ s.mod.mode.drainEnd = some t ∧ let inside := (heldFrames s.mod).filter (fun e => stillHeld e.2); s.mod.dax.up = true ∧ (t ≤ s.mod.now ∨ inside = [])) ∧
    (∃ t, ∃ (s : State), arrives .quiesceDrainEnd s.mod = true ∧ s.mod.mode.drainEnd = some t ∧ let inside := (heldFrames s.mod).filter (fun e => stillHeld e.2); (s.mod.dax.up = false ∨ (s.mod.now < t ∧ inside ≠ []))) ∧
    (∃ (s : State), arrives .diagnosticSessionEnd s.mod = true ∧ s.mod.mode.mode = .diagnostic ∧ s.mod.mode.target = .diagnostic) ∧
    (∃ (s : State), arrives .diagnosticSessionEnd s.mod = true ∧ s.mod.mode.mode ≠ .diagnostic) ∧
    (∃ (s : State), arrives .yardDiscoveryComplete s.mod = true ∧ (s.mod.mode.mode ≠ .harnessing ∨ s.mod.pwr.stage ≠ 8 ∨ (∃ k < 28, pairSettled s.mod k = false) ∨ (∃ sh < 8, shedWorks s.mod sh = true ∧ shedWakeOver s.mod sh = false))) ∧
    (∃ (s : State), arrives .yardDiscoveryComplete s.mod = true ∧ s.mod.mode.mode = .harnessing ∧ s.mod.pwr.stage = 8 ∧ workingSheds s.mod ≠ [] ∧ (∀ sh < 8, shedWorks s.mod sh = true → domRuns s.mod (128 + 16 * sh + 15) = true) ∧ (∀ k < 28, ∀ h ∈ pairHalves k, halfRuns (s.mod.mesh.halves.get h) = true)) ∧
    (∃ (s : State), arrives .yardDiscoveryComplete s.mod = true ∧ s.mod.mode.mode = .harnessing ∧ s.mod.pwr.stage = 8 ∧ workingSheds s.mod = []) ∧
    (∃ (s : State), arrives .foltinWatchdog s.mod = true ∧ s.mod.dax.up = true) ∧
    (∃ t, ∃ (s : State), arrives .foltinRestartDone s.mod = true ∧ s.mod.dax.restartAt = some t ∧ s.mod.mode.drainEnd = none) ∧
    (∃ (s : State), arrives .modResetAssert s.mod = true ∧ s.mod.mode.powered = true ∧ s.mod.ext.inReset = false) ∧
    (∃ (s : State), arrives .modResetRelease s.mod = true ∧ s.mod.mode.powered = true ∧ s.mod.ext.inReset = true) ∧
    (∃ (s : State), arrives (.domainWakeSettled 424) s.mod = true ∧ domSt s.mod 424 = .waking ∧ s.mod.mode.mode = .cold ∧ s.mod.mode.powered = true ∧ s.mod.ext.inReset = false ∧ s.mod.mode.bootFailed = false ∧ mainsGood s.mod = true ∧ s.mod.pwr.holdup = none ∧ s.mod.pwr.stage ≤ 5 ∧ (∀ sh < 8, (s.mod.trb.get sh).st ≠ .returning)) ∧
    (∃ t, ∃ (s : State), arrives .scheduledReset s.mod = true ∧ s.mod.mode.resetAt = some t ∧ t ≤ s.mod.now) ∧
    (∃ (s : State), arrives .resetGlitch s.mod = true ∧ s.mod.mode.powered = true ∧ s.mod.ext.inReset = false) ∧
    (∃ k, ∃ (t : List Nat), ∃ (s : State), arrives .firmwareImageCheck s.mod = true ∧ s.mod.mode.mode = .harnessing ∧ s.mod.sec.running = false ∧ domRuns s.mod 424 = true ∧ s.mod.sec.toTry = k :: t) ∧
    (∃ (s : State), arrives .patchVerify s.mod = true ∧ s.mod.mode.mode = .harnessing ∧ s.mod.dax.up = true ∧ s.mod.pwr.stage = 5) :=
  ⟨⟨0, (st (box 0 3 [6, 0, 0, 0] m0)), by decide +kernel⟩,
   ⟨0, (st (onTt (fun t => { t with act := some { bank := 1, mbx := none } }) (box 0 3 [4, 0, 0, 0] m0))), by decide +kernel⟩,
   ⟨0, (st (box 0 3 [4, 0, 0, 0] m0)), by decide +kernel⟩,
   ⟨0, (st (onMode (fun k => { k with mode := .quiesced, target := .quiesced }) (box 0 3 [2, 0, 0, 0] m0))), by decide +kernel⟩,
   ⟨0, (st (onMode (fun k => { k with mode := .quiesced, target := .quiesced }) (box 0 3 [5, 0, 0, 0] m0))), by decide +kernel⟩,
   ⟨0, (st (onMode (fun k => { k with mode := .diagnostic, target := .diagnostic }) (box 0 3 [4, 0, 0, 0] m0))), by decide +kernel⟩,
   ⟨0, (st (onMode (fun k => { k with mode := .diagnostic, target := .diagnostic }) (box 0 3 [5, 0, 0, 0] m0))), by decide +kernel⟩,
   ⟨(sec 100), (st (onMode (fun k => { k with drainEnd := some (sec 100), target := .quiesced }) m0)), by decide +kernel⟩,
   ⟨(sec 100), (st (onDax (fun d => { d with up := false }) (onMode (fun k => { k with drainEnd := some (sec 100), target := .quiesced }) m0))), by decide +kernel⟩,
   ⟨(st (onMode (fun k => { k with mode := .diagnostic, target := .diagnostic }) m0)), by decide +kernel⟩,
   ⟨(st m0), by decide +kernel⟩,
   ⟨(st m0), by decide +kernel⟩,
   ⟨(st (onMode (fun k => { k with mode := .harnessing }) (onPwr (fun p => { p with stage := 8 }) (onMesh (fun m => { m with halves := .const { st := .full } }) m0)))), by decide +kernel⟩,
   ⟨(st (onMode (fun k => { k with mode := .harnessing }) (onPwr (fun p => { p with stage := 8 }) { m0 with trb := .const { st := .quiesced } }))), by decide +kernel⟩,
   ⟨(st m0), by decide +kernel⟩,
   ⟨(sec 99), (st (onDax (fun d => { d with up := false, restartAt := some (sec 99) }) m0)), by decide +kernel⟩,
   ⟨(st m0), by decide +kernel⟩,
   ⟨(st (onExt (fun e => { e with inReset := true }) m0)), by decide +kernel⟩,
   ⟨(st (onMode (fun k => { k with mode := .cold }) (domAs 424 { st := .waking } (onPwr (fun p => { p with stage := 0 }) m0)))), by decide +kernel⟩,
   ⟨(sec 100), (st (onMode (fun k => { k with resetAt := some (sec 100) }) m0)), by decide +kernel⟩,
   ⟨(st m0), by decide +kernel⟩,
   ⟨0, ([]), (st (onMode (fun k => { k with mode := .harnessing }) (onSec (fun x => { x with running := false, toTry := [0], slots := x.slots.set 0 { st := .committed } }) m0))), by decide +kernel⟩,
   ⟨(st (onMode (fun k => { k with mode := .harnessing }) (onPwr (fun p => { p with stage := 5 }) m0))), by decide +kernel⟩⟩

/-- The hypotheses of PinsAndFaces are met, clause by clause. -/
theorem test_pinsAndFaces_met :
    (∃ (k : Strap), ∃ v, ∃ (s : State), arrives (.strapChange k v) s.mod = true) ∧
    (∃ b, ∃ (l : List Int), ∃ (s : State), arrives (.faceSensorRead b l) s.mod = true ∧ domRuns s.mod 446 = true) ∧
    (∃ v, ∃ (s : State), arrives (.cplCableChange v) s.mod = true ∧ s.mod.ext.cable = v) ∧
    (∃ v, ∃ (s : State), arrives (.cplCableChange v) s.mod = true ∧ s.mod.ext.cable ≠ v) ∧
    (∃ (s : State), arrives (.managementLinkChange true) s.mod = true ∧ s.mod.ext.mgmtLink = false ∧ domRuns s.mod 440 = true ∧ domRuns s.mod 441 = true) ∧
    (∃ (s : State), arrives (.managementLinkChange false) s.mod = true ∧ s.mod.ext.mgmtLink = true) :=
  ⟨⟨.gen4, false, (st m0), by decide +kernel⟩,
   ⟨true, ([481, 120]), (st m0), by decide +kernel⟩,
   ⟨false, (st m0), by decide +kernel⟩,
   ⟨true, (st m0), by decide +kernel⟩,
   ⟨(st m0), by decide +kernel⟩,
   ⟨(st paired), by decide +kernel⟩⟩

/-- The hypotheses of FirmwareIsWritten are met, clause by clause. -/
theorem test_firmwareIsWritten_met :
    (∃ n, ∃ (s : State), arrives (.fwWrite n) s.mod = true ∧ running s.mod n 0x71 ∧ secTurn s.mod n = true ∧ Safe s ∧ let q := (s.mod.dax.boxes.get n).body; let k := leAt q 0 1; let size := leAt q 2 2; k ≤ 1 ∧ (s.mod.dax.boxes.get n).len = 8 + size ∧ size ≤ 3584 ∧ leAt q 4 4 + size ≤ 0x600000 ∧ leAt q 1 1 ≤ 1 ∧ (8 ≤ size ∨ leAt q 1 1 = 1) ∧ s.mod.sec.running = true ∧ s.mod.sec.runSlot = k) ∧
    (∃ n, ∃ (s : State), arrives (.fwWrite n) s.mod = true ∧ running s.mod n 0x71 ∧ secTurn s.mod n = true ∧ Safe s ∧ let q := (s.mod.dax.boxes.get n).body; let k := leAt q 0 1; let size := leAt q 2 2; k ≤ 1 ∧ (s.mod.dax.boxes.get n).len = 8 + size ∧ size ≤ 3584 ∧ leAt q 4 4 + size ≤ 0x600000 ∧ (s.mod.sec.running = false ∨ s.mod.sec.runSlot ≠ k) ∧ classCRuns s.mod n = false ∧ size % 8 = 0 ∧ leAt q 1 1 = 1 ∧ leAt q 4 4 = 0) ∧
    (∃ n, ∃ (s : State), arrives (.fwWrite n) s.mod = true ∧ running s.mod n 0x71 ∧ secTurn s.mod n = true ∧ Safe s ∧ let q := (s.mod.dax.boxes.get n).body; let k := leAt q 0 1; let size := leAt q 2 2; k ≤ 1 ∧ (s.mod.dax.boxes.get n).len = 8 + size ∧ size ≤ 3584 ∧ leAt q 4 4 + size ≤ 0x600000 ∧ (s.mod.sec.running = false ∨ s.mod.sec.runSlot ≠ k) ∧ classCRuns s.mod n = false ∧ size % 8 = 0 ∧ leAt q 1 1 = 0 ∧ 8 ≤ size ∧ (s.mod.sec.slots.get k).st = .writing ∧ leAt q 4 4 = (s.mod.sec.slots.get k).next) ∧
    (∃ n, ∃ (s : State), arrives (.firmwareUpdate n) s.mod = true ∧ running s.mod n 0x70 ∧ let q := (s.mod.dax.boxes.get n).body; let k := leAt q 0 1; (s.mod.dax.boxes.get n).len = 2 ∧ k ≤ 1 ∧ leAt q 1 1 ≤ 1 ∧ (s.mod.sec.running = false ∨ s.mod.sec.runSlot ≠ k)) ∧
    (∃ n, ∃ (s : State), arrives (.fwCommit n) s.mod = true ∧ running s.mod n 0x72 ∧ secTurn s.mod n = true ∧ (s.mod.dax.boxes.get n).len = 0 ∧ s.mod.sec.trial = false) ∧
    (∃ n, ∃ (s : State), arrives (.fwCommit n) s.mod = true ∧ running s.mod n 0x72 ∧ secTurn s.mod n = true ∧ (s.mod.dax.boxes.get n).len = 0 ∧ s.mod.sec.trial = true ∧ s.mod.sec.runSlot ≤ 1) ∧
    (∃ n, ∃ (s : State), arrives (.fwStatus n) s.mod = true ∧ running s.mod n 0x73 ∧ secTurn s.mod n = true ∧ (s.mod.dax.boxes.get n).len = 0) :=
  ⟨⟨0, (st (box 0 0x71 ([0, 0, 8, 0, 0, 0, 0, 0] ++ zeros 8) m0)), by decide +kernel⟩,
   ⟨0, (st (box 0 0x71 ([1, 1, 16, 0, 0, 0, 0, 0] ++ List.replicate 16 7) m0)), by decide +kernel⟩,
   ⟨0, (st (onSec (fun x => { x with slots := x.slots.set 1 { st := .writing, next := 0x5FFFF8 } }) (box 0 0x71 ([1, 0, 8, 0, 0xF8, 0xFF, 0x5F, 0] ++ List.replicate 8 7) m0))), by decide +kernel⟩,
   ⟨0, (st (onSec (fun x => { x with slots := x.slots.set 1 { st := .valid } }) (box 0 0x70 [1, 1] m0))), by decide +kernel⟩,
   ⟨0, (st (box 0 0x72 [] m0)), by decide +kernel⟩,
   ⟨0, (st (onSec (fun x => { x with trial := true, runSlot := 1 }) (box 0 0x72 [] m0))), by decide +kernel⟩,
   ⟨0, (st (box 0 0x73 [] m0)), by decide +kernel⟩⟩

/-- The hypotheses of OwnersAndKeys are met, clause by clause. -/
theorem test_ownersAndKeys_met :
    (∃ n, ∃ (s : State), arrives (.enrol n) s.mod = true ∧ running s.mod n 0x74 ∧ secTurn s.mod n = true ∧ let q := (s.mod.dax.boxes.get n).body; (s.mod.dax.boxes.get n).len = 118 ∧ leAt q 0 1 ≤ 1 ∧ leAt q 1 1 ≤ 1 ∧ leAt q 2 2 = 0 ∧ s.mod.sec.enrol.isSome = true) ∧
    (∃ n, ∃ (s : State), arrives (.enrol n) s.mod = true ∧ running s.mod n 0x74 ∧ secTurn s.mod n = true ∧ let q := (s.mod.dax.boxes.get n).body; (s.mod.dax.boxes.get n).len = 118 ∧ leAt q 0 1 ≤ 1 ∧ leAt q 1 1 ≤ 1 ∧ leAt q 2 2 = 0 ∧ s.mod.sec.enrol = none) ∧
    (∃ n, ∃ (s : State), arrives (.quote n) s.mod = true ∧ running s.mod n 0x75 ∧ secTurn s.mod n = true ∧ (s.mod.dax.boxes.get n).len = 32 ∧ s.mod.sec.enrol = none) ∧
    (∃ n, ∃ (s : State), ∃ (e : Enrol), arrives (.quote n) s.mod = true ∧ running s.mod n 0x75 ∧ secTurn s.mod n = true ∧ (s.mod.dax.boxes.get n).len = 32 ∧ s.mod.sec.enrol = some e) ∧
    (∃ n, ∃ (s : State), arrives (.quote n) s.mod = true ∧ secTurn s.mod n = false) ∧
    (∃ n, ∃ (s : State), arrives (.challenge n) s.mod = true ∧ running s.mod n 0x76 ∧ secTurn s.mod n = true ∧ (s.mod.dax.boxes.get n).len = 0) ∧
    (∃ (c : List Byte), ∃ t, ∃ (s : State), arrives .challengeLapse s.mod = true ∧ s.mod.sec.challenge = some (c, t) ∧ passed s.mod.now t (sec 60) = true) ∧
    (∃ (c : List Byte), ∃ t, ∃ (s : State), arrives .challengeLapse s.mod = true ∧ s.mod.sec.challenge = some (c, t) ∧ passed s.mod.now t (sec 60) = false) ∧
    (∃ n, ∃ (s : State), arrives (.decommission n) s.mod = true ∧ running s.mod n 0x77 ∧ secTurn s.mod n = true ∧ (s.mod.dax.boxes.get n).len = 114 ∧ s.mod.mode.mode ≠ .quiesced) ∧
    (∃ n, ∃ (s : State), ∃ (e : Enrol), arrives (.decommission n) s.mod = true ∧ running s.mod n 0x77 ∧ secTurn s.mod n = true ∧ (s.mod.dax.boxes.get n).len = 114 ∧ s.mod.mode.mode = .quiesced ∧ classCRuns s.mod n = false ∧ s.mod.sec.enrol = some e ∧ currentChallenge s.mod = none) ∧
    (∃ n, ∃ (s : State), ∃ (e : Enrol), arrives (.decommission n) s.mod = true ∧ running s.mod n 0x77 ∧ secTurn s.mod n = true ∧ (s.mod.dax.boxes.get n).len = 114 ∧ s.mod.mode.mode = .quiesced ∧ classCRuns s.mod n = false ∧ s.mod.sec.enrol = some e ∧ (currentChallenge s.mod).isSome = true) ∧
    (∃ n, ∃ (s : State), arrives (.policySet n) s.mod = true ∧ running s.mod n 0x78 ∧ secTurn s.mod n = true ∧ let q := (s.mod.dax.boxes.get n).body; (s.mod.dax.boxes.get n).len = 116 ∧ leAt q 0 1 ≤ 1 ∧ leAt q 1 1 = 0 ∧ s.mod.sec.enrol = none) ∧
    (∃ n, ∃ (s : State), ∃ (e : Enrol), arrives (.policySet n) s.mod = true ∧ running s.mod n 0x78 ∧ secTurn s.mod n = true ∧ let q := (s.mod.dax.boxes.get n).body; (s.mod.dax.boxes.get n).len = 116 ∧ leAt q 0 1 ≤ 1 ∧ leAt q 1 1 = 0 ∧ s.mod.sec.enrol = some e ∧ currentChallenge s.mod = none) ∧
    (∃ n, ∃ (s : State), ∃ (e : Enrol), arrives (.policySet n) s.mod = true ∧ running s.mod n 0x78 ∧ secTurn s.mod n = true ∧ let q := (s.mod.dax.boxes.get n).body; (s.mod.dax.boxes.get n).len = 116 ∧ leAt q 0 1 ≤ 1 ∧ leAt q 1 1 = 0 ∧ s.mod.sec.enrol = some e ∧ (currentChallenge s.mod).isSome = true) ∧
    (∃ n, ∃ (c : Instr), ∃ (o : Nat), ∃ (s : State), (c, o) ∈ [(Instr.macsecInstallTxSa n, 0), (Instr.macsecInstallRxSa n, 1), (Instr.macsecDeleteSa n, 2), (Instr.macsecSelectTxSa n, 3)] ∧ arrives c s.mod = true ∧ running s.mod n 0x50 ∧ leAt (s.mod.dax.boxes.get n).body 0 1 = o ∧ macsecFields s.mod (s.mod.dax.boxes.get n) = false) ∧
    (∃ n, ∃ (s : State), arrives (.macsecInstallTxSa n) s.mod = true ∧ running s.mod n 0x50 ∧ let q := (s.mod.dax.boxes.get n).body; let k := (leAt q 2 2, leAt q 1 1); leAt q 0 1 = 0 ∧ macsecFields s.mod (s.mod.dax.boxes.get n) = true) ∧
    (∃ n, ∃ (s : State), arrives (.macsecInstallRxSa n) s.mod = true ∧ running s.mod n 0x50 ∧ let q := (s.mod.dax.boxes.get n).body; let p := leAt q 2 2; let sci := sliceOf q 4 8; let new := s.mod.line.rxSc.any (fun r => r.port == p && r.sci == sci) = false; leAt q 0 1 = 1 ∧ macsecFields s.mod (s.mod.dax.boxes.get n) = true ∧ new ∧ 128 ≤ (stallChannels s.mod (stallOf p)).length) ∧
    (∃ n, ∃ (s : State), arrives (.macsecInstallRxSa n) s.mod = true ∧ running s.mod n 0x50 ∧ let q := (s.mod.dax.boxes.get n).body; let p := leAt q 2 2; let sci := sliceOf q 4 8; let new := s.mod.line.rxSc.any (fun r => r.port == p && r.sci == sci) = false; leAt q 0 1 = 1 ∧ macsecFields s.mod (s.mod.dax.boxes.get n) = true ∧ (¬ new ∨ (stallChannels s.mod (stallOf p)).length < 128)) ∧
    (∃ n, ∃ (s : State), arrives (.macsecDeleteSa n) s.mod = true ∧ running s.mod n 0x50 ∧ let q := (s.mod.dax.boxes.get n).body; let k := (leAt q 2 2, leAt q 1 1); let sci := sliceOf q 4 8; let rx := s.mod.line.rxSc.any (fun r => r.port == k.1 && r.sci == sci && (r.sas.get k.2).isSome); let tx := (s.mod.line.txSa.get k).any (fun a => a.sci == sci); leAt q 0 1 = 2 ∧ macsecFields s.mod (s.mod.dax.boxes.get n) = true ∧ (allZero (sliceOf q 0x20 32) = false ∨ (rx = false ∧ tx = false))) ∧
    (∃ n, ∃ (s : State), arrives (.macsecDeleteSa n) s.mod = true ∧ running s.mod n 0x50 ∧ let q := (s.mod.dax.boxes.get n).body; let k := (leAt q 2 2, leAt q 1 1); let sci := sliceOf q 4 8; let rx := s.mod.line.rxSc.any (fun r => r.port == k.1 && r.sci == sci && (r.sas.get k.2).isSome); let tx := (s.mod.line.txSa.get k).any (fun a => a.sci == sci); leAt q 0 1 = 2 ∧ macsecFields s.mod (s.mod.dax.boxes.get n) = true ∧ allZero (sliceOf q 0x20 32) = true ∧ rx = true) ∧
    (∃ n, ∃ (s : State), arrives (.macsecDeleteSa n) s.mod = true ∧ running s.mod n 0x50 ∧ let q := (s.mod.dax.boxes.get n).body; let k := (leAt q 2 2, leAt q 1 1); let sci := sliceOf q 4 8; let rx := s.mod.line.rxSc.any (fun r => r.port == k.1 && r.sci == sci && (r.sas.get k.2).isSome); let tx := (s.mod.line.txSa.get k).any (fun a => a.sci == sci); leAt q 0 1 = 2 ∧ macsecFields s.mod (s.mod.dax.boxes.get n) = true ∧ allZero (sliceOf q 0x20 32) = true ∧ rx = false ∧ tx = true) ∧
    (∃ n, ∃ (s : State), arrives (.macsecSelectTxSa n) s.mod = true ∧ running s.mod n 0x50 ∧ let q := (s.mod.dax.boxes.get n).body; let k := (leAt q 2 2, leAt q 1 1); leAt q 0 1 = 3 ∧ macsecFields s.mod (s.mod.dax.boxes.get n) = true ∧ (allZero (sliceOf q 0x20 32) = false ∨ s.mod.line.txSa.get k = none)) ∧
    (∃ n, ∃ (s : State), arrives (.macsecSelectTxSa n) s.mod = true ∧ running s.mod n 0x50 ∧ let q := (s.mod.dax.boxes.get n).body; let k := (leAt q 2 2, leAt q 1 1); leAt q 0 1 = 3 ∧ macsecFields s.mod (s.mod.dax.boxes.get n) = true ∧ allZero (sliceOf q 0x20 32) = true ∧ (s.mod.line.txSa.get k).isSome = true) :=
  ⟨⟨0, (st (onSec (fun x => { x with enrol := some owner }) (box 0 0x74 (zeros 118) m0))), by decide +kernel⟩,
   ⟨0, (st (box 0 0x74 ([1, 1] ++ zeros 116) m0)), by decide +kernel⟩,
   ⟨0, (st (box 0 0x75 (zeros 32) m0)), by decide +kernel⟩,
   ⟨0, (st (onSec (fun x => { x with enrol := some owner }) (box 0 0x75 (zeros 32) m0))), owner, by decide +kernel⟩,
   ⟨1, (st (box 1 0x75 (zeros 32) (setBox 0 (fun k => { k with order := 0 }) (box 0 0x77 (zeros 114) m0)))), by decide +kernel⟩,
   ⟨0, (st (box 0 0x76 [] m0)), by decide +kernel⟩,
   ⟨(zeros 32), (sec 40), (st (onSec (fun x => { x with challenge := some (zeros 32, sec 40) }) m0)), by decide +kernel⟩,
   ⟨(zeros 32), (sec 40 + 1), (st (onSec (fun x => { x with challenge := some (zeros 32, sec 40 + 1) }) m0)), by decide +kernel⟩,
   ⟨0, (st (box 0 0x77 (zeros 114) m0)), by decide +kernel⟩,
   ⟨0, (st (onMode (fun k => { k with mode := .quiesced, target := .quiesced }) (onSec (fun x => { x with enrol := some owner }) (box 0 0x77 (zeros 114) m0)))), owner, by decide +kernel⟩,
   ⟨0, (st (onMode (fun k => { k with mode := .quiesced, target := .quiesced }) (onSec (fun x => { x with enrol := some owner, challenge := some (zeros 32, sec 99) }) (box 0 0x77 (zeros 114) m0)))), owner, by decide +kernel⟩,
   ⟨0, (st (box 0 0x78 (zeros 116) m0)), by decide +kernel⟩,
   ⟨0, (st (onSec (fun x => { x with enrol := some owner }) (box 0 0x78 ([1] ++ zeros 115) m0))), owner, by decide +kernel⟩,
   ⟨0, (st (onSec (fun x => { x with enrol := some owner, challenge := some (zeros 32, sec 99) }) (box 0 0x78 ([1] ++ zeros 115) m0))), owner, by decide +kernel⟩,
   ⟨0, (.macsecDeleteSa 0), 2, (st (box 0 0x50 ([2, 4] ++ zeros 70) secured)), by decide +kernel⟩,
   ⟨0, (st (box 0 0x50 ([0, 3] ++ zeros 70) secured)), by decide +kernel⟩,
   ⟨0, (st (box 0 0x50 ([1, 3] ++ zeros 70) (let y := secured; { y with line := { y.line with rxSc := List.replicate 128 { port := 1, sci := [] } } }))), by decide +kernel⟩,
   ⟨0, (st (box 0 0x50 ([1, 3] ++ zeros 70) secured)), by decide +kernel⟩,
   ⟨0, (st (box 0 0x50 ([2, 2] ++ zeros 70) (sa3 secured))), by decide +kernel⟩,
   ⟨0, (st (box 0 0x50 ([2, 3] ++ zeros 70) (let y := (sa3 secured); { y with line := { y.line with rxSc := [{ port := 0, sci := zeros 8, sas := (Map.const none).set 3 (some { ssci := zeros 4, salt := zeros 12, key := zeros 32, low := 1 }) }] } }))), by decide +kernel⟩,
   ⟨0, (st (box 0 0x50 ([2, 3] ++ zeros 70) (sa3 secured))), by decide +kernel⟩,
   ⟨0, (st (box 0 0x50 ([3, 2] ++ zeros 70) (sa3 secured))), by decide +kernel⟩,
   ⟨0, (st (box 0 0x50 ([3, 3] ++ zeros 70) (sa3 secured))), by decide +kernel⟩⟩

/-! ### Hypotheses of the general statements -/

/-- The hypotheses of EventsAreLogged are met, clause by clause. -/
theorem test_eventsAreLogged_met :
    (∃ e : Evt, e.blk ≠ 0) ∧
    (∃ (l : Level) (e : Evt) (x : Mod), e.blk ≠ 31 ∧ (x.logs.get l).busyIn x.cyc = false) ∧
    (∃ g : TLog, g.recs.length ≤ 64 ∧ g.writes 5 7 0 0 = false) ∧
    (∃ g : TLog, g.recs.length ≤ 64 ∧ g.writes 5 7 1 0 = true ∧ g.recs.length < 64) ∧
    (∃ (g : TLog) (o : TRec), g.recs.length ≤ 64 ∧ g.writes 5 7 1 0 = true ∧ o ∈ g.recs.head? ∧ g.recs.length = 64) :=
  ⟨⟨⟨9, 3, 1⟩, by decide⟩, ⟨.yard, ⟨9, 3, 1⟩, State.reset.mod, by decide, by decide⟩, ⟨{ notices := [(7, 0, 5)] }, by decide⟩, ⟨{}, by decide⟩,
   ⟨{ recs := List.replicate 64 { seq := 1, sev := 3, code := 209, time := 0, detail := 0 } }, _, by decide, by decide, rfl, by decide⟩⟩

/-- The hypotheses of StepsKeepTheBuffers are met, with a command at the front and with none. -/
theorem test_stepsKeepTheBuffers_met :
    (∃ s t : State, Safe s ∧ step s = .next t) ∧ (∃ s t : State, s.pending ≠ [] ∧ Safe s ∧ step s = .next t) :=
  ⟨⟨st m0, _, by decide, rfl⟩, ⟨{ st m0 with pending := [.refLock] }, _, by decide, by decide, rfl⟩⟩

/-! ### Ill-formed commands: each check refuses one -/

theorem test_wf_line : (Instr.frameReceive 1038 { bytes := [1] } .plain).wf = false ∧ (Instr.frameReceive 0 { bytes := [] } .plain).wf = false ∧
    (Instr.pauseFrameReceive 1024 [1]).wf = false ∧ (Instr.pauseExpiry 0 (some 8)).wf = false ∧ (Instr.portUp 1024).wf = false ∧
    (Instr.laneLockLoss 1024).wf = false ∧ (Instr.pipeStepDown 128).wf = false := by decide

theorem test_wf_counters : (Instr.counterSpill (.lne 128 0 0)).wf = false ∧ (Instr.counterSpill (.lne 0 8 0)).wf = false ∧
    (Instr.counterSpill (.que 1038 0 0)).wf = false ∧ (Instr.counterSpill (.que 0 16 0)).wf = false ∧
    (Instr.counterSpill (.ost 0 4 0)).wf = false ∧ (Instr.counterSpill (.named 0 1048576 true)).wf = false ∧
    (Instr.counterLoRead (.ringWb 88)).wf = false ∧ (Instr.latchRead (.pwrLog 16)).wf = false ∧
    (Instr.latchRead (.capSec 5)).wf = false := by decide

theorem test_wf_registers : (Instr.evtSeqWrite .yard 7 0).wf = false ∧ (Instr.evtSeqWrite (.shed 8) 5 0).wf = false ∧
    (Instr.registerWrite 0xFFFFFFF [none, none] false).wf = false ∧ (Instr.setAliasWrite 0x2000 0).wf = false ∧
    (Instr.clearAliasWrite 0x2001 0).wf = false ∧ (Instr.toggleAliasWrite 0x10003000 0).wf = false ∧
    (Instr.troubleRecordPop (.stall 128)).wf = false ∧ (Instr.mailboxBufferWrite 0x10000 []).wf = false := by decide

theorem test_wf_yard : (Instr.handshakeTimeout 0x502 0 0 0).wf = false ∧ (Instr.handshakeTimeout 0 0 3 0).wf = false ∧
    (Instr.cellDec 0 196608 0).wf = false ∧ (Instr.loftAudit 8).wf = false ∧ (Instr.loftBankStop 0 12).wf = false ∧
    (Instr.yardCellReceive 0 7 (slotWith [])).wf = false ∧ (Instr.yardCellReceive 8 0 (slotWith [])).wf = false ∧
    (Instr.drawbarTrainingDone 28).wf = false ∧ (Instr.queueUseRecountDone 0 16).wf = false ∧
    (Instr.ticketBlockEnd 0 32768).wf = false ∧ (Instr.freezeEnd 0 16384 0).wf = false ∧
    (Instr.aclParityRepair 0 16 0).wf = false := by decide

theorem test_wf_host : (Instr.hello 15).wf = false ∧ (Instr.doorbellRing 16).wf = false ∧ (Instr.ringEnable 88 0).wf = false ∧
    (Instr.injectDescriptorFetch 64 (zeros 32) []).wf = false ∧ (Instr.injectDescriptorFetch 0 (zeros 31) []).wf = false ∧
    (Instr.hostLinkUp 6 8).wf = false ∧ (Instr.hostLinkUp 5 3).wf = false ∧ (Instr.vectorUnmask 2048).wf = false ∧
    (Instr.ostlerConditionMet 0 4).wf = false ∧ (Instr.verificationDone 2).wf = false := by decide

theorem test_wf_power : (Instr.domainStopDrained 448).wf = false ∧ (Instr.domainWakeRequest 7 0).wf = false ∧
    (Instr.leaveRequest 0 0).wf = false ∧ (Instr.leaveRequest 2 16).wf = false ∧ (Instr.faceSensorRead true [1]).wf = false ∧
    (Instr.replicaCompare 17).wf = false ∧ (Instr.pulseOutputArm 8 0).wf = false ∧ (Instr.captureInputEdge 5 true).wf = false ∧
    (Instr.lossMarkerWrite 16).wf = false := by decide

/-- An ill-formed command has no effect (log 3). -/
theorem test_ill_formed_does_nothing : exec (.portUp 1024) (st m0) = .next (st m0) := by rfl

/-! ### The spec's worked examples -/

/-- 00, after R17: the addresses of the register at 0x010 of the third group of stall 3:11 and of its SET alias. -/
theorem test_example_alias_addresses :
    regAt 0x04AC8010 = some ⟨.stall 59, 0x8000, 0x010⟩ ∧ plainOff 0x04AC9010 = 0x04AC8010 ∧ viewAt 0x04AC9010 = 1 ∧
      viewAt 0x04ACA010 = 2 ∧ viewAt 0x04ACB010 = 3 := by decide +kernel

/-- 02, after R53: a counter's harvest word 0x12_0000_0000 and accumulator 0x0_FFFF_FFF0 read as one value. -/
theorem test_example_counter_read :
    let c : Counter := { hw := 0x1200000000, acc := 0xFFFFFFF0 }
    c.value = 0x12FFFFFFF0 ∧ (c.add 64).acc = 0x100000030 := by decide +kernel

/-- 02, after R59: 1,000 quanta at 400 Gb/s last 1,280 ns, a 9,000-byte frame 180 ns. -/
theorem test_example_pause : bytesTime 400 (64 * 1000) = 1280 * 1000 ∧ bytesTime 400 9000 = 180 * 1000 := by decide

/-- 04, after R130: a move at the end of the 1,000 us window is contested, one 50 us later is not. -/
theorem test_example_move_hold :
    contested 1000 0 (us 300) = true ∧ contested 1000 0 (us 1000) = true ∧ contested 1000 0 (us 1050) = false := by decide

/-- 06, after R215: shed 2's cells 900 to 907 to shed 6 go by sheds 1, 3, 4, 5, 6, 7, 2 and 0. -/
theorem test_example_intermediates :
    (List.range 8).map (fun k => interOf m0 2 6 (900 + k)) = [1, 3, 4, 5, 6, 7, 2, 0].map some := by decide +kernel

/-- 07, after R244: a bucket of 3,040 bytes at 10 Gb/s charged with 1,520 bytes, refilled, and charged below zero. -/
theorem test_example_shaper :
    let k : Node := { rate := 10000, burst := 3040, shape := true }
    let s1 : Shaper := { tok := mbits 3040 - mbits 1520 }
    let six := fun s : Shaper => (List.replicate 6 ()).foldl (fun a _ => refillShaper k a) s
    s1.tok = 12160000 ∧ (six s1).tok = 12460000 ∧ (six { tok := (six s1).tok - mbits 1520 }).tok = 600000 := by decide +kernel

/-- 07, after R250: frames 1, 7, 13 and 14 of the trTCM example. -/
theorem test_example_meter :
    let k : MeterCfg := { tr := true, aware := false, acts := 0, cir := 1000, cbs := 10000, pir := 2000, ebs := 20000, ctr := 0 }
    (meterDecide k k.full 0 1500).1 = 0 ∧
    meterDecide k { c := 8180000, e := 88360000 } 0 1500 = (1, 2, { c := 8180000, e := 76360000 }) ∧
    (meterDecide k { c := 8360000, e := 16720000 } 0 1500).2.2.e = 4720000 ∧
    (meterDecide k { c := 8395000, e := 4790000 } 0 1500).1 = 2 ∧
    refillMeter k { c := 0, e := 0 } = { c := 5000, e := 10000 } := by decide +kernel

/-- 10, after R338: sequence 3 is newer than 0xFFFF_FFFE. -/
theorem test_example_sequence : serialNewer (3 : Word) 0xFFFFFFFE = true := by decide

/-- 13, after R415: events 0x41 to 0x44 and a write of 0x0042 to EVT_SEQ. -/
theorem test_example_evt_seq :
    let r : EvtReg := (({ seq := 0x40 : EvtReg }.hit 0 0).hit 2 1).hit 1 2
    let w := (r.hit 2 3).clear 0x42
    r.seq = 0x43 ∧ w.seq = 0x44 ∧ evtBits w = 6 ∧ w.bits.get 0 = none ∧ w.bits.get 2 = some 0x44 := by decide +kernel

/-- 15, after R476: island 0xA52 is that of stall 5:2, in domain 210. -/
theorem test_example_island : islandDomain 0xA52 = 210 ∧ islandLevel 0xA52 = .stall 82 := by decide

/-- 17, after R526: the codes of MCHECK and MCHECK_REPEAT. -/
theorem test_example_codes : 16 * evMcheck.blk + evMcheck.bit = 211 ∧ 16 * evMcheckRepeat.blk + evMcheckRepeat.bit = 209 := by decide

end Sys2Proof.Tests
end

section
/-! Proofs about the flip and the drain of a timetable (10 R333, R336, R337). Both run through most of the module: ports go down,
copies are dropped, edits are caught up, leave is asked, waves begin. What the statement needs of all that is little, and is
the relation `Calm`: the timetable state and the journal stay, and no event is cleared. Each operation that a flip or a drain calls
has its lemma `Calm.<operation>`. -/

namespace Sys2Proof.Machine

-- One theorem at a time: each thread that elaborates another reserves a stack, and their sum has a limit.
set_option Elab.async false

/-- From `x` to `y` the timetable state and the journal stay as they are, and no event is cleared. -/
structure Calm (x y : Mod) : Prop where
  tt : y.tt = x.tt
  journal : y.tbl.journal = x.tbl.journal
  jNext : y.tbl.jNext = x.tbl.jNext
  evts : ∀ l e, evtSet l e x = true → evtSet l e y = true

/-- The part of the module that `Calm` speaks of. -/
def calmPart (x : Mod) : TtSt × List (List Byte) × Nat × Map (Level × Nat) EvtReg := (x.tt, x.tbl.journal, x.tbl.jNext, x.evts)

namespace Calm

variable {x y z : Mod}

theorem refl (x : Mod) : Calm x x := ⟨rfl, rfl, rfl, fun _ _ h => h⟩

theorem trans (h : Calm x y) (k : Calm y z) : Calm x z :=
  ⟨k.tt.trans h.tt, k.journal.trans h.journal, k.jNext.trans h.jNext, fun l e w => k.evts l e (h.evts l e w)⟩

/-- An update of another part of the module is calm. -/
theorem same (h : Calm x y) (e : calmPart z = calmPart y := by rfl) : Calm x z := by
  simp only [calmPart, Prod.mk.injEq] at e
  obtain ⟨htt, hj, hn, hev⟩ := e
  exact ⟨htt.trans h.tt, hj.trans h.journal, hn.trans h.jNext, fun l e w => by rw [evtSet, hev]; exact h.evts l e w⟩

theorem ite {c : Prop} [Decidable c] (h : Calm x y) (k : Calm x z) : Calm x (if c then y else z) := by
  split
  · exact h
  · exact k

theorem ite_fst {α : Type} {c : Prop} [Decidable c] {p q : Mod × α} (h : Calm x p.1) (k : Calm x q.1) :
    Calm x (if c then p else q).1 := by
  split
  · exact h
  · exact k

theorem ite_snd {α : Type} {c : Prop} [Decidable c] {p q : α × Mod} (h : Calm x p.2) (k : Calm x q.2) :
    Calm x (if c then p else q).2 := by
  split
  · exact h
  · exact k

theorem of_snd {α : Type} {a : α} {p : α × Mod} (e : p = (a, y)) (h : Calm x p.2) : Calm x y := by rwa [e] at h

theorem foldl {β : Type} {f : Mod → β → Mod} {l : List β} (step : ∀ a e, Calm x a → Calm x (f a e)) (h : Calm x y) :
    Calm x (l.foldl f y) :=
  List.foldlRecOn l f h (fun a ha e _ => step a e ha)

/-- The same change of the timetable state on both sides. -/
theorem setTt (f : TtSt → TtSt) (h : Calm x y) : Calm (setTt f x) (setTt f y) :=
  ⟨congrArg f h.tt, h.journal, h.jNext, h.evts⟩

/-! ### Updates of one piece -/

theorem setBox {m : Nat} {f : Mailbox → Mailbox} (h : Calm x y) : Calm x (setBox m f y) := .same h

theorem setDom {d : Nat} {f : Dom → Dom} (h : Calm x y) : Calm x (setDom d f y) := .same h

theorem setPwr {f : Pwr → Pwr} (h : Calm x y) : Calm x (setPwr f y) := .same h

theorem setLoft {s : Nat} {g : Loft → Loft} (h : Calm x y) : Calm x (setLoft s g y) := .same h

theorem setFrame {f : Nat} {g : Frame → Frame} (h : Calm x y) : Calm x (setFrame f g y) := .same h

theorem dropFrame {f : Nat} (h : Calm x y) : Calm x (dropFrame f y) := .same h

theorem setShaper {p lvl n : Nat} {f : Shaper → Shaper} (h : Calm x y) : Calm x (setShaper p lvl n f y) := .same h

theorem setPointer {p arb prio child : Nat} (h : Calm x y) : Calm x (setPointer p arb prio child y) := .same h

theorem setHalf {s k : Nat} {g : Half → Half} (h : Calm x y) : Calm x (setHalf s k g y) := .same h

theorem setPort {p : Nat} {f : PortSt → PortSt} (h : Calm x y) : Calm x (setPort p f y) := .same h

theorem setCapRing {r : Nat} {g : CapRing → CapRing} (h : Calm x y) : Calm x (setCapRing r g y) := .same h

theorem setCap {s : Nat} {g : ShedCap → ShedCap} (h : Calm x y) : Calm x (setCap s g y) := .same h

theorem buffer {r : Nat} {l : List Byte} (h : Calm x y) : Calm x (buffer r l y) := .same h

theorem askGen {s : Nat} (h : Calm x y) : Calm x (askGen s y) := .same h

theorem tally {c : CtrId} (h : Calm x y) : Calm x (tally c y) := .same h

theorem setTkt {s : Nat} {g : TktCache → TktCache} (h : Calm x y) : Calm x (setTkt s g y) := .same h

theorem setTrb {s : Nat} {f : ShedTrb → ShedTrb} (h : Calm x y) : Calm x (setTrb s f y) := .same h

theorem setCpl {f : Cpl → Cpl} (h : Calm x y) : Calm x (setCpl f y) := .same h

theorem dropMeta {key : List Byte} (h : Calm x y) : Calm x (dropMeta key y) := .same h

theorem dropLeaves {m : Nat} (h : Calm x y) : Calm x (dropLeaves m y) := .same h

theorem setStage {n : Nat} (h : Calm x y) : Calm x (setStage n y) := .same h

theorem lanesTrain {g : Nat} (h : Calm x y) : Calm x (lanesTrain g y) := .same h

theorem withLine {l : Line} (h : Calm x y) : Calm x { y with line := l } := .same h

theorem withQue {q : Que} (h : Calm x y) : Calm x { y with que := q } := .same h

theorem withOld {m : Map Nat (List Ent)} (h : Calm x y) : Calm x { y with tbl := { y.tbl with old := m } } := .same h

/-! ### Events, counters, power -/

theorem raiseQuiet {l : Level} {e : Evt} {w : Option Word} {a : Nat} (h : Calm x y) : Calm x (raiseQuiet l e w a y) :=
  ⟨by simp [h.tt], by simp [h.journal], by simp [h.jNext], fun k d hd => by simp [raiseQuiet_evtSet, h.evts k d hd]⟩

theorem notify {n : Notif} (h : Calm x y) : Calm x (notify n y) :=
  .ite (.same h) (.raiseQuiet (.same h))

theorem raise {l : Level} {e : Evt} (h : Calm x y) : Calm x (raise l e y) :=
  .ite (.notify (.raiseQuiet h)) (.raiseQuiet h)

theorem signal {n : Nat} (h : Calm x y) : Calm x (signal n y) :=
  .ite h (.ite (.same h) (.same h))

theorem countPort {c : Nat → Nat → CtrId} {p i n : Nat} (h : Calm x y) : Calm x (countPort c p i n y) :=
  .ite (.same h) h

theorem wakeAborts {src d : Nat} (h : Calm x y) : Calm x (wakeAborts src d y) :=
  .ite (.same h) (.raise (.same h))

theorem wakeOrWait {src d : Nat} (h : Calm x y) : Calm x (wakeOrWait src d y) :=
  .ite (.same h) (.same h)

theorem askWakeUp {n src d : Nat} (h : Calm x y) : Calm x (askWakeUp n src d y) := by
  induction n generalizing y d with
  | zero => exact h
  | succ n ih =>
    unfold Machine.askWakeUp
    split
    · exact h
    · exact h
    · exact h.wakeAborts
    · split
      · exact h.wakeOrWait
      · have hp : ∀ p f, Calm x (Machine.askWakeUp n src p (Machine.setDom d f y)) := fun _ _ => ih h.setDom
        exact .ite h.wakeOrWait (.ite (hp _ _).wakeOrWait (hp _ _))

theorem askWake {src d : Nat} (h : Calm x y) : Calm x (askWake src d y) := h.askWakeUp

theorem refuseLeave {op unit reason : Nat} {mbx : Option Nat} (h : Calm x y) : Calm x (refuseLeave op unit reason mbx y) := by
  have h1 : Calm x (Machine.raise .yard evLeaveRefused (pwrLog (leaveDomain op unit) reason 2 0 op (Machine.tally (.pwr 6) y))) :=
    .raise (.same h)
  unfold Machine.refuseLeave
  split
  · exact h1.notify
  · exact h1

theorem askLeave {op unit : Nat} {mbx : Option Nat} (h : Calm x y) : Calm x (askLeave op unit mbx y).2 := by
  unfold Machine.askLeave
  split
  · exact .same h
  · exact .same h
  · exact h.refuseLeave

theorem stopOrWait {by_ : StopBy} {d : Nat} (h : Calm x y) : Calm x (stopOrWait by_ d y) :=
  .ite (.same h) (.same h)

theorem enterMode {m : Mode} {cause : Nat} (h : Calm x y) : Calm x (enterMode m cause y) :=
  .ite (.notify (.same h)) (.same h)

theorem complete {m st : Nat} {body : List Byte} {q : Mod × List Host.Cell} (h : Calm x q.1) : Calm x (complete m st body q).1 := by
  unfold Machine.complete
  dsimp only
  split
  · exact .same h
  · exact .signal (.same h)

/-! ### The Loft and the end of copies -/

theorem loftBankWake {s : Nat} (h : Calm x y) : Calm x (loftBankWake s y) := by
  unfold Machine.loftBankWake
  dsimp only
  split
  · split
    · exact .same h
    · split
      · exact .askWake (.same h)
      · exact .same h
  · exact h

theorem loftWatch {s : Nat} (h : Calm x y) : Calm x (loftWatch s y) := by
  unfold Machine.loftWatch
  have h1 : ∀ g, Calm x (Machine.setLoft s g y) := fun _ => h.setLoft
  exact .loftBankWake (.ite (.raise (.ite (h1 _).raise (h1 _))) (.ite (h1 _).raise (h1 _)))

theorem dropHeld {s f : Nat} (h : Calm x y) : Calm x (dropHeld s f y) := by
  unfold Machine.dropHeld
  split
  · exact .ite (.same h) h
  · exact h

theorem dropHead {s f c : Nat} (h : Calm x y) : Calm x (dropHead s f c y) := by
  unfold Machine.dropHead
  split
  · exact h
  · exact .loftWatch (.dropHeld (.same h))

theorem decCell {s cell requester : Nat} (h : Calm x y) : Calm x (decCell s cell requester y) :=
  .ite (.raise (.same h)) (.ite (.raise (.same h)) (.same h))

theorem tidyFrame {f : Nat} (h : Calm x y) : Calm x (tidyFrame f y) := by
  unfold Machine.tidyFrame
  split
  · exact h
  · exact .ite (.same h) h

theorem settleDesc {s f : Nat} (h : Calm x y) : Calm x (settleDesc s f y) := by
  unfold Machine.settleDesc
  split
  · exact h
  · exact .ite (.same h) h

theorem finishCopy {f c requester : Nat} (h : Calm x y) : Calm x (finishCopy f c requester y) := by
  unfold Machine.finishCopy
  split
  · rename_i k fr _ _
    have h1 : Calm x (Machine.dropHead (shedOfPort fr.port) f c (setCopy f c (fun k => { k with st := .done }) y)) :=
      .dropHead (.same h)
    refine .ite h (.tidyFrame (.settleDesc ?_))
    split
    · exact .foldl (fun _ _ ha => ha.decCell) h1
    · exact h1
  · exact h

theorem abandonFrame {f : Nat} (h : Calm x y) : Calm x (abandonFrame f y) := by
  unfold Machine.abandonFrame
  split
  · exact h
  · refine .tidyFrame (.foldl (fun _ _ ha => ha.settleDesc) (.setFrame (.foldl (fun a e ha => ?_) h)))
    exact .ite ha (.finishCopy (.same ha))

/-! ### Capture records -/

theorem writeMarker {r : Nat} (h : Calm x y) : Calm x (writeMarker r y) := .ite h (.same h)

theorem offerRecord {r : Nat} {hdr data : List Byte} (h : Calm x y) : Calm x (offerRecord r hdr data y) :=
  .ite h (.ite (.buffer (.setCapRing h.writeMarker)) (.raise (.setCapRing (.setCapRing h.writeMarker))))

theorem mirrorsReady {f c dropped : Nat} {txLast : Option Nat} (h : Calm x y) : Calm x (mirrorsReady f c dropped txLast y) := by
  unfold Machine.mirrorsReady
  split
  · exact h
  · refine .foldl (fun a i ha => ?_) h
    split
    · exact ha
    · refine .ite ha (.ite (.ite ha.finishCopy ha) ?_)
      split
      · exact .finishCopy ha.offerRecord
      · exact .finishCopy ha.offerRecord
      · exact .same ha

theorem preciseRecord {f : Nat} {fr : Frame} {c : Option Copy} {cause n : Nat} {txLast : Option Nat} (h : Calm x y) :
    Calm x (preciseRecord f fr c cause n txLast y) :=
  .ite h (.setCap (.ite h h.offerRecord))

theorem dropCopy {f c cause ctr : Nat} (h : Calm x y) : Calm x (dropCopy f c cause ctr y) := by
  unfold Machine.dropCopy
  split
  · rename_i k fr _ _
    have h3 : ∀ q, calmPart q = calmPart y → Calm x (Machine.mirrorsReady f c cause none q) := fun _ hq => .mirrorsReady (.same h hq)
    have h2 : ∀ q, calmPart q = calmPart y → Calm x (if othersLeft fr c then Machine.mirrorsReady f c cause none q
        else Machine.preciseRecord f fr (some k) cause fr.bytes.length none (Machine.mirrorsReady f c cause none q)) :=
      fun q hq => .ite (h3 q hq) (h3 q hq).preciseRecord
    refine .finishCopy (h2 _ ?_)
    split <;> rfl
  · exact h

/-! ### Ports going down -/

theorem clearDeficits {p : Nat} (h : Calm x y) : Calm x (clearDeficits p y) :=
  .foldl (fun _ _ ha => .ite ha (.same ha)) (.foldl (fun _ _ ha => .ite ha (.same ha)) h)

theorem pruneQueue {p q : Nat} {keep : List QEnt → List QEnt} (h : Calm x y) : Calm x (pruneQueue p q keep y) :=
  .clearDeficits (.same h)

theorem flushQueues {p cause ctr : Nat} (h : Calm x y) : Calm x (flushQueues p cause ctr y) :=
  .foldl (fun _ _ ha => .foldl (fun _ _ hb => .dropCopy (.pruneQueue hb)) ha) h

theorem cutReception {p : Nat} (h : Calm x y) : Calm x (cutReception p y) :=
  .foldl (fun _ _ ha => .ite (.same ha) ha) h

theorem laneLoses {lane : Nat} (h : Calm x y) : Calm x (laneLoses lane y) := by
  refine .ite h ?_
  dsimp only
  split
  · exact .cutReception (.countPort (.same h))
  · exact .same h

theorem abortTx {p : Nat} (h : Calm x y) : Calm x (abortTx p y) := by
  unfold Machine.abortTx
  split
  · exact h
  · dsimp only
    split
    · split
      · exact .same h
      · split
        · exact .same h
        · have h1 : ∀ g, Calm x (Machine.setPort p g y) := fun _ => .setPort h
          refine .ite (.dropCopy (.countPort (.setFrame ?_))) (.setFrame ?_)
          all_goals
            split
            · exact .setHalf (h1 _)
            · exact h1 _
    · exact .dropCopy (.same h)
    · exact .same h

theorem correctMeter {s : Nat} {bank : Option Nat} {e : Nat × Nat × Nat} {len : Nat} (h : Calm x y) :
    Calm x (correctMeter s bank e len y) := by
  unfold Machine.correctMeter
  split
  · exact h
  · exact .same h

theorem correctMeters {f : Nat} {fr : Frame} {len : Nat} (h : Calm x y) : Calm x (correctMeters f fr len y) :=
  .foldl (fun _ _ ha => ha.correctMeter) (.same h)

theorem withdrawCopy {f : Nat} {e : Nat × Copy} (h : Calm x y) : Calm x (withdrawCopy f y e) :=
  .finishCopy (.ite h.pruneQueue h)

theorem discardCopies {f : Nat} (h : Calm x y) : Calm x (discardCopies f y) := by
  unfold Machine.discardCopies
  split
  · exact h
  · exact .tidyFrame (.settleDesc (.foldl (fun _ _ ha => .ite ha ha.withdrawCopy) h))

theorem pauseUpdate {s p cls before : Nat} (h : Calm x y) : Calm x (pauseUpdate s p cls before y) :=
  .ite h (.ite (.same h) (.ite (.ite (.same h) (.ite (.same h) (.same h))) h))

theorem setUse {s p cls pool : Nat} {f : Nat → Nat} (h : Calm x y) : Calm x (setUse s p cls pool f y) :=
  .ite (.pauseUpdate (.same h)) (.same h)

theorem releaseUnwritten {s f : Nat} (h : Calm x y) : Calm x (releaseUnwritten s f y) := by
  unfold Machine.releaseUnwritten
  split
  · exact h
  · exact .ite h (.loftWatch (.setUse (.same h)))

theorem writeCells {s f n : Nat} (h : Calm x y) : Calm x (writeCells s f n y) := by
  unfold Machine.writeCells
  split
  · exact h
  · exact .ite h (.loftWatch (.setUse (.same h)))

theorem settleCells {s f n : Nat} (h : Calm x y) : Calm x (settleCells s f n y) := h.writeCells.releaseUnwritten

theorem stompTx {p cap at_ : Nat} (h : Calm x y) : Calm x (stompTx p cap at_ y) := by
  unfold Machine.stompTx
  split
  · exact h
  · exact .same h

theorem stompSending {f : Nat} (h : Calm x y) : Calm x (stompSending f y) := by
  unfold Machine.stompSending
  refine .foldl (fun a p ha => ?_) h
  split
  · exact .ite ha.stompTx ha
  · exact ha

theorem endBad {f : Nat} {fr : Frame} {len : Nat} (h : Calm x y) : Calm x (endBad f fr len y) := by
  unfold Machine.endBad
  exact .discardCopies (.settleCells (.stompSending (.setFrame h.correctMeters)))

theorem endCut {p : Nat} (h : Calm x y) : Calm x (endCut p y) := by
  refine .foldl (fun a e ha => .ite ?_ ha) h
  have h1 : ∀ n, Calm x (Machine.countPort lneCtr p 22 1 (Machine.countPort lneCtr p 28 n a)) := fun _ => ha.countPort.countPort
  exact .ite (.dropFrame (.ite (h1 _).countPort (h1 _))) (.endBad (.ite (h1 _).countPort (h1 _)))

theorem decideLag {g : Nat} (h : Calm x y) : Calm x (decideLag y g) := .ite (.same h) (.same h)

theorem lagsFollow {p : Nat} (h : Calm x y) : Calm x (lagsFollow p y) := .ite (.foldl (fun _ _ ha => ha.decideLag) h) h

theorem portGoesDown {p cause ctr : Nat} (h : Calm x y) : Calm x (portGoesDown p cause ctr y) :=
  .ite h (.lagsFollow (.notify (.raise (.setPort h.cutReception.endCut.abortTx.flushQueues))))

theorem lanesIdle {g : Nat} (h : Calm x y) : Calm x (lanesIdle g y) :=
  .withLine (.foldl (fun _ _ ha => ha.portGoesDown) (.foldl (fun _ _ ha => ha.laneLoses) h))

/-! ### Table edits -/

theorem movePointer {p arb arb' prio prio' i from_ : Nat} {left joined : List Nat} (h : Calm x y) :
    Calm x (movePointer p arb arb' prio prio' i from_ left joined y) :=
  .ite (.same h) (.same h)

theorem changeNode {p lvl i : Nat} {b : Node} (h : Calm x y) : Calm x (changeNode p lvl i b y) := by
  unfold Machine.changeNode
  refine .ite (.foldl (fun _ _ ha => ha.askGen) (.setShaper ?_)) (.setShaper ?_)
  all_goals
    refine .ite (.setShaper ?_) ?_
    all_goals exact .ite (.movePointer (.ite h.withQue (.setPointer h.withQue))) h.withQue

theorem cursorsCatch {s tab : Nat} {passed_ : Cursor → List (List Byte)} (h : Calm x y) : Calm x (cursorsCatch s tab passed_ y) :=
  .foldl (fun _ _ ha => ha.raise) (.same h)

theorem editMeter {s i : Nat} {old : Option Ent} {e : Edit} (h : Calm x y) : Calm x (editMeter s i old e y) := by
  unfold Machine.editMeter
  dsimp only
  split
  · exact .same h
  · refine .ite (.same h) ?_
    split <;> exact .same h

theorem editTickets {s : Nat} {v : View} {e : Edit} {pos : Nat} {isNew : Bool} (h : Calm x y) :
    Calm x (editTickets s v e pos isNew y) := by
  unfold Machine.editTickets
  dsimp only
  split
  case h_2 | h_3 | h_4 =>
    refine .ite ?_ (.same h)
    split <;> exact .same h
  all_goals exact .same h

theorem applyTable {s : Nat} {e : Edit} (h : Calm x y) : Calm x (applyTable s e y) := by
  have h1 : ∀ n w m, Calm x (count (.lkp s 9) n (eccWrite w { y with tbl := { y.tbl with ents := m } })) := fun _ _ _ => .same h
  exact .editTickets (.ite (.editMeter (.cursorsCatch (h1 _ _ _))) (.cursorsCatch (h1 _ _ _)))

theorem writeNext {s : Nat} (h : Calm x y) : Calm x (writeNext s y) := by
  unfold Machine.writeNext
  split
  · exact h
  · exact .ite (.changeNode (.same h)) (.applyTable (.same h))

theorem catchUp {s : Nat} (h : Calm x y) : Calm x (catchUp s y) := .foldl (fun _ _ ha => ha.writeNext) h

theorem renewNames {v w : View} {tab : Nat} {old new : List Byte} (h : Calm x y) : Calm x (renewNames v w tab old new y) := by
  have hz : ∀ a i, Calm x a → Calm x (zeroNamed i a) := fun _ _ ha => .foldl (fun _ _ hb => .same hb) ha
  have hm : ∀ a i, Calm x a → Calm x (fullMeter i a) := fun _ _ ha => .foldl (fun _ _ hb => .same hb) ha
  have h2 := foldl (l := (metersOf tab new).filter (fun i => !meterNamed v i)) hm
    (foldl (l := (countersOf tab new).filter (fun i => !counterNamed v i)) hz h)
  exact ⟨h2.tt, h2.journal, h2.jNext, h2.evts⟩

theorem beginEdit {e : Edit} (h : Calm x y) : Calm x (beginEdit e y) := by
  have h1 : Calm x (Machine.catchUp e.begin_ y) := h.catchUp
  exact .renewNames (.writeNext ⟨h1.tt, h1.journal, h1.jNext, h1.evts⟩)

theorem hostMeta {key dat : List Byte} {frozen : Bool} {op : Nat} (h : Calm x y) : Calm x (hostMeta key dat frozen op y) :=
  .ite (.same h) (.same h)

theorem streamEdit {v : View} {key dat : List Byte} {op : Nat} (h : Calm x y) : Calm x (streamEdit v key dat op y) :=
  .ite h (.same h)

theorem insertFails {s tab : Nat} (h : Calm x y) : Calm x (insertFails s tab y) :=
  .ite (.raise (.ite (.same h) h)) (.ite (.same h) h)

theorem victimOf {key : List Byte} {l : List Ent} (h : Calm x y) : Calm x (victimOf y key l).2 := by
  unfold Machine.victimOf
  dsimp only
  split
  · exact h
  · exact h
  · exact h
  · exact .same h

theorem makeRoom {s tab : Nat} {key dat : List Byte} (h : Calm x y) : Calm x (makeRoom s tab key dat y).2 := by
  unfold Machine.makeRoom
  dsimp only
  split
  · exact h
  · split
    · exact h.insertFails
    · split <;> rename_i he
      all_goals have hv := of_snd he h.victimOf
      · exact .dropMeta (.beginEdit (.raise (.tally hv)))
      · exact hv.insertFails

theorem hostEdit {m tab op : Nat} {r : List Byte} (h : Calm x y) : Calm x (hostEdit m tab op r y).2 := by
  unfold Machine.hostEdit
  dsimp only
  generalize hostBegins y tab (keyOf tab r) = s
  have h0 : Calm x (Machine.catchUp s y) := h.catchUp
  have hm : ∀ a e dat b, Calm x a →
      Calm x (if tab = 1 then Machine.hostMeta (keyOf tab r) dat b op (Machine.beginEdit e a) else Machine.beginEdit e a) :=
    fun _ _ _ _ ha => .ite (.hostMeta ha.beginEdit) ha.beginEdit
  refine .ite_snd (.ite_snd h0 (.ite_snd h0 (.ite (.streamEdit (hm _ _ _ _ h0)) (hm _ _ _ _ h0)))) ?_
  refine .ite_snd h0 (.ite_snd h0 (.ite_snd h0 (.ite_snd h0 ?_)))
  split <;> rename_i he
  · have h1 := of_snd he h0.makeRoom
    exact .ite (.streamEdit (hm _ _ _ _ h1)) (hm _ _ _ _ h1)
  · exact .of_snd he h0.makeRoom

theorem runRecords {m n i : Nat} {run : Nat → Mod → Done1 × Mod} (hrun : ∀ i a, Calm x a → Calm x (run i a).2) (h : Calm x y) :
    Calm x (runRecords m run n i y) := by
  induction n generalizing i y with
  | zero => exact h.setBox
  | succ n ih =>
    unfold Machine.runRecords
    split <;> rename_i he
    all_goals have hr := of_snd he (hrun i y h)
    · exact ih hr.setBox
    · exact hr.setBox
    · exact hr.setBox
    · exact .setBox (.ite hr hr.tally)

theorem finishEdits {m : Nat} {q : Mod × List Host.Cell} (h : Calm x q.1) : Calm x (finishEdits m q).1 :=
  .ite_fst h h.complete

theorem goOnEdits {m : Nat} {q : Mod × List Host.Cell} (h : Calm x q.1) : Calm x (goOnEdits m q).1 := by
  unfold Machine.goOnEdits
  refine .finishEdits (.ite (.runRecords (fun _ _ ha => ha.hostEdit) h) (.runRecords (fun i a ha => ?_) h))
  exact .ite_snd ha (.ite_snd ha ha.beginEdit)

theorem quarantineEnds {meter : Bool} {i : Nat} {q : Mod × List Host.Cell} (h : Calm x q.1) :
    Calm x (quarantineEnds meter i q).1 := by
  unfold Machine.quarantineEnds
  dsimp only
  split
  · exact h
  · refine .ite_fst h ?_
    exact List.foldlRecOn _ _ (motive := fun z : Mod × List Host.Cell => Calm x z.1) (.same h) (fun _ ha _ _ => ha.goOnEdits)

/-! ### Leave and activations -/

theorem askLeaves {m op : Nat} {l : List Nat} (h : Calm x y) : Calm x (askLeaves m op l y).2 := by
  induction l generalizing y with
  | nil => exact h
  | cons u t ih =>
    unfold Machine.askLeaves
    split <;> rename_i he
    all_goals have h1 := of_snd he h.askLeave
    · exact ih h1
    · exact ih h1.setBox
    · exact h1.dropLeaves

theorem dropActLeave {a : Activation} (h : Calm x y) : Calm x (dropActLeave a y) := by
  unfold Machine.dropActLeave
  split
  · exact h.dropLeaves
  · exact h.setPwr

end Calm

/-- The module with another activation in progress, or none. -/
def setAct (o : Option Activation) (x : Mod) : Mod := setTt (fun t => { t with act := o }) x

@[simp] theorem setAct_keeps (o : Option Activation) (x : Mod) :
    (setAct o x).tt.banks = x.tt.banks ∧ (setAct o x).tt.retireT = x.tt.retireT ∧
      (setAct o x).tt.drainTimeout = x.tt.drainTimeout ∧ (setAct o x).evts = x.evts := ⟨rfl, rfl, rfl, rfl⟩

theorem activationFails_calm (a : Activation) (st r : Nat) {x : Mod} {q : Mod × List Host.Cell} (h : Calm x q.1) :
    Calm (setAct none x) (activationFails a st r q).1 := by
  have h1 : Calm (setAct none x) (raise .yard evActivateFail (dropActLeave a (setAct none q.1))) := (h.setTt _).dropActLeave.raise
  unfold activationFails
  dsimp only
  split
  · exact .complete h1.notify
  · exact .setStage (.enterMode h1.notify)

/-- TT_ACTIVATE changes of the timetable state the activation in progress alone. -/
theorem tryActivate_calm (m : Nat) {x : Mod} {q : Mod × List Host.Cell} (h : Calm x q.1) :
    ∃ o, Calm (setAct o x) (tryActivate m q).1 := by
  have hb : ∀ f, Calm x (setBox m f q.1) := fun _ => h.setBox
  unfold tryActivate
  extract_lets y body k bank stale refuse a
  have hr : ∀ r, ∃ o, Calm (setAct o x) (refuse r).1 := fun _ => ⟨x.tt.act, (hb _).complete⟩
  split
  · exact ⟨x.tt.act, (hb _).setBox⟩
  split
  · exact hr _
  split
  · exact hr _
  split
  · exact hr _
  have h1 : ∀ f, Calm (setAct (some a) x) (setBox m f (setTt (fun t => { t with act := some a }) y)) := fun _ => ((hb _).setTt _).setBox
  split <;> rename_i he
  all_goals have h2 := Calm.of_snd he (h1 _).askLeaves
  · have h3 := activationFails_calm a stLeave 0 (q := (_, q.2)) h2
    exact ⟨none, h3⟩
  · split
    · exact ⟨_, h2.setTt (fun t => { t with act := some { a with loading := true } })⟩
    · exact ⟨_, h2⟩

namespace Calm
variable {x y : Mod}

/-! ### Waves and stops -/

theorem advanceGen {s : Nat} (h : Calm x y) : Calm x (advanceGen s y) := .ite (.tally h.setTkt) h

theorem flipNodes {a b : TtContent} (h : Calm x y) : Calm x (flipNodes a b y) :=
  .withQue (.foldl (fun _ _ ha => .ite ha ha.changeNode) h)

theorem stopUnconfigured (h : Calm x y) : Calm x (stopUnconfigured y) := by
  unfold Machine.stopUnconfigured
  refine .foldl (fun a g ha => ?_) h
  have h1 : Calm x (if domRuns a g then Machine.stopOrWait .firmware g a else a) := .ite ha.stopOrWait ha
  exact .ite h1.stopOrWait h1

theorem returned (h : Calm x y) : Calm x (returned y) :=
  .foldl (fun _ _ ha => .ite (.raise ha.setTrb) ha) h

theorem askCoupler (h : Calm x y) : Calm x (askCoupler y) := by
  refine .ite h ?_
  split <;> rename_i he
  · exact .setCpl (.of_snd he h.askLeave)
  · exact .of_snd he h.askLeave

theorem wavesDone (h : Calm x y) : Calm x (wavesDone y) := by
  unfold Machine.wavesDone
  have h1 := (h.setPwr (f := fun p => { p with waves := [] })).returned
  exact .ite h1 (.ite h1.setStage.askCoupler h1.setStage)

theorem beginWave {w : Nat} (h : Calm x y) : Calm x (beginWave w y) :=
  .foldl (fun _ _ ha => .askWake ha.lanesTrain) h.setPwr

theorem askWave (h : Calm x y) : Calm x (askWave y) := by
  refine .ite h ?_
  split
  · exact h.wavesDone
  · split <;> rename_i he
    all_goals have h1 := of_snd he h.askLeave
    · exact h1.beginWave
    · exact h1
    · exact h1.wavesDone

theorem addWaves {want : Nat → Bool} (h : Calm x y) : Calm x (addWaves want y) := .askWave h.setPwr

end Calm

/-! ### The flip -/

/-- After the flip the named bank is ACTIVE, and another that was is RETIRING (10 R333). -/
theorem flipBanks_st (a : Activation) (t : Nat) (x : Mod) :
    ((flipBanks a t x).tt.banks.get a.bank).st = .active ∧
      ∀ o, x.tt.active = some o → o ≠ a.bank → ((flipBanks a t x).tt.banks.get o).st = .retiring := by
  unfold flipBanks
  dsimp only [setTt, setBank]
  refine ⟨by simp, fun o ho hne => ?_⟩
  simp [ho, Map.get_upd_other _ hne]

/-- The epoch advances by 1 modulo 4, and is 0 after the activation of a start (00 R6, 10 R339). -/
theorem flipBanks_epoch (a : Activation) (t : Nat) (x : Mod) :
    (a.mbx.isSome = true → (flipBanks a t x).tt.epoch.toNat = (x.tt.epoch.toNat + 1) % 4) ∧
      (a.mbx = none → (flipBanks a t x).tt.epoch = 0) := by
  unfold flipBanks
  dsimp only [setTt, setBank]
  refine ⟨fun h => ?_, fun h => ?_⟩
  · obtain ⟨m, hm⟩ := Option.isSome_iff_exists.mp h
    simp [hm, BitVec.toNat_add]
  · simp [h]

theorem flipBanks_act (a : Activation) (t : Nat) (x : Mod) :
    (flipBanks a t x).tt.active = some a.bank ∧ (flipBanks a t x).tt.act = none ∧
      (flipBanks a t x).tt.flipNs = BitVec.ofNat 64 t := ⟨rfl, rfl, rfl⟩

/-- A flip: what comes before the banks change is calm, and so is what comes once the journal starts anew and ACTIVATED is
set. -/
theorem flip_calm (a : Activation) (t : Nat) (x : Mod) :
    ∃ w z, Calm x w ∧ z.tt = (flipBanks a t w).tt ∧ z.tbl.journal = [] ∧ z.tbl.jNext = 0 ∧ evtSet .yard evActivated z = true ∧
      Calm z (flip a t x) := by
  unfold flip
  extract_lets oldC newC changed x0 gone x1 tabs xc dead meters x2 tbl que x3 x4 x5 x6
  have h0 : Calm x x0 := .foldl (fun _ _ ha => ha.catchUp) (.refl x)
  have h1 : Calm x x1 := .foldl (fun _ _ ha => ha.lanesIdle) (.foldl (fun _ _ ha => ha.portGoesDown) h0)
  have hc : Calm x xc := .foldl (fun _ _ ha => ha.cursorsCatch) h1
  have hw : Calm x (flipNodes oldC newC (dead.foldl (fun b e => dropMeta e.key b) xc)) :=
    .flipNodes (.foldl (fun _ _ ha => ha.dropMeta) hc)
  have h4 : Calm x3 x4 := .foldl (fun _ _ ha => .advanceGen ha.askGen) (.refl x3)
  have h5 : Calm x3 x5 := h4.raise
  have h6 : Calm x5 x6 := .stopUnconfigured (.notify (.refl x5))
  exact ⟨_, x5, hw, h5.tt, h5.journal, h5.jNext, raise_evtSet _ _ _ (by decide), .ite h6.addWaves h6⟩

/-- TIMETABLE_FLIP at T is a flip of the module without the activation's leave, and what follows it is calm. -/
theorem flipNow_calm {x : Mod} {a : Activation} {t : Nat} (b : List Host.Cell) (ha : x.tt.act = some a) (ht : a.flipT = some t)
    (hd : t ≤ x.now / 1000) : Calm (flip a t (dropActLeave a x)) (flipNow (x, b)).1 := by
  unfold flipNow
  simp only [ha, ht, Nat.not_lt.mpr hd, if_false]
  split
  · exact .complete (.refl _)
  · exact .addWaves (.setStage (.enterMode (.refl _)))

/-! ### The drain -/

/-- Dropping the old frames changes no bank. -/
theorem dropOld_banks (x : Mod) : (dropOld x).tt.banks = x.tt.banks := by
  unfold dropOld
  refine foldl_keeps (fun m : Mod => m.tt.banks) _ _ _ (fun a e => ?_)
  split
  · rfl
  · rw [((Calm.refl _).abandonFrame).tt]
    rfl

/-- A bank that retires becomes VALID (10 R336). -/
def freeBank (a : Mod) (b : Nat) : Mod :=
  if (a.tt.banks.get b).st == .retiring then setBank b (fun k => { k with st := .valid }) a else a

theorem freeBank_same {a : Mod} {b : Nat} (h : (a.tt.banks.get b).st = .retiring) : ((freeBank a b).tt.banks.get b).st = .valid := by
  simp [freeBank, h, setBank]

theorem freeBank_other (a : Mod) {b k : Nat} (h : k ≠ b) : (freeBank a b).tt.banks.get k = a.tt.banks.get k := by
  unfold freeBank
  split
  · exact Map.get_upd_other _ h _
  · rfl

theorem freeBank_evts (a : Mod) (b : Nat) : (freeBank a b).evts = a.evts := by
  unfold freeBank
  split <;> rfl

/-- The drain has run out of time, or not: DRAIN_TIMEOUT, and the old frames dropped (10 R337). -/
def timedOut (timeout : Bool) (x : Mod) : Mod := if timeout then raise .yard evDrainTimeout (dropOld x) else x

theorem timedOut_banks (timeout : Bool) (x : Mod) : (timedOut timeout x).tt.banks = x.tt.banks := by
  cases timeout
  case false => rfl
  case true => simp [timedOut, dropOld_banks]

theorem timedOut_evtSet (x : Mod) : evtSet .yard evDrainTimeout (timedOut true x) = true := by
  rw [timedOut, if_pos rfl]
  exact raise_evtSet .yard evDrainTimeout (dropOld x) (by decide)

/-- The banks and the drain's own state once it has ended, `d` us after T (10 R336). -/
def drained (timeout : Bool) (d : Nat) (a : Mod) : Mod :=
  setTt (fun tt => { tt with retireT := none, drainTimeout := timeout, drainUs := d }) (freeBank (freeBank a 0) 1)

theorem drained_tt (timeout : Bool) (d : Nat) (a : Mod) :
    (drained timeout d a).tt.retireT = none ∧ (drained timeout d a).tt.drainTimeout = timeout ∧
      (drained timeout d a).tt.banks = (freeBank (freeBank a 0) 1).tt.banks := ⟨rfl, rfl, rfl⟩

theorem drained_evtSet (timeout : Bool) (d : Nat) (a : Mod) (l : Level) (e : Evt) :
    evtSet l e (drained timeout d a) = evtSet l e a := by
  have h : (drained timeout d a).evts = a.evts := (freeBank_evts (freeBank a 0) 1).trans (freeBank_evts a 0)
  rw [evtSet, h, evtSet]

theorem drained_banks (timeout : Bool) (d : Nat) {a : Mod} {k : Nat} (hk : k < 2) (h : (a.tt.banks.get k).st = .retiring) :
    ((drained timeout d a).tt.banks.get k).st = .valid := by
  obtain ⟨-, -, hb⟩ := drained_tt timeout d a
  rw [hb]
  obtain rfl | rfl : k = 0 ∨ k = 1 := by omega
  · rw [freeBank_other _ (by decide)]
    exact freeBank_same h
  · exact freeBank_same (by rwa [freeBank_other _ (by decide)])

/-- What goes on once the drain has ended changes of the timetable state the activation in progress alone. -/
theorem retire_calm (timeout : Bool) (t : Nat) (x : Mod) (b : List Host.Cell) :
    ∃ o d, Calm (setAct o (drained timeout d (timedOut timeout x))) (retire timeout t (x, b)).1 := by
  unfold retire
  extract_lets y x0 x1 x2 tbl x3 y4
  have h0 : x0 = timedOut timeout x := rfl
  have h2 : x2 = drained timeout (min 5000 ((x.now - t) / us 1)) x0 := rfl
  rw [← h0]
  clear_value x2
  have h3 : Calm x2 x3 := .withOld (.refl x2)
  have h4 : Calm x2 y4.1 :=
    List.foldlRecOn _ _ (motive := fun z : Mod × List Host.Cell => Calm x2 z.1) h3 (fun _ ha _ _ => ha.quarantineEnds)
  refine Exists.imp (fun o h => ⟨_, h2 ▸ h⟩) (?_ : ∃ o, Calm (setAct o x2) _)
  split
  · exact tryActivate_calm _ h4
  · exact ⟨x2.tt.act, h4⟩

/-- DRAIN_END of a drain that is over ends it, by time when frames of the old tag are still inside (10 R336, R337). -/
theorem drainEnds_eq {x : Mod} {t : Nat} (b : List Host.Cell) (ht : x.tt.retireT = some t)
    (hd : oldFrames x = [] ∨ passed x.now t (ms 5) = true) :
    drainEnds (x, b) = retire (!decide (oldFrames x = [])) t (x, b) := by
  unfold drainEnds
  simp only [ht]
  by_cases h : oldFrames x = []
  · simp [h]
  · simp [h, hd.resolve_left h]

/-! ### The statement -/

/-- Settles O34: what a flip does before its banks change and after ACTIVATED is set is calm, and so is, but for the activation in
progress, what goes on once a drain has ended. -/
theorem timetablesFlip : Obligations.TimetablesFlip := by
  unfold Obligations.TimetablesFlip
  refine ⟨fun a t s ha hact ht hnow => ?_, fun t s ha ht hd => ?_⟩
  · refine answersBuf_of flipNow rfl ha ?_
    obtain ⟨w, z, hw, htt, hj, hn, he, hz⟩ := flip_calm a t (dropActLeave a s.mod)
    have hend := hz.trans (flipNow_calm s.mem hact ht hnow)
    have hbefore : w.tt = s.mod.tt := ((Calm.refl s.mod).dropActLeave.trans hw).tt
    obtain ⟨hst, hold⟩ := flipBanks_st a t w
    obtain ⟨hep, hep0⟩ := flipBanks_epoch a t w
    obtain ⟨hactive, hnone, hns⟩ := flipBanks_act a t w
    rw [hend.tt, htt, hend.journal, hend.jNext, ← hbefore]
    exact ⟨hactive, hst, hold, hnone, hns, hep, hep0, hj, hn, hend.evts _ _ he⟩
  · refine answersBuf_of drainEnds rfl ha ?_
    rw [drainEnds_eq s.mem ht hd]
    obtain ⟨o, d, hc⟩ := retire_calm (!decide (oldFrames s.mod = [])) t s.mod s.mem
    obtain ⟨hretire, htimeout, -⟩ := drained_tt (!decide (oldFrames s.mod = [])) d (timedOut (!decide (oldFrames s.mod = [])) s.mod)
    simp only [hc.tt, setAct_keeps]
    refine ⟨hretire, fun k hk hr => drained_banks _ d hk (by rwa [timedOut_banks]), htimeout, fun h => hc.evts _ _ ?_⟩
    simp only [evtSet, setAct_keeps, decide_eq_false h, Bool.not_false]
    exact (drained_evtSet true d _ .yard evDrainTimeout).trans (timedOut_evtSet s.mod)

end Sys2Proof.Machine
end

section
/-! Proofs about a counter's accumulator and harvest word (02 R49 to R51). A spill and a late spill mark the counter, a harvest
moves 2^35 from one part of its value to the other: none of the three changes the value that the host sees. -/

namespace Sys2Proof.Machine

/-! ### The value the host sees -/

/-- A counter whose accumulator does not hold counts one in its value (02 R51). -/
theorem Counter.value_addIn_one (cyc : Nat) {k : Counter} (h : k.acc < 2 ^ 36 - 1) : (k.addIn cyc 1).value = k.value + 1 := by
  have hacc : min (k.acc + 1) (2 ^ 36 - 1) = k.acc + 1 := min_eq_left (by omega)
  simp only [Counter.addIn, Counter.add, Counter.value, hacc, BitVec.ofNat_add, BitVec.add_assoc]
  rfl

/-- The counter with 2^35 moved from its accumulator to its harvest word, ready to spill again (02 R49). -/
def Counter.harvested (k : Counter) : Counter :=
  { k with acc := k.acc - 2 ^ 35, hw := k.hw + BitVec.ofNat 64 (2 ^ 35), spilled := false, late := false }

/-- What moves from the accumulator to the harvest word stays in their sum. -/
theorem ofNat_add_ofNat_sub {n a : Nat} (h : n ≤ a) : BitVec.ofNat 64 n + BitVec.ofNat 64 (a - n) = BitVec.ofNat 64 a := by
  rw [← BitVec.ofNat_add, Nat.add_sub_of_le h]

/-- A harvest of what the accumulator has keeps the value. -/
theorem Counter.value_harvested {k : Counter} (h : 2 ^ 35 ≤ k.acc) : k.harvested.value = k.value := by
  unfold Counter.harvested Counter.value
  rw [BitVec.add_assoc, ofNat_add_ofNat_sub h]

/-! ### What the three commands do where they are due -/

/-- COUNTER_SPILL marks the counter and counts at its stall, if it has one. -/
theorem spillNow_due {c : CtrId} {x : Mod} (hacc : 2 ^ 35 ≤ (x.ctrs.get c).acc) (hs : (x.ctrs.get c).spilled = false) :
    spillNow c x = { x with ctrs := x.ctrs.set c { x.ctrs.get c with spilled := true }
                            spills := (spillStall c).elim x.spills fun g => x.spills.upd g (· + 1) } := by
  have hdue : (decide (2 ^ 35 ≤ (x.ctrs.get c).acc) && !(x.ctrs.get c).spilled) = true := by
    rw [hs, decide_eq_true hacc]
    rfl
  unfold spillNow
  dsimp only [due]
  rw [if_pos hdue]
  cases spillStall c <;> rfl

/-- COUNTER_HARVEST whose harvest word reads and whose check passes harvests the counter. -/
theorem harvestNow_due {c : CtrId} {x : Mod} (hs : (x.ctrs.get c).spilled = true)
    (hecc : eccClean (fun w => decide (w = .harvest c)) x) (hres : ∀ e ∈ x.resid, e.unit_ ≠ .harvest c) :
    harvestNow c x = { x with ctrs := x.ctrs.upd c Counter.harvested } := by
  have hread : readHarvest c x = x := eccRepair_clean hecc _
  unfold harvestNow
  dsimp only [due]
  rw [if_pos hs, hread, residue_clean hres]
  rfl

/-- SPILL_LATE of a stall's counter marks it and raises the event of its stall (02 R50). -/
theorem spillLateNow_due {c : CtrId} {g : Nat} {x : Mod} (hacc : (x.ctrs.get c).acc = 2 ^ 36 - 1)
    (hl : (x.ctrs.get c).late = false) (hg : spillStall c = some g) :
    spillLateNow c x = raise (.stall g) evSpillLate { x with ctrs := x.ctrs.set c { x.ctrs.get c with late := true } } := by
  have hdue : (decide ((x.ctrs.get c).acc = 2 ^ 36 - 1) && !(x.ctrs.get c).late) = true := by
    rw [hl, decide_eq_true hacc]
    rfl
  unfold spillLateNow
  dsimp only [due]
  rw [if_pos hdue, hg]

/-! ### The clauses -/

theorem counterSpill_answers {c : CtrId} {s : State} (ha : arrives (.counterSpill c) s.mod = true)
    (hacc : 2 ^ 35 ≤ (s.mod.ctrs.get c).acc) (hs : (s.mod.ctrs.get c).spilled = false) :
    Answers (.counterSpill c) s fun m => m.ctrs.get c = { s.mod.ctrs.get c with spilled := true } ∧
      (∀ g, spillStall c = some g → m.spills.get g = s.mod.spills.get g + 1) ∧
      (m.ctrs.get c).value = (s.mod.ctrs.get c).value ∧ m = { s.mod with ctrs := m.ctrs, spills := m.spills } := by
  refine answers_of (spillNow c) rfl ha ?_
  rw [spillNow_due hacc hs]
  refine ⟨Map.get_set_same _ _ _, fun g hg => ?_, ?_, rfl⟩
  · simp only [hg, Option.elim_some, Map.get_upd_same]
  · simp only [Map.get_set_same, Counter.value]

theorem counterHarvest_answers {c : CtrId} {s : State} (ha : arrives (.counterHarvest c) s.mod = true)
    (hacc : 2 ^ 35 ≤ (s.mod.ctrs.get c).acc) (hs : (s.mod.ctrs.get c).spilled = true) (hecc : s.mod.ecc = [])
    (hres : s.mod.resid = []) :
    Answers (.counterHarvest c) s fun m => m.ctrs.get c = (s.mod.ctrs.get c).harvested ∧
      (m.ctrs.get c).value = (s.mod.ctrs.get c).value ∧ m = { s.mod with ctrs := m.ctrs } := by
  refine answers_of (harvestNow c) rfl ha ?_
  rw [harvestNow_due hs (by simp [eccClean, hecc]) (by simp [hres])]
  refine ⟨Map.get_upd_same _ _ _, ?_, rfl⟩
  simp only [Map.get_upd_same]
  exact Counter.value_harvested hacc

theorem spillLate_answers {c : CtrId} {g : Nat} {s : State} (ha : arrives (.spillLate c) s.mod = true)
    (hacc : (s.mod.ctrs.get c).acc = 2 ^ 36 - 1) (hl : (s.mod.ctrs.get c).late = false) (hg : spillStall c = some g) :
    Answers (.spillLate c) s fun m => (m.ctrs.get c).late = true ∧ (m.ctrs.get c).value = (s.mod.ctrs.get c).value ∧
      evtSet (.stall g) evSpillLate m = true ∧ m = { raised s.mod m with ctrs := m.ctrs } := by
  refine answers_of (spillLateNow c) rfl ha ?_
  rw [spillLateNow_due hacc hl hg]
  refine ⟨?_, ?_, raise_evtSet _ _ _ (by decide), ?_⟩
  · simp only [raise_keeps, Map.get_set_same]
  · simp only [raise_keeps, Map.get_set_same, Counter.value]
  · conv_lhs => rw [raise_raised]
    simp only [raised, raise_keeps]

/-! ### The statement -/

/-- Settles O17: a spill and a late spill leave both parts of the counter's value alone, and a harvest moves 2^35 between them. -/
theorem countersSpillAndHarvest : Obligations.CountersSpillAndHarvest := by
  unfold Obligations.CountersSpillAndHarvest
  refine ⟨fun c x h => ?_, fun c s => counterSpill_answers, fun c s ha hacc hs hecc hres => ?_, fun c g s => spillLate_answers⟩
  · have hone : ((count c 1 x).ctrs.get c).value = (x.ctrs.get c).value + 1 := by
      rw [count_same, Counter.value_addIn_one _ h]
    exact ⟨hone, fun hmax => by rw [hone, hmax]; rfl⟩
  · obtain ⟨m, hexec, hctr, hval, hframe⟩ := counterHarvest_answers ha hacc hs hecc hres
    refine ⟨m, hexec, ?_, ?_, ?_, hval, hframe⟩ <;> rw [hctr] <;> rfl

end Sys2Proof.Machine
end

section
/-! Proofs about the event registers (13 R415): where they stand in BAR0, what an event makes of its register, and what a write of
EVT_SEQ clears. -/

namespace Sys2Proof.Machine

/-! ### What the write does to a map and to a register -/

theorem Map.look_map {κ ν : Type} [DecidableEq κ] (f : κ → ν → ν) (k : κ) (l : List (κ × ν)) :
    Map.look k (l.map fun e => (e.1, f e.1 e.2)) = (Map.look k l).map (f k) := by
  induction l with
  | nil => rfl
  | cons e l ih =>
    by_cases h : e.1 = k
    · simp [Map.look, h]
    · simp [Map.look, h, ih]

theorem Map.look_isSome_of_mem {κ ν : Type} [DecidableEq κ] {k : κ} {l : List (κ × ν)} (h : k ∈ l.map (·.1)) :
    (Map.look k l).isSome = true := by
  induction l with
  | nil => simp at h
  | cons e l ih =>
    by_cases he : e.1 = k
    · simp [Map.look, he]
    · rw [List.map_cons, List.mem_cons] at h
      simpa [Map.look, he] using ih (h.resolve_left (Ne.symm he))

/-- An unlisted key reads as the default, which `mapEnts` does not map: hence the hypothesis. -/
theorem Map.get_mapEnts_of_mem {κ ν : Type} [DecidableEq κ] (m : Map κ ν) (f : κ → ν → ν) {k : κ} (h : k ∈ m.ents.map (·.1)) :
    (m.mapEnts f).get k = f k (m.get k) := by
  obtain ⟨v, hv⟩ := Option.isSome_iff_exists.mp (Map.look_isSome_of_mem h)
  simp [Map.get, Map.mapEnts, Map.look_map, hv]

/-- A listed bit is cleared when its sequence is at or before `v`, and otherwise keeps it (13 R415). -/
theorem EvtReg.clear_bit (r : EvtReg) (v : BitVec 16) {i : Nat} (h : i ∈ r.bits.ents.map (·.1)) :
    (r.clear v).bits.get i = (match r.bits.get i with
      | some e => if (v - e).toNat < 2 ^ 15 then none else some e
      | none => none) :=
  Map.get_mapEnts_of_mem r.bits _ h

/-! ### What an event makes of its register -/

/-- An event of a block with a register hits that register alone. -/
theorem raiseQuiet_evts (l : Level) {e : Evt} (w : Option Word) (a : Nat) (x : Mod) (h : e.blk ≠ 0) :
    (raiseQuiet l e w a x).evts = x.evts.upd (l, e.blk) (·.hit e.bit x.cyc) := by
  unfold raiseQuiet
  simp only [h, if_false]
  split
  · rfl
  · simp only [logEvent_keeps]
    rfl

/-- Raising ACCESS_DROP does not touch the access log (13 R431). -/
theorem logAccess_kind (kind be bar off : Nat) (x : Mod) : (logAccess kind be bar off x).host.access.kind = kind := by
  simp [logAccess]

theorem logAccess_evtSet_mono (kind be bar off : Nat) (l : Level) (e : Evt) (x : Mod) (h : evtSet l e x = true) :
    evtSet l e (logAccess kind be bar off x) = true :=
  raise_evtSet_mono .yard evAccessDrop l e _ h

/-! ### Where the event registers stand -/

/-- The size of a level's window in BAR0 (00 R13). -/
def windowSize : Level → Nat
  | .yard => 0x1000000
  | .shed _ => 0x800000
  | .stall _ => 0x40000

theorem regAt_yard {off : Nat} (h : off < 0x1000000) : regAt off = some ⟨.yard, off / 0x4000 * 0x4000, off % 0x1000⟩ := by
  simp [regAt, h]

theorem regAt_shed {off : Nat} (h0 : 0x1000000 ≤ off) (h1 : off < 0x9000000) (h : off % 0x1000000 < 0x800000) :
    regAt off = some ⟨.shed (off / 0x1000000 - 1), off / 0x4000 * 0x4000 % 0x1000000, off % 0x1000⟩ := by
  simp [regAt, h0.not_gt, h1.not_ge, h]

theorem regAt_stall {off : Nat} (h0 : 0x1000000 ≤ off) (h1 : off < 0x9000000) (h2 : 0x800000 ≤ off % 0x1000000)
    (h : off % 0x1000000 < 0xC00000) :
    regAt off = some ⟨.stall (16 * (off / 0x1000000 - 1) + (off % 0x1000000 - 0x800000) / 0x40000),
      off / 0x4000 * 0x4000 % 0x40000, off % 0x1000⟩ := by
  simp [regAt, h0.not_gt, h1.not_ge, h2.not_gt, h]

/-- An offset within the window of a level that exists names the register at its page and its place in the page. -/
theorem regAt_levelBase {l : Level} {p o : Nat} (hl : wfLevel l = true) (hp : p < windowSize l) (hpage : p % 0x4000 = 0)
    (ho : o < 0x1000) : regAt (levelBase l + p + o) = some ⟨l, p, o⟩ := by
  cases l with
  | yard =>
    simp only [windowSize] at hp
    simp only [levelBase]
    rw [regAt_yard (by omega)]
    congr 2 <;> omega
  | shed s =>
    simp only [windowSize] at hp
    have hs : s < 8 := by simpa [wfLevel, wfShed] using hl
    simp only [levelBase]
    rw [regAt_shed (by omega) (by omega) (by omega)]
    congr 3 <;> omega
  | stall g =>
    simp only [windowSize] at hp
    have hg : g < 128 := by simpa [wfLevel, wfStall] using hl
    simp only [levelBase, shedOfStall]
    rw [regAt_stall (by omega) (by omega) (by omega) (by omega)]
    congr 3 <;> omega

/-- An event register's page is one of its level's window, and its place lies in the page. -/
theorem evtPage_window (l : Level) (b : Nat) : evtPage l b < windowSize l ∧ evtPage l b % 0x4000 = 0 := by
  unfold evtPage
  split <;> simp [windowSize]

theorem evtInPage_lt (l : Level) (b : Nat) : evtInPage l b < 0x1000 := by
  unfold evtInPage
  split <;> decide

/-- The offset of an event register names its place. -/
theorem regAt_evtOffset {l : Level} (b : Nat) (hl : wfLevel l = true) :
    regAt (evtOffset l b) = some ⟨l, evtPage l b, evtInPage l b⟩ :=
  regAt_levelBase hl (evtPage_window l b).1 (evtPage_window l b).2 (evtInPage_lt l b)

/-- The places of a level's event registers differ, so that each tells its block. -/
theorem evtReg_evtPage {l : Level} {b : Nat} (hb : b ∈ evtBlocks l) : evtReg ⟨l, evtPage l b, evtInPage l b⟩ = some b := by
  cases l
  all_goals fin_cases hb <;> rfl

theorem regDefined_evtPage {l : Level} {b : Nat} (hb : b ∈ evtBlocks l) :
    regDefined ⟨l, evtPage l b, evtInPage l b⟩ = true := by
  cases l
  all_goals fin_cases hb <;> simp [regDefined, pageRegs, evtPage, evtInPage, wordIn]

/-- The TIM page of the yard has the event register of block 4 alone. -/
theorem evtPage_tim {b : Nat} (hb : b ∈ evtBlocks .yard) (h : evtPage .yard b = 0x80000) : b = 4 := by
  revert b
  decide

/-! ### The write of a block's event register -/

theorem arrives_evtSeqWrite {l : Level} {b : Nat} {v : Word} {x : Mod} (ha : arrives (.evtSeqWrite l b v) x = true) (hb : b ≠ 0) :
    wfLevel l = true ∧ b ∈ evtBlocks l := by
  have hwf : (wfLevel l && (b == 0 || (evtBlocks l).contains b)) = true := (Bool.and_eq_true_iff.mp ha).1
  simpa [hb] using hwf

/-- A write to the event register of a block that can be reached, and is not the TIM block's while BUSY, clears events. -/
theorem evtSeqNow_block {l : Level} {b : Nat} (v : Word) {x : Mod} (hl : wfLevel l = true) (hb : b ∈ evtBlocks l)
    (hr : reachable x (evtOffset l b) = true) (hbusy : (l, b) = (.yard, 4) → timBusy x = false) :
    evtSeqNow l b v x = clearEvents l b (evtOffset l b) v x := by
  have hidle : (decide (evtPage l b = 0x80000) && l == .yard && timBusy x) = false := by
    by_cases h : evtPage l b = 0x80000 ∧ l = .yard
    · obtain ⟨hpage, rfl⟩ := h
      simp [hbusy (by rw [evtPage_tim hb hpage])]
    · simpa using fun hpage hyard => absurd ⟨hpage, hyard⟩ h
  simp only [evtSeqNow, writeReg, regAt_evtOffset b hl, regDefined_evtPage hb, if_true, reach_reachable _ _ _ _ hr, writeAt,
    evtReg_evtPage hb, hidle, Bool.false_eq_true, if_false]

theorem clearEvents_issued {l : Level} {b : Nat} (off : Nat) {v : Word} {x : Mod} (hb : b ≠ 0)
    (hq : serialNewer (BitVec.ofNat 16 (fieldOf v 31 16)) ((x.evts.get (l, b)).readable x.cyc) = false) :
    clearEvents l b off v x = { x with evts := x.evts.upd (l, b) (·.clear (BitVec.ofNat 16 (fieldOf v 31 16))) } := by
  simp [clearEvents, hb, hq]

theorem clearEvents_ahead {l : Level} {b : Nat} (off : Nat) {v : Word} {x : Mod} (hb : b ≠ 0)
    (hq : serialNewer (BitVec.ofNat 16 (fieldOf v 31 16)) ((x.evts.get (l, b)).readable x.cyc) = true) :
    clearEvents l b off v x = logAccess 8 0xF 0 off x := by
  simp [clearEvents, hb, hq]

/-! ### The statement -/

/-- Settles O19: a write of EVT_SEQ to a block's register that can be reached is its clear of events, which maps the listed bits one
by one when the sequence was issued and logs the access otherwise. -/
theorem eventsClearBySequence : Obligations.EventsClearBySequence := by
  unfold Obligations.EventsClearBySequence
  refine ⟨fun _ _ => rfl, fun l e w a x hblk => ?_, fun l b v s ha hb hr hbusy => ?_⟩
  · rw [raiseQuiet_evts l w a x hblk, Map.get_upd_same]
    exact ⟨rfl, Map.get_set_same _ _ _, fun i hi => Map.get_set_other _ hi _⟩
  · obtain ⟨hl, hmem⟩ := arrives_evtSeqWrite ha hb
    have heff : evtSeqNow l b v s.mod = clearEvents l b (evtOffset l b) v s.mod := evtSeqNow_block v hl hmem hr hbusy
    refine ⟨fun hq => answers_of (evtSeqNow l b v) rfl ha ?_, fun hseq hv => ?_, fun hq => answers_of (evtSeqNow l b v) rfl ha ?_⟩
    · rw [heff, clearEvents_issued _ hb hq]
      refine ⟨?_, ?_, fun k hk => Map.get_upd_other _ hk _, rfl⟩
      · rw [Map.get_upd_same]
        rfl
      · rw [Map.get_upd_same]
        exact fun i hi => EvtReg.clear_bit _ _ hi
    · rw [hseq, hv]
      rfl
    · rw [heff, clearEvents_ahead _ hb hq]
      exact ⟨fun i hi => logAccess_evtSet_mono 8 0xF 0 _ l ⟨b, i, 7⟩ s.mod hi, logAccess_kind 8 0xF 0 _ s.mod⟩

end Sys2Proof.Machine
end

section
/-! Proofs about the addressed buffers (log 10): every command answers a next state whose queue is as it was, and every operation of a
command that may write the buffers keeps their canonical form. `Tidy l k` says so of the buffers before and after; each operation has
its lemma `Tidy.<operation>`. -/

namespace Sys2Proof.Machine

-- One theorem at a time: each thread that elaborates another reserves a stack, and their sum has a limit.
set_option Elab.async false

/-- Where the buffers `l` are in canonical form, so are the buffers `k`. -/
def Tidy (l k : List Host.Cell) : Prop := Memory.wf l = true → Memory.wf k = true

namespace Tidy

variable {l : List Host.Cell} {z : Mod × List Host.Cell}

theorem refl (l : List Host.Cell) : Tidy l l := id

/-- An operation that leaves the buffers alone, whatever it makes of the module. -/
theorem pair {x : Mod} {k : List Host.Cell} (h : Tidy l k) : Tidy l (x, k).2 := h

theorem ite {c : Prop} [Decidable c] {p q : Mod × List Host.Cell} (h : Tidy l p.2) (k : Tidy l q.2) :
    Tidy l (if c then p else q).2 := by
  split
  · exact h
  · exact k

theorem foldl {β : Type} {f : Mod × List Host.Cell → β → Mod × List Host.Cell} {bs : List β}
    (step : ∀ a e, Tidy l a.2 → Tidy l (f a e).2) (h : Tidy l z.2) : Tidy l (bs.foldl f z).2 :=
  List.foldlRecOn (motive := fun a => Tidy l a.2) bs f h (fun a ha e _ => step a e ha)

/-! ### The buffers and the mailboxes (12 R379 to R394) -/

theorem writes {k : List Host.Cell} {a : Nat} {bytes : List Byte} (h : Tidy l k) : Tidy l (Memory.writes k a bytes) :=
  fun w => Memory.wf_writes bytes k a (h w)

theorem erase {k : List Host.Cell} {lo hi : Nat} (h : Tidy l k) : Tidy l (Memory.erase k lo hi) :=
  fun w => Memory.wf_erase k lo hi (h w)

theorem eraseBank {k : List Host.Cell} {b : Nat} (h : Tidy l k) : Tidy l (eraseBank b k) := h.erase

theorem complete {m st : Nat} {body : List Byte} (h : Tidy l z.2) : Tidy l (complete m st body z).2 := by
  unfold Machine.complete
  dsimp only
  split
  · exact .pair h
  · exact .pair h.writes

theorem fail {m st : Nat} (h : Tidy l z.2) : Tidy l (fail m st z).2 := h.complete

theorem onCommand {m op : Nat} {f : Mailbox → Mod × List Host.Cell → Mod × List Host.Cell} (hf : ∀ b, Tidy l (f b z).2)
    (h : Tidy l z.2) : Tidy l (onCommand m op f z).2 := .ite (hf _) h

theorem onSecurity {m op : Nat} {f : Mailbox → Mod × List Host.Cell → Mod × List Host.Cell} (hf : ∀ b, Tidy l (f b z).2)
    (h : Tidy l z.2) : Tidy l (onSecurity m op f z).2 := .ite (h.onCommand hf) h

theorem takeOne {m : Nat} (h : Tidy l z.2) : Tidy l (takeOne m z).2 := by
  unfold Machine.takeOne
  dsimp only
  split
  · exact h.writes
  · exact h

theorem takeCommand {m : Nat} (h : Tidy l z.2) : Tidy l (takeCommand m z).2 := by
  refine .ite h ?_
  split
  · exact foldl (fun _ _ ha => ha.takeOne) h
  · exact h.takeOne

theorem startCommand {m : Nat} (h : Tidy l z.2) : Tidy l (startCommand m z).2 :=
  .ite h (.ite h.fail (.ite h.fail (.ite h.fail (.ite h.fail h))))

theorem deadline {m : Nat} (h : Tidy l z.2) : Tidy l (deadline m z).2 := .ite h (.ite h h.writes)

theorem bufferWrite {off : Nat} {bytes : List Byte} (h : Tidy l z.2) : Tidy l (bufferWrite off bytes z).2 := by
  unfold Machine.bufferWrite
  dsimp only
  split
  · exact h
  · exact h
  · exact h.writes

theorem postNotif (h : Tidy l z.2) : Tidy l (postNotif z).2 := by
  refine .ite h (.ite (.pair h.writes) ?_)
  split
  · exact h
  · exact .pair h.writes

theorem helloCmd {m : Nat} {b : Mailbox} (h : Tidy l z.2) : Tidy l (helloCmd m b z).2 := by
  refine .ite h.fail ?_
  split
  · exact h.complete
  · exact .ite h.fail (complete (.pair h))

theorem moduleInfoCmd {m : Nat} {b : Mailbox} (h : Tidy l z.2) : Tidy l (moduleInfoCmd m b z).2 := .ite h.fail h.complete

/-! ### The banks (10 R326 to R341) and the firmware slots (18 R532 to R545) -/

theorem ttReply {m r : Nat} (h : Tidy l z.2) : Tidy l (ttReply m r z).2 := h.complete

theorem ttOpenCmd {m : Nat} {b : Mailbox} (h : Tidy l z.2) : Tidy l (ttOpenCmd m b z).2 := by
  refine .ite h.fail ?_
  split
  · exact h.ttReply
  · exact h.ttReply
  · exact h.ttReply
  · exact .ite h.ttReply (ttReply (.pair h.eraseBank))

theorem ttWriteCmd {m : Nat} {b : Mailbox} (h : Tidy l z.2) : Tidy l (ttWriteCmd m b z).2 :=
  .ite h.fail (.ite h.fail (.ite (ttReply (.pair h.writes)) (.ite h.ttReply h.fail)))

theorem ttCloseCmd {m : Nat} {b : Mailbox} (h : Tidy l z.2) : Tidy l (ttCloseCmd m b z).2 :=
  .ite h.fail (.ite (ttReply (.pair h)) (ttReply (.pair h)))

theorem ttInvalidateCmd {m : Nat} {b : Mailbox} (h : Tidy l z.2) : Tidy l (ttInvalidateCmd m b z).2 := by
  refine .ite h.fail ?_
  split
  case h_5 => exact .ite h.ttReply (ttReply (.pair h.eraseBank))
  all_goals exact h.ttReply

theorem ttStatusCmd {m : Nat} {b : Mailbox} (h : Tidy l z.2) : Tidy l (ttStatusCmd m b z).2 := .ite h.fail h.complete

theorem secReply {m r : Nat} {rest : List Byte} (h : Tidy l z.2) : Tidy l (secReply m r rest z).2 := h.complete

theorem fwWriteCmd {m : Nat} {b : Mailbox} (h : Tidy l z.2) : Tidy l (fwWriteCmd m b z).2 := by
  refine .ite h.fail (.ite h.secReply (.ite h.fail ?_))
  extract_lets slot mem known
  have hm : Tidy l mem := by
    simp only [mem]
    split
    · exact h.erase
    · exact h
  exact .ite h.fail (.ite h.fail (.ite (secReply (.pair hm.writes)) (.ite (secReply (.pair hm)) h.fail)))

theorem firmwareUpdateCmd {m : Nat} {b : Mailbox} (h : Tidy l z.2) : Tidy l (firmwareUpdateCmd m b z).2 :=
  .ite h.fail (.ite h.secReply (.ite (secReply (.pair h)) (secReply (.pair h))))

theorem fwCommitCmd {m : Nat} {b : Mailbox} (h : Tidy l z.2) : Tidy l (fwCommitCmd m b z).2 :=
  .ite h.fail (.ite h.secReply (secReply (.pair h)))

theorem fwStatusCmd {m : Nat} {b : Mailbox} (h : Tidy l z.2) : Tidy l (fwStatusCmd m b z).2 := .ite h.fail h.secReply

theorem enrolCmd {m : Nat} {b : Mailbox} (h : Tidy l z.2) : Tidy l (enrolCmd m b z).2 :=
  .ite h.fail (.ite h.secReply (secReply (.pair h)))

theorem quoteCmd {m : Nat} {b : Mailbox} (h : Tidy l z.2) : Tidy l (quoteCmd m b z).2 := by
  refine .ite h.fail ?_
  split
  · exact h.secReply
  · exact h.secReply

theorem challengeCmd {m : Nat} {b : Mailbox} (h : Tidy l z.2) : Tidy l (challengeCmd m b z).2 :=
  .ite h.fail (secReply (.pair h))

theorem decommissionCmd {m : Nat} {b : Mailbox} (h : Tidy l z.2) : Tidy l (decommissionCmd m b z).2 := by
  refine .ite h.fail (.ite h.fail (.ite h.fail ?_))
  split
  · exact h.secReply
  · split
    · exact secReply (.pair h)
    · exact secReply (.pair h.eraseBank.eraseBank)

theorem policySetCmd {m : Nat} {b : Mailbox} (h : Tidy l z.2) : Tidy l (policySetCmd m b z).2 := by
  refine .ite h.fail ?_
  split
  · exact h.secReply
  · split
    · exact secReply (.pair h)
    · exact secReply (.pair h)

theorem writeRefused {n : Nat} (h : Tidy l z.2) : Tidy l (writeRefused n z).2 := .ite h (.ite h.fail h)

theorem macsecOp {m op : Nat} {b : Mailbox} {f : Nat → Nat → List Byte → Mod → Option Mod} (h : Tidy l z.2) :
    Tidy l (macsecOp m op b f z).2 := by
  refine .ite h (.ite h.fail ?_)
  split
  · exact complete (.pair h)
  · exact h.fail

/-! ### The tables (04 R113 to R141) -/

theorem finishEdits {m : Nat} (h : Tidy l z.2) : Tidy l (finishEdits m z).2 := .ite h h.complete

theorem goOnEdits {m : Nat} (h : Tidy l z.2) : Tidy l (goOnEdits m z).2 := finishEdits (.pair h)

theorem tableEdit {m op : Nat} {b : Mailbox} (h : Tidy l z.2) : Tidy l (tableEdit m op b z).2 :=
  .ite h (.ite h.fail (.ite h.fail (.ite h (goOnEdits (.pair h)))))

theorem queueConfigCmd {m : Nat} {b : Mailbox} (h : Tidy l z.2) : Tidy l (queueConfigCmd m b z).2 :=
  .ite h.fail (.ite h.fail (.ite h (goOnEdits (.pair h))))

theorem editCommitted (h : Tidy l z.2) : Tidy l (editCommitted z).2 := by
  unfold Machine.editCommitted
  dsimp only
  split
  · exact h
  · refine .ite h ?_
    split
    · exact .ite h (finishEdits (.pair h))
    · exact h

theorem quarantineEnds {meter : Bool} {i : Nat} (h : Tidy l z.2) : Tidy l (quarantineEnds meter i z).2 := by
  unfold Machine.quarantineEnds
  dsimp only
  split
  · exact h
  · exact .ite h (foldl (fun _ _ ha => ha.goOnEdits) (.pair h))

theorem searchCmd {m : Nat} {b : Mailbox} (h : Tidy l z.2) : Tidy l (searchCmd m b z).2 := by
  unfold Machine.searchCmd
  dsimp only
  split
  · exact h.fail
  · refine .ite h.fail ?_
    split
    · exact h.complete
    · exact h.complete

theorem walk {m s max filter dest fv : Nat} {c : Cursor} (h : Tidy l z.2) : Tidy l (walk m s max filter dest fv c z).2 :=
  complete (.pair h)

theorem tableNextCmd {m : Nat} {b : Mailbox} (h : Tidy l z.2) : Tidy l (tableNextCmd m b z).2 := by
  unfold Machine.tableNextCmd
  dsimp only
  split
  · exact h.fail
  · refine .ite h.fail (.ite ?_ (.ite h.complete (walk (.pair h))))
    split
    · exact h.complete
    · exact .ite h.fail h.walk

theorem underLeave {m op : Nat} {us : List Nat} {go : Mod × List Host.Cell → Mod × List Host.Cell}
    (hgo : ∀ x, Tidy l (go (x, z.2)).2) (h : Tidy l z.2) : Tidy l (underLeave m op us go z).2 := by
  unfold Machine.underLeave
  split
  · exact fail (.pair h)
  · exact .ite (hgo _) h

theorem finishFlush {m : Nat} (h : Tidy l z.2) : Tidy l (finishFlush m z).2 := .ite h (complete (.pair h))

theorem startFlush {m : Nat} (h : Tidy l z.2) : Tidy l (startFlush m z).2 := finishFlush (.pair h)

theorem flushCmd {m : Nat} {b : Mailbox} (h : Tidy l z.2) : Tidy l (flushCmd m b z).2 :=
  .ite h.fail (h.underLeave fun _ => startFlush (.pair h))

theorem journalReadCmd {m : Nat} {b : Mailbox} (h : Tidy l z.2) : Tidy l (journalReadCmd m b z).2 :=
  .ite h.fail (complete (.pair h))

theorem ticketReadCmd {m : Nat} {b : Mailbox} (h : Tidy l z.2) : Tidy l (ticketReadCmd m b z).2 := .ite h.fail h.complete

theorem startTicketFlush {m : Nat} (h : Tidy l z.2) : Tidy l (startTicketFlush m z).2 := complete (.pair h)

theorem ticketFlushCmd {m : Nat} {b : Mailbox} (h : Tidy l z.2) : Tidy l (ticketFlushCmd m b z).2 :=
  .ite h.fail (h.underLeave fun _ => startTicketFlush (.pair h))

theorem counterReadCmd {m : Nat} {b : Mailbox} (h : Tidy l z.2) : Tidy l (counterReadCmd m b z).2 :=
  .ite h.fail (complete (.pair h))

theorem captureRingCmd {m : Nat} {b : Mailbox} (h : Tidy l z.2) : Tidy l (captureRingCmd m b z).2 :=
  .ite h.fail (.ite h.fail (.ite h.fail (complete (.pair h))))

theorem replicasCommitted (h : Tidy l z.2) : Tidy l (replicasCommitted z).2 := by
  unfold Machine.replicasCommitted
  dsimp only
  split
  · exact .ite h.editCommitted.finishFlush h.editCommitted
  · exact h.editCommitted

/-! ### The coupler (11 R350) -/

theorem endPairRestart (h : Tidy l z.2) : Tidy l (endPairRestart z).2 := by
  unfold Machine.endPairRestart
  split
  · exact complete (.pair h)
  · exact h

theorem couplerTrained (h : Tidy l z.2) : Tidy l (couplerTrained z).2 := .ite h (endPairRestart (.pair h))

theorem couplerFails (h : Tidy l z.2) : Tidy l (couplerFails z).2 := .ite h (.ite (endPairRestart (.pair h)) (.ite h h))

theorem pairRestartCmd {m : Nat} {b : Mailbox} (h : Tidy l z.2) : Tidy l (pairRestartCmd m b z).2 :=
  .ite h.fail (.ite h.fail (h.underLeave fun _ => h))

theorem reinsHandoverCmd {m : Nat} {b : Mailbox} (h : Tidy l z.2) : Tidy l (reinsHandoverCmd m b z).2 :=
  .ite h.fail (.ite h.fail (complete (.pair h)))

/-! ### Verification, activation, flip and drain (10 R329 to R340) -/

theorem verificationEnds {b : Nat} (h : Tidy l z.2) : Tidy l (verificationEnds b z).2 := by
  unfold Machine.verificationEnds
  dsimp only
  split
  · exact .ite h h
  · exact .ite h h

theorem activationFails {a : Activation} {st r : Nat} (h : Tidy l z.2) : Tidy l (activationFails a st r z).2 := by
  unfold Machine.activationFails
  dsimp only
  split
  · exact complete (.pair h)
  · exact h

theorem tryActivate {m : Nat} (h : Tidy l z.2) : Tidy l (tryActivate m z).2 := by
  have hr : ∀ x st body, Tidy l (Machine.complete m st body (x, z.2)).2 := fun _ _ _ => complete (.pair h)
  unfold Machine.tryActivate
  extract_lets x q k bank stale refuse a
  refine .ite h (.ite (hr _ _ _) (.ite (hr _ _ _) (.ite (hr _ _ _) ?_)))
  split
  · exact activationFails (.pair h)
  · exact h

theorem ttActivateCmd {m : Nat} {b : Mailbox} (h : Tidy l z.2) : Tidy l (ttActivateCmd m b z).2 := by
  refine .ite h.fail ?_
  split
  case h_4 => exact h.fail
  all_goals exact .ite h.fail h.tryActivate

theorem shedLoaded {s : Nat} {d : Digest} (h : Tidy l z.2) : Tidy l (shedLoaded s d z).2 := by
  refine .ite h ?_
  split
  · exact h
  · exact .ite h (.ite h (.ite h (activationFails (.pair h))))

theorem flipNow (h : Tidy l z.2) : Tidy l (flipNow z).2 := by
  unfold Machine.flipNow
  dsimp only
  split
  · exact h
  · split
    · exact h
    · refine .ite h ?_
      split
      · exact complete (.pair h)
      · exact h

theorem retire {timeout : Bool} {t : Nat} (h : Tidy l z.2) : Tidy l (retire timeout t z).2 := by
  unfold Machine.retire
  extract_lets x x0 x1 x2 tbl x3 y4
  have h4 : Tidy l y4.2 := foldl (z := (x3, z.2)) (fun _ _ ha => ha.quarantineEnds) h
  split
  · exact h4.tryActivate
  · exact h4

theorem drainEnds (h : Tidy l z.2) : Tidy l (drainEnds z).2 := by
  unfold Machine.drainEnds
  split
  · exact h
  · exact .ite h.retire (.ite h.retire h)

theorem startLoads {a : Activation} {us : List Nat} (h : Tidy l z.2) : Tidy l (startLoads a us z).2 := by
  induction us generalizing z with
  | nil => exact h
  | cons u us ih =>
    unfold Machine.startLoads
    split
    · exact activationFails (.pair h)
    · exact ih (.pair h)

theorem startActivates (h : Tidy l z.2) : Tidy l (startActivates z).2 := by
  refine .ite h ?_
  split
  · exact h
  · exact startLoads (.pair h)

/-! ### The time unit (09 R303 to R318) -/

theorem endTimeOp {r : TimeReq} {n : Nat} (h : Tidy l z.2) : Tidy l (endTimeOp r n z).2 := by
  unfold Machine.endTimeOp
  dsimp only
  split
  · exact complete (.pair h)
  · exact h

theorem beginTimeOp {r : TimeReq} (h : Tidy l z.2) : Tidy l (beginTimeOp r z).2 := by
  refine .ite h.endTimeOp (.ite h.endTimeOp ?_)
  split
  · exact endTimeOp (.pair h)
  · exact h

theorem nextTimeOp {n : Nat} (h : Tidy l z.2) : Tidy l (nextTimeOp n z).2 := by
  induction n generalizing z with
  | zero => exact h
  | succ n ih =>
    unfold Machine.nextTimeOp
    split
    · exact ih (beginTimeOp (.pair h))
    · exact h

theorem acceptTimeOp {r : TimeReq} (h : Tidy l z.2) : Tidy l (acceptTimeOp r z).2 := nextTimeOp (.pair h)

theorem askTimeOp {r : TimeReq} (h : Tidy l z.2) : Tidy l (askTimeOp r z).2 := .ite h h.acceptTimeOp

theorem timeOpLands (h : Tidy l z.2) : Tidy l (timeOpLands z).2 := by
  unfold Machine.timeOpLands
  split
  · exact nextTimeOp (.ite (endTimeOp (.pair h)) (endTimeOp (.pair h)))
  · exact h

theorem timePortCmd {m : Nat} {b : Mailbox} (h : Tidy l z.2) : Tidy l (timePortCmd m b z).2 :=
  .ite h.fail (complete (.pair h))

theorem timeStepCmd {m : Nat} {b : Mailbox} (h : Tidy l z.2) : Tidy l (timeStepCmd m b z).2 :=
  .ite h.fail (acceptTimeOp (.pair h))

theorem ptpConfigCmd {m : Nat} {b : Mailbox} (h : Tidy l z.2) : Tidy l (ptpConfigCmd m b z).2 :=
  .ite h.fail (complete (.pair h))

theorem timOpWrite {v : Word} (h : Tidy l z.2) : Tidy l (timOpWrite v z).2 := by
  unfold Machine.timOpWrite
  dsimp only
  split
  case h_4 => exact h
  all_goals exact h.acceptTimeOp

theorem timLands {off : Nat} {v : Word} (h : Tidy l z.2) : Tidy l (timLands off v z).2 := by
  refine .ite h (.ite h (.ite h (.ite h (.ite h (.ite h.timOpWrite (.ite ?_ (.ite h h)))))))
  dsimp only
  split
  all_goals exact h

theorem postedLands (h : Tidy l z.2) : Tidy l (postedLands z).2 := by
  unfold Machine.postedLands
  split
  · exact timLands (.pair h)
  · exact h

/-! ### Leave and hold-up (16 R493, R494) -/

theorem resumeBox {m : Nat} (h : Tidy l z.2) : Tidy l (resumeBox m z).2 := by
  unfold Machine.resumeBox
  dsimp only
  split
  · exact h.startFlush
  · exact h.startTicketFlush
  all_goals exact h

theorem grantQueued {q : LeaveReq} (h : Tidy l z.2) : Tidy l (grantQueued q z).2 := by
  unfold Machine.grantQueued
  dsimp only
  split
  · exact h
  · exact .ite (resumeBox (.pair h)) h

theorem grantHead (h : Tidy l z.2) : Tidy l (grantHead z).2 := by
  unfold Machine.grantHead
  dsimp only
  split
  · exact h
  · exact .ite (grantQueued (.pair h)) h

theorem refusedOp {op unit : Nat} {mbx : Option Nat} (h : Tidy l z.2) : Tidy l (refusedOp op unit mbx z).2 := by
  unfold Machine.refusedOp
  dsimp only
  split
  · refine .ite h ?_
    split
    · exact .ite h.activationFails (fail (.pair h))
    · exact fail (.pair h)
  · split
    · exact .ite h h
    · exact .ite h h
    · refine .ite h ?_
      split
      · exact .ite h.activationFails h
      · exact h
    all_goals exact h

theorem refuseQueued {reason : Nat} {qs : List LeaveReq} (h : Tidy l z.2) : Tidy l (refuseQueued reason qs z).2 :=
  foldl (fun _ _ ha => ha.refusedOp) (.pair h)

theorem queueTimesOut (h : Tidy l z.2) : Tidy l (queueTimesOut z).2 := refuseQueued (.pair h)

theorem requestLeave {op unit : Nat} (h : Tidy l z.2) : Tidy l (requestLeave op unit z).2 := by
  refine .ite h ?_
  split
  · exact h
  · exact h
  · exact refusedOp (.pair h)

theorem requestTurn {s : State} {op unit : Nat} (h : Tidy l z.2) : Tidy l (requestTurn s op unit z).2 := by
  refine .ite h ?_
  split
  · exact foldl (fun _ _ ha => ha.requestLeave) (.pair h)
  · exact h.requestLeave

theorem inletLoses {i : Inlet} (h : Tidy l z.2) : Tidy l (inletLoses i z).2 := by
  unfold Machine.inletLoses
  dsimp only
  split
  · exact .ite h (.ite h (.ite (refuseQueued (.pair h)) h))
  · exact h

/-! ### Modes, resets and power (01 R26 to R33, 16 R494, 18 R534) -/

theorem enterCold {cause : Nat} (h : Tidy l z.2) : Tidy l (enterCold cause z).2 := .pair h.erase

theorem resetAsserted (h : Tidy l z.2) : Tidy l (resetAsserted z).2 := .ite h (enterCold (.pair h))

theorem scheduledResets (h : Tidy l z.2) : Tidy l (scheduledResets z).2 := by
  unfold Machine.scheduledResets
  split
  · exact .ite h.enterCold h
  · exact h

theorem holdupEnds (h : Tidy l z.2) : Tidy l (holdupEnds z).2 := by
  unfold Machine.holdupEnds
  split
  · exact .ite (.pair h.erase) h
  · exact h

theorem bootFails (h : Tidy l z.2) : Tidy l (bootFails z).2 := .pair h.enterCold

theorem checkImage (h : Tidy l z.2) : Tidy l (checkImage z).2 := by
  refine .ite h ?_
  split
  · exact h.bootFails
  · exact .ite (.pair h) (.ite (bootFails (.pair h)) (.pair h))

theorem changeMode {m : Nat} {new : Mode} (h : Tidy l z.2) : Tidy l (changeMode m new z).2 := complete (.pair h)

theorem modeChangeCmd {m : Nat} {b : Mailbox} (h : Tidy l z.2) : Tidy l (modeChangeCmd m b z).2 := by
  refine .ite h.fail (.ite h.fail ?_)
  split
  · exact h
  · exact h
  · exact .ite h.fail h.changeMode
  · exact h.changeMode
  · exact h.changeMode
  · exact h.fail

theorem drainOver (h : Tidy l z.2) : Tidy l (drainOver z).2 := by
  unfold Machine.drainOver
  dsimp only
  split
  · exact h
  · refine .ite h ?_
    split
    · exact complete (.pair h)
    · exact .pair h

theorem abandonAll (h : Tidy l z.2) : Tidy l (abandonAll z).2 :=
  foldl (fun _ _ ha => .ite (complete (.pair ha)) ha) h

theorem firmwareFails (h : Tidy l z.2) : Tidy l (firmwareFails z).2 := .ite h (.pair (abandonAll (.pair h)))

theorem firmwareServes (h : Tidy l z.2) : Tidy l (firmwareServes z).2 := by
  unfold Machine.firmwareServes
  split
  · exact h
  · exact drainOver (.pair h)

end Tidy

/-! ### Every command -/

/-- The outcome is a next state of `s` with the queue of `s`, canonical buffers being kept. -/
def Completes (o : Host.Outcome State Fault Refusal) (s : State) : Prop :=
  ∃ t, o = .next t ∧ t.pending = s.pending ∧ Tidy s.mem t.mem

theorem completes_cmdAll (c : Instr) {f : Mod × List Host.Cell → Mod × List Host.Cell} {s : State}
    (hf : Tidy s.mem (f (s.mod, s.mem)).2) : Completes (cmdAll c f s) s := ⟨_, rfl, rfl, .ite hf (.refl _)⟩

/-- A Daxdy command whose handler keeps the buffers canonical completes. -/
theorem completes_onCommand (c : Instr) {m op : Nat} {f : Mailbox → Mod × List Host.Cell → Mod × List Host.Cell} {s : State}
    (hf : ∀ b, Tidy s.mem (f b (s.mod, s.mem)).2) : Completes (cmdAll c (onCommand m op f) s) s :=
  completes_cmdAll c (Tidy.onCommand hf (.refl _))

theorem completes_onSecurity (c : Instr) {m op : Nat} {f : Mailbox → Mod × List Host.Cell → Mod × List Host.Cell} {s : State}
    (hf : ∀ b, Tidy s.mem (f b (s.mod, s.mem)).2) : Completes (cmdAll c (onSecurity m op f) s) s :=
  completes_cmdAll c (Tidy.onSecurity hf (.refl _))

theorem exec_completes (c : Instr) (s : State) : Completes (exec c s) s := by
  have h : Tidy s.mem (s.mod, s.mem).2 := .refl _
  cases c with
  | commandTaken m => exact completes_cmdAll _ h.takeCommand
  | commandStart m => exact completes_cmdAll _ h.startCommand
  | commandDeadline m => exact completes_cmdAll _ h.deadline
  | notificationPost => exact completes_cmdAll _ h.postNotif
  | hello m => exact completes_onCommand _ fun _ => h.helloCmd
  | moduleInfo m => exact completes_onCommand _ fun _ => h.moduleInfoCmd
  | mailboxBufferWrite off bytes => exact completes_cmdAll _ h.bufferWrite
  | ttOpen m => exact completes_onCommand _ fun _ => h.ttOpenCmd
  | ttWrite m => exact completes_onCommand _ fun _ => h.ttWriteCmd
  | ttClose m => exact completes_onCommand _ fun _ => h.ttCloseCmd
  | ttInvalidate m => exact completes_onCommand _ fun _ => h.ttInvalidateCmd
  | ttStatus m => exact completes_onCommand _ fun _ => h.ttStatusCmd
  | firmwareUpdate m => exact completes_onCommand _ fun _ => h.firmwareUpdateCmd
  | fwWrite m => exact completes_onSecurity _ fun _ => h.fwWriteCmd
  | fwCommit m => exact completes_onSecurity _ fun _ => h.fwCommitCmd
  | fwStatus m => exact completes_onSecurity _ fun _ => h.fwStatusCmd
  | enrol m => exact completes_onSecurity _ fun _ => h.enrolCmd
  | quote m => exact completes_onSecurity _ fun _ => h.quoteCmd
  | challenge m => exact completes_onSecurity _ fun _ => h.challengeCmd
  | decommission m => exact completes_onSecurity _ fun _ => h.decommissionCmd
  | policySet m => exact completes_onSecurity _ fun _ => h.policySetCmd
  | dmaWriteRefused n => exact completes_cmdAll _ h.writeRefused
  | tableEditInsert m => exact completes_onCommand _ fun _ => h.tableEdit
  | tableEditChange m => exact completes_onCommand _ fun _ => h.tableEdit
  | tableEditDelete m => exact completes_onCommand _ fun _ => h.tableEdit
  | queueConfig m => exact completes_onCommand _ fun _ => h.queueConfigCmd
  | quarantineEnd meter i => exact completes_cmdAll _ h.quarantineEnds
  | search m => exact completes_onCommand _ fun _ => h.searchCmd
  | next m => exact completes_onCommand _ fun _ => h.tableNextCmd
  | flushByPort m => exact completes_onCommand _ fun _ => h.flushCmd
  | journalRead m => exact completes_onCommand _ fun _ => h.journalReadCmd
  | ticketRead m => exact completes_onCommand _ fun _ => h.ticketReadCmd
  | ticketFlush m => exact completes_onCommand _ fun _ => h.ticketFlushCmd
  | counterRead m => exact completes_onCommand _ fun _ => h.counterReadCmd
  | captureRing m => exact completes_onCommand _ fun _ => h.captureRingCmd
  | editReplicasCommitted => exact completes_cmdAll _ h.replicasCommitted
  | couplerTrainingDone => exact completes_cmdAll _ h.couplerTrained
  | couplerTrainingFail => exact completes_cmdAll _ h.couplerFails
  | pairRestart m => exact completes_onCommand _ fun _ => h.pairRestartCmd
  | reinsHandover m => exact completes_onCommand _ fun _ => h.reinsHandoverCmd
  | verificationDone k => exact completes_cmdAll _ h.verificationEnds
  | ttActivate m => exact completes_onCommand _ fun _ => h.ttActivateCmd
  | shedLoadDone sh d => exact completes_cmdAll _ h.shedLoaded
  | timetableFlip => exact completes_cmdAll _ h.flipNow
  | drainEnd => exact completes_cmdAll _ h.drainEnds
  | startActivation => exact completes_cmdAll _ h.startActivates
  | timeUnitSet servo force sec ns => exact completes_cmdAll _ h.askTimeOp
  | timeUnitStep servo force off => exact completes_cmdAll _ h.askTimeOp
  | timeUnitFrequency servo force freq => exact completes_cmdAll _ h.askTimeOp
  | timeOpTakeEffect => exact completes_cmdAll _ h.timeOpLands
  | timePort m => exact completes_onCommand _ fun _ => h.timePortCmd
  | timeStep m => exact completes_onCommand _ fun _ => h.timeStepCmd
  | ptpConfig m => exact completes_onCommand _ fun _ => h.ptpConfigCmd
  | postedWriteLand => exact completes_cmdAll _ h.postedLands
  | inletLoss i => exact completes_cmdAll _ h.inletLoses
  | leaveRequest op unit => exact completes_cmdAll _ h.requestTurn
  | leaveGrant => exact completes_cmdAll _ h.grantHead
  | leaveQueueTimeout => exact completes_cmdAll _ h.queueTimesOut
  | macsecInstallTxSa m => exact completes_onCommand _ fun _ => h.macsecOp
  | macsecInstallRxSa m => exact completes_onCommand _ fun _ => h.macsecOp
  | macsecDeleteSa m => exact completes_onCommand _ fun _ => h.macsecOp
  | macsecSelectTxSa m => exact completes_onCommand _ fun _ => h.macsecOp
  | modeChange m => exact completes_onCommand _ fun _ => h.modeChangeCmd
  | quiesceDrainEnd => exact completes_cmdAll _ h.drainOver
  | foltinWatchdog => exact completes_cmdAll _ h.firmwareFails
  | foltinRestartDone => exact completes_cmdAll _ h.firmwareServes
  | scheduledReset => exact completes_cmdAll _ h.scheduledResets
  | firmwareImageCheck => exact completes_cmdAll _ h.checkImage
  | patchVerify => exact completes_cmdAll (f := fun y => (patchVerifyNow y.2 y.1, y.2)) _ (.pair h)
  | modResetAssert => exact completes_cmdAll _ h.resetAsserted
  | holdupEnd => exact completes_cmdAll _ h.holdupEnds
  | _ => exact ⟨_, rfl, rfl, .refl _⟩

/-! ### The statements -/

/-- Settles O59: the front command completes, and the tick of an empty queue leaves buffers and queue alone. -/
theorem stepsKeepTheBuffers : Obligations.StepsKeepTheBuffers := by
  unfold Obligations.StepsKeepTheBuffers
  intro s t hs ht
  unfold step at ht
  split at ht
  case h_1 c rest hp =>
    obtain ⟨u, hu, hpend, htidy⟩ := exec_completes c { s with pending := rest }
    obtain rfl : u = t := Host.Outcome.next.inj (hu.symm.trans ht)
    exact ⟨htidy hs, by rw [hpend, hp, List.tail_cons]⟩
  case h_2 hp =>
    obtain rfl := Host.Outcome.next.inj ht
    exact ⟨hs, by simp [hp]⟩

/-- Settles O2: every command completes. -/
theorem everyCommandAnswers : Obligations.EveryCommandAnswers := by
  unfold Obligations.EveryCommandAnswers
  intro c s
  obtain ⟨t, ht, hpend, -⟩ := exec_completes c s
  exact ⟨t, ht, hpend⟩

end Sys2Proof.Machine
end

section
/-! Proofs about the messages of the host: what bytes stored in the addressed buffers read as, what the end of a Daxdy command writes
and leaves alone (12 R381 to R384), and a host write to a message buffer (R380). -/

namespace Sys2Proof.Machine

-- One theorem at a time: each thread that elaborates another reserves a stack, and their sum has a limit.
set_option Elab.async false

/-! ### Bytes stored and erased -/

/-- A stored byte is the byte read. -/
theorem Memory.read_writes_at (bytes : List Byte) (l : List Host.Cell) (w : Memory.wf l = true) (a : Nat) {i : Nat}
    (h : i < bytes.length) : Memory.read (Memory.writes l a bytes) (a + i) = bytes.getD i 0 := by
  induction bytes generalizing l a i with
  | nil => simp at h
  | cons v vs ih =>
    have hw := Memory.wf_write l a v w
    cases i with
    | zero => simp [Memory.writes, Memory.read_writes vs _ hw (a + 1) a (by omega), Memory.read_write l w]
    | succ i =>
      rw [Memory.writes, show a + (i + 1) = a + 1 + i by omega, ih _ hw (a + 1) (by simpa using h)]
      simp

/-- Bytes stored elsewhere are not read. -/
theorem Memory.read_writes_outside {bytes : List Byte} {l : List Host.Cell} (w : Memory.wf l = true) {a b : Nat}
    (h : ¬ (a ≤ b ∧ b < a + bytes.length)) : Memory.read (Memory.writes l a bytes) b = Memory.read l b :=
  Memory.read_writes bytes l w a b (by omega)

/-- An erased byte reads 0. -/
theorem Memory.read_erased (l : List Host.Cell) {lo hi b : Nat} (h : lo ≤ b) (k : b < hi) :
    Memory.read (Memory.erase l lo hi) b = 0#8 := by
  unfold Memory.erase
  induction l with
  | nil => rfl
  | cons c t ih =>
    rw [List.filter_cons]
    split
    case isTrue hp =>
      have hc : c.1 ≠ b := by
        rintro rfl
        simp only [Bool.or_eq_true, decide_eq_true_eq] at hp
        omega
      simpa [Memory.read, hc] using ih
    case isFalse => exact ih

theorem length_leBytes (n v : Nat) : (leBytes n v).length = n := by
  induction n generalizing v with
  | zero => rfl
  | succ n ih => simp [leBytes, ih]

theorem length_replyHeader (v : Option (Nat × Nat)) (op : Nat) (seq : Word) (len st due : Nat) :
    (replyHeader v op seq len st due).length = 16 := by
  simp [replyHeader, length_leBytes]

theorem length_sliceOf (l : List Byte) (off len : Nat) : (sliceOf l off len).length = len := by
  simp only [sliceOf, List.length_append, List.length_replicate, List.length_take]
  omega

/-! ### The end of a Daxdy command -/

/-- The bytes of the reply that ends the command of mailbox `n` (12 R384). -/
def replyBytes (n st : Nat) (body : List Byte) (x : Mod) : List Byte :=
  replyHeader x.dax.version (x.dax.boxes.get n).opcode (x.dax.boxes.get n).reqSeq body.length st 0 ++ body

theorem length_replyBytes (n st : Nat) (body : List Byte) (x : Mod) : (replyBytes n st body x).length = 16 + body.length := by
  simp [replyBytes, length_replyHeader]

/-- Mailbox `n` once its command has ended with a reply to the host (12 R381, R383). -/
def answeredBox (n st : Nat) (body : List Byte) (x : Mod) : Mailbox :=
  { st := .done, seq := (x.dax.boxes.get n).reqSeq, status := st, ring := false,
    stored := if x.dax.version.isSome then some ((x.dax.boxes.get n).reqSeq, st, replyBytes n st body x) else none }

/-- A reply that goes to the host is stored at the start of the message buffer, kept, and signalled. -/
theorem complete_heard {n : Nat} {x : Mod} (hq : (x.dax.boxes.get n).quiet = false) (st : Nat) (body : List Byte)
    (b : List Host.Cell) :
    complete n st body (x, b) =
      (signal n (setBox n (fun _ => answeredBox n st body x) x), Memory.writes b (mbxBase n) (replyBytes n st body x)) := by
  simp only [complete, hq, Bool.false_eq_true, if_false]
  rfl

/-- A discarded reply writes nothing. -/
theorem complete_quiet {n : Nat} {x : Mod} (hq : (x.dax.boxes.get n).quiet = true) (st : Nat) (body : List Byte)
    (b : List Host.Cell) :
    complete n st body (x, b) = (setBox n (fun b => { ring := b.ring, status := b.status }) x, b) := by
  simp only [complete, hq, if_true]

theorem complete_replied {n : Nat} {x : Mod} (hq : (x.dax.boxes.get n).quiet = false) (st : Nat) (body : List Byte)
    (b : List Host.Cell) : replied (complete n st body (x, b)).1 n st := by
  simp only [complete_heard hq, replied, signal_keeps, setBox_same, answeredBox, and_self]

/-! Each event and each signal leaves the errors of the memories and of the arithmetic alone. -/

@[simp] theorem signal_ecc (n : Nat) (x : Mod) : (signal n x).ecc = x.ecc := (congrArg Mod.ecc (signal_raised n x)).trans rfl
@[simp] theorem signal_resid (n : Nat) (x : Mod) : (signal n x).resid = x.resid := (congrArg Mod.resid (signal_raised n x)).trans rfl
@[simp] theorem notify_ecc (n : Notif) (x : Mod) : (notify n x).ecc = x.ecc := (congrArg Mod.ecc (notify_raised n x)).trans rfl
@[simp] theorem notify_resid (n : Notif) (x : Mod) : (notify n x).resid = x.resid := (congrArg Mod.resid (notify_raised n x)).trans rfl
@[simp] theorem raise_ecc (l : Level) (e : Evt) (x : Mod) : (raise l e x).ecc = x.ecc := (congrArg Mod.ecc (raise_raised l e x)).trans rfl
@[simp] theorem raise_resid (l : Level) (e : Evt) (x : Mod) : (raise l e x).resid = x.resid := (congrArg Mod.resid (raise_raised l e x)).trans rfl
@[simp] theorem raiseWith_ecc (l : Level) (e : Evt) (w : Option Word) (a : Nat) (x : Mod) : (raiseWith l e w a x).ecc = x.ecc :=
  (congrArg Mod.ecc (raiseWith_raised l e w a x)).trans rfl
@[simp] theorem raiseWith_resid (l : Level) (e : Evt) (w : Option Word) (a : Nat) (x : Mod) : (raiseWith l e w a x).resid = x.resid :=
  (congrArg Mod.resid (raiseWith_raised l e w a x)).trans rfl

/-- Of the module a reply changes the mailboxes, what left the block, and the pending vectors. -/
@[simp] theorem complete_keeps (n st : Nat) (body : List Byte) (y : Mod × List Host.Cell) :
    (complete n st body y).1.now = y.1.now ∧ (complete n st body y).1.free = y.1.free ∧
    (complete n st body y).1.rdata = y.1.rdata ∧ (complete n st body y).1.mode = y.1.mode ∧
    (complete n st body y).1.evts = y.1.evts ∧ (complete n st body y).1.logs = y.1.logs ∧
    (complete n st body y).1.spills = y.1.spills ∧ (complete n st body y).1.ctrs = y.1.ctrs ∧
    (complete n st body y).1.pairs = y.1.pairs ∧ (complete n st body y).1.latch = y.1.latch ∧
    (complete n st body y).1.pwr = y.1.pwr ∧ (complete n st body y).1.isl = y.1.isl ∧
    (complete n st body y).1.sec = y.1.sec ∧ (complete n st body y).1.patch = y.1.patch ∧
    (complete n st body y).1.ost = y.1.ost ∧ (complete n st body y).1.trb = y.1.trb ∧
    (complete n st body y).1.ext = y.1.ext ∧ (complete n st body y).1.cpl = y.1.cpl ∧
    (complete n st body y).1.tt = y.1.tt ∧ (complete n st body y).1.line = y.1.line ∧
    (complete n st body y).1.frames = y.1.frames ∧ (complete n st body y).1.nextF = y.1.nextF ∧
    (complete n st body y).1.tbl = y.1.tbl ∧ (complete n st body y).1.tkt = y.1.tkt ∧
    (complete n st body y).1.loft = y.1.loft ∧ (complete n st body y).1.mesh = y.1.mesh ∧
    (complete n st body y).1.que = y.1.que ∧ (complete n st body y).1.cap = y.1.cap ∧
    (complete n st body y).1.tim = y.1.tim ∧ (complete n st body y).1.ecc = y.1.ecc ∧
    (complete n st body y).1.resid = y.1.resid := by
  obtain ⟨x, b⟩ := y
  cases hq : (x.dax.boxes.get n).quiet with
  | true => simp [complete_quiet hq]
  | false => simp [complete_heard hq]

theorem complete_evtSet (n st : Nat) (body : List Byte) (y : Mod × List Host.Cell) (l : Level) (e : Evt) :
    evtSet l e (complete n st body y).1 = evtSet l e y.1 := by simp [evtSet]

/-- Outside the bytes of the reply nothing is written. -/
theorem complete_read_outside {n : Nat} {x : Mod} {b : List Host.Cell} (hw : Memory.wf b = true) {st : Nat} {body : List Byte} {a : Nat}
    (h : ¬ (mbxBase n ≤ a ∧ a < mbxBase n + (16 + body.length))) :
    Memory.read (complete n st body (x, b)).2 a = Memory.read b a := by
  cases hq : (x.dax.boxes.get n).quiet with
  | true => rw [complete_quiet hq]
  | false =>
    rw [← length_replyBytes n st body x] at h
    simp only [complete_heard hq, Memory.read_writes_outside hw h]

/-! ### The statements -/

/-- Outside a session a reply is not kept for a repeat. -/
theorem complete_forgotten {n : Nat} {x : Mod} (hq : (x.dax.boxes.get n).quiet = false) (hv : x.dax.version = none) (st : Nat)
    (body : List Byte) (b : List Host.Cell) : ((complete n st body (x, b)).1.dax.boxes.get n).stored = none := by
  simp only [complete_heard hq, signal_keeps, setBox_same, answeredBox, hv, Option.isSome_none, Bool.false_eq_true, if_false]

/-- Refutes O36: right after reset there is no session, and the reply is not kept for a repeat (12 R383). -/
theorem not_commandsEndWithAReply : ¬ Obligations.CommandsEndWithAReply := by
  unfold Obligations.CommandsEndWithAReply
  intro h
  have hq : (State.reset.mod.dax.boxes.get 0).quiet = false := by decide
  have hv : State.reset.mod.dax.version = none := by decide
  generalize State.reset.mod = x at hq hv
  have hstored := ((h 0 0 [] x [] Memory.wf_nil).1 hq).2.2.1
  rw [complete_forgotten hq hv] at hstored
  cases hstored

/-- A write to the buffer of a mailbox without a command TAKEN or RUNNING stores what fits. -/
theorem bufferWrite_free {off : Nat} {x : Mod} (h : (x.dax.boxes.get (off / 0x1000)).shown ∉ [.taken, .running]) (bytes : List Byte)
    (b : List Host.Cell) : bufferWrite off bytes (x, b) = (x, Memory.writes b off (bytes.take (0xF80 - off % 0x1000))) := by
  unfold bufferWrite
  dsimp only
  split
  case h_1 ht => simp [ht] at h
  case h_2 hr => simp [hr] at h
  case h_3 => rfl

/-- A write to the buffer of a mailbox with a command TAKEN or RUNNING is ignored. -/
theorem bufferWrite_taken {off : Nat} {x : Mod} (h : (x.dax.boxes.get (off / 0x1000)).shown ∈ [.taken, .running]) (bytes : List Byte)
    (b : List Host.Cell) : bufferWrite off bytes (x, b) = (raise .yard evBufferWrite x, b) := by
  unfold bufferWrite
  dsimp only
  split
  case h_1 => rfl
  case h_2 => rfl
  case h_3 ht hr =>
    rw [List.mem_pair] at h
    exact (h.elim ht hr).elim

/-- Settles O38: the handler stores the bytes that fit where the mailbox is not taken, and raises BUFFER_WRITE where it is. -/
theorem bufferWritesAreStored : Obligations.BufferWritesAreStored := by
  unfold Obligations.BufferWritesAreStored
  intro off bytes s ha hs
  refine ⟨fun hfree => answersBuf_of (bufferWrite off bytes) rfl ha ?_, fun htaken => answersBuf_of (bufferWrite off bytes) rfl ha ?_⟩
  · have hlen : (bytes.take (0xF80 - off % 0x1000)).length = min bytes.length (0xF80 - off % 0x1000) := by
      rw [List.length_take, min_comm]
    rw [bufferWrite_free hfree]
    refine ⟨rfl, fun i hi => ?_, fun a hout => Memory.read_writes_outside hs (by rwa [hlen])⟩
    rw [Memory.read_writes_at _ _ hs _ (by rwa [hlen])]
    simp [List.getD_eq_getElem?_getD, (lt_min_iff.mp hi).2]
  · rw [bufferWrite_taken htaken]
    exact ⟨rfl, raise_evtSet _ _ _ (by decide), raise_raised .yard evBufferWrite s.mod⟩

end Sys2Proof.Machine
end

section
/-! Proofs about the timetable banks (10 R326 to R331, R341): what their five commands answer, and which bytes they store or erase. -/

namespace Sys2Proof.Machine

-- One theorem at a time: each thread that elaborates another reserves a stack, and their sum has a limit.
set_option Elab.async false

/-- A Daxdy command that runs completes with whatever holds of what its handler leaves. -/
theorem answersBuf_onCommand {c : Instr} {s : State} {n op : Nat} {P : Mod → List Host.Cell → Prop}
    (f : Mailbox → Mod × List Host.Cell → Mod × List Host.Cell) (he : exec c s = cmdAll c (onCommand n op f) s)
    (ha : arrives c s.mod = true) (hr : running s.mod n op) {z : Mod × List Host.Cell}
    (hf : f (s.mod.dax.boxes.get n) (s.mod, s.mem) = z) (h : P z.1 z.2) : AnswersBuf c s P := by
  refine answersBuf_of _ he ha ?_
  rwa [onCommand_running hr, hf]

theorem arrives_wf {c : Instr} {x : Mod} (ha : arrives c x = true) : c.wf = true := (Bool.and_eq_true_iff.mp ha).1

/-- The message buffers of mailboxes 0 to 14 end below the banks and the slots. -/
theorem mbxBase_lt {n : Nat} (h : n < 15) : mbxBase n < 0xF000 := by unfold mbxBase; omega

theorem read_eraseBank_inside (k : Nat) (l : List Host.Cell) {a : Nat} (h : bankBase k ≤ a) (h' : a < bankBase (k + 1)) :
    Memory.read (eraseBank k l) a = 0#8 := Memory.read_erased l h h'

theorem read_eraseBank_outside (k : Nat) (l : List Host.Cell) {a : Nat} (h : ¬ (bankBase k ≤ a ∧ a < bankBase (k + 1))) :
    Memory.read (eraseBank k l) a = Memory.read l a := Memory.read_erase l _ _ a (by omega)

theorem wf_eraseBank (k : Nat) {l : List Host.Cell} (w : Memory.wf l = true) : Memory.wf (eraseBank k l) = true :=
  Memory.wf_erase l _ _ w

/-- The byte of a bank is none of a reply's. -/
theorem reply_read_bank {n k : Nat} (hn : n < 15) {st : Nat} {body : List Byte} (hbody : body.length ≤ 0x1000) {x : Mod}
    {l : List Host.Cell} (w : Memory.wf l = true) {a : Nat} (h : bankBase k ≤ a) :
    Memory.read (complete n st body (x, l)).2 a = Memory.read l a := by
  have := mbxBase_lt hn
  unfold bankBase at h
  exact complete_read_outside w (by omega)

/-! ### TT_OPEN -/

section
variable {n : Nat} {b : Mailbox} {x : Mod} {l : List Host.Cell}

/-- TT_OPEN of a well-formed message goes by the state of the bank. -/
theorem ttOpenCmd_wellFormed (h16 : b.len = 16) (hk : leAt b.body 0 1 ≤ 1) (h0 : leAt b.body 1 7 = 0) (hlo : 0x500 ≤ leAt b.body 8 8)
    (hhi : leAt b.body 8 8 ≤ 0x20000000) :
    ttOpenCmd n b (x, l) =
      match (x.tt.banks.get (leAt b.body 0 1)).st with
      | .active => ttReply n ttBankActive (x, l)
      | .retiring | .verifying => ttReply n ttBankBusy (x, l)
      | _ =>
        if activating x (leAt b.body 0 1) || (x.tt.banks.get (1 - leAt b.body 0 1)).st == .writing then ttReply n ttBankBusy (x, l)
        else ttReply n ttOk (setBank (leAt b.body 0 1)
          (fun _ => { st := .writing, len := leAt b.body 8 8, next := 0, since := x.now }) x, eraseBank (leAt b.body 0 1) l) := by
  simp only [ttOpenCmd, h16, h0, hk.not_gt, hlo.not_gt, hhi.not_gt, ne_eq, not_true_eq_false, decide_false, Bool.or_self,
    Bool.false_eq_true, if_false] <;> rfl

theorem ttOpenCmd_opens (h16 : b.len = 16) (hk : leAt b.body 0 1 ≤ 1) (h0 : leAt b.body 1 7 = 0) (hlo : 0x500 ≤ leAt b.body 8 8)
    (hhi : leAt b.body 8 8 ≤ 0x20000000) (hst : (x.tt.banks.get (leAt b.body 0 1)).st ∈ [.empty, .writing, .valid, .invalid])
    (hact : activating x (leAt b.body 0 1) = false) (hoth : (x.tt.banks.get (1 - leAt b.body 0 1)).st ≠ .writing) :
    ttOpenCmd n b (x, l) = complete n stOk [0] (setBank (leAt b.body 0 1)
      (fun _ => { st := .writing, len := leAt b.body 8 8, next := 0, since := x.now }) x, eraseBank (leAt b.body 0 1) l) := by
  rw [ttOpenCmd_wellFormed h16 hk h0 hlo hhi]
  simp only [List.mem_cons, List.not_mem_nil, or_false] at hst
  have hoth' : ((x.tt.banks.get (1 - leAt b.body 0 1)).st == .writing) = false := by simpa using hoth
  rcases hst with h | h | h | h
  all_goals simp only [h, hact, hoth', Bool.or_self, Bool.false_eq_true, if_false, ttReply]; rfl

theorem ttOpenCmd_waits (h16 : b.len = 16) (hk : leAt b.body 0 1 ≤ 1) (h0 : leAt b.body 1 7 = 0) (hlo : 0x500 ≤ leAt b.body 8 8)
    (hhi : leAt b.body 8 8 ≤ 0x20000000) (hst : (x.tt.banks.get (leAt b.body 0 1)).st ∈ [.empty, .writing, .valid, .invalid])
    (h : activating x (leAt b.body 0 1) = true ∨ (x.tt.banks.get (1 - leAt b.body 0 1)).st = .writing) :
    ttOpenCmd n b (x, l) = complete n stOk [0x11] (x, l) := by
  rw [ttOpenCmd_wellFormed h16 hk h0 hlo hhi]
  have hbusy : (activating x (leAt b.body 0 1) || (x.tt.banks.get (1 - leAt b.body 0 1)).st == .writing) = true := by simpa using h
  simp only [List.mem_cons, List.not_mem_nil, or_false] at hst
  rcases hst with h | h | h | h
  all_goals simp only [h, hbusy, if_true, ttReply]; rfl

/-! ### TT_WRITE -/

/-- TT_WRITE of a well-formed message within LENGTH goes by its offset. -/
theorem ttWriteCmd_wellFormed (hk : leAt b.body 0 1 ≤ 1) (h0 : leAt b.body 1 1 = 0) (hlo : 8 ≤ leAt b.body 2 2)
    (hhi : leAt b.body 2 2 ≤ 3584) (hlen : b.len = 8 + leAt b.body 2 2) (hst : (x.tt.banks.get (leAt b.body 0 1)).st = .writing)
    (hfit : leAt b.body 4 4 + leAt b.body 2 2 ≤ (x.tt.banks.get (leAt b.body 0 1)).len)
    (height : leAt b.body 2 2 % 8 = 0 ∨ leAt b.body 4 4 + leAt b.body 2 2 = (x.tt.banks.get (leAt b.body 0 1)).len) :
    ttWriteCmd n b (x, l) =
      if leAt b.body 4 4 = (x.tt.banks.get (leAt b.body 0 1)).next then
        complete n stOk [0] (setBank (leAt b.body 0 1) (fun o => { o with next := o.next + leAt b.body 2 2 }) x,
          Memory.writes l (bankBase (leAt b.body 0 1) + leAt b.body 4 4) (sliceOf b.body 8 (leAt b.body 2 2)))
      else if leAt b.body 4 4 < (x.tt.banks.get (leAt b.body 0 1)).next ∧
          leAt b.body 4 4 + leAt b.body 2 2 ≤ (x.tt.banks.get (leAt b.body 0 1)).next ∧
          Memory.reads l (bankBase (leAt b.body 0 1) + leAt b.body 4 4) (leAt b.body 2 2) = sliceOf b.body 8 (leAt b.body 2 2) then
        complete n stOk [0] (x, l)
      else complete n stInvalid [] (x, l) := by
  have hpart : (decide ((x.tt.banks.get (leAt b.body 0 1)).len < leAt b.body 4 4 + leAt b.body 2 2) ||
      (decide (leAt b.body 2 2 % 8 ≠ 0) && decide (leAt b.body 4 4 + leAt b.body 2 2 ≠ (x.tt.banks.get (leAt b.body 0 1)).len)))
        = false := by
    rcases height with h | h <;> simp [h, hfit]
  simp only [ttWriteCmd, hlen, h0, hk.not_gt, hlo.not_gt, hhi.not_gt, hst, hpart, ne_eq, not_true_eq_false, decide_false, Bool.or_self,
    bne_self_eq_false, Bool.false_eq_true, if_false, Bool.and_eq_true, decide_eq_true_eq, beq_iff_eq, and_assoc]
  rfl

/-! ### TT_CLOSE -/

theorem ttCloseCmd_notWriting (hst : (x.tt.banks.get (leAt b.body 0 1)).st ≠ .writing) :
    ttCloseCmd n b (x, l) = complete n stInvalid [] (x, l) := by
  have : ((x.tt.banks.get (leAt b.body 0 1)).st != .writing) = true := by simpa using hst
  simp only [ttCloseCmd, this, Bool.or_true, if_true]
  rfl

/-- TT_CLOSE of a WRITING bank goes by whether the bank is whole. -/
theorem ttCloseCmd_writing (hlen : b.len = 1) (hk : leAt b.body 0 1 ≤ 1) (hst : (x.tt.banks.get (leAt b.body 0 1)).st = .writing) :
    ttCloseCmd n b (x, l) =
      if (x.tt.banks.get (leAt b.body 0 1)).next < (x.tt.banks.get (leAt b.body 0 1)).len then
        complete n stOk [0] (reportBank (leAt b.body 0 1) ttIncomplete 0 0
          (setBank (leAt b.body 0 1) (fun o => { o with st := .invalid }) x), l)
      else complete n stOk [0] (setBank (leAt b.body 0 1) (fun o => { o with st := .verifying, since := x.now }) x, l) := by
  simp only [ttCloseCmd, hlen, hk.not_gt, hst, ne_eq, not_true_eq_false, decide_false, Bool.or_self, bne_self_eq_false,
    Bool.false_eq_true, if_false]
  rfl

/-- A reported outcome is set in VERIFIED and shown in TTB_VERIFY_LOG, and the banks are as they were. -/
theorem reportBank_reports (k result secId item : Nat) (x : Mod) :
    evtSet .yard evVerified (reportBank k result secId item x) = true ∧
      (reportBank k result secId item x).tt =
        { x.tt with verifyLog := reg [flag 31 (k == 1), at_ 24 7 result, at_ 16 8 secId, min item 0xFFFF] } := by
  unfold reportBank
  exact ⟨notify_evtSet_mono _ _ _ _ (raise_evtSet _ _ _ (by decide)), by simp only [notify_keeps, raise_keeps]⟩

/-! ### TT_INVALIDATE -/

/-- TT_INVALIDATE of a well-formed message goes by the state of the bank. -/
theorem ttInvalidateCmd_wellFormed (hlen : b.len = 1) (hk : leAt b.body 0 1 ≤ 1) :
    ttInvalidateCmd n b (x, l) =
      match (x.tt.banks.get (leAt b.body 0 1)).st with
      | .active => complete n stOk [0x10] (x, l)
      | .retiring | .verifying => complete n stOk [0x11] (x, l)
      | .empty => complete n stOk [0] (x, l)
      | _ =>
        if activating x (leAt b.body 0 1) then complete n stOk [0x11] (x, l)
        else complete n stOk [0] (setBank (leAt b.body 0 1) (fun _ => { st := .invalid }) x, eraseBank (leAt b.body 0 1) l) := by
  simp only [ttInvalidateCmd, hlen, hk.not_gt, ne_eq, not_true_eq_false, decide_false, Bool.or_self, Bool.false_eq_true, if_false] <;>
    rfl

theorem ttStatusCmd_answers (hlen : b.len = 0) :
    ttStatusCmd n b (x, l) = complete n stOk ([0, (match x.tt.active with
          | some k => BitVec.ofNat 8 k
          | none => 0xFF), BitVec.ofNat 8 (x.tt.epoch.toNat + flag 2 (draining x)),
          BitVec.ofNat 8 ((x.tt.banks.get 0).st.code + 16 * (x.tt.banks.get 1).st.code)]
        ++ leBytes 4 (bankSeq x 0).toNat ++ leBytes 4 (bankSeq x 1).toNat
        ++ leBytes 32 (bankDigest x 0).toNat ++ leBytes 32 (bankDigest x 1).toNat
        ++ leBytes 4 x.tt.verifyLog.toNat) (x, l) := by
  simp only [ttStatusCmd, hlen, ne_eq, not_true_eq_false, if_false]
  rfl

end

/-! ### The clauses -/

theorem ttOpen_answers {n : Nat} {s : State} (ha : arrives (.ttOpen n) s.mod = true) (hr : running s.mod n 0x20) (hs : Safe s)
    {z : Mod} {k : Nat} {v : Bank} (hk : k ≤ 1) (hz : z = setBank k (fun _ => v) s.mod)
    (hf : ttOpenCmd n (s.mod.dax.boxes.get n) (s.mod, s.mem) = complete n stOk [0] (z, eraseBank k s.mem)) :
    AnswersBuf (.ttOpen n) s fun m b => replied m n stOk ∧ m.tt.banks.get k = v ∧
      m.tt.banks.get (1 - k) = s.mod.tt.banks.get (1 - k) ∧
      (∀ a, bankBase k ≤ a → a < bankBase (k + 1) → Memory.read b a = 0#8) ∧
      (∀ a, ¬ (bankBase k ≤ a ∧ a < bankBase (k + 1)) → ¬ (mbxBase n ≤ a ∧ a < mbxBase n + 17) →
        Memory.read b a = Memory.read s.mem a) := by
  subst hz
  have hn : n < 15 := of_decide_eq_true (arrives_wf ha)
  have hw := wf_eraseBank k hs
  refine answersBuf_onCommand _ rfl ha hr hf ⟨complete_replied (by exact hr.2.2.2) _ _ _, ?_, ?_, fun a h h' => ?_, fun a h h' => ?_⟩
  · simp [setBank]
  · simp [setBank, Map.get_upd_other _ (show 1 - k ≠ k by omega)]
  · rw [reply_read_bank hn (by decide) hw h, read_eraseBank_inside k s.mem h h']
  · rw [complete_read_outside hw h', read_eraseBank_outside k s.mem h]

theorem ttWrite_stores {n : Nat} {s : State} (ha : arrives (.ttWrite n) s.mod = true) (hr : running s.mod n 0x21) (hs : Safe s)
    {k off : Nat} {f : Bank → Bank} {data : List Byte}
    (hf : ttWriteCmd n (s.mod.dax.boxes.get n) (s.mod, s.mem) =
      complete n stOk [0] (setBank k f s.mod, Memory.writes s.mem (bankBase k + off) data)) :
    AnswersBuf (.ttWrite n) s fun m b => replied m n stOk ∧ m.tt.banks.get k = f (s.mod.tt.banks.get k) ∧
      (∀ i < data.length, Memory.read b (bankBase k + off + i) = data.getD i 0) ∧
      (∀ a, ¬ (bankBase k + off ≤ a ∧ a < bankBase k + off + data.length) → ¬ (mbxBase n ≤ a ∧ a < mbxBase n + 17) →
        Memory.read b a = Memory.read s.mem a) := by
  have hn : n < 15 := of_decide_eq_true (arrives_wf ha)
  have hw := Memory.wf_writes data s.mem (bankBase k + off) hs
  refine answersBuf_onCommand _ rfl ha hr hf ⟨complete_replied (by exact hr.2.2.2) _ _ _, ?_, fun i hi => ?_, fun a h h' => ?_⟩
  · simp [setBank]
  · rw [reply_read_bank (k := k) hn (by decide) hw (by omega), Memory.read_writes_at data s.mem hs _ hi]
  · rw [complete_read_outside hw h', Memory.read_writes_outside hs h]

theorem ttInvalidate_empties {n : Nat} {s : State} (ha : arrives (.ttInvalidate n) s.mod = true) (hr : running s.mod n 0x24)
    (hs : Safe s) {k : Nat} {v : Bank}
    (hf : ttInvalidateCmd n (s.mod.dax.boxes.get n) (s.mod, s.mem) =
      complete n stOk [0] (setBank k (fun _ => v) s.mod, eraseBank k s.mem)) :
    AnswersBuf (.ttInvalidate n) s fun m b => replied m n stOk ∧ m.tt.banks.get k = v ∧
      ∀ a, bankBase k ≤ a → a < bankBase (k + 1) → Memory.read b a = 0#8 := by
  have hn : n < 15 := of_decide_eq_true (arrives_wf ha)
  refine answersBuf_onCommand _ rfl ha hr hf ⟨complete_replied (by exact hr.2.2.2) _ _ _, by simp [setBank], fun a h h' => ?_⟩
  rw [reply_read_bank hn (by decide) (wf_eraseBank k hs) h, read_eraseBank_inside k s.mem h h']

/-- Settles O32: each command ends with the reply of its case, and what it stores or erases lies in its bank. -/
theorem banksAreWritten : Obligations.BanksAreWritten := by
  unfold Obligations.BanksAreWritten
  refine ⟨fun n s ha hr hs => ?_, fun n s ha hr hs => ?_, fun n s ha hr => ?_, fun n s ha hr hs => ?_, fun n s ha hr hlen =>
    ends_of _ rfl ha hr (ttStatusCmd_answers hlen)⟩
  · intro q k h16 hk h0 hlo hhi
    have heff := ttOpenCmd_wellFormed (n := n) (x := s.mod) (l := s.mem) h16 hk h0 hlo hhi
    refine ⟨fun hst => ends_of _ rfl ha hr ?_, fun hst => ends_of _ rfl ha hr ?_,
      fun hst hbusy => ends_of _ rfl ha hr (ttOpenCmd_waits h16 hk h0 hlo hhi hst hbusy),
      fun hst hact hoth => ttOpen_answers ha hr hs hk rfl (ttOpenCmd_opens h16 hk h0 hlo hhi hst hact hoth)⟩
    · rw [heff, hst]
      rfl
    · rcases hst with hst | hst <;> rw [heff, hst] <;> rfl
  · intro q k size bank hk h0 hlo hhi hlen hst hfit hmax height same
    have heff := ttWriteCmd_wellFormed (n := n) (x := s.mod) (l := s.mem) hk h0 hlo hhi hlen hst hfit height
    refine ⟨fun hlt hsame => ends_of _ rfl ha hr ?_, fun hne hdiff => ends_of _ rfl ha hr ?_, fun heq => ?_⟩
    · rw [heff, if_neg hlt.ne, if_pos ⟨hlt, hsame⟩]
    · rw [heff, if_neg hne, if_neg hdiff]
    · rw [if_pos heq] at heff
      have h := ttWrite_stores ha hr hs heff
      rw [length_sliceOf] at h
      exact heq ▸ h
  · intro k bank hlen hk
    refine ⟨fun hst => ends_of _ rfl ha hr (ttCloseCmd_notWriting hst), fun hst hwhole => ends_of _ rfl ha hr ?_, fun hst hpart => ?_⟩
    · rw [ttCloseCmd_writing hlen hk hst, if_neg hwhole.not_gt]
    · refine answersBuf_onCommand _ rfl ha hr ((ttCloseCmd_writing hlen hk hst).trans (if_pos hpart)) ?_
      obtain ⟨hev, htt⟩ := reportBank_reports k ttIncomplete 0 0 (setBank k (fun o => { o with st := .invalid }) s.mod)
      refine ⟨complete_replied ?_ _ _ _, ?_, ?_, ?_⟩
      · simp only [reportBank, notify_keeps, raise_keeps]
        exact hr.2.2.2
      · simp only [complete_keeps]
        rw [htt]
        simp [setBank]
      · rw [complete_evtSet]
        exact hev
      · simp only [complete_keeps]
        rw [htt]
        rfl
  · intro k hlen hk
    have heff := ttInvalidateCmd_wellFormed (n := n) (x := s.mod) (l := s.mem) hlen hk
    refine ⟨fun hst => ends_of _ rfl ha hr ?_, fun hst => ends_of _ rfl ha hr ?_, fun hst => ends_of _ rfl ha hr ?_,
      fun hst hact => ttInvalidate_empties ha hr hs ?_⟩
    · rw [heff, hst]
    · rw [heff, hst]
    · simp only [List.mem_cons, List.not_mem_nil, or_false] at hst
      rcases hst with (hst | hst) | ⟨hst | hst | hst, hact⟩
      · rw [heff, hst]
      · rw [heff, hst]
      all_goals
        rw [heff, hst]
        exact if_pos hact
    · simp only [List.mem_cons, List.not_mem_nil, or_false] at hst
      rcases hst with hst | hst | hst
      all_goals
        rw [heff, hst]
        exact if_neg (by simp [k, hact])

end Sys2Proof.Machine
end

section
/-! Proofs about the firmware slots (18 R532 to R538, R545): what the four commands that act on them answer, and which bytes FW_WRITE
stores or erases. -/

namespace Sys2Proof.Machine

-- One theorem at a time: each thread that elaborates another reserves a stack, and their sum has a limit.
set_option Elab.async false

/-- A security command of class A that runs reaches its handler in its turn (18 R544). -/
theorem onSecurity_running {n op : Nat} {x : Mod} (ht : secTurn x n = true) (hr : running x n op)
    (f : Mailbox → Mod × List Host.Cell → Mod × List Host.Cell) (b : List Host.Cell) :
    onSecurity n op f (x, b) = f (x.dax.boxes.get n) (x, b) := by
  simp only [onSecurity, ht, if_true, onCommand_running hr]

/-- A security command whose handler completes it ends with that reply. -/
theorem ends_onSecurity {c : Instr} {s : State} {n op st : Nat} {body : List Byte} {x : Mod}
    (f : Mailbox → Mod × List Host.Cell → Mod × List Host.Cell) (he : exec c s = cmdAll c (onSecurity n op f) s)
    (ha : arrives c s.mod = true) (hr : running s.mod n op) (ht : secTurn s.mod n = true)
    (h : f (s.mod.dax.boxes.get n) (s.mod, s.mem) = complete n st body (x, s.mem)) : Ends c s n st body x := by
  rw [Ends, he, cmdAll_arrives c _ s ha, onSecurity_running ht hr, h]

/-- A security command completes in its turn with whatever holds of what its handler leaves. -/
theorem answersBuf_onSecurity {c : Instr} {s : State} {n op : Nat} {P : Mod → List Host.Cell → Prop}
    (f : Mailbox → Mod × List Host.Cell → Mod × List Host.Cell) (he : exec c s = cmdAll c (onSecurity n op f) s)
    (ha : arrives c s.mod = true) (hr : running s.mod n op) (ht : secTurn s.mod n = true) {z : Mod × List Host.Cell}
    (hf : f (s.mod.dax.boxes.get n) (s.mod, s.mem) = z) (h : P z.1 z.2) : AnswersBuf c s P := by
  refine answersBuf_of _ he ha ?_
  rwa [onSecurity_running ht hr, hf]

theorem leNat_lt (l : List Byte) : leNat l < 256 ^ l.length := by
  induction l with
  | nil => simp [leNat]
  | cons b l ih =>
    have := b.isLt
    simp only [leNat, List.length_cons, pow_succ]
    omega

theorem leAt_lt (l : List Byte) (off len : Nat) : leAt l off len < 256 ^ len := by
  have := leNat_lt (sliceOf l off len)
  rwa [length_sliceOf] at this

/-- The byte of a slot is none of a reply's. -/
theorem reply_read_slot {n k : Nat} (hn : n < 15) {st : Nat} {body : List Byte} (hbody : body.length ≤ 0x1000) {x : Mod}
    {l : List Host.Cell} (w : Memory.wf l = true) {a : Nat} (h : slotBase k ≤ a) :
    Memory.read (complete n st body (x, l)).2 a = Memory.read l a := by
  have := mbxBase_lt hn
  unfold slotBase at h
  exact complete_read_outside w (by omega)

/-- Whether a slot's image runs, as the handlers ask it. -/
theorem not_running {x : Mod} {k : Nat} (h : x.sec.running = false ∨ x.sec.runSlot ≠ k) :
    (x.sec.running && decide (x.sec.runSlot = k)) = false := by
  rcases h with h | h <;> simp [h]

/-! ### FW_WRITE -/

section
variable {n : Nat} {b : Mailbox} {x : Mod} {l : List Host.Cell}

theorem fwWriteCmd_running (hk : leAt b.body 0 1 ≤ 1) (hlen : b.len = 8 + leAt b.body 2 2) (hhi : leAt b.body 2 2 ≤ 3584)
    (hfit : leAt b.body 4 4 + leAt b.body 2 2 ≤ 0x600000) (hop : leAt b.body 1 1 ≤ 1) (hlo : 8 ≤ leAt b.body 2 2 ∨ leAt b.body 1 1 = 1)
    (hrun : x.sec.running = true) (hslot : x.sec.runSlot = leAt b.body 0 1) :
    fwWriteCmd n b (x, l) = complete n stDenied [7#8] (x, l) := by
  have hsmall : (decide (leAt b.body 2 2 < 8) && !decide (leAt b.body 1 1 = 1)) = false := by
    rcases hlo with h | h <;> simp [h]
  simp only [fwWriteCmd, hk.not_gt, hop.not_gt, hhi.not_gt, hfit.not_gt, hlen, hsmall, hrun, hslot, ne_eq, not_true_eq_false,
    decide_false, decide_true, Bool.or_self, Bool.and_self, Bool.false_eq_true, if_false, if_true]
  rfl

/-- FW_WRITE that opens a slot begins it anew with its first bytes. -/
theorem fwWriteCmd_opens (hk : leAt b.body 0 1 ≤ 1) (hlen : b.len = 8 + leAt b.body 2 2) (hhi : leAt b.body 2 2 ≤ 3584)
    (hop : leAt b.body 1 1 = 1) (hoff : leAt b.body 4 4 = 0)
    (hrun : x.sec.running = false ∨ x.sec.runSlot ≠ leAt b.body 0 1) (hcls : classCRuns x n = false) (h8 : leAt b.body 2 2 % 8 = 0) :
    fwWriteCmd n b (x, l) = complete n stOk [0]
      (setSlot (leAt b.body 0 1) (fun _ => { st := .writing, next := leAt b.body 2 2 }) x,
        Memory.writes (Memory.erase l (slotBase (leAt b.body 0 1)) (slotBase (leAt b.body 0 1) + 0x1000000))
          (slotBase (leAt b.body 0 1)) (sliceOf b.body 8 (leAt b.body 2 2))) := by
  have hroom : leAt b.body 2 2 ≤ 0x600000 := by omega
  simp only [fwWriteCmd, hk.not_gt, hop, hoff, hhi.not_gt, hlen, not_running hrun, hcls, h8, ne_eq, not_true_eq_false,
    decide_false, decide_true, Bool.or_self, Bool.and_false, Bool.not_true, Bool.false_and, Bool.false_eq_true, if_false, if_true,
    lt_self_iff_false, bne_self_eq_false, hroom.not_gt, Nat.zero_add, Nat.add_zero]
  rfl

/-- FW_WRITE at the end of what a WRITING slot holds appends. -/
theorem fwWriteCmd_appends (hk : leAt b.body 0 1 ≤ 1) (hlen : b.len = 8 + leAt b.body 2 2) (hhi : leAt b.body 2 2 ≤ 3584)
    (hfit : leAt b.body 4 4 + leAt b.body 2 2 ≤ 0x600000) (hop : leAt b.body 1 1 = 0) (hlo : 8 ≤ leAt b.body 2 2)
    (hst : (x.sec.slots.get (leAt b.body 0 1)).st = .writing) (hoff : leAt b.body 4 4 = (x.sec.slots.get (leAt b.body 0 1)).next)
    (hrun : x.sec.running = false ∨ x.sec.runSlot ≠ leAt b.body 0 1) (hcls : classCRuns x n = false) (h8 : leAt b.body 2 2 % 8 = 0) :
    fwWriteCmd n b (x, l) = complete n stOk [0]
      (setSlot (leAt b.body 0 1) (fun _ => { x.sec.slots.get (leAt b.body 0 1) with
          next := leAt b.body 4 4 + leAt b.body 2 2 }) x,
        Memory.writes l (slotBase (leAt b.body 0 1) + leAt b.body 4 4) (sliceOf b.body 8 (leAt b.body 2 2))) := by
  simp only [fwWriteCmd, hk.not_gt, hop, hst, hhi.not_gt, hlo.not_gt, hfit.not_gt, hlen, not_running hrun, hcls, h8, ne_eq,
    not_true_eq_false, decide_false, Bool.or_self, Bool.false_and, Bool.false_eq_true, if_false, zero_ne_one,
    bne_self_eq_false, not_lt_zero]
  exact if_pos hoff

/-! ### FIRMWARE_UPDATE -/

/-- FIRMWARE_UPDATE of a slot that does not run goes by the slot's check. -/
theorem firmwareUpdateCmd_checks (hlen : b.len = 2) (hk : leAt b.body 0 1 ≤ 1) (hop : leAt b.body 1 1 ≤ 1)
    (hrun : x.sec.running = false ∨ x.sec.runSlot ≠ leAt b.body 0 1) :
    firmwareUpdateCmd n b (x, l) =
      if fwCheck x l (leAt b.body 0 1) = secOk then
        secReply n secOk (leBytes 4 (fwSvn (fwHeader l (leAt b.body 0 1))))
          ((if leAt b.body 1 1 = 1 then
              { setSlot (leAt b.body 0 1) (fun o => { o with st := .trial, tried := false }) x with
                mode := { x.mode with resetAt := some (x.now + ms 100), resetCause := 7 } }
            else setSlot (leAt b.body 0 1) (fun o => { o with st := .trial, tried := false }) x), l)
      else secReply n (fwCheck x l (leAt b.body 0 1)) (leBytes 4 0)
        (setSlot (leAt b.body 0 1) (fun o => { o with st := if o.st == .committed then .committed else .invalid }) x, l) := by
  simp only [firmwareUpdateCmd, hlen, hk.not_gt, hop.not_gt, not_running hrun, ne_eq, not_true_eq_false, decide_false, Bool.or_self,
    Bool.false_eq_true, if_false]
  rfl

/-! ### FW_COMMIT and FW_STATUS -/

theorem fwCommitCmd_idle (hlen : b.len = 0) (htrial : x.sec.trial = false) : fwCommitCmd n b (x, l) = complete n stOk [0#8] (x, l) := by
  simp only [fwCommitCmd, hlen, htrial, ne_eq, not_true_eq_false, if_false, Bool.not_false, if_true]
  rfl

/-- The module once the running slot is COMMITTED, the other one no longer, and the trial over (18 R538). -/
def committedMod (x : Mod) : Mod :=
  let x2 := setSlot (1 - x.sec.runSlot) (fun o => { o with st := if o.st == .committed then .valid else o.st })
    (setSlot x.sec.runSlot (fun o => { o with st := .committed, tried := false }) x)
  { x2 with sec := { x2.sec with trial := false } }

theorem fwCommitCmd_trial (hlen : b.len = 0) (htrial : x.sec.trial = true) :
    fwCommitCmd n b (x, l) = complete n stOk [0] (commitActions l x.sec.runSlot (committedMod x), l) := by
  simp only [fwCommitCmd, hlen, htrial, ne_eq, not_true_eq_false, if_false, Bool.not_true, Bool.false_eq_true]
  rfl

theorem fwStatusCmd_answers (hlen : b.len = 0) :
    fwStatusCmd n b (x, l) = complete n stOk ([0, 0, 0, 0] ++ leBytes 4 (secBoot x).toNat) (x, l) := by
  simp only [fwStatusCmd, hlen, ne_eq, not_true_eq_false, if_false]
  rfl

end

/-- MIN_SVN never falls. -/
theorem commitActions_minSvn (l : List Host.Cell) (k : Nat) (x : Mod) :
    x.sec.minSvn.toNat ≤ (commitActions l k x).sec.minSvn.toNat := by
  have hlt : fwSvn (fwHeader l k) < 2 ^ 32 := leAt_lt (fwHeader l k) 0x0C 4
  simp only [commitActions]
  split
  · rw [BitVec.toNat_ofNat, Nat.mod_eq_of_lt hlt]
    omega
  · exact le_rfl

/-- No fuse is restored. -/
theorem commitActions_fuses (l : List Host.Cell) (k : Nat) (x : Mod) :
    x.sec.fuses &&& (commitActions l k x).sec.fuses = x.sec.fuses := by
  simp only [commitActions]
  ext i
  simp only [BitVec.getElem_and, BitVec.getElem_or]
  cases x.sec.fuses[i] <;> rfl

theorem committedMod_slots {x : Mod} (h : x.sec.runSlot ≤ 1) :
    ((committedMod x).sec.slots.get x.sec.runSlot).st = .committed ∧
      ((committedMod x).sec.slots.get (1 - x.sec.runSlot)).st ≠ .committed := by
  have hne : x.sec.runSlot ≠ 1 - x.sec.runSlot := by omega
  constructor
  · simp [committedMod, setSlot, Map.get_upd_other _ hne]
  · simp only [committedMod, setSlot, Map.get_upd_same]
    split
    · simp
    · simp_all

/-! ### The clauses -/

theorem fwWrite_stores {n : Nat} {s : State} (ha : arrives (.fwWrite n) s.mod = true) (hr : running s.mod n 0x71)
    (ht : secTurn s.mod n = true) {k a0 : Nat} (ha0 : slotBase k ≤ a0) {v : Slot} {l : List Host.Cell} (hl : Memory.wf l = true)
    {data : List Byte} (hf : fwWriteCmd n (s.mod.dax.boxes.get n) (s.mod, s.mem) =
      complete n stOk [0] (setSlot k (fun _ => v) s.mod, Memory.writes l a0 data)) :
    AnswersBuf (.fwWrite n) s fun m b => replied m n stOk ∧ m.sec.slots.get k = v ∧
      (∀ i < data.length, Memory.read b (a0 + i) = data.getD i 0) ∧
      ∀ a, ¬ (a0 ≤ a ∧ a < a0 + data.length) → ¬ (mbxBase n ≤ a ∧ a < mbxBase n + 17) → Memory.read b a = Memory.read l a := by
  have hn : n < 15 := of_decide_eq_true (arrives_wf ha)
  have hw := Memory.wf_writes data l a0 hl
  refine answersBuf_onSecurity _ rfl ha hr ht hf ⟨complete_replied (by exact hr.2.2.2) _ _ _, ?_, fun i hi => ?_, fun a h h' => ?_⟩
  · simp [setSlot]
  · rw [reply_read_slot (k := k) hn (by decide) hw (by omega), Memory.read_writes_at data l hl _ hi]
  · rw [complete_read_outside hw h', Memory.read_writes_outside hl h]

theorem answersBuf_imp {c : Instr} {s : State} {P Q : Mod → List Host.Cell → Prop} (h : AnswersBuf c s P)
    (hPQ : ∀ m b, P m b → Q m b) : AnswersBuf c s Q := by
  obtain ⟨m, b, he, hP⟩ := h
  exact ⟨m, b, he, hPQ m b hP⟩

/-- Settles O56: each command ends with the reply of its case; what FW_WRITE stores or erases lies in its slot. -/
theorem firmwareIsWritten : Obligations.FirmwareIsWritten := by
  unfold Obligations.FirmwareIsWritten
  refine ⟨fun n s ha hr ht hs => ?_, fun n s ha hr => ?_, fun n s ha hr ht hlen => ⟨fun htrial => ?_, fun htrial hslot => ?_⟩,
    fun n s ha hr ht hlen => ends_onSecurity _ rfl ha hr ht (fwStatusCmd_answers hlen)⟩
  · dsimp only
    intro hk hlen hhi hfit
    have hn : n < 15 := of_decide_eq_true (arrives_wf ha)
    refine ⟨fun hop hlo hrun hslot => ends_onSecurity _ rfl ha hr ht (fwWriteCmd_running hk hlen hhi hfit hop hlo hrun hslot),
      fun hrun hcls h8 => ⟨fun hop hoff => ?_, fun hop hlo hst hoff => ?_⟩⟩
    · have h := fwWrite_stores ha hr ht le_rfl (Memory.wf_erase s.mem _ _ hs)
        (fwWriteCmd_opens hk hlen hhi hop hoff hrun hcls h8)
      rw [length_sliceOf] at h
      refine answersBuf_imp h fun m b ⟨hreply, hval, hin, hout⟩ => ⟨hreply, hval, hin, fun a hlo' hhi' => ?_, fun a hout' hmbx => ?_⟩
      · have := mbxBase_lt hn
        rw [hout a (by omega) (by unfold slotBase at hlo'; omega)]
        exact Memory.read_erased s.mem (Nat.le_of_add_right_le hlo') hhi'
      · rw [hout a (by omega) hmbx]
        exact Memory.read_erase s.mem _ _ a (by omega)
    · have h := fwWrite_stores ha hr ht (Nat.le_add_right _ _) hs (fwWriteCmd_appends hk hlen hhi hfit hop hlo hst hoff hrun hcls h8)
      rw [length_sliceOf] at h
      exact answersBuf_imp h fun m b ⟨hreply, hval, hin, hout⟩ => ⟨hreply, by rw [hval], by rw [hval]; exact hst, hin, hout⟩
  · dsimp only
    intro hlen hk hop hrun
    refine answersBuf_onCommand _ rfl ha hr (firmwareUpdateCmd_checks hlen hk hop hrun) ?_
    generalize leAt (s.mod.dax.boxes.get n).body 0 1 = k at hk
    have hne : 1 - k ≠ k := by omega
    by_cases hok : fwCheck s.mod s.mem k = secOk
    · simp only [if_pos hok]
      by_cases hreset : leAt (s.mod.dax.boxes.get n).body 1 1 = 1
      · simp only [if_pos hreset]
        refine ⟨?_, complete_replied (by exact hr.2.2.2) _ _ _, ?_, ?_, ?_⟩
        all_goals simp [secReply, setSlot, Map.get_upd_other _ hne]
      · simp only [if_neg hreset]
        refine ⟨?_, complete_replied (by exact hr.2.2.2) _ _ _, ?_, ?_, ?_⟩
        all_goals simp [secReply, setSlot, Map.get_upd_other _ hne]
    · simp only [if_neg hok]
      refine ⟨?_, complete_replied (by exact hr.2.2.2) _ _ _, ?_, ?_⟩
      all_goals simp [secReply, setSlot, Map.get_upd_other _ hne]
  · exact ends_onSecurity _ rfl ha hr ht (fwCommitCmd_idle hlen htrial)
  · obtain ⟨hrun, hother⟩ := committedMod_slots hslot
    refine answersBuf_onSecurity _ rfl ha hr ht (fwCommitCmd_trial hlen htrial)
      ⟨complete_replied (by exact hr.2.2.2) _ _ _, ?_, ?_, ?_, ?_, ?_⟩
    all_goals simp only [complete_keeps]
    · exact hrun
    · exact hother
    · rfl
    · exact commitActions_minSvn s.mem s.mod.sec.runSlot (committedMod s.mod)
    · exact commitActions_fuses s.mem s.mod.sec.runSlot (committedMod s.mod)

end Sys2Proof.Machine
end

section
/-! Proofs about the trouble logs (17 R523, R524): what an event makes of the log it enters. -/

namespace Sys2Proof.Machine

-- One theorem at a time: each thread that elaborates another reserves a stack, and their sum has a limit.
set_option Elab.async false

/-- The log once an event has taken its sequence and its sticky bit; a Notice is remembered when it writes a record. -/
def TLog.marked (g : TLog) (now code sev addr : Nat) : TLog :=
  { g with seq := g.seq + 1, sticky := g.sticky.set code (some (g.seq + 1, sev)),
           notices := if sev = 0 then (code, addr, now) :: g.notices else g.notices }

/-- The record an event writes. -/
def TLog.record (g : TLog) (now code sev : Nat) (detail : Word) : TRec :=
  { seq := g.seq + 1, sev := sev, code := code, time := now / 1000, detail := detail }

/-- A Notice that repeats one of the last 1 ms is merged. -/
theorem TLog.enter_merged {g : TLog} {now code sev addr : Nat} (h : g.writes now code sev addr = false) (detail : Word) :
    g.enter now code sev addr detail =
      { g with seq := g.seq + 1, sticky := g.sticky.set code (some (g.seq + 1, sev)), merged := g.merged + 1 } := by
  have h : (decide (sev = 0) && g.repeats now code addr) = true := by simpa [TLog.writes] using h
  unfold TLog.enter
  exact if_pos h

/-- Any other event writes its record. -/
theorem TLog.enter_writes {g : TLog} {now code sev addr : Nat} (h : g.writes now code sev addr = true) (detail : Word) :
    g.enter now code sev addr detail = (g.marked now code sev addr).push (g.record now code sev detail) := by
  have h : ¬ (decide (sev = 0) && g.repeats now code addr) = true := by
    rw [TLog.writes, Bool.not_eq_true'] at h
    exact Bool.not_eq_true _ ▸ h
  unfold TLog.enter
  refine (if_neg h).trans ?_
  by_cases hs : sev = 0 <;> simp only [hs, if_true, if_false, TLog.marked] <;> rfl

theorem TLog.push_room {g : TLog} (h : g.recs.length < 64) (r : TRec) : g.push r = { g with recs := g.recs ++ [r] } := by
  simp only [TLog.push, h, if_true]

/-- With 64 records unread one is lost: the new one below a Machine check or Fatal record of higher severity, else the oldest. -/
theorem TLog.push_full {g : TLog} {o : TRec} {t : List TRec} (ho : g.recs = o :: t) (h : ¬ g.recs.length < 64) (r : TRec) :
    g.push r = { g with
      lost := g.lost + 1
      recs := if 3 ≤ sevRank o.sev ∧ sevRank r.sev < sevRank o.sev then g.recs else t ++ [r] } := by
  unfold TLog.push
  rw [if_neg h]
  split
  case h_1 hnil => simp [hnil] at ho
  case h_2 o' t' hcons =>
    obtain ⟨rfl, rfl⟩ := List.cons.inj (ho.symm.trans hcons)
    by_cases hk : 3 ≤ sevRank o.sev ∧ sevRank r.sev < sevRank o.sev
    · simp [hk]
    · rw [if_neg (by simpa using hk), if_neg hk]

/-- What a record's push leaves alone, and how many records stand after it. -/
theorem TLog.push_keeps (g : TLog) (r : TRec) :
    (g.push r).seq = g.seq ∧ (g.push r).sticky = g.sticky ∧ (g.recs.length ≤ 64 → (g.push r).recs.length ≤ 64) := by
  by_cases h : g.recs.length < 64
  · rw [TLog.push_room h]
    exact ⟨rfl, rfl, fun _ => by simp; omega⟩
  · match ho : g.recs with
    | [] => simp [ho] at h
    | o :: t =>
      rw [TLog.push_full ho h]
      refine ⟨rfl, rfl, fun h' => ?_⟩
      rw [ho] at h
      simp only [ho]
      split
      · exact h'
      · simpa using h'

/-- An event takes the next sequence and marks its sticky bit, and at most 64 records stand. -/
theorem TLog.enter_marks (g : TLog) (now code sev addr : Nat) (detail : Word) :
    (g.enter now code sev addr detail).seq = g.seq + 1 ∧
      (g.enter now code sev addr detail).sticky = g.sticky.set code (some (g.seq + 1, sev)) ∧
      (g.recs.length ≤ 64 → (g.enter now code sev addr detail).recs.length ≤ 64) := by
  cases h : g.writes now code sev addr with
  | false =>
    rw [TLog.enter_merged h]
    exact ⟨rfl, rfl, id⟩
  | true =>
    rw [TLog.enter_writes h]
    obtain ⟨hseq, hsticky, hrecs⟩ := TLog.push_keeps (g.marked now code sev addr) (g.record now code sev detail)
    exact ⟨hseq, hsticky, hrecs⟩

theorem TLog.push_toTStore {g k : TLog} (h : g.toTStore = k.toTStore) (r : TRec) : (g.push r).toTStore = (k.push r).toTStore := by
  have hrecs : g.recs = k.recs := congrArg TStore.recs h
  unfold TLog.push
  rw [hrecs]
  repeat' split
  all_goals simp [h]

/-- What a log holds after an event depends on what it held alone. -/
theorem TLog.enter_toTStore {g k : TLog} (h : g.toTStore = k.toTStore) (now code sev addr : Nat) (detail : Word) :
    (g.enter now code sev addr detail).toTStore = (k.enter now code sev addr detail).toTStore := by
  have hw : g.writes now code sev addr = k.writes now code sev addr := by simp only [TLog.writes, TLog.repeats, h]
  cases hg : g.writes now code sev addr with
  | false => simp only [TLog.enter_merged hg, TLog.enter_merged (hw ▸ hg), h]
  | true =>
    have hm : (g.marked now code sev addr).toTStore = (k.marked now code sev addr).toTStore := by simp only [TLog.marked, h]
    have hr : g.record now code sev detail = k.record now code sev detail := by simp only [TLog.record, h]
    rw [TLog.enter_writes hg, TLog.enter_writes (hw ▸ hg), hr, TLog.push_toTStore hm]

/-- The first event of a cycle at its trouble log enters upon what the log held. -/
theorem logEvent_first {l : Level} {x : Mod} (h : (x.logs.get l).busyIn x.cyc = false) (code sev addr : Nat) (detail : Word) :
    ((logEvent l code sev addr detail x).logs.get l).toTStore = ((x.logs.get l).enter x.now code sev addr detail).toTStore := by
  have hlogs : (logEvent l code sev addr detail x).logs.get l =
      (x.logs.get l).take x.cyc { code := code, sev := sev, addr := addr, detail := detail, time := x.now } := by
    unfold logEvent
    dsimp only
    split
    · simp only [signal_keeps, Map.get_set_same]
    · exact Map.get_set_same _ _ _
  rw [hlogs]
  simp only [TLog.take, h, Bool.false_eq_true, if_false]
  exact TLog.enter_toTStore (by exact rfl) _ _ _ _ _

theorem raiseQuiet_first {l : Level} {e : Evt} {x : Mod} (he : e.blk ≠ 31) (h : (x.logs.get l).busyIn x.cyc = false) (w : Word)
    (a : Nat) : ((raiseQuiet l e (some w) a x).logs.get l).toTStore =
      ((x.logs.get l).enter x.now (16 * e.blk + e.bit) e.sev a w).toTStore := by
  unfold raiseQuiet
  dsimp only
  rw [if_neg he]
  by_cases h0 : e.blk = 0
  · simp only [h0, if_true]
    exact logEvent_first h _ _ _ _
  · simp only [h0, if_false]
    exact logEvent_first (x := { x with evts := x.evts.set (l, e.blk) ((x.evts.get (l, e.blk)).hit e.bit x.cyc) }) h _ _ _ _

/-- Settles O58: an event hits its register alone, and its log takes the sequence, the sticky bit, and a record unless it repeats a
Notice. -/
theorem eventsAreLogged : Obligations.EventsAreLogged := by
  unfold Obligations.EventsAreLogged
  refine ⟨fun l e d a x hblk => ?_, fun l e w a x he h => raiseQuiet_first he h w a, fun g now code sev addr detail h64 => ?_⟩
  · dsimp only
    rw [raiseQuiet_evts l d a x hblk, Map.get_upd_same]
    exact ⟨rfl, Map.get_set_same _ _ _, fun i hi => Map.get_set_other _ hi _, fun k hk => Map.get_upd_other _ hk _⟩
  · dsimp only
    obtain ⟨hseq, hsticky, hrecs⟩ := g.enter_marks now code sev addr detail
    refine ⟨hseq, by rw [hsticky, Map.get_set_same], fun k hk => by rw [hsticky, Map.get_set_other _ hk], hrecs h64,
      fun h => ?_, fun h hroom => ?_, fun h o ho hfull => ?_⟩
    · rw [TLog.enter_merged h]
      exact ⟨rfl, rfl, rfl⟩
    · rw [TLog.enter_writes h, TLog.push_room (g := g.marked now code sev addr) hroom]
      exact ⟨rfl, rfl, rfl⟩
    · obtain ⟨t, ht⟩ : ∃ t, g.recs = o :: t := by
        cases hg : g.recs with
        | nil => simp [hg] at ho
        | cons o' t => simp [hg] at ho; exact ⟨t, by rw [ho]⟩
      have hpush := TLog.push_full (g := g.marked now code sev addr) (t := t) (o := o) ht (by simp [TLog.marked, hfull])
        (g.record now code sev detail)
      rw [TLog.enter_writes h, hpush, ht]
      refine ⟨rfl, ?_⟩
      simp only [TLog.marked, ht]
      rfl

end Sys2Proof.Machine
end

section
/-! Proofs about the wide pairs (02 R52, R53; 13 R412): reads of the low half latch the high one, and a write of the high half commits
both. -/

namespace Sys2Proof.Machine

-- One theorem at a time: each thread that elaborates another reserves a stack, and their sum has a limit.
set_option Elab.async false

/-- The pairs that show something else than a counter name none. -/
theorem pairCtr_counter {p : PairId} {c : CtrId} {x : Mod} (h : pairCtr x p = some c) :
    (∀ s, p ≠ .capPc s) ∧ p ≠ .snapTime ∧ (∀ n, p ≠ .ringBase n) ∧ ∀ n, p ≠ .ringWb n := by
  refine ⟨fun s hp => ?_, fun hp => ?_, fun n hp => ?_, fun n hp => ?_⟩
  all_goals
    subst hp
    simp [pairCtr, ctrListed] at h

/-- A value committed to a counter's pair is the counter as written. -/
theorem commitPair_counter {p : PairId} {c : CtrId} {x : Mod} (h : pairCtr x p = some c) (v : BitVec 64) :
    commitPair p v x =
      eccWrite (fun w => decide (w = .harvest c)) { x with ctrs := x.ctrs.upd c (Counter.written x.cyc v) } := by
  obtain ⟨hpc, hsnap, hbase, hwb⟩ := pairCtr_counter h
  cases p
  case capPc s => exact absurd rfl (hpc s)
  case snapTime => exact absurd rfl hsnap
  case ringBase n => exact absurd rfl (hbase n)
  case ringWb n => exact absurd rfl (hwb n)
  all_goals simp only [commitPair, h]

/-- A pair whose word holds no error reads without effect. -/
theorem readPair_clean {p : PairId} {x : Mod} (h : x.ecc = []) : readPair p x = x := by
  have hctr : (match pairCtr x p with
      | some c => readHarvest c x
      | none => x) = x := by
    cases pairCtr x p with
    | none => rfl
    | some c => exact eccRepair_clean (by simp [eccClean, h]) _
  cases p
  case capPc | snapTime | ringBase | ringWb => rfl
  all_goals exact hctr

/-- The module with no half of a pair held. -/
abbrev unheld (p : PairId) (x : Mod) : Mod := setPair p (fun k => { k with held := none }) x

theorem unheld_held (p : PairId) (x : Mod) : ((unheld p x).pairs.get p).held = none := by simp

theorem pairCtr_unheld (p : PairId) (x : Mod) : pairCtr (unheld p x) p = pairCtr x p := by
  have hsel : ((unheld p x).pairs.get p).sel = (x.pairs.get p).sel := by simp
  unfold pairCtr
  rw [hsel]
  rfl

/-- A write of the high half of an open pair that holds a low half commits both. -/
theorem commitHigh_held {p : PairId} {lo : Word} {x : Mod} (hopen : (pairOpen x p).1 = true) (hheld : (x.pairs.get p).held = some lo)
    (hr : reachable x (pairOff p + 4) = true) (v : Word) : commitHigh p v x = commitPair p (v ++ lo) (unheld p x) := by
  simp only [commitHigh, reach_reachable _ _ _ _ hr, hopen, if_true, hheld]

/-- With none held the low half is 0, and the access is logged. -/
theorem commitHigh_unheld {p : PairId} {x : Mod} (hopen : (pairOpen x p).1 = true) (hheld : (x.pairs.get p).held = none)
    (hr : reachable x (pairOff p + 4) = true) (v : Word) :
    commitHigh p v x = logAccess 4 0xF 0 (pairOff p + 4) (commitPair p (v ++ 0#32) (unheld p x)) := by
  simp only [commitHigh, reach_reachable _ _ _ _ hr, hopen, if_true, hheld]

/-- A counter that has counted nothing in this cycle has the value written. -/
theorem Counter.written_value {cyc : Nat} {k : Counter} (h : k.cyc ≠ cyc) (v : BitVec 64) : (Counter.written cyc v k).value = v := by
  simp [Counter.written, Counter.value, freshIn, h]

theorem logAccess_counts (kind be bar off : Nat) (x : Mod) :
    (logAccess kind be bar off x).host.access.count = x.host.access.count + 1 := by simp [logAccess]

/-! ### The clauses -/

theorem counterLoRead_answers {p : PairId} {s : State} (ha : arrives (.counterLoRead p) s.mod = true)
    (hr : reachable s.mod (pairOff p) = true) (hecc : s.mod.ecc = []) :
    Answers (.counterLoRead p) s fun m => (m.pairs.get p).latch.any (fun hi => hi ++ m.rdata == pairValue s.mod p) = true ∧
      m = { s.mod with pairs := m.pairs, rdata := m.rdata } := by
  refine answers_of (readLow p) rfl ha ?_
  have heff : readLow p s.mod =
      { setPair p (fun k => { k with latch := some ((pairValue s.mod p).extractLsb' 32 32) }) s.mod with
        rdata := (pairValue s.mod p).setWidth 32 } := by
    simp only [readLow, reach_reachable _ _ _ _ hr, readPair_clean hecc]
  have hhalves : (pairValue s.mod p).extractLsb' 32 32 ++ (pairValue s.mod p).setWidth 32 = pairValue s.mod p := by
    generalize pairValue s.mod p = v
    ext i hi
    simp only [BitVec.getElem_append, BitVec.getElem_setWidth, BitVec.getElem_extractLsb']
    split
    · exact BitVec.getLsbD_eq_getElem hi
    · rw [show 32 + (i - 32) = i by omega]
      exact BitVec.getLsbD_eq_getElem hi
  rw [heff]
  refine ⟨?_, rfl⟩
  simp only [setPair_same, Option.any_some, beq_iff_eq]
  exact hhalves

theorem widePairHighWrite_counter {p : PairId} {v lo : Word} {c : CtrId} {s : State}
    (ha : arrives (.widePairHighWrite p v) s.mod = true)
    (heff : commitHigh p v s.mod = commitPair p (v ++ lo) (unheld p s.mod)) (hc : pairCtr s.mod p = some c) :
    Answers (.widePairHighWrite p v) s fun m => (m.ctrs.get c).hw = v ++ lo ∧
      ((s.mod.ctrs.get c).cyc ≠ s.mod.cyc → (m.ctrs.get c).value = v ++ lo) ∧
      (m.pairs.get p).held = none ∧ m = { s.mod with pairs := m.pairs, ctrs := m.ctrs, ecc := m.ecc } := by
  refine answers_of (commitHigh p v) rfl ha ?_
  rw [heff, commitPair_counter ((pairCtr_unheld p s.mod).trans hc)]
  refine ⟨?_, fun hcyc => ?_, unheld_held p s.mod, rfl⟩
  · simp only [eccWrite, Map.get_upd_same]
    rfl
  · simp only [eccWrite, Map.get_upd_same]
    exact Counter.written_value hcyc _

/-- Settles O18: each access of a pair that can be reached does what it does to an open pair. -/
theorem widePairs : Obligations.WidePairs := by
  unfold Obligations.WidePairs
  refine ⟨fun p s => counterLoRead_answers, fun p v k s ha hk hr => answers_of (writeSel p v) rfl ha ?_,
    fun p v s ha hopen hr => answers_of (holdLow p v) rfl ha ?_, fun p v lo s ha hopen hheld hr => ?_,
    fun p c v s ha hc hopen hheld hr => answers_of (commitHigh p v) rfl ha ?_⟩
  · simp only [writeSel, hk, reach_reachable _ _ _ _ hr]
    exact ⟨by simp, rfl⟩
  · simp only [holdLow, reach_reachable _ _ _ _ hr, hopen, if_true]
    exact ⟨by simp, rfl⟩
  · have heff := commitHigh_held hopen hheld hr v
    refine ⟨fun c hc => widePairHighWrite_counter ha heff hc, fun sh hp => ?_, fun hp => ?_, fun n hp => ?_, fun n hp => ?_⟩
    all_goals
      subst hp
      refine answers_of (commitHigh _ v) rfl ha ?_
      rw [heff]
    · refine ⟨unheld_held _ s.mod, fun hcyc => ?_, rfl⟩
      simp only [commitPair, setPair_same, setPair_keeps, setPc_same]
      rw [show freshIn (unheld (.capPc sh) s.mod).cyc _ _ = 0 from if_neg hcyc]
      simp
    · exact ⟨unheld_held _ s.mod, rfl, rfl⟩
    · exact ⟨unheld_held _ s.mod, by simp [commitPair], rfl⟩
    · exact ⟨unheld_held _ s.mod, by simp [commitPair], rfl⟩
  · rw [commitHigh_unheld hopen hheld hr, commitPair_counter ((pairCtr_unheld p s.mod).trans hc)]
    refine ⟨?_, logAccess_kind _ _ _ _ _, logAccess_counts _ _ _ _ _, raise_evtSet _ _ _ (by decide)⟩
    simp only [logAccess, raise_keeps, eccWrite, Map.get_upd_same]
    rfl

end Sys2Proof.Machine
end

section
/-! A counterexample to the statement about the conditions of 07 R234: a frame leaves the module's books with its last copy, and then
reads as the map of frames reads without an entry, which the statement leaves free. -/

namespace Sys2Proof.Machine

-- One theorem at a time: each thread that elaborates another reserves a stack, and their sum has a limit.
set_option Elab.async false

namespace LeftFrame

/-- A copy for port 0, which no timetable defines right after reset. -/
def copy : Copy := { kind := .unicast, port := 0, queue := 0, cls := 0 }

/-- A decided frame that has ended, with that copy alone. -/
def frame : Frame := { port := 0, bytes := [], arr := 0, epoch := 0, ended := true, decided := true, copies := [copy] }

/-- Such a frame without a copy. -/
def bare : Frame := { frame with copies := [] }

/-- The module right after reset with the frame under number 0, and every other number reading as the frame without a copy. -/
def mod : Mod := { State.reset.mod with frames := ⟨some bare, [(0, some frame)]⟩ }

/-- The drop of the copy ends the frame, and its number reads as the frame without a copy. -/
theorem frame_left : frame? (enqueueNow 0 0 frame copy false mod) 0 = some bare := by decide +kernel

end LeftFrame

/-- Refutes O12: once its frame is gone, the dropped copy is not found done under the frame's number. -/
theorem not_enqueueConditions : ¬ Obligations.EnqueueConditions := by
  unfold Obligations.EnqueueConditions
  intro h
  obtain ⟨hundefined, -⟩ := h 0 0 LeftFrame.frame LeftFrame.copy false LeftFrame.mod (by decide +kernel) (by decide +kernel)
    (by decide +kernel)
  obtain ⟨-, -, hdone⟩ := hundefined (by decide +kernel)
  exact absurd (hdone _ LeftFrame.frame_left) (by decide +kernel)

end Sys2Proof.Machine
end

section
/-! Proofs about the edits of the tables (04 R113, R123; 07 R257; 12 R395, R401): an edit of one valid record commits in the shed that
begins it. The operations around the write (cursors, meters, tickets, quarantine, what the home keeps) leave the tables, the edits on
their way, the mailboxes and the scheduler nodes alone; `editPart` holds these four. -/

namespace Sys2Proof.Machine

-- One theorem at a time: each thread that elaborates another reserves a stack, and their sum has a limit.
set_option Elab.async false

/-- The tables, the edits on their way, the mailboxes, and the scheduler nodes. -/
def editPart (x : Mod) : Map (Nat × Nat) (List Ent) × List Edit × Map Nat Mailbox × Map (Nat × Nat × Nat) (Option Node) :=
  (x.tbl.ents, x.tbl.edits, x.dax.boxes, x.que.nodes)

/-! ### What leaves these alone -/

theorem raise_editPart (l : Level) (e : Evt) (x : Mod) : editPart (raise l e x) = editPart x := by simp [editPart]

theorem cursorsCatch_editPart (s tab : Nat) (f : Cursor → List (List Byte)) (x : Mod) : editPart (cursorsCatch s tab f x) = editPart x :=
  foldl_keeps editPart _ _ _ fun a _ => raise_editPart _ _ a

theorem editMeter_editPart (s i : Nat) (old : Option Ent) (e : Edit) (x : Mod) : editPart (editMeter s i old e x) = editPart x := by
  unfold editMeter
  repeat' split
  all_goals rfl

theorem editTickets_editPart (s : Nat) (v : View) (e : Edit) (pos : Nat) (isNew : Bool) (x : Mod) :
    editPart (editTickets s v e pos isNew x) = editPart x := by
  unfold editTickets
  repeat' split
  all_goals rfl

theorem zeroNamed_editPart (i : Nat) (x : Mod) : editPart (zeroNamed i x) = editPart x := foldl_keeps editPart _ _ _ fun _ _ => rfl

theorem fullMeter_editPart (i : Nat) (x : Mod) : editPart (fullMeter i x) = editPart x := foldl_keeps editPart _ _ _ fun _ _ => rfl

theorem renewNames_editPart (v w : View) (tab : Nat) (old new : List Byte) (x : Mod) :
    editPart (renewNames v w tab old new x) = editPart x :=
  (foldl_keeps editPart _ _ _ fun a i => fullMeter_editPart i a).trans (foldl_keeps editPart _ _ _ fun a i => zeroNamed_editPart i a)

theorem hostMeta_editPart (key dat : List Byte) (frozen : Bool) (op : Nat) (x : Mod) :
    editPart (hostMeta key dat frozen op x) = editPart x := by
  unfold hostMeta
  split <;> rfl

theorem streamEdit_editPart (v : View) (key dat : List Byte) (op : Nat) (x : Mod) :
    editPart (streamEdit v key dat op x) = editPart x := by
  unfold streamEdit
  split <;> rfl

/-! ### The write in the shed that begins the edit -/

/-- The table of a shed once an edit is written in it: its key removed, or its record inserted or replaced. -/
def Edit.written (e : Edit) (l : List Ent) : List Ent :=
  if e.op = 2 then l.filter (fun o => o.key != e.key) else (putRecord e.tab e.key e.dat l).1

theorem applyTable_editPart (s : Nat) (e : Edit) (x : Mod) :
    editPart (applyTable s e x) =
      (x.tbl.ents.set (s, e.tab) (e.written (x.tbl.ents.get (s, e.tab))), x.tbl.edits, x.dax.boxes, x.que.nodes) := by
  unfold applyTable
  dsimp only
  rw [editTickets_editPart]
  have hw : (if e.op = 2 then ((x.tbl.ents.get (s, e.tab)).filter (fun o => o.key != e.key), [])
      else putRecord e.tab e.key e.dat (x.tbl.ents.get (s, e.tab))).1 = e.written (x.tbl.ents.get (s, e.tab)) := by
    unfold Edit.written
    split <;> rfl
  rw [← hw]
  split
  · rw [editMeter_editPart]
    exact cursorsCatch_editPart _ _ _ _
  · exact cursorsCatch_editPart _ _ _ _

/-- With no edit on its way a shed has none to catch up with. -/
theorem catchUp_idle {x : Mod} (hx : x.tbl.edits = []) (s : Nat) : catchUp s x = x := by simp only [catchUp, hx, List.foldl_nil]

/-- The edit as it stands in the order once the shed that begins it has written it. -/
def Edit.begun (e : Edit) (now : Nat) : Edit := { e with at_ := now, done := [e.begin_] }

/-- Whether the shed that begins an edit takes part in it. -/
def Edit.own (e : Edit) : Prop := e.only = none ∨ e.only = some e.begin_

theorem Edit.own_needs {e : Edit} (h : e.own) (now : Nat) : ({ e with at_ := now, done := [] } : Edit).needs e.begin_ = true := by
  rcases h with h | h <;> simp [Edit.needs, h]

/-- With no edit on its way, an edit of a table is written where it begins and is the one in the order. -/
theorem beginEdit_table {e : Edit} {x : Mod} (hx : x.tbl.edits = []) (hown : e.own) (htab : e.tab ≠ 0) :
    editPart (beginEdit e x) = (x.tbl.ents.set (e.begin_, e.tab) (e.written (x.tbl.ents.get (e.begin_, e.tab))),
      [e.begun x.now], x.dax.boxes, x.que.nodes) := by
  unfold beginEdit
  dsimp only
  rw [renewNames_editPart, catchUp_idle hx]
  simp only [writeNext, hx, List.nil_append, List.find?_cons, Edit.own_needs hown, markFirst, htab, if_true, if_false]
  rw [applyTable_editPart]
  rfl

/-! ### TABLE_EDIT of one record -/

/-- The commit of an edit by the host: the edit, what the home of an L2 entry keeps, and a stream's generation and recovery. -/
def hostCommit (v : View) (e : Edit) (r : List Byte) (o : Nat) (x : Mod) : Mod :=
  let x1 := beginEdit e x
  let x3 := if e.tab = 1 then hostMeta e.key e.dat (bitOf (leAt r 0x0C 2) 1) o x1 else x1
  if e.tab = 0x0E then streamEdit v e.key e.dat o x3 else x3

theorem hostCommit_editPart (v : View) (e : Edit) (r : List Byte) (o : Nat) (x : Mod) :
    editPart (hostCommit v e r o x) = editPart (beginEdit e x) := by
  unfold hostCommit
  dsimp only
  split
  · rw [streamEdit_editPart]
    split
    · rw [hostMeta_editPart]
    · rfl
  · split
    · rw [hostMeta_editPart]
    · rfl

/-- The edit that a record of a TABLE_EDIT makes, `old` the entry of its key. -/
def recordEdit (n tab o : Nat) (r : List Byte) (old : Option Ent) (x : Mod) : Edit :=
  { kind := 0, tab := tab, op := if o = 0 && old.isSome then 1 else o, key := keyOf tab r,
    dat := match old with
      | some k => if o = 2 then k.dat else storedRec tab r
      | none => storedRec tab r
    at_ := 0, begin_ := hostBegins x tab (keyOf tab r), done := [], mbx := some n,
    only := if tab = 0x0D then some (hostBegins x tab (keyOf tab r)) else none }

theorem recordEdit_own (n tab o : Nat) (r : List Byte) (old : Option Ent) (x : Mod) : (recordEdit n tab o r old x).own := by
  unfold Edit.own recordEdit
  dsimp only
  split
  · exact .inr rfl
  · exact .inl rfl

/-- The conditions under which a record of a TABLE_EDIT commits: the statement's. -/
structure Commits (x : Mod) (tab o : Nat) (r : List Byte) : Prop where
  delete : o = 2 → ((viewOf x (hostBegins x tab (keyOf tab r)) x.tt.active).find tab (keyOf tab r)).isSome = true ∧
    inUse (viewOf x (hostBegins x tab (keyOf tab r)) x.tt.active) tab (leNat (keyOf tab r)) = false ∧
    (tab = 12 → wredNamed x (leNat (keyOf tab r)) = false)
  change : o = 1 → ((viewOf x (hostBegins x tab (keyOf tab r)) x.tt.active).find tab (keyOf tab r)).isSome = true
  valid : o ≠ 2 → recordOk (portDefined x) tab r = true ∧
    refsBad (viewOf x (hostBegins x tab (keyOf tab r)) x.tt.active) tab r = false ∧
    (tab = 14 → handleTaken (viewOf x (hostBegins x tab (keyOf tab r)) x.tt.active) (keyOf tab r) r = false) ∧
    refsThere (viewOf x (hostBegins x tab (keyOf tab r)) x.tt.active) tab r = true ∧
    fullFor tab (keyOf tab r) (storedRec tab r) (x.tbl.ents.get (hostBegins x tab (keyOf tab r), tab)) = false

/-- A record that meets the conditions commits. -/
theorem hostEdit_commits {n tab o : Nat} {r : List Byte} {x : Mod} (h : Commits x tab o r) (hx : x.tbl.edits = [])
    (hq : x.tbl.quar = []) :
    hostEdit n tab o r x = (.ok, hostCommit (viewOf x (hostBegins x tab (keyOf tab r)) x.tt.active)
      (recordEdit n tab o r ((viewOf x (hostBegins x tab (keyOf tab r)) x.tt.active).find tab (keyOf tab r)) x) r o x) := by
  have hquar : ∀ b i, quarantined x b i = false := fun b i => by simp [quarantined, hq]
  unfold hostEdit
  simp only [catchUp_idle hx]
  by_cases ho : o = 2
  · obtain ⟨hthere, huse, hwred⟩ := h.delete ho
    have hnamed : (tab == 0x0C && wredNamed x (leNat (keyOf tab r))) = false := by
      by_cases ht : tab = 12
      · simp [hwred ht]
      · simp [ht]
    rw [if_pos ho, if_neg (by simpa [Option.isSome_iff_ne_none] using hthere), huse, hnamed]
    rfl
  · obtain ⟨hok, hbad, htaken, hrefs, hroom⟩ := h.valid ho
    have hhandle : (tab == 0x0E && handleTaken (viewOf x (hostBegins x tab (keyOf tab r)) x.tt.active) (keyOf tab r) r) = false := by
      by_cases ht : tab = 14
      · simp [htaken ht]
      · simp [ht]
    have habsent : ¬ ((decide (o = 1) && ((viewOf x (hostBegins x tab (keyOf tab r)) x.tt.active).find tab (keyOf tab r)).isNone) = true) := by
      rw [Bool.and_eq_true, decide_eq_true_eq, Option.isNone_iff_eq_none]
      rintro ⟨h1, hnone⟩
      simpa [hnone] using h.change h1
    have hmake : makeRoom (hostBegins x tab (keyOf tab r)) tab (keyOf tab r) (storedRec tab r) x = (true, x) := by
      simp only [makeRoom, hroom, Bool.not_false, if_true]
    have hfree : ∀ (l : List Nat) (b : Bool), l.any (quarantined x b) = false := fun l b => by simp [hquar]
    cases hf : (viewOf x (hostBegins x tab (keyOf tab r)) x.tt.active).find tab (keyOf tab r) with
    | none =>
      simp only [hf, Option.isNone_none, Bool.and_true, decide_eq_true_eq] at habsent
      simp only [recordEdit, if_neg ho, hok, hbad, hhandle, hrefs, habsent, hfree, hmake, Bool.not_true, Bool.or_self,
        Option.isNone_none, Bool.and_true, decide_false, Bool.false_eq_true, if_false] <;> rfl
    | some k =>
      simp only [recordEdit, if_neg ho, hok, hbad, hhandle, hrefs, hfree, hmake, Bool.not_true, Bool.or_self,
        Option.isNone_some, Bool.and_false, Bool.false_eq_true, if_false] <;> rfl

/-- A message whose edit waits for a replica is not answered. -/
theorem finishEdits_waits {m : Nat} {y : Mod × List Host.Cell} (h : y.1.tbl.edits.any (fun e => e.mbx == some m) = true) :
    finishEdits m y = y := by
  simp only [finishEdits, h, Bool.or_true, if_true]

/-- A message of one record that commits. -/
theorem runRecords_one {m : Nat} {run : Nat → Mod → Done1 × Mod} {x z : Mod} (h : run 0 x = (.ok, z)) :
    runRecords m run 1 0 x = setBox m (fun b => { b with phase := 0 }) (setBox m (fun b => { b with doneN := 1 }) z) := by
  simp only [runRecords, h]

/-- The module once a message of mailbox `n` has begun. -/
abbrev msgBegun (n : Nat) (x : Mod) : Mod := setBox n (fun b => { b with began := true, phase := 0, doneN := 0 }) x

/-- The module once the one record of a message is handled. -/
abbrev recordDone (n : Nat) (z : Mod) : Mod := setBox n (fun b => { b with phase := 0 }) (setBox n (fun b => { b with doneN := 1 }) z)

theorem recordDone_st (n : Nat) (z : Mod) : ((recordDone n z).dax.boxes.get n).st = (z.dax.boxes.get n).st := by simp

/-- TABLE_EDIT of one well-formed record that commits, with its edit on its way to the replicas. -/
theorem tableEdit_one {n o : Nat} {x z : Mod} {l : List Host.Cell} {b : Mailbox} (hb : x.dax.boxes.get n = b) (hop : b.opcode = 0x10)
    (ho : leAt b.body 1 1 = o) (ho2 : o ≤ 2) (h1 : leAt b.body 2 2 = 1) (hsize : sizeOk (leAt b.body 0 1) (leAt b.body 4 2) = true)
    (h0 : leAt b.body 6 2 = 0) (hturn : editTurn x n = true) (hver : leAt b.body 0 1 = 14 → versionAtLeast x 3 0 = true)
    (hlen : b.len = 8 + leAt b.body 4 2) (hload : x.tt.act.any (·.loading) = false)
    (hrun : hostEdit n (leAt b.body 0 1) o (sliceOf b.body 8 (leAt b.body 4 2)) (msgBegun n x) = (.ok, z))
    (hwait : z.tbl.edits.any (fun e => e.mbx == some n) = true) : tableEdit n o b (x, l) = (recordDone n z, l) := by
  have hv : (decide (leAt b.body 0 1 = 0x0E) && !versionAtLeast x 3 0) = false := by
    by_cases h : leAt b.body 0 1 = 14
    · simp [hver h]
    · simp [h]
  have hbox : (msgBegun n x).dax.boxes.get n = { b with began := true, phase := 0, doneN := 0 } := by rw [setBox_same, hb]
  have hgo : goOnEdits n (msgBegun n x, l) = finishEdits n (recordDone n z, l) := by
    simp only [goOnEdits, hbox]
    rw [if_pos (show ({ b with began := true, phase := 0, doneN := 0 } : Mailbox).opcode = 0x0010 from hop)]
    have hcount : leAt ({ b with began := true, phase := 0, doneN := 0 } : Mailbox).body 2 2 = 1 := h1
    have hop1 : leAt ({ b with began := true, phase := 0, doneN := 0 } : Mailbox).body 1 1 = o := ho
    rw [hcount, hop1]
    exact congrArg (fun y => finishEdits n (y, l)) (runRecords_one hrun)
  simp only [tableEdit, ho, h1, hsize, hv, hlen, h0, hload, hturn, ne_eq, not_true_eq_false, if_false, Nat.not_lt.mpr ho2,
    decide_false, one_ne_zero, Bool.not_true, Bool.or_self, Bool.and_false, one_mul, Bool.false_eq_true]
  rw [hgo, finishEdits_waits hwait]

/-- What the commit of a record leaves of the tables, of the order and of the mailboxes. -/
theorem hostCommit_part {n tab o : Nat} {r : List Byte} {x : Mod} (old : Option Ent) (hx : x.tbl.edits = []) (htab : tab ≠ 0) (v : View) :
    editPart (hostCommit v (recordEdit n tab o r old x) r o x) =
      (x.tbl.ents.set (hostBegins x tab (keyOf tab r), tab)
        ((recordEdit n tab o r old x).written (x.tbl.ents.get (hostBegins x tab (keyOf tab r), tab))),
        [(recordEdit n tab o r old x).begun x.now], x.dax.boxes, x.que.nodes) := by
  rw [hostCommit_editPart]
  exact beginEdit_table hx (recordEdit_own n tab o r old x) htab

/-- A record inserted or replaced stands under its key. -/
theorem putRecord_stands {tab : Nat} {key dat : List Byte} {l : List Ent} (h : fullFor tab key dat l = false) :
    ∃ e ∈ (putRecord tab key dat l).1, e.key = key ∧ e.dat = dat := by
  unfold putRecord
  by_cases hany : l.any (fun e => e.key == key) = true
  · obtain ⟨e, he, hk⟩ := List.any_eq_true.mp hany
    have hk : e.key = key := by simpa using hk
    rw [if_pos hany]
    exact ⟨{ e with dat := dat }, List.mem_map.mpr ⟨e, he, by rw [if_pos hk]⟩, hk, rfl⟩
  · rw [if_neg hany]
    obtain ⟨q, hq⟩ : ∃ q, placeFor tab key l = some q := by
      by_cases ht : tab = 6
      · subst ht
        exact ⟨_, rfl⟩
      · have hplace : (placeFor tab key l).isNone = false := by
          simpa [fullFor, ht, hany] using h
        exact Option.isSome_iff_exists.mp (by simpa using hplace)
    rw [hq]
    exact ⟨{ pos := q.1, key := key, dat := dat }, by simp, rfl, rfl⟩

/-- Where nothing had to move, every entry of another key stays as it was. -/
theorem putRecord_others {tab : Nat} {key dat : List Byte} {l : List Ent} (h : (putRecord tab key dat l).2 = []) {e : Ent} (he : e ∈ l)
    (hk : e.key ≠ key) : e ∈ (putRecord tab key dat l).1 := by
  unfold putRecord at h ⊢
  by_cases hany : l.any (fun e => e.key == key) = true
  · rw [if_pos hany]
    exact List.mem_map.mpr ⟨e, he, if_neg hk⟩
  · rw [if_neg hany] at h ⊢
    cases hp : placeFor tab key l with
    | none => exact he
    | some q =>
      rw [hp] at h
      have hmoves : q.2 = [] := h
      simp [hmoves, he]

/-! ### QUEUE_CONFIG of one record -/

theorem setShaper_nodes (p lvl n : Nat) (f : Shaper → Shaper) (x : Mod) : editPart (setShaper p lvl n f x) = editPart x := rfl

theorem movePointer_editPart (p arb arb' prio prio' i from_ : Nat) (left joined : List Nat) (x : Mod) :
    editPart (movePointer p arb arb' prio prio' i from_ left joined x) = editPart x := by
  unfold movePointer
  dsimp only
  split <;> rfl

/-- A node that takes new settings has them, and the tables, the edits and the mailboxes are as they were. -/
theorem changeNode_editPart (p lvl i : Nat) (b : Node) (x : Mod) :
    editPart (changeNode p lvl i b x) = (x.tbl.ents, x.tbl.edits, x.dax.boxes, x.que.nodes.set (p, lvl, i) (some b)) := by
  have hgen : ∀ z : Mod, editPart ((List.range 8).foldl (fun a s => askGen s a) z) = editPart z :=
    fun z => foldl_keeps editPart _ _ _ fun _ _ => rfl
  unfold changeNode
  dsimp only
  have hmain : ∀ y : Mod, editPart y = (x.tbl.ents, x.tbl.edits, x.dax.boxes, x.que.nodes.set (p, lvl, i) (some b)) →
      ∀ (c c' : Prop) [Decidable c] [Decidable c'] (f g : Shaper → Shaper),
      editPart (if c' then (List.range 8).foldl (fun a s => askGen s a)
          (setShaper p lvl i g (if c then setShaper p lvl i f y else y))
        else setShaper p lvl i g (if c then setShaper p lvl i f y else y)) =
      (x.tbl.ents, x.tbl.edits, x.dax.boxes, x.que.nodes.set (p, lvl, i) (some b)) := by
    intro y hy c c' _ _ f g
    repeat' split
    all_goals simp only [hgen, setShaper_nodes, hy]
  refine hmain _ ?_ _ _ _ _
  split
  · rw [movePointer_editPart]
    exact (apply_ite editPart _ _ _).trans (ite_self _)
  · rfl

theorem beginEdit_node {e : Edit} {x : Mod} (hx : x.tbl.edits = []) (hown : e.own) (htab : e.tab = 0) :
    editPart (beginEdit e x) = (x.tbl.ents, [e.begun x.now], x.dax.boxes,
      x.que.nodes.set (leAt e.dat 0 2, leAt e.dat 2 1, leAt e.dat 3 1) (some (nodeFrom e.dat))) := by
  unfold beginEdit
  dsimp only
  rw [renewNames_editPart, catchUp_idle hx]
  simp only [writeNext, hx, List.nil_append, List.find?_cons, Edit.own_needs hown, markFirst, if_true]
  rw [if_pos htab]
  exact changeNode_editPart _ _ _ _ _

/-- The edit that a record of QUEUE_CONFIG makes. -/
def nodeEdit (n : Nat) (r : List Byte) : Edit :=
  { kind := 0, tab := 0, op := 1, key := sliceOf r 0 4, dat := r, at_ := 0, begin_ := shedOfPort (leAt r 0 2), done := [],
    mbx := some n, only := some (shedOfPort (leAt r 0 2)) }

theorem nodeEdit_own (n : Nat) (r : List Byte) : (nodeEdit n r).own := .inr rfl

theorem nodeEdit_done (n : Nat) (r : List Byte) (t : Nat) : ((nodeEdit n r).begun t).done = [shedOfPort (leAt r 0 2)] := rfl

theorem nodeEdit_tab (n : Nat) (r : List Byte) : (nodeEdit n r).tab = 0 := rfl

/-- QUEUE_CONFIG of one valid record, with its edit on its way. -/
theorem queueConfigCmd_one {n : Nat} {x : Mod} {l : List Host.Cell} {b : Mailbox} (hb : x.dax.boxes.get n = b) (hop : b.opcode = 0x17)
    (h1 : leAt b.body 0 2 = 1) (h0 : leAt b.body 2 2 = 0) (hlen : b.len = 36) (hload : x.tt.act.any (·.loading) = false)
    (hturn : editTurn x n = true) (hx : x.tbl.edits = []) (hok : nodeOk (portDefined x) (sliceOf b.body 4 32) = true)
    (hwred : wredMissing x (sliceOf b.body 4 32) = false) :
    queueConfigCmd n b (x, l) = (recordDone n (beginEdit (nodeEdit n (sliceOf b.body 4 32)) (msgBegun n x)), l) := by
  have hcatch : ∀ s, catchUp s (msgBegun n x) = msgBegun n x := catchUp_idle hx
  have hbox : (msgBegun n x).dax.boxes.get n = { b with began := true, phase := 0, doneN := 0 } := by rw [setBox_same, hb]
  have hpart := beginEdit_node (e := nodeEdit n (sliceOf b.body 4 32)) (x := msgBegun n x) hx (nodeEdit_own n _) (nodeEdit_tab n _)
  have hgo : goOnEdits n (msgBegun n x, l) =
      finishEdits n (recordDone n (beginEdit (nodeEdit n (sliceOf b.body 4 32)) (msgBegun n x)), l) := by
    simp only [goOnEdits, hbox]
    have hne : ({ b with began := true, phase := 0, doneN := 0 } : Mailbox).opcode ≠ 0x0010 := by
      have : ({ b with began := true, phase := 0, doneN := 0 } : Mailbox).opcode = 0x17 := hop
      omega
    rw [if_neg hne]
    have hcount : leAt ({ b with began := true, phase := 0, doneN := 0 } : Mailbox).body 0 2 = 1 := h1
    rw [hcount]
    refine congrArg (fun y => finishEdits n (y, l)) (runRecords_one ?_)
    have hok' : nodeOk (portDefined (msgBegun n x))
        (sliceOf ({ b with began := true, phase := 0, doneN := 0 } : Mailbox).body 4 32) = true := hok
    have hwred' : wredMissing (msgBegun n x)
        (sliceOf ({ b with began := true, phase := 0, doneN := 0 } : Mailbox).body 4 32) = false := hwred
    simp only [Nat.mul_zero, Nat.add_zero, hok', hcatch, hwred', Bool.not_true, Bool.false_eq_true, if_false]
    rfl
  simp only [queueConfigCmd, h1, h0, hlen, hload, hturn, one_ne_zero, ne_eq, not_true_eq_false, decide_false,
    Bool.or_self, Bool.not_true, Bool.false_eq_true, if_false, show ¬ 64 < 1 by decide, mul_one, show 4 + 32 = 36 from rfl]
  rw [hgo, finishEdits_waits]
  have hedits : (beginEdit (nodeEdit n (sliceOf b.body 4 32)) (msgBegun n x)).tbl.edits =
      [(nodeEdit n (sliceOf b.body 4 32)).begun (msgBegun n x).now] := congrArg (·.2.1) hpart
  simp only [setBox_keeps, hedits]
  simp [nodeEdit, Edit.begun]

/-! ### The statement -/

theorem tableEdit_answers {n o : Nat} {c : Instr} {s : State} (he : exec c s = cmdAll c (onCommand n 0x10 (tableEdit n o)) s)
    (ho2 : o ≤ 2) (ha : arrives c s.mod = true) (hr : running s.mod n 0x10) {tab : Nat} {r : List Byte}
    (htab : leAt (s.mod.dax.boxes.get n).body 0 1 = tab)
    (hrec : sliceOf (s.mod.dax.boxes.get n).body 8 (leAt (s.mod.dax.boxes.get n).body 4 2) = r)
    (ho : leAt (s.mod.dax.boxes.get n).body 1 1 = o) (h1 : leAt (s.mod.dax.boxes.get n).body 2 2 = 1)
    (hsize : sizeOk tab (leAt (s.mod.dax.boxes.get n).body 4 2) = true) (h0 : leAt (s.mod.dax.boxes.get n).body 6 2 = 0)
    (hturn : editTurn s.mod n = true) (hver : tab = 14 → versionAtLeast s.mod 3 0 = true)
    (hlen : (s.mod.dax.boxes.get n).len = 8 + leAt (s.mod.dax.boxes.get n).body 4 2) (hload : s.mod.tt.act.any (·.loading) = false)
    (hx : s.mod.tbl.edits = []) (hq : s.mod.tbl.quar = []) (hcommits : Commits (msgBegun n s.mod) tab o r) :
    AnswersBuf c s fun m b => b = s.mem ∧ (m.dax.boxes.get n).st = (s.mod.dax.boxes.get n).st ∧
      ∃ e : Edit, (e.kind = 0 ∧ e.tab = tab ∧ e.key = keyOf tab r ∧ e.mbx = some n ∧ e.begin_ = hostBegins s.mod tab (keyOf tab r) ∧
          (o = 2 ↔ e.op = 2) ∧ (o ≠ 2 → e.dat = storedRec tab r)) ∧
        m.tbl.ents = s.mod.tbl.ents.set (e.begin_, tab) (e.written (s.mod.tbl.ents.get (e.begin_, tab))) ∧
        m.tbl.edits = [e.begun s.mod.now] := by
  subst htab hrec
  have htab0 : leAt (s.mod.dax.boxes.get n).body 0 1 ≠ 0 := fun h => by simp [h, sizeOk] at hsize
  have hrun := hostEdit_commits (n := n) hcommits hx hq
  generalize hold : (viewOf (msgBegun n s.mod) _ _).find _ _ = old at hrun
  generalize hv : viewOf (msgBegun n s.mod) _ _ = v at hrun
  have hpart := hostCommit_part (n := n) (o := o) (x := msgBegun n s.mod)
    (r := sliceOf (s.mod.dax.boxes.get n).body 8 (leAt (s.mod.dax.boxes.get n).body 4 2)) old hx htab0 v
  generalize hz : hostCommit v _ _ _ _ = z at hrun hpart
  obtain ⟨hents, hedits, hboxes, -⟩ : z.tbl.ents = _ ∧ z.tbl.edits = _ ∧ z.dax.boxes = _ ∧ z.que.nodes = _ := by
    simpa only [editPart, Prod.mk.injEq] using hpart
  have heff := tableEdit_one (l := s.mem) rfl hr.2.1 ho ho2 h1 hsize h0 hturn hver hlen hload hrun (by
    rw [hedits]
    simp [recordEdit, Edit.begun])
  refine answersBuf_onCommand _ he ha hr heff ⟨rfl, ?_,
    recordEdit n _ o (sliceOf (s.mod.dax.boxes.get n).body 8 _) old (msgBegun n s.mod),
    ⟨rfl, rfl, rfl, rfl, rfl, ?_, fun ho' => ?_⟩, hents, hedits⟩
  · rw [recordDone_st, hboxes, setBox_same]
  · simp only [recordEdit]
    split
    case isTrue hc =>
      have : o = 0 := by simpa using (Bool.and_eq_true_iff.mp hc).1
      omega
    case isFalse => exact Iff.rfl
  · simp only [recordEdit]
    cases old with
    | none => rfl
    | some k => exact if_neg ho'

/-- Settles O27: the record commits in the shed that begins its edit, and its edit waits for the replicas. -/
theorem tableEditsCommit : Obligations.TableEditsCommit := by
  unfold Obligations.TableEditsCommit
  refine ⟨fun n c o s hc ha hr => ?_, fun n s ha hr => ?_⟩
  · intro q tab r key s0 v l ho h1 hsize h0 hturn hver hlen hload hx hq hcond
    have he : exec c s = cmdAll c (onCommand n 0x10 (tableEdit n o)) s ∧ o ≤ 2 := by
      simp only [List.mem_cons, Prod.mk.injEq, List.not_mem_nil, or_false] at hc
      rcases hc with ⟨rfl, rfl⟩ | ⟨rfl, rfl⟩ | ⟨rfl, rfl⟩ <;> exact ⟨rfl, by decide⟩
    have hcommits : Commits (msgBegun n s.mod) tab o r :=
      ⟨fun ho' => by rw [if_pos ho'] at hcond; exact hcond, fun ho' => by rw [if_neg (by omega)] at hcond; exact hcond.1 ho',
        fun ho' => by rw [if_neg ho'] at hcond; exact hcond.2⟩
    refine answersBuf_imp (tableEdit_answers he.1 he.2 ha hr rfl rfl ho h1 hsize h0 hturn hver hlen hload hx hq hcommits) ?_
    rintro m b ⟨hb, hst, e, ⟨hkind, htab, hkey, hmbx, hbegin, hdel, hdat⟩, hents, hedits⟩
    have hhome : m.tbl.ents.get (s0, tab) = e.written l := by rw [hents, hbegin]; exact Map.get_set_same _ _ _
    refine ⟨hb, hst, fun ho' => ?_, fun ho' => ?_, fun k hk => ?_, _, hedits, hkind, htab, hkey, hmbx, ?_, rfl⟩
    · rw [hhome, Edit.written, if_pos (hdel.mp ho'), hkey]
    · have hput : m.tbl.ents.get (s0, tab) = (putRecord tab key (storedRec tab r) l).1 := by
        rw [hhome, Edit.written, if_neg (fun h => ho' (hdel.mpr h)), htab, hkey, hdat ho']
      rw [if_neg ho'] at hcond
      rw [hput]
      exact ⟨putRecord_stands hcond.2.2.2.2.2, fun hmoves e he hk => putRecord_others hmoves he hk⟩
    · rw [hents, hbegin]
      exact Map.get_set_other _ (by simpa using fun h => absurd h hk) _
    · simp only [Edit.begun, hbegin]
      rfl
  · intro q r sh h1 h0 hlen hload hturn hx hok hwred
    have heff := queueConfigCmd_one (l := s.mem) rfl hr.2.1 h1 h0 hlen hload hturn hx hok hwred
    have hpart := beginEdit_node (e := nodeEdit n r) (x := msgBegun n s.mod) hx (nodeEdit_own n r) (nodeEdit_tab n r)
    simp only [editPart, Prod.mk.injEq] at hpart
    obtain ⟨hents, hedits, hboxes, hnodes⟩ := hpart
    refine answersBuf_onCommand _ rfl ha hr heff
      ⟨rfl, ?_, ?_, hents, (nodeEdit n r).begun s.mod.now, hedits, rfl, rfl, rfl, rfl, nodeEdit_done n r _, rfl⟩
    · rw [recordDone_st, hboxes, setBox_same]
    · have hget : (recordDone n (beginEdit (nodeEdit n r) (msgBegun n s.mod))).que.nodes.get (leAt r 0 2, leAt r 2 1, leAt r 3 1) =
          some (nodeFrom r) := by
        simp only [setBox_keeps, hnodes]
        exact Map.get_set_same _ _ _
      unfold nodeOf
      exact (congrArg (fun k : Option Node => k.getD _) hget).trans rfl

end Sys2Proof.Machine
end

section
/-! The registers right after reset. -/

namespace Sys2Proof.Machine

/-- Settles O60: each register listed is read from the reset state. -/
theorem resetIsCold : Obligations.ResetIsCold := by
  unfold Obligations.ResetIsCold
  refine ⟨rfl, rfl, rfl, ?_, ?_, ?_, ?_, ?_, ?_, ?_, ?_, ?_, ?_, ?_⟩
  all_goals decide +kernel

end Sys2Proof.Machine
end

section
/-! Proofs about the line side of a port at rest: what counts, pauses and what ends them (02 R54 to R59), LPI and clock scaling (R60,
R61), a partner's signal and FEC_DEGRADE (R39, R41). -/

namespace Sys2Proof.Machine

-- One theorem at a time: each thread that elaborates another reserves a stack, and their sum has a limit.
set_option Elab.async false

/-! ### Counters -/

theorem count_other {c d : CtrId} (h : d ≠ c) (n : Nat) (x : Mod) : (count c n x).ctrs.get d = x.ctrs.get d :=
  Map.get_upd_other _ h _

theorem count_cyc (c : CtrId) (n : Nat) (x : Mod) : (count c n x).cyc = x.cyc := rfl

/-- A line port counts. -/
theorem countPort_line {p : Nat} (h : p < 1024) (mk : Nat → Nat → CtrId) (i n : Nat) (x : Mod) :
    countPort mk p i n x = count (mk p i) n x := if_pos h

theorem lneCtr_inj {p i j : Nat} : lneCtr p i = lneCtr p j ↔ i = j := by simp [lneCtr]

/-- Where a counter has counted, nothing else that counts on its port changes it. -/
theorem countPort_lne_other {p i j : Nat} (h : i ≠ j) (n : Nat) (x : Mod) :
    (countPort lneCtr p j n x).ctrs.get (lneCtr p i) = x.ctrs.get (lneCtr p i) := by
  unfold countPort
  split
  · exact count_other (fun hc => h (lneCtr_inj.mp hc)) n x
  · rfl

theorem countPort_lne_same {p : Nat} (hp : p < 1024) (i n : Nat) (x : Mod) : counted x (lneCtr p i) n (countPort lneCtr p i n x) := by
  rw [countPort_line hp]
  exact count_same _ _ _

/-- A count changes the counters alone. -/
theorem countPort_eq (mk : Nat → Nat → CtrId) (p i n : Nat) (x : Mod) :
    countPort mk p i n x = { x with ctrs := (countPort mk p i n x).ctrs } := by
  unfold countPort
  split <;> rfl

@[simp] theorem countPort_line_keeps (mk : Nat → Nat → CtrId) (p i n : Nat) (x : Mod) :
    (countPort mk p i n x).line = x.line ∧ (countPort mk p i n x).now = x.now ∧ (countPort mk p i n x).frames = x.frames ∧
      (countPort mk p i n x).tt = x.tt ∧ (countPort mk p i n x).cyc = x.cyc := by
  rw [countPort_eq]
  exact ⟨rfl, rfl, rfl, rfl, rfl⟩

theorem portEvent_evtSet (p : Nat) {e : Evt} (h : e.blk ≠ 0) (x : Mod) : evtSet (.stall (stallOf p)) e (portEvent p e x) = true :=
  notify_evtSet_mono _ _ _ _ (raise_evtSet _ _ _ h)

theorem portEvent_raised (p : Nat) (e : Evt) (x : Mod) : portEvent p e x = raised x (portEvent p e x) := by
  unfold portEvent
  dsimp only
  rw [notify_raised, raise_raised]
  rfl

/-! ### Deficits -/

/-- The module without its queues. -/
def sansQue (x : Mod) : Mod := { x with que := {} }

theorem clearDeficits_sansQue (p : Nat) (x : Mod) : sansQue (clearDeficits p x) = sansQue x := by
  have hstep : ∀ (elig : Mod → Nat → Bool) (lvl : Nat) (a : Mod) (q : Nat),
      sansQue (if elig a q then a else setShaper p lvl q (fun s => { s with def_ := 0 }) a) = sansQue a := by
    intro elig lvl a q
    split <;> rfl
  exact (foldl_keeps sansQue _ _ _ (hstep (fun a g => groupEligible a p g) 1)).trans
    (foldl_keeps sansQue _ _ _ (hstep (fun a q => queueEligible a p q) 0))

theorem fields_of_sansQue {x y : Mod} (h : sansQue x = sansQue y) :
    x.line = y.line ∧ x.ctrs = y.ctrs ∧ x.frames = y.frames ∧ x.now = y.now ∧ x.tt = y.tt :=
  ⟨(congrArg Mod.line h : (sansQue x).line = (sansQue y).line), (congrArg Mod.ctrs h : (sansQue x).ctrs = (sansQue y).ctrs),
    (congrArg Mod.frames h : (sansQue x).frames = (sansQue y).frames), (congrArg Mod.now h : (sansQue x).now = (sansQue y).now),
    (congrArg Mod.tt h : (sansQue x).tt = (sansQue y).tt)⟩

@[simp] theorem clearDeficits_keeps (p : Nat) (x : Mod) :
    (clearDeficits p x).line = x.line ∧ (clearDeficits p x).ctrs = x.ctrs ∧ (clearDeficits p x).frames = x.frames ∧
      (clearDeficits p x).now = x.now ∧ (clearDeficits p x).tt = x.tt :=
  fields_of_sansQue (clearDeficits_sansQue p x)

/-! ### Pause -/

/-- What a pause of `n` quanta makes of a class of a port (02 R55). -/
def pausedBy (p n : Nat) (x : Mod) (k : PauseSt) : PauseSt :=
  if n = 0 then { until_ := none, wait := none }
  else if (portSt x p).tx.isSome then { k with wait := some (x.now, n) }
  else { until_ := some (x.now + bytesTime (portGbps (actCfg x) p) (64 * n)), wait := none }

/-- A pause changes what is paused at the port, and deficits. -/
theorem pauseClass_line (p cls n : Nat) (x : Mod) :
    (pauseClass p cls n x).line = { x.line with ports := x.line.ports.upd p fun s =>
      { s with paused := s.paused.upd cls (pausedBy p n x) } } := by
  simp only [pauseClass, clearDeficits_keeps, setPort, Map.upd]
  rfl

theorem pauseClass_keeps (p cls n : Nat) (x : Mod) :
    (pauseClass p cls n x).ctrs = x.ctrs ∧ (pauseClass p cls n x).frames = x.frames ∧ (pauseClass p cls n x).now = x.now ∧
      (pauseClass p cls n x).tt = x.tt := by
  simp [pauseClass]

theorem pauseClass_paused (p cls n : Nat) (x : Mod) :
    (portSt (pauseClass p cls n x) p).paused = (portSt x p).paused.upd cls (pausedBy p n x) ∧
      (portSt (pauseClass p cls n x) p).tx = (portSt x p).tx := by
  simp only [portSt, pauseClass_line, Map.get_upd_same, and_self]

/-- What a pause makes of a class depends on the port's transmission, the time and the timetable alone. -/
theorem pausedBy_congr {p : Nat} {x y : Mod} (htx : (portSt y p).tx = (portSt x p).tx) (hnow : y.now = x.now) (htt : y.tt = x.tt)
    (n : Nat) (k : PauseSt) : pausedBy p n y k = pausedBy p n x k := by
  have hcfg : actCfg y = actCfg x := by simp only [actCfg, activeCfg, htt]
  simp only [pausedBy, htx, hnow, hcfg]

/-- A good frame counts once in LNE_RX_FRAMES, and in none of the counters of MAC control frames. -/
theorem goodCounts_frames {p : Nat} (hp : p < 1024) (l : List Byte) (x : Mod) : counted x (lneCtr p 1) 1 (goodCounts p l x) := by
  have hsize : 1 ≠ 8 + sizeBin l.length := by omega
  have htype : 1 ≠ 2 + daType l := by omega
  unfold goodCounts counted
  rw [countPort_lne_other hsize, countPort_lne_other htype, countPort_lne_same hp, countPort_lne_other (by decide),
    countPort_lne_other (by decide)]
  simp only [countPort_line_keeps]

theorem daType_le (l : List Byte) : daType l ≤ 2 := by
  unfold daType
  split <;> [decide; (split <;> decide)]

theorem sizeBin_le (n : Nat) : sizeBin n ≤ 9 := by
  unfold sizeBin
  grind

/-- A good frame counts in four counters of its port. -/
theorem goodCounts_ctr {p i : Nat} {l : List Byte} (h0 : i ≠ 0) (h1 : i ≠ 1) (h28 : i ≠ 28) (ht : i ≠ 2 + daType l)
    (hs : i ≠ 8 + sizeBin l.length) (x : Mod) : (goodCounts p l x).ctrs.get (lneCtr p i) = x.ctrs.get (lneCtr p i) := by
  unfold goodCounts
  rw [countPort_lne_other hs, countPort_lne_other ht, countPort_lne_other h1, countPort_lne_other h0, countPort_lne_other h28]

theorem goodCounts_keeps (p : Nat) (l : List Byte) (x : Mod) :
    (goodCounts p l x).line = x.line ∧ (goodCounts p l x).now = x.now ∧ (goodCounts p l x).frames = x.frames ∧
      (goodCounts p l x).tt = x.tt ∧ (goodCounts p l x).cyc = x.cyc := by
  simp [goodCounts]

/-- The PFC frame of `l` at a port, for the class `c` of it (02 R55, R56). -/
def pfcStep (p : Nat) (l : List Byte) (a : Mod) (c : Nat) : Mod :=
  if bitOf (beAt l 16 2) c then pauseClass p c (beAt l (18 + 2 * c) 2) (countPort lneCtr p (64 + c) 1 a) else a

theorem pfcArrives_eq {p : Nat} {l : List Byte} {x : Mod} (hu : portUpNow x p = true) (hf : (portCfg x p).fc = 2)
    (hv : validCtl x p { bytes := l } = true) :
    pfcArrives p l x = (List.range 8).foldl (pfcStep p l) (countPort lneCtr p 6 1 (goodCounts p l x)) := by
  simp only [pfcArrives, ctlReceive, hu, hf, hv, beq_self_eq_true, Bool.and_self, if_true]
  rfl

/-- A class of a PFC frame changes no frame, time, timetable or transmission. -/
theorem pfcStep_keeps (p : Nat) (l : List Byte) (a : Mod) (c : Nat) :
    (pfcStep p l a c).frames = a.frames ∧ (pfcStep p l a c).now = a.now ∧ (pfcStep p l a c).tt = a.tt ∧
      (portSt (pfcStep p l a c) p).tx = (portSt a p).tx := by
  unfold pfcStep
  split
  · refine ⟨?_, ?_, ?_, ?_⟩
    · rw [(pauseClass_keeps _ _ _ _).2.1, (countPort_line_keeps _ _ _ _ _).2.2.1]
    · rw [(pauseClass_keeps _ _ _ _).2.2.1, (countPort_line_keeps _ _ _ _ _).2.1]
    · rw [(pauseClass_keeps _ _ _ _).2.2.2, (countPort_line_keeps _ _ _ _ _).2.2.2.1]
    · rw [(pauseClass_paused _ _ _ _).2]
      simp only [portSt, countPort_line_keeps]
  · exact ⟨rfl, rfl, rfl, rfl⟩

/-- The class of another number is not touched by a class of a PFC frame, nor is a counter of none. -/
theorem pfcStep_paused_other (p : Nat) (l : List Byte) (a : Mod) {c k : Nat} (h : k ≠ c) :
    (portSt (pfcStep p l a c) p).paused.get k = (portSt a p).paused.get k := by
  unfold pfcStep
  split
  · rw [(pauseClass_paused _ _ _ _).1, Map.get_upd_other _ h]
    simp only [portSt, countPort_line_keeps]
  · rfl

theorem pfcStep_ctr_other (p : Nat) (l : List Byte) (a : Mod) {c i : Nat} (h : i ≠ 64 + c) :
    (pfcStep p l a c).ctrs.get (lneCtr p i) = a.ctrs.get (lneCtr p i) := by
  unfold pfcStep
  split
  · rw [(pauseClass_keeps _ _ _ _).1, countPort_lne_other h]
  · rfl

/-- A fold over numbers without repetition takes each at one place. -/
theorem foldl_at {α β : Type} (f : α → β → α) {l : List β} {c : β} (hc : c ∈ l) (hn : l.Nodup) (x : α) :
    ∃ l₁ l₂ : List β, l.foldl f x = l₂.foldl f (f (l₁.foldl f x) c) ∧ (∀ e ∈ l₁, c ≠ e) ∧ (∀ e ∈ l₂, c ≠ e) := by
  obtain ⟨l₁, l₂, rfl⟩ := List.append_of_mem hc
  have hn' := List.nodup_append.mp hn
  refine ⟨l₁, l₂, by rw [List.foldl_append, List.foldl_cons], fun e he h => ?_, fun e he h => ?_⟩
  · exact hn'.2.2 e he c (List.mem_cons_self ..) h.symm
  · exact (List.nodup_cons.mp hn'.2.1).1 (h ▸ he)

/-- What a fold keeps step by step, for the elements it takes. -/
theorem foldl_keeps_mem {α β γ : Type} (g : α → γ) (f : α → β → α) (l : List β) (x : α) (h : ∀ a, ∀ e ∈ l, g (f a e) = g a) :
    g (l.foldl f x) = g x := by
  induction l generalizing x with
  | nil => rfl
  | cons e l ih => rw [List.foldl_cons, ih _ fun a e' he => h a e' (List.mem_cons_of_mem _ he), h _ _ (List.mem_cons_self ..)]

/-- What the classes of a PFC frame leave of the frames, the time, the timetable and the transmission. -/
theorem pfcSteps_keeps (p : Nat) (l : List Byte) (cs : List Nat) (x : Mod) :
    (cs.foldl (pfcStep p l) x).frames = x.frames ∧ (cs.foldl (pfcStep p l) x).now = x.now ∧
      (cs.foldl (pfcStep p l) x).tt = x.tt ∧ (portSt (cs.foldl (pfcStep p l) x) p).tx = (portSt x p).tx ∧
      (cs.foldl (pfcStep p l) x).cyc = x.cyc := by
  have hnow := foldl_keeps Mod.now (pfcStep p l) cs x fun a c => (pfcStep_keeps p l a c).2.1
  exact ⟨foldl_keeps Mod.frames _ _ _ fun a c => (pfcStep_keeps p l a c).1, hnow,
    foldl_keeps Mod.tt _ _ _ fun a c => (pfcStep_keeps p l a c).2.2.1,
    foldl_keeps (fun a => (portSt a p).tx) _ _ _ fun a c => (pfcStep_keeps p l a c).2.2.2, by rw [Mod.cyc, hnow, Mod.cyc]⟩

/-- Each class of a PFC frame is done once: where its bit is set it counts and is paused, else it is as it was. -/
theorem pfcSteps_class {p c : Nat} (hp : p < 1024) (hc : c < 8) (l : List Byte) (x : Mod) :
    if bitOf (beAt l 16 2) c then
      counted x (lneCtr p (64 + c)) 1 ((List.range 8).foldl (pfcStep p l) x) ∧
        (portSt ((List.range 8).foldl (pfcStep p l) x) p).paused.get c = pausedBy p (beAt l (18 + 2 * c) 2) x ((portSt x p).paused.get c)
    else (portSt ((List.range 8).foldl (pfcStep p l) x) p).paused.get c = (portSt x p).paused.get c := by
  obtain ⟨l₁, l₂, he, h₁, h₂⟩ := foldl_at (pfcStep p l) (List.mem_range.mpr hc) List.nodup_range x
  have hpaused : ∀ (cs : List Nat) (a : Mod), (∀ e ∈ cs, c ≠ e) →
      (portSt (cs.foldl (pfcStep p l) a) p).paused.get c = (portSt a p).paused.get c := fun cs a h =>
    foldl_keeps_mem (fun a => (portSt a p).paused.get c) _ _ _ fun a e he => pfcStep_paused_other p l a (h e he)
  have hctr : ∀ (cs : List Nat) (a : Mod), (∀ e ∈ cs, c ≠ e) →
      (cs.foldl (pfcStep p l) a).ctrs.get (lneCtr p (64 + c)) = a.ctrs.get (lneCtr p (64 + c)) := fun cs a h =>
    foldl_keeps_mem (fun a => a.ctrs.get (lneCtr p (64 + c))) _ _ _ fun a e he =>
      pfcStep_ctr_other p l a (fun hi => h e he (by omega))
  obtain ⟨-, hnow, htt, htx, hcyc⟩ := pfcSteps_keeps p l l₁ x
  rw [he]
  split
  next hb =>
    constructor
    · unfold counted
      rw [hctr l₂ _ h₂, pfcStep, if_pos hb, (pauseClass_keeps _ _ _ _).1, countPort_lne_same hp, hctr l₁ _ h₁, hcyc]
    · rw [hpaused l₂ _ h₂, pfcStep, if_pos hb, (pauseClass_paused _ _ _ _).1, Map.get_upd_same]
      simp only [portSt, countPort_line_keeps] at hpaused htx ⊢
      rw [hpaused l₁ _ h₁]
      refine pausedBy_congr ?_ ?_ ?_ _ _
      · simp only [portSt, countPort_line_keeps, htx]
      · simp only [countPort_line_keeps, hnow]
      · simp only [countPort_line_keeps, htt]
  next hb => rw [hpaused l₂ _ h₂, pfcStep, if_neg hb, hpaused l₁ _ h₁]

/-- The counters of the port that no class of a PFC frame is of. -/
theorem pfcSteps_ctr {p i : Nat} (h : i < 64) (l : List Byte) (cs : List Nat) (x : Mod) :
    (cs.foldl (pfcStep p l) x).ctrs.get (lneCtr p i) = x.ctrs.get (lneCtr p i) :=
  foldl_keeps (fun a => a.ctrs.get (lneCtr p i)) _ _ _ fun a c => pfcStep_ctr_other p l a (by omega)

/-- A port's record after the change of it alone. -/
theorem portSt_setPort (p : Nat) (f : PortSt → PortSt) (x : Mod) : portSt (setPort p f x) p = f (portSt x p) := by
  simp [portSt, setPort]

/-- A good MAC control frame has counted as received and in the counter `i` of its kind. -/
theorem goodCounts_ctl {p i : Nat} (hp : p < 1024) (h : i = 5 ∨ i = 6) (l : List Byte) (x : Mod) :
    counted x (lneCtr p 1) 1 (countPort lneCtr p i 1 (goodCounts p l x)) ∧
      counted x (lneCtr p i) 1 (countPort lneCtr p i 1 (goodCounts p l x)) := by
  constructor
  · unfold counted
    rw [countPort_lne_other (by omega)]
    exact goodCounts_frames hp l x
  · unfold counted
    rw [countPort_lne_same hp, (goodCounts_keeps p l x).2.2.2.2]
    have htype : daType l ≤ 2 := daType_le l
    rw [goodCounts_ctr (by omega) (by omega) (by omega) (by omega) (by omega)]

/-- Settles O5: a pause is one change of what is paused at the port; the classes of a PFC frame are done one by one. -/
theorem pauseStopsAPort : Obligations.PauseStopsAPort := by
  refine ⟨fun p l s ha hu hf hv => ?_, fun p l s ha hu hf hv => ?_, fun p cls t s ha ht htn => ?_, fun p cls s ha hasked hctl hpass => ?_⟩
  · have hp : p < 1024 := by simp [arrives, Instr.wf] at ha; exact ha.1.1
    have he : pauseArrives p l s.mod = pauseClass p 8 (beAt l 16 2) (countPort lneCtr p 5 1 (goodCounts p l s.mod)) := by
      simp [pauseArrives, ctlReceive, hu, hf, hv]
    obtain ⟨hline, hnow, hframes, htt, -⟩ := goodCounts_keeps p l s.mod
    obtain ⟨h1, h5⟩ := goodCounts_ctl hp (.inl rfl) l s.mod
    refine answers_of (pauseArrives p l) rfl ha ?_
    rw [he]
    refine ⟨?_, ?_, ?_, ?_⟩
    · simpa only [counted, (pauseClass_keeps _ _ _ _).1] using h1
    · simpa only [counted, (pauseClass_keeps _ _ _ _).1] using h5
    · rw [(pauseClass_keeps _ _ _ _).2.1, (countPort_line_keeps _ _ _ _ _).2.2.1, hframes]
    · rw [(pauseClass_paused _ _ _ _).1, Map.get_upd_same]
      have hport : portSt (countPort lneCtr p 5 1 (goodCounts p l s.mod)) p = portSt s.mod p := by
        simp only [portSt, countPort_line_keeps, hline]
      rw [pausedBy_congr (congrArg PortSt.tx hport) (by simp only [countPort_line_keeps, hnow])
        (by simp only [countPort_line_keeps, htt]), hport]
      rfl
  · have hp : p < 1024 := by simp [arrives, Instr.wf] at ha; exact ha.1.1
    obtain ⟨hline, hnow, hframes, htt, hcyc⟩ := goodCounts_keeps p l s.mod
    obtain ⟨h1, h6⟩ := goodCounts_ctl hp (.inr rfl) l s.mod
    have hport : portSt (countPort lneCtr p 6 1 (goodCounts p l s.mod)) p = portSt s.mod p := by
      simp only [portSt, countPort_line_keeps, hline]
    refine answers_of (pfcArrives p l) rfl ha ?_
    rw [pfcArrives_eq hu hf hv]
    refine ⟨?_, ?_, ?_, fun c hc => ?_⟩
    · exact (pfcSteps_ctr (by decide) _ _ _).trans h1
    · exact (pfcSteps_ctr (by decide) _ _ _).trans h6
    · rw [(pfcSteps_keeps _ _ _ _).1, (countPort_line_keeps _ _ _ _ _).2.2.1, hframes]
    · have hcls := pfcSteps_class hp hc l (countPort lneCtr p 6 1 (goodCounts p l s.mod))
      have htype := daType_le l
      have hsize := sizeBin_le l.length
      split at hcls
      next hb =>
        rw [if_pos hb]
        refine ⟨?_, ?_⟩
        · refine hcls.1.trans ?_
          rw [(countPort_line_keeps _ _ _ _ _).2.2.2.2, hcyc, countPort_lne_other (by omega),
            goodCounts_ctr (by omega) (by omega) (by omega) (by omega) (by omega)]
        · rw [hcls.2, pausedBy_congr (congrArg PortSt.tx hport) (by simp only [countPort_line_keeps, hnow])
            (by simp only [countPort_line_keeps, htt]), hport]
          rfl
      next hb =>
        rw [if_neg hb, hcls, hport]
  · refine answers_of (pauseExpires p cls) rfl ha ?_
    have he : pauseExpires p cls s.mod = setPort p (fun k => { k with
        paused := k.paused.upd (cls.getD 8) (fun k => { k with until_ := none }) }) s.mod := by
      simp [pauseExpires, ht, htn]
    rw [he, portSt_setPort]
    refine ⟨by rw [Map.get_upd_same], ?_⟩
    simp only [setPort, Map.upd, portSt]
  · refine answers_of (pauseResends p cls) rfl ha ?_
    have he : pauseResends p cls s.mod = setPort p (fun k => { k with ctl := k.ctl ++ [(cls, true)] }) s.mod := by
      simp only [pauseResends, hasked, hctl, hpass, Bool.not_false, Bool.and_self, if_true]
    rw [he, portSt_setPort]
    refine ⟨rfl, ?_⟩
    simp only [setPort, Map.upd, portSt]

/-- What a FEC_DEGRADE counts (02 R48). -/
def fecCounts (p : Nat) (n : FecCounts) (x : Mod) : Mod :=
  countPort lneCtr p 57 n.symbols (countPort lneCtr p 56 n.uncorr (countPort lneCtr p 55 n.corr x))

theorem fecCounts_counted {p : Nat} (hp : p < 1024) (n : FecCounts) (x : Mod) :
    counted x (lneCtr p 55) n.corr (fecCounts p n x) ∧ counted x (lneCtr p 56) n.uncorr (fecCounts p n x) ∧
      counted x (lneCtr p 57) n.symbols (fecCounts p n x) := by
  refine ⟨?_, ?_, ?_⟩ <;> unfold counted fecCounts
  · rw [countPort_lne_other (by decide), countPort_lne_other (by decide), countPort_lne_same hp]
  · rw [countPort_lne_other (by decide), countPort_lne_same hp, countPort_lne_other (by decide)]
    simp only [countPort_line_keeps]
  · rw [countPort_lne_same hp, countPort_lne_other (by decide), countPort_lne_other (by decide)]
    simp only [countPort_line_keeps]

/-- FEC_DEGRADE on an up port that has not raised the event within the last 1 ms. -/
theorem fecDegrades_eq {p : Nat} {n : FecCounts} {x : Mod} (hu : portUpNow x p = true)
    (hf : ∀ t ∈ (portSt x p).fecAt, passed x.now t (ms 1) = true) :
    fecDegrades p n x = if (portCfg x p).fecLimit * (portCfg x p).width < n.symbols then
      portEvent p evFecDegrade (setPort p (fun s => { s with fecAt := some x.now }) (fecCounts p n x)) else fecCounts p n x := by
  unfold fecDegrades
  cases ht : (portSt x p).fecAt with
  | none => simp [hu, fecCounts]
  | some t => simp [hu, fecCounts, hf t (by rw [ht]; rfl)]

/-- Settles O6: each of these changes the one field of a port, a lane or a stall it names, and its counter. -/
theorem lineRestsAndWakes : Obligations.LineRestsAndWakes := by
  refine ⟨fun p s ha hlpi hcap hu htx htl hctl hq hpass => ?_, fun p s ha hw => ?_, fun p b s ha hu hne => ?_,
    fun g s ha hone hpin hus hlen => ?_, fun p n s ha hu hfec => ?_, fun lane s ha hlive hsig => ?_⟩
  · have hp : p < 1024 := by simp [arrives, Instr.wf] at ha; exact ha.1
    have he : lpiEnters p s.mod = countPort lneCtr p 53 1 (setPort p (fun s => { s with txLpi := true }) s.mod) := by
      have hq' : ((List.range 16).all fun q => (queSt s.mod p q).ents == []) = true := by simpa using hq
      simp only [lpiEnters, hlpi, hcap, hu, htx, htl, hctl, hq', hpass, Option.isNone_none, Bool.not_false, beq_self_eq_true,
        Bool.and_self, if_true]
    refine answers_of (lpiEnters p) rfl ha ?_
    rw [he]
    refine ⟨?_, countPort_lne_same hp 53 1 _, ?_⟩
    · simp only [portSt, countPort_line_keeps, setPort, Map.get_upd_same]
    · rw [countPort_line hp]
      rfl
  · have he : lpiWakeEnds p s.mod = setPort p (fun k => { k with txLpi := false, lpiWake := none, idleAt := s.mod.now }) s.mod := by
      rw [lpiWakeEnds, if_pos hw]
    refine answers_of (lpiWakeEnds p) rfl ha ?_
    rw [he, portSt_setPort]
    exact ⟨rfl, rfl, rfl, rfl, rfl⟩
  · have hp : p < 1024 := by simp [arrives, Instr.wf] at ha; exact ha.1
    have he : rxLpiChanges p b s.mod = (if b then countPort lneCtr p 54 1 (setPort p (fun s => { s with rxLpi := b }) s.mod)
        else setPort p (fun s => { s with rxLpi := b }) s.mod) := by
      simp only [rxLpiChanges, hu, hne, Bool.not_true, decide_false, Bool.or_self, Bool.false_eq_true, if_false]
    refine answers_of (rxLpiChanges p b) rfl ha ?_
    rw [he]
    cases b with
    | true =>
      refine ⟨?_, countPort_lne_same hp 54 1 _, ?_⟩
      · simp only [if_true, portSt, countPort_line_keeps, setPort, Map.get_upd_same]
      · rw [if_pos rfl, countPort_line hp]
        rfl
    | false => exact ⟨congrArg PortSt.rxLpi (portSt_setPort p _ s.mod), rfl, rfl⟩
  · refine answers_of (pipeStepsDown g) rfl ha ?_
    have he : pipeStepsDown g s.mod = setClk g (fun c => { c with one := true, steps := c.steps + 1 }) s.mod := by
      simp only [pipeStepsDown, hone, hpin, hus, hlen, Bool.not_false, Bool.and_self, decide_true, if_true]
    rw [he]
    simp [setClk]
  · have hp : p < 1024 := by simp [arrives, Instr.wf] at ha; exact ha.1
    have hc : ∀ x : Mod, x.ctrs = (fecCounts p n s.mod).ctrs → counted s.mod (lneCtr p 55) n.corr x ∧
        counted s.mod (lneCtr p 56) n.uncorr x ∧ counted s.mod (lneCtr p 57) n.symbols x := fun x hx => by
      simpa only [counted, hx] using fecCounts_counted hp n s.mod
    refine answers_of (fecDegrades p n) rfl ha ?_
    rw [fecDegrades_eq hu hfec]
    split
    next hlt =>
      obtain ⟨h55, h56, h57⟩ := hc (portEvent p evFecDegrade (setPort p (fun s' => { s' with fecAt := some s.mod.now })
        (fecCounts p n s.mod))) (by rw [portEvent_raised]; rfl)
      refine ⟨h55, h56, h57, fun _ => ⟨portEvent_evtSet p (by decide) _, ?_⟩⟩
      rw [portEvent_raised]
      exact congrArg PortSt.fecAt (portSt_setPort p _ _)
    next hlt =>
      obtain ⟨h55, h56, h57⟩ := hc _ rfl
      exact ⟨h55, h56, h57, fun h => absurd h hlt⟩
  · refine answers_of (signalSeen lane) rfl ha ?_
    rw [signalSeen, if_pos hlive]
    simp [setLane]

end Sys2Proof.Machine
end

section
/-! Proofs about the ticket cache (05 R155 to R158, R187). -/

namespace Sys2Proof.Machine

-- One theorem at a time: each thread that elaborates another reserves a stack, and their sum has a limit.
set_option Elab.async false

theorem tkt?_putTkt (sh t : Nat) (k : Option Tkt) (x : Mod) : tkt? (putTkt sh t k x) sh t = k := by
  simp [tkt?, putTkt, setTkt]

/-- The generation of a shed advances. -/
theorem advanceGen_due {sh : Nat} {x : Mod} (h : (x.tkt.get sh).genDue = true)
    (ht : ∀ t ∈ (x.tkt.get sh).genAt, passed x.now t (us 1) = true) :
    advanceGen sh x = tally (.otrT sh 4) (setTkt sh (fun c => { c with
      gen := c.gen + 1
      genAt := some x.now
      genDue := false
      sweepAt := orOld c.sweepAt (some x.now) }) x) := by
  unfold advanceGen
  cases hg : (x.tkt.get sh).genAt with
  | none => simp [h, hg]
  | some t => simp [h, hg, ht t (by rw [hg]; rfl)]

/-- Settles O9: each of these changes one ticket, or the books of one shed's cache. -/
theorem ticketsAge : Obligations.TicketsAge := by
  refine ⟨fun sh s ha hdue ht => ?_, fun sh s ha hsome => ?_, fun sh t s ha ht hlt hl => ?_, fun sh t k s ha hk hb hp => ?_,
    fun sh t k w s ha hk hb hw hp => ?_⟩
  · refine answers_of (advanceGen sh) rfl ha ?_
    rw [advanceGen_due hdue ht]
    refine ⟨?_, ?_, ?_, ?_, count_same _ _ _, rfl⟩ <;> simp [tally, count, setTkt]
    cases (s.mod.tkt.get sh).sweepAt <;> rfl
  · refine answers_of (sweepDone sh) rfl ha ?_
    obtain ⟨t, ht⟩ := Option.isSome_iff_exists.mp hsome
    have he : sweepDone sh s.mod = setTkt sh (fun c => { c with
        sweepAt := none
        late := false
        ways := c.ways.mapEnts (fun _ k => k.bind fun t => if t.gen = c.gen then some t else none) }) s.mod := by
      simp only [sweepDone, ht, Option.isNone_some, Bool.false_eq_true, if_false]
      congr 1
      funext c
      congr 2
      funext _ k
      cases k <;> rfl
    rw [he]
    refine ⟨by simp [setTkt], by simp [setTkt], fun e he k hk => ?_, rfl⟩
    simp only [setTkt, Map.get_upd_same, Map.mapEnts, List.mem_map] at he
    obtain ⟨e, -, rfl⟩ := he
    cases hv : e.2 with
    | none => simp [hv] at hk
    | some v =>
      simp only [hv, Option.bind_some] at hk
      split at hk
      next hg => exact Option.some.inj hk ▸ hg
      next => cases hk
  · refine answers_of (sweepLate sh) rfl ha ?_
    have he : sweepLate sh s.mod = raise (.shed sh) evSweepLate (setTkt sh (fun c => { c with late := true }) s.mod) := by
      simp [sweepLate, ht, hlt, hl]
    rw [he]
    refine ⟨?_, raise_evtSet _ _ _ (by decide), ?_⟩
    · simp [setTkt]
    · conv_lhs => rw [raise_raised]
      simp [raised]
  · refine answers_of (blockEnds sh t) rfl ha ?_
    have he : blockEnds sh t s.mod = putTkt sh t (some { k with
        blocked := false
        streak := 0
        refutes := 0
        elig := false
        windowAt := none }) s.mod := by simp [blockEnds, hk, hb, hp]
    rw [he, tkt?_putTkt]
  · refine answers_of (windowEnds sh t) rfl ha ?_
    have he : windowEnds sh t s.mod = putTkt sh t (some { k with
        refutes := 0
        windowAt := none }) s.mod := by simp [windowEnds, hk, hb, hw, hp]
    rw [he, tkt?_putTkt, hb]

end Sys2Proof.Machine
end

section
/-! Proofs about the releases of Loft cells and the audit (06 R190 to R192, R224). What follows a release, the watch over the
occupancy, pause requests and the wake of a bank, leaves the cells of a shed and the books of their releases as they are. -/

namespace Sys2Proof.Machine

-- One theorem at a time: each thread that elaborates another reserves a stack, and their sum has a limit.
set_option Elab.async false

/-! ### A wake asked for -/

/-- The module without its events, its power and its counters. -/
def offPower (x : Mod) : Mod := { raised x {} with
  pwr := {}
  ctrs := .const {} }

theorem offPower_raised (x m : Mod) : offPower (raised x m) = offPower x := rfl

theorem raise_offPower (l : Level) (e : Evt) (x : Mod) : offPower (raise l e x) = offPower x := by
  rw [raise_raised, offPower_raised]

theorem wakeAborts_offPower (src d : Nat) (x : Mod) : offPower (wakeAborts src d x) = offPower x := by
  unfold wakeAborts
  split
  · rfl
  · exact raise_offPower _ _ _

theorem wakeOrWait_offPower (src d : Nat) (x : Mod) : offPower (wakeOrWait src d x) = offPower x := by
  unfold wakeOrWait
  split <;> rfl

theorem askWakeUp_offPower (n src d : Nat) (x : Mod) : offPower (askWakeUp n src d x) = offPower x := by
  induction n generalizing x d with
  | zero => rfl
  | succ n ih =>
    unfold askWakeUp
    split
    · rfl
    · rfl
    · exact wakeAborts_offPower _ _ _
    · split
      · exact wakeOrWait_offPower _ _ _
      · rename_i p _
        have hp := ih p (setDom d (fun o => { o with wakeAft := some src }) x)
        dsimp only
        split
        · exact wakeOrWait_offPower _ _ _
        · split
          · rw [wakeOrWait_offPower, hp]
            rfl
          · exact hp

theorem askWake_offPower (src d : Nat) (x : Mod) : offPower (askWake src d x) = offPower x := askWakeUp_offPower _ _ _ _

/-! ### The cells of a shed -/

/-- What is known of a shed's cells and their releases: its Loft without the frames held, the pools' use and the watch over the
occupancy. -/
def Loft.book (l : Loft) : Loft := { l with
  held := .const none
  uses := .const {}
  peak := 0
  warnLow := true
  warnHigh := true
  noAlloc := none
  lowAt := none }

/-- The books of the cells of every shed. -/
def cellBooks (x : Mod) (t : Nat) : Loft := (x.loft.get t).book

theorem setLoft_cellBooks {s : Nat} {g : Loft → Loft} (x : Mod) (h : ∀ l, (g l).book = l.book := by intro _; rfl) :
    cellBooks (setLoft s g x) = cellBooks x := by
  funext t
  by_cases hs : t = s
  · subst hs
    simp only [cellBooks, setLoft, Map.get_upd_same, h]
  · simp only [cellBooks, setLoft, Map.get_upd_other _ hs]

theorem cellBooks_of_loft {x y : Mod} (h : x.loft = y.loft) : cellBooks x = cellBooks y := by
  funext t
  simp only [cellBooks, h]

theorem raise_cellBooks (l : Level) (e : Evt) (x : Mod) : cellBooks (raise l e x) = cellBooks x :=
  cellBooks_of_loft (by simp)

theorem askWake_cellBooks (src d : Nat) (x : Mod) : cellBooks (askWake src d x) = cellBooks x :=
  cellBooks_of_loft (congrArg Mod.loft (askWake_offPower src d x) : (offPower (askWake src d x)).loft = (offPower x).loft)

theorem loftBankWake_cellBooks (s : Nat) (x : Mod) : cellBooks (loftBankWake s x) = cellBooks x := by
  have h0 : cellBooks (setLoft s (fun l => { l with noAlloc := none }) x) = cellBooks x := setLoft_cellBooks x
  unfold loftBankWake
  dsimp only
  split
  · split
    · exact h0
    · split
      · rw [askWake_cellBooks]
        exact h0
      · exact h0
  · rfl

theorem loftWatch_cellBooks (s : Nat) (x : Mod) : cellBooks (loftWatch s x) = cellBooks x := by
  unfold loftWatch
  dsimp only
  rw [loftBankWake_cellBooks]
  have hr : ∀ (c : Bool) (e : Evt) (y : Mod), cellBooks (if c then raise (.shed s) e y else y) = cellBooks y := fun c e y => by
    split
    · exact raise_cellBooks _ _ _
    · rfl
  rw [hr, hr]
  exact setLoft_cellBooks x

theorem pauseUpdate_cellBooks (s p cls before : Nat) (x : Mod) : cellBooks (pauseUpdate s p cls before x) = cellBooks x := by
  have hask : ∀ (c : Option Nat) (b : Bool) (y : Mod), cellBooks (askPause p c b y) = cellBooks y := fun _ _ _ => rfl
  have htally : ∀ (c : CtrId) (y : Mod), cellBooks (tally c y) = cellBooks y := fun _ _ => rfl
  unfold pauseUpdate
  dsimp only
  split
  · rfl
  split
  · rw [hask, htally, setLoft_cellBooks x]
  split
  · split
    · rw [hask, setLoft_cellBooks x]
    · split
      · rw [hask, setLoft_cellBooks x]
      · exact setLoft_cellBooks x
  · rfl

theorem setUse_cellBooks (s p cls pool : Nat) (f : Nat → Nat) (x : Mod) : cellBooks (setUse s p cls pool f x) = cellBooks x := by
  unfold setUse
  dsimp only
  split
  · rw [pauseUpdate_cellBooks]
    exact setLoft_cellBooks x
  · exact setLoft_cellBooks x

theorem setHeld_cellBooks (s f : Nat) (g : Held → Held) (x : Mod) : cellBooks (setHeld s f g x) = cellBooks x :=
  setLoft_cellBooks x

theorem dropHeld_cellBooks (s f : Nat) (x : Mod) : cellBooks (dropHeld s f x) = cellBooks x := by
  unfold dropHeld
  split
  · split
    · exact setLoft_cellBooks x
    · rfl
  · rfl

theorem oweCredit_cellBooks (s peer d n : Nat) (x : Mod) : cellBooks (oweCredit s peer d n x) = cellBooks x := by
  unfold oweCredit
  dsimp only
  repeat' split
  all_goals rfl

theorem tidyFrame_cellBooks (f : Nat) (x : Mod) : cellBooks (tidyFrame f x) = cellBooks x := by
  unfold tidyFrame
  split
  · rfl
  · dsimp only
    split <;> rfl

/-- A cell that returns to the free list: of the books of the cells, its count alone changes. -/
theorem returnCell_cellBooks (s cell : Nat) (x : Mod) : cellBooks (returnCell s cell x) =
    cellBooks (setLoft s (fun l => { l with cells := l.cells.upd cell (fun k => { k with count := 0 }) }) x) := by
  unfold returnCell
  dsimp only
  split
  · rfl
  · rw [tidyFrame_cellBooks, loftWatch_cellBooks, setUse_cellBooks]
    split
    · rw [oweCredit_cellBooks, dropHeld_cellBooks, setHeld_cellBooks]
    · rw [dropHeld_cellBooks, setHeld_cellBooks]

/-- What a released cell leaves of the shed's cells, retries and audit. -/
theorem returnCell_loft (s cell : Nat) (x : Mod) :
    ((returnCell s cell x).loft.get s).cells = (x.loft.get s).cells.upd cell (fun k => { k with count := 0 }) ∧
      ((returnCell s cell x).loft.get s).retry = (x.loft.get s).retry ∧
      ((returnCell s cell x).loft.get s).auditAt = (x.loft.get s).auditAt := by
  have h := congrFun (returnCell_cellBooks s cell x) s
  simp only [cellBooks, setLoft, Map.get_upd_same] at h
  exact ⟨(congrArg Loft.cells h :), (congrArg Loft.retry h :), (congrArg Loft.auditAt h :)⟩

/-! ### One release -/

/-- A release that no other of its cycle meets. -/
theorem releaseNow_alone {sh : Nat} {r : Release} {l : List Instr} {x : Mod} (hw : releasesWaiting sh r.cell l = [])
    (hd : r ∉ (x.loft.get sh).relDone) : releaseNow sh r l x = doRelease sh r x := by
  simp [releaseNow, hw, hd]

/-- A rejected request leaves the cells, and is counted, raised and logged (06 R224). -/
theorem rejectFree_effect (sh kind req cell : Nat) (x : Mod) :
    ((rejectFree sh kind req cell x).loft.get sh).cells = (x.loft.get sh).cells ∧
      evtSet (.shed sh) evFreeReject (rejectFree sh kind req cell x) = true ∧
      counted x (.lft sh 4) 1 (rejectFree sh kind req cell x) ∧
      ((rejectFree sh kind req cell x).loft.get sh).log0 = reg [at_ 30 2 kind, at_ 18 12 req, at_ 0 18 cell] ∧
      ((rejectFree sh kind req cell x).loft.get sh).log1 =
        reg [at_ 14 18 ((x.loft.get sh).cells.get cell).owner, at_ 0 14 ((x.loft.get sh).log1.toNat % 16384 + 1)] := by
  refine ⟨?_, raise_evtSet _ _ _ (by decide), ?_, ?_, ?_⟩
  · simp [rejectFree, setLoft]
  · unfold counted rejectFree
    rw [(raise_raised _ _ _)]
    exact count_same _ _ _
  · simp [rejectFree, setLoft]
  · simp [rejectFree, setLoft]

/-- A FREE by the owner of the last reference returns the cell. -/
theorem freeCell_last {sh cell req d : Nat} {x : Mod} (ho : d = ((x.loft.get sh).cells.get cell).owner)
    (h1 : ((x.loft.get sh).cells.get cell).count = 1) :
    freeCell sh cell req d x = returnCell sh cell (setLoft sh (fun l => { l with retry := l.retry.filter (fun e => e.1 != cell) }) x) := by
  simp [freeCell, ho, h1]

/-- The cell is free and no retry of it stands. -/
theorem freeCell_last_loft {sh cell req d : Nat} {x : Mod} (ho : d = ((x.loft.get sh).cells.get cell).owner)
    (h1 : ((x.loft.get sh).cells.get cell).count = 1) :
    ((freeCell sh cell req d x).loft.get sh).cells = (x.loft.get sh).cells.set cell { count := 0, owner := d } ∧
      ∀ e ∈ ((freeCell sh cell req d x).loft.get sh).retry, e.1 ≠ cell := by
  rw [freeCell_last ho h1]
  obtain ⟨hcells, hretry, -⟩ := returnCell_loft sh cell (setLoft sh (fun l => { l with
    retry := l.retry.filter (fun e => e.1 != cell) }) x)
  rw [hcells, hretry]
  simp only [setLoft, Map.get_upd_same]
  refine ⟨by simp only [Map.upd, ho], fun e he => ?_⟩
  simpa using (List.mem_filter.mp he).2

/-! ### The audit -/

/-- The cells that an audit reclaims. -/
def staleCells (x : Mod) (sh : Nat) : List Nat := (heldIn x sh).flatMap fun e =>
  match e.2.doneAt with
  | some t => if t + ms 10 < x.now then e.2.cells else []
  | none => []

theorem mem_staleCells {x : Mod} {sh c : Nat} {e : Nat × Held} (he : e ∈ heldIn x sh)
    (hd : e.2.doneAt.any (fun t => decide (t + ms 10 < x.now)) = true) (hc : c ∈ e.2.cells) : c ∈ staleCells x sh := by
  refine List.mem_flatMap.mpr ⟨e, he, ?_⟩
  obtain ⟨t, ht, hlt⟩ := (Option.any_eq_true _ _).mp hd
  rw [ht]
  dsimp only
  rwa [if_pos (of_decide_eq_true hlt)]

/-- One cell that an audit reclaims. -/
def reclaim (sh : Nat) (a : Mod) (c : Nat) : Mod := returnCell sh c (tally (.lft sh 4) a)

theorem auditLoft_due {x : Mod} {sh : Nat} (h : passed x.now (x.loft.get sh).auditAt (ms 100) = true) :
    auditLoft sh x = (staleCells x sh).foldl (reclaim sh) (setLoft sh (fun l => { l with auditAt := x.now }) x) := by
  rw [auditLoft, due, if_pos h]
  rfl

theorem reclaim_loft (sh c : Nat) (a : Mod) :
    ((reclaim sh a c).loft.get sh).cells = (a.loft.get sh).cells.upd c (fun k => { k with count := 0 }) ∧
      ((reclaim sh a c).loft.get sh).auditAt = (a.loft.get sh).auditAt :=
  ⟨(returnCell_loft sh c (tally (.lft sh 4) a)).1, (returnCell_loft sh c (tally (.lft sh 4) a)).2.2⟩

/-- A cell that has a count of 0 keeps it while others are reclaimed. -/
theorem reclaim_keeps_free {sh c : Nat} (l : List Nat) {a : Mod} (h : ((a.loft.get sh).cells.get c).count = 0) :
    (((l.foldl (reclaim sh) a).loft.get sh).cells.get c).count = 0 := by
  refine List.foldlRecOn (motive := fun b : Mod => ((b.loft.get sh).cells.get c).count = 0) l _ h fun b hb e _ => ?_
  rw [(reclaim_loft sh e b).1]
  by_cases hc : c = e
  · subst hc
    rw [Map.get_upd_same]
  · rw [Map.get_upd_other _ hc, hb]

/-- Every cell reclaimed has a count of 0. -/
theorem reclaimed_free {sh c : Nat} {l : List Nat} (hc : c ∈ l) (a : Mod) :
    (((l.foldl (reclaim sh) a).loft.get sh).cells.get c).count = 0 := by
  obtain ⟨l₁, l₂, rfl⟩ := List.append_of_mem hc
  rw [List.foldl_append, List.foldl_cons]
  exact reclaim_keeps_free _ (by rw [(reclaim_loft sh c _).1, Map.get_upd_same])

/-- Settles O7: a request that is right changes its cell or its retry, any other is rejected; the audit returns cells one by one. -/
theorem loftTakesAndFrees : Obligations.LoftTakesAndFrees := by
  refine ⟨fun sh c r s ha hw hd => ?_, fun sh c r d s ha hw hd => ?_, fun sh c e s ha hf ho h1 => ?_, fun sh s ha hp => ?_⟩
  · dsimp only
    have he := releaseNow_alone (r := { free := false, cell := c, req := r, desc := 0 }) hw hd
    refine ⟨fun h2 => ?_, fun h2 => ?_⟩
    · refine answers_of (releaseNow sh _ s.pending) rfl ha ?_
      rw [he]
      have h0 : ((s.mod.loft.get sh).cells.get c).count ≠ 0 := by omega
      have h1 : ((s.mod.loft.get sh).cells.get c).count ≠ 1 := by omega
      simp only [doRelease, Bool.false_eq_true, if_false, decCell, h0, h1]
      simp only [setLoft, Map.upd]
    · refine answers_of (releaseNow sh _ s.pending) rfl ha ?_
      rw [he]
      have hk : doRelease sh { free := false, cell := c, req := r, desc := 0 } s.mod =
          rejectFree sh (if ((s.mod.loft.get sh).cells.get c).count = 0 then 1 else 2) r c s.mod := by
        simp only [doRelease, Bool.false_eq_true, if_false, decCell]
        split
        · rfl
        · rw [if_pos (by omega)]
      rw [hk]
      exact rejectFree_effect _ _ _ _ _
  · dsimp only
    have he := releaseNow_alone (r := { free := true, cell := c, req := r, desc := d }) hw hd
    refine ⟨fun ho h1 => ?_, fun h => ?_, fun ho h2 => ?_⟩
    · refine answers_of (releaseNow sh _ s.pending) rfl ha ?_
      rw [he]
      exact freeCell_last_loft ho h1
    · refine answers_of (releaseNow sh _ s.pending) rfl ha ?_
      rw [he]
      have hk : doRelease sh { free := true, cell := c, req := r, desc := d } s.mod =
          rejectFree sh (if d = ((s.mod.loft.get sh).cells.get c).owner then 1 else 0) r c s.mod := by
        simp only [doRelease, if_true, freeCell]
        by_cases ho : d = ((s.mod.loft.get sh).cells.get c).owner
        · have h0 := h.resolve_left (fun hn => hn ho)
          simp [ho, h0]
        · simp [ho]
      rw [hk]
      exact rejectFree_effect _ _ _ _ _
    · refine answers_of (releaseNow sh _ s.pending) rfl ha ?_
      rw [he]
      have h0 : ((s.mod.loft.get sh).cells.get c).count ≠ 0 := by omega
      have h1 : ((s.mod.loft.get sh).cells.get c).count ≠ 1 := by omega
      simp [doRelease, freeCell, ho, h0, h1]
  · refine answers_of (retryFree sh c) rfl ha ?_
    have he : retryFree sh c s.mod = freeCell sh c e.2.1 e.2.2 s.mod := by simp only [retryFree, hf]
    rw [he]
    obtain ⟨hcells, hretry⟩ := freeCell_last_loft (req := e.2.1) ho h1
    exact ⟨by rw [hcells, Map.get_set_same], hretry⟩
  · refine answers_of (auditLoft sh) rfl ha ?_
    rw [auditLoft_due hp]
    refine ⟨?_, fun e he hd c hc => reclaimed_free (mem_staleCells he hd hc) _⟩
    rw [foldl_keeps (fun a : Mod => (a.loft.get sh).auditAt) _ _ _ fun a c => (reclaim_loft sh c a).2]
    simp [setLoft]

end Sys2Proof.Machine
end

section
/-! Proofs about drawbar halves that leave service or change their rate (06 R213 to R215). -/

namespace Sys2Proof.Machine

-- One theorem at a time: each thread that elaborates another reserves a stack, and their sum has a limit.
set_option Elab.async false

theorem refuseLeave_offPower (op unit reason : Nat) (mbx : Option Nat) (x : Mod) :
    offPower (refuseLeave op unit reason mbx x) = offPower x := by
  unfold refuseLeave
  dsimp only
  split
  · rw [notify_raised, offPower_raised, raise_offPower]
    rfl
  · rw [raise_offPower]
    rfl

theorem askLeave_offPower (op unit : Nat) (mbx : Option Nat) (x : Mod) : offPower (askLeave op unit mbx x).2 = offPower x := by
  unfold askLeave
  split
  · rfl
  · rfl
  · exact refuseLeave_offPower _ _ _ _ _

/-- A half is out of the mesh: it carries no slots and holds no express capacity. -/
def outOfMesh (k : Half) : Prop := halfRuns k = false ∧ k.express = 0

/-- Training of a pair, asked for or begun, puts no half back into the mesh. -/
theorem beginDrawbarTraining_out (k : Nat) {x : Mod} {e : Nat × Nat} (h : outOfMesh (x.mesh.halves.get e)) :
    outOfMesh ((beginDrawbarTraining k x).mesh.halves.get e) := by
  unfold beginDrawbarTraining
  refine List.foldlRecOn (motive := fun a : Mod => outOfMesh (a.mesh.halves.get e)) (pairHalves k) _ h fun a ha b _ => ?_
  have hseed : (seedLanes a).2.mesh = a.mesh := by
    unfold seedLanes
    rfl
  simp only [setHalf]
  by_cases hb : e = (b.1, b.2)
  · rw [hb, Map.get_upd_same]
    exact ⟨rfl, rfl⟩
  · rw [Map.get_upd_other _ hb, hseed]
    exact ha

theorem askPair_out (k : Nat) {x : Mod} {e : Nat × Nat} (h : outOfMesh (x.mesh.halves.get e)) :
    outOfMesh ((askPair k x).mesh.halves.get e) := by
  have hask : (askLeave 3 k none x).2.mesh = x.mesh :=
    (congrArg Mod.mesh (askLeave_offPower 3 k none x) : (offPower (askLeave 3 k none x).2).mesh = (offPower x).mesh)
  unfold askPair
  split
  · exact h
  · split
    · exact h
    · cases hl : askLeave 3 k none x with
      | mk l x1 =>
        rw [hl] at hask
        have h1 : outOfMesh (x1.mesh.halves.get e) := by rw [hask]; exact h
        cases l with
        | granted id => exact beginDrawbarTraining_out k h1
        | queued id => exact h1
        | refused r => exact h1

/-- A direction taken out of service is out of the mesh, and both sheds report it. -/
theorem drawbarOut_effect (sh h : Nat) (x : Mod) :
    halfRuns ((drawbarOut sh h x).mesh.halves.get (sh, h)) = false ∧ ((drawbarOut sh h x).mesh.halves.get (sh, h)).express = 0 ∧
      evtSet (.shed sh) evDrawbarDown (drawbarOut sh h x) = true ∧
      evtSet (.shed (peerOf sh h)) evDrawbarDown (drawbarOut sh h x) = true := by
  have hout : outOfMesh ((drawbarOut sh h x).mesh.halves.get (sh, h)) := by
    simp only [drawbarOut, raise_keeps]
    refine askPair_out _ ?_
    simp only [setHalf, Map.get_upd_same]
    exact ⟨rfl, rfl⟩
  exact ⟨hout.1, hout.2, raise_evtSet_mono _ _ _ _ _ (raise_evtSet _ _ _ (by decide)), raise_evtSet _ _ _ (by decide)⟩

/-- Settles O14: a direction that fails leaves the mesh whatever its training's leave says; a change of rate is one of its half alone. -/
theorem drawbarsChangeState : Obligations.DrawbarsChangeState := by
  refine ⟨fun sh h s ha hr hc => ?_, fun sh h s ha hr => ?_, fun sh h s ha hst hex hsw hl hq => ?_, fun sh h s ha hst hsw hw => ?_,
    fun sh h t s ha hsw hp => ?_⟩
  · refine answers_of (crcLimit sh h) rfl ha ?_
    have he : crcLimit sh h s.mod = drawbarOut sh h s.mod := by simp only [crcLimit, hr, hc, Bool.true_and, decide_true, if_true]
    rw [he]
    exact drawbarOut_effect _ _ _
  · refine answers_of (clockLoss sh h) rfl ha ?_
    have he : clockLoss sh h s.mod = drawbarOut sh h s.mod := by simp only [clockLoss, hr, if_true]
    rw [he]
    exact drawbarOut_effect _ _ _
  · refine answers_of (enterHalfRate sh h) rfl ha ?_
    obtain ⟨t, ht, hpass⟩ := hl
    have he : enterHalfRate sh h s.mod = tally (.xbr sh h 5) (setHalf sh h (fun k => { k with
        st := .halfRate
        switchAt := some s.mod.now
        wantFull := false }) s.mod) := by
      rw [Option.mem_def] at ht
      simp only [enterHalfRate, hst, hex, hsw, ht, hpass, hq, Option.isNone_none, decide_true, Bool.and_self, if_true]
    rw [he]
    refine ⟨by simp [tally, count, setHalf], by simp [tally, count, setHalf], count_same _ _ _, rfl⟩
  · refine answers_of (leaveHalfRate sh h) rfl ha ?_
    have he : leaveHalfRate sh h s.mod = setHalf sh h (fun k => { k with
        st := .full
        switchAt := some s.mod.now
        wantFull := false
        lightAt := some s.mod.now }) s.mod := by
      have hw' : ((s.mod.mesh.halves.get (sh, h)).wantFull || decide (300000 < sentIn s.mod sh h (us 1))) = true := by
        simpa [Bool.or_eq_true] using hw
      simp only [leaveHalfRate, hst, hsw, hw', Option.isNone_none, decide_true, Bool.and_self, if_true]
    rw [he]
    refine ⟨by simp [setHalf], by simp [setHalf], by simp [setHalf], rfl⟩
  · refine answers_of (switchOverEnds sh h) rfl ha ?_
    have he : switchOverEnds sh h s.mod = setHalf sh h (fun k => { k with switchAt := none }) s.mod := by
      simp only [switchOverEnds, hsw, hp, if_true]
    rw [he]
    refine ⟨by simp [setHalf], by simp [setHalf], rfl⟩

end Sys2Proof.Machine
end

section
/-! Proofs about the ticks that serve the queues: refill, WRED averages, the recount and the depth selection (07 R242, R245, R251 to
R254). -/

namespace Sys2Proof.Machine

-- One theorem at a time: each thread that elaborates another reserves a stack, and their sum has a limit.
set_option Elab.async false

/-- A check of a queue without an error held changes nothing. -/
theorem checkQueue_clean {x : Mod} (hb : x.que.resBad = []) (he : x.ecc = []) (p q : Nat) : checkQueue p q x = x := by
  have hclean : ∀ w, eccClean w x := fun w e h => by simp [he] at h
  simp [checkQueue, checkObj, hb, eccRepair_clean (hclean _)]

/-- What a tick makes of a queue's average with its WRED record, if it has one (07 R251). -/
def averaged (r : Option (List Byte)) (k : QueSt) : QueSt :=
  match r with
  | some r =>
    let a := wredAvg (leAt r 1 1 % 16) (queueCells k) k.avgNum k.avgDen
    { k with
      avgNum := a.1
      avgDen := a.2 }
  | none => k

/-- The module with the queues `qs`, at a tick of the averages. -/
def withAverages (x : Mod) (qs : Map (Nat × Nat) QueSt) : Mod := { x with que := { x.que with
  qs := qs
  avgAt := some x.now } }

/-- One queue's average is updated, and no other queue changes. -/
theorem updateAvg_clean {x : Mod} {qs : Map (Nat × Nat) QueSt} (hb : x.que.resBad = []) (he : x.ecc = []) (e : Nat × Nat) :
    ∃ qs', updateAvg e.1 e.2 (withAverages x qs) = withAverages x qs' ∧ qs'.get e = averaged (wredRec x e.1 e.2) (qs.get e) ∧
      ∀ k, k ≠ e → qs'.get k = qs.get k := by
  have hw : wredRec (withAverages x qs) e.1 e.2 = wredRec x e.1 e.2 := rfl
  have hc : checkQueue e.1 e.2 (withAverages x qs) = withAverages x qs :=
    checkQueue_clean (x := withAverages x qs) hb he e.1 e.2
  unfold updateAvg
  rw [hw]
  cases wredRec x e.1 e.2 with
  | none => exact ⟨qs, rfl, rfl, fun _ _ => rfl⟩
  | some r =>
    dsimp only
    rw [hc]
    exact ⟨_, rfl, Map.get_upd_same _ _ _, fun k hk => Map.get_upd_other _ hk _⟩

/-- Every listed queue's average is updated once. -/
theorem updateAvgs_clean {x : Mod} (hb : x.que.resBad = []) (he : x.ecc = []) (l : List ((Nat × Nat) × QueSt))
    (hn : (l.map (·.1)).Nodup) (qs : Map (Nat × Nat) QueSt) :
    ∃ qs', l.foldl (fun a e => updateAvg e.1.1 e.1.2 a) (withAverages x qs) = withAverages x qs' ∧
      (∀ e ∈ l.map (·.1), qs'.get e = averaged (wredRec x e.1 e.2) (qs.get e)) ∧ ∀ k, k ∉ l.map (·.1) → qs'.get k = qs.get k := by
  induction l generalizing qs with
  | nil => exact ⟨qs, rfl, fun e h => by simp at h, fun _ _ => rfl⟩
  | cons b l ih =>
    rw [List.map_cons, List.nodup_cons] at hn
    obtain ⟨qs₁, h₁, hsame, hother⟩ := updateAvg_clean (qs := qs) hb he b.1
    obtain ⟨qs₂, h₂, hin, hout⟩ := ih hn.2 qs₁
    refine ⟨qs₂, by rw [List.foldl_cons, h₁, h₂], fun e h => ?_, fun k h => ?_⟩
    · rcases List.mem_cons.mp h with rfl | h
      · rw [hout _ hn.1, hsame]
      · rw [hin e h, hother e fun hb' => hn.1 (hb' ▸ h)]
    · rw [List.map_cons, List.mem_cons, not_or] at h
      rw [hout k h.2, hother k h.1]

/-- Settles O15: a refill and an average tick go through the nodes, the meters and the queues once; without an error held none is
repaired. -/
theorem queuesAreServed : Obligations.QueuesAreServed := by
  refine ⟨fun s ha hm hr hb he => ?_, fun s ha hm hr hb he hn => ?_, fun p q s ha => ?_, fun g v s ha hreach => ?_⟩
  · refine answers_of refillAll rfl ha ?_
    have hc : ¬(s.mod.now % 5000 != 0 || s.mod.que.refill == some s.mod.now) = true := by simp [hm, hr]
    rw [refillAll, if_neg hc]
    -- Only the spelling of one `match` may be left, here and in the statement.
    and_intros <;> simp only [hb, he, List.filterMap_nil, List.append_nil, List.foldl_nil] <;> rfl
  · refine answers_of wredTick rfl ha ?_
    obtain ⟨qs, hqs, hin, -⟩ := updateAvgs_clean hb he _ hn s.mod.que.qs
    have hx : wredTick s.mod = withAverages s.mod qs := by
      rw [← hqs]
      simp only [wredTick, hm, bne_self_eq_false, Bool.false_or, beq_iff_eq, hr, if_false]
      rfl
    rw [hx]
    refine ⟨rfl, fun e h => ?_, rfl⟩
    refine (hin e h).trans ?_
    cases wredRec s.mod e.1 e.2 <;> rfl
  · refine answers_of (recountDone p q) rfl ha ⟨?_, rfl, fun e _ hne => ?_⟩
    · simp [recountDone, setQue, queSt]
    · simp only [recountDone, setQue, queSt]
      rw [Map.get_upd_other _ hne]
  · refine answers_of (selectDepth g v) rfl ha ?_
    rw [selectDepth, reach_reachable _ _ _ _ hreach]
    refine ⟨Map.get_set_same _ _ _, Map.get_set_same _ _ _, rfl⟩

end Sys2Proof.Machine
end

section
/-! A loss marker and an error that stands in the word of the capture buffer it is written to (08 R271, 17 R518). -/

namespace Sys2Proof.Machine

-- One theorem at a time: each thread that elaborates another reserves a stack, and their sum has a limit.
set_option Elab.async false

/-- What a command of the module alone answers is its effect. -/
theorem of_answers {c : Instr} {s : State} {P : Mod → Prop} (f : Mod → Mod) (he : exec c s = cmd c f s)
    (ha : arrives c s.mod = true) (h : Answers c s P) : P (f s.mod) := by
  obtain ⟨m, hm, hP⟩ := h
  rw [he, cmd_arrives c f s ha] at hm
  injection hm with hm
  injection hm with hm
  exact hm ▸ hP

namespace SpoiltWord

/-- The module right after reset with capture ring 15 enabled and one record lost there, its DMA ring of 4 KiB enabled, and an error
standing in the word that the next record is written to. -/
def mod : Mod := { State.reset.mod with
  cap := { State.reset.mod.cap with rings := (Map.const {}).set 15 { enable := true, lost := 1, format := 2 } }
  host := { State.reset.mod.host with rings := (Map.const {}).set 79 { enable := true, sizeLog2 := 12 } }
  ecc := [{ word := .capture 0 }] }

/-- The marker is written, and with it the error is gone. -/
theorem error_gone : (writeMarker 15 mod).ecc = [] := by decide +kernel

end SpoiltWord

/-- Refutes O16: the loss marker's word is written, so that an error that stood in it is gone, and not the rings and the buffer alone
have changed. -/
theorem not_capturesAndPerfCounters : ¬ Obligations.CapturesAndPerfCounters := by
  unfold Obligations.CapturesAndPerfCounters
  rintro ⟨hmarker, -⟩
  have h := hmarker 15 { State.reset with mod := SpoiltWord.mod } (by decide +kernel) (by decide +kernel) (by decide +kernel)
    (by decide +kernel) (by decide +kernel)
  obtain ⟨-, -, -, hm⟩ := of_answers (writeMarker 15) rfl (by decide +kernel) h
  have hecc := congrArg Mod.ecc hm
  exact absurd (SpoiltWord.error_gone.symm.trans hecc) (by decide +kernel)

end Sys2Proof.Machine
end

section
/-! Proofs about host writes to BAR0 and through its alias views (00 R13 to R17; 13 R407, R411, R412). -/

namespace Sys2Proof.Machine

-- One theorem at a time: each thread that elaborates another reserves a stack, and their sum has a limit.
set_option Elab.async false

/-! ### A whole word -/

theorem leNat_leBytes (n v : Nat) : leNat (leBytes n v) = v % 256 ^ n := by
  induction n generalizing v with
  | zero => simp [leBytes, leNat, Nat.mod_one]
  | succ n ih =>
    rw [leBytes, leNat, ih, BitVec.toNat_ofNat, pow_succ' 256 n]
    exact Nat.mod_mul.symm

theorem partOf_whole (off : Nat) (a b c e : Option Byte) : partOf off [a, b, c, e] off = [a, b, c, e] := by
  simp [partOf, List.range_succ]

theorem partOf_above (off k : Nat) (a b c e : Option Byte) : partOf off [a, b, c, e] (off + 4 + k) = [none, none, none, none] := by
  have h : ∀ i, ([a, b, c, e][off + 4 + k + i - off]?).join = none := fun i => by
    rw [List.getElem?_eq_none (by simp only [List.length_cons, List.length_nil]; omega)]
    rfl
  simp [partOf, List.range_succ, h]

theorem touched_word {off : Nat} (h : off % 4 = 0) (a b c e : Byte) : touched off [some a, some b, some c, some e] = [off] := by
  have hoff : off / 4 * 4 = off := by omega
  have h8 := partOf_above off 4 (some a) (some b) (some c) (some e)
  have h4 := partOf_above off 0 (some a) (some b) (some c) (some e)
  simp only [touched, List.length_cons, List.length_nil, hoff]
  rw [show (0 + 1 + 1 + 1 + 1) / 4 + 2 = 3 from rfl, show List.range 3 = [0, 1, 2] from rfl]
  simp only [List.map_cons, List.map_nil, Nat.mul_zero, Nat.add_zero, Nat.mul_one, Nat.reduceMul]
  rw [List.filter_cons_of_pos (by rw [partOf_whole]; rfl), List.filter_cons_of_neg (by rw [← Nat.add_zero (off + 4), h4]; decide),
    List.filter_cons_of_neg (by rw [show off + 8 = off + 4 + 4 from rfl, h8]; decide), List.filter_nil]

/-- Four enabled bytes at an aligned offset are one write of a word. -/
theorem hostWrite_word {off : Nat} (h : off % 4 = 0) (v : Word) (x : Mod) :
    hostWrite off ((leBytes 4 v.toNat).map some) false x = writeAny off v x := by
  have hv : BitVec.ofNat 32 (leNat (leBytes 4 v.toNat)) = v := by
    rw [leNat_leBytes]
    apply BitVec.eq_of_toNat_eq
    rw [BitVec.toNat_ofNat]
    have := v.isLt
    omega
  obtain ⟨a, b, c, e, hb⟩ : ∃ a b c e, leBytes 4 v.toNat = [a, b, c, e] := ⟨_, _, _, _, rfl⟩
  rw [hb] at hv ⊢
  simp only [List.map_cons, List.map_nil, hostWrite, touched_word h]
  rw [if_neg (by decide), if_neg (by simp [oneRun]), List.foldl_cons, List.foldl_nil, writePart, partOf_whole,
    if_pos (show enables [some a, some b, some c, some e] = 15 from rfl)]
  simp only [List.map_cons, List.map_nil, Option.getD_some, hv]

/-! ### A register of plain fields -/

/-- A word written in the normal view reaches the register at its offset where that can be reached. -/
theorem writeAny_plain {off : Nat} {r : RegAt} {v : Word} {x : Mod} (hv : viewAt off = 0) (hr : regAt off = some r)
    (hd : regDefined r = true) (hreach : reachable x off = true) : writeAny off v x = writeAt r off v x := by
  rw [writeAny, if_pos hv, writeReg, hr]
  dsimp only
  rw [if_pos hd, reach_reachable _ _ _ _ hreach]

/-- A register of the yard below the ring pages that is none of an event register or of a pair takes its word as a yard register. -/
theorem writeAt_yard {p o off : Nat} {v : Word} {x : Mod} (he : evtReg ⟨.yard, p, o⟩ = none) (hp : pairReg ⟨.yard, p, o⟩ = none)
    (hn : ringAt ⟨.yard, p, o⟩ = none) : writeAt ⟨.yard, p, o⟩ off v x = writeYard p o v x := by
  simp only [writeAt, he, hp, hn]

/-- A register of the yard can be reached unless it is one of domain 446's. -/
theorem reachable_yard {off : Nat} {x : Mod} (h : off < 0x1000000) (hm : off / 0x4000 ≠ 0x44) : reachable x off = true := by
  simp [reachable, offIsland, h, hm]

/-- The registers of the HST page between 0x100 and 0x5E0 are neither event registers nor of a pair or a ring. -/
theorem hstPage_plain {o : Nat} (h0 : 0x100 ≤ o) (h1 : o < 0x5E0) :
    evtReg ⟨.yard, 0xC0000, o⟩ = none ∧ pairReg ⟨.yard, 0xC0000, o⟩ = none ∧ ringAt ⟨.yard, 0xC0000, o⟩ = none := by
  refine ⟨?_, by simp [pairReg, pairAt, ringAt], by simp [ringAt]⟩
  simp only [evtReg, List.find?_eq_none]
  intro b hb hpo
  simp only [Bool.and_eq_true, beq_iff_eq] at hpo
  obtain ⟨hp, ho⟩ := hpo
  have hpage : ∀ b ∈ 0 :: evtBlocks .yard, evtPage .yard b = 0xC0000 → b = 19 := by decide
  obtain rfl := hpage b hb hp.symm
  rw [show evtInPage .yard 19 = 0xF00 from rfl] at ho
  omega

theorem regAt_hst {o : Nat} (h : o < 0x1000) : regAt (0xC0000 + o) = some ⟨.yard, 0xC0000, o⟩ := by
  rw [regAt_yard (by omega)]
  congr 2 <;> omega

/-- A word written to HST_PUNT_MAP or HST_VEC_MAP. -/
theorem hostWrite_hst {o : Nat} (h4 : o % 4 = 0) (h0 : 0x100 ≤ o) (h1 : o < 0x5E0)
    (hd : regDefined ⟨.yard, 0xC0000, o⟩ = true) (v : Word) (x : Mod) :
    hostWrite (0xC0000 + o) ((leBytes 4 v.toNat).map some) false x = writeHst o v x := by
  obtain ⟨he, hp, hn⟩ := hstPage_plain h0 h1
  rw [hostWrite_word (by omega), writeAny_plain (by unfold viewAt; omega) (regAt_hst (by omega)) hd
    (reachable_yard (by omega) (by omega)), writeAt_yard he hp hn]
  simp [writeYard]

theorem wordIn_iff {off base step n : Nat} : wordIn off base step n = true ↔
    base ≤ off ∧ (off - base) % step = 0 ∧ (off - base) / step < n := by
  simp [wordIn, and_assoc]

/-- The number of the word that an offset of a run is. -/
theorem wordIn_run {base k n : Nat} (h : k < n) : wordIn (base + 4 * k) base 4 n = true :=
  wordIn_iff.mpr (by omega)

theorem wordNo_run (base k : Nat) : wordNo (base + 4 * k) base 4 = k := by
  unfold wordNo
  omega

/-- HST_VEC_MAP k names the vectors of two sources (13 R433). -/
theorem hostWrite_vecMap {k : Nat} (hk : k < 120) (v : Word) (x : Mod) :
    hostWrite (0xC0400 + 4 * k) ((leBytes 4 v.toNat).map some) false x = { x with host := { x.host with
      vec := (x.host.vec.set (2 * k) (some (fieldOf v 10 0))).set (2 * k + 1) (some (fieldOf v 26 16)) } } := by
  have hin : wordIn (0x400 + 4 * k) 0x100 4 64 = false := by simp only [← Bool.not_eq_true, wordIn_iff]; omega
  have hd : regDefined ⟨.yard, 0xC0000, 0x400 + 4 * k⟩ = true := by
    simp [regDefined, pageRegs, wordIn_run (show k < 121 by omega)]
  rw [show 0xC0400 + 4 * k = 0xC0000 + (0x400 + 4 * k) by omega, hostWrite_hst (by omega) (by omega) (by omega) hd]
  simp only [writeHst, hin, Bool.false_eq_true, if_false, wordIn_run (show k < 121 by omega), if_true, wordNo_run,
    if_neg (show k ≠ 120 by omega)]

/-- HST_PUNT_MAP k names the punt settings of four REASONs (13 R432). -/
theorem hostWrite_puntMap {k : Nat} (hk : k < 64) (v : Word) (x : Mod) :
    hostWrite (0xC0100 + 4 * k) ((leBytes 4 v.toNat).map some) false x = { x with host := { x.host with
      puntMap := (List.range 4).foldl (fun m i =>
        m.set (4 * k + i) (BitVec.ofNat 8 (fieldOf v (8 * i + 7) (8 * i)) &&& 0xBF#8)) x.host.puntMap } } := by
  have hd : regDefined ⟨.yard, 0xC0000, 0x100 + 4 * k⟩ = true := by simp [regDefined, pageRegs, wordIn_run hk]
  rw [show 0xC0100 + 4 * k = 0xC0000 + (0x100 + 4 * k) by omega, hostWrite_hst (by omega) (by omega) (by omega) hd]
  simp only [writeHst, wordIn_run hk, if_true, wordNo_run]

/-! ### TRB_IRQ -/

/-- TRB_IRQ is neither an event register nor of a pair or a ring, and stands in the page of the trouble log of every level. -/
theorem trbIrq_plain (l : Level) : evtReg ⟨l, evtPage l 0, 0x10⟩ = none ∧ pairReg ⟨l, evtPage l 0, 0x10⟩ = none ∧
    ringAt ⟨l, evtPage l 0, 0x10⟩ = none ∧ regDefined ⟨l, evtPage l 0, 0x10⟩ = true := by
  refine ⟨?_, ?_, ?_, ?_⟩
  · cases l <;> rfl
  · cases l <;> rfl
  · cases l <;> rfl
  · cases l <;> simp [regDefined, pageRegs, evtPage, wordIn]

theorem writeAt_trbIrq (l : Level) (off : Nat) (v : Word) (x : Mod) :
    writeAt ⟨l, evtPage l 0, 0x10⟩ off v x = writeIrq l v x := by
  obtain ⟨he, hp, hn, -⟩ := trbIrq_plain l
  unfold writeAt
  rw [he, hp, hn]
  cases l <;> rfl

theorem trbIrq_offset (l : Level) : viewAt (levelBase l + evtPage l 0 + 0x10) = 0 ∧ (levelBase l + evtPage l 0 + 0x10) % 4 = 0 := by
  have hpage := (evtPage_window l 0).2
  have hbase : levelBase l % 0x4000 = 0 := by cases l <;> simp only [levelBase] <;> omega
  unfold viewAt
  omega

theorem bitOf_getLsbD (v : Word) (i : Nat) : bitOf v.toNat i = v.getLsbD i := by
  simp [bitOf, BitVec.getLsbD, Nat.testBit, Nat.shiftRight_eq_div_pow]

/-! ### The alias views -/

theorem evtReg_none {r : RegAt} (h : ∀ b ∈ 0 :: evtBlocks r.level, r.page = evtPage r.level b → r.off ≠ evtInPage r.level b) :
    evtReg r = none := by
  simp only [evtReg, List.find?_eq_none, Bool.and_eq_true, beq_iff_eq, not_and]
  exact h

/-- No event register stands where the selectors of most pairs do. -/
theorem evtInPage_ne (l : Level) (b : Nat) : evtInPage l b ≠ 0x100 := by
  unfold evtInPage
  split <;> decide

/-- The page of the selector of the lookup counters. -/
theorem pairAt_lkp {r : RegAt} {sh : Nat} (h : pairAt r = some (.lkp sh)) : r.level = .shed sh ∧ r.page = 0x20000 := by
  unfold pairAt at h
  split at h
  · repeat' split at h
    all_goals simp at h
  · repeat' split at h
    all_goals simp_all
  · repeat' split at h
    all_goals simp at h

/-- A selector's register is no event register (02 R52). -/
theorem evtReg_selector {r : RegAt} {p : PairId} (h : pairReg r = some (p, 0)) : evtReg r = none := by
  unfold pairReg at h
  split at h
  · split at h <;> simp at h
  · split at h
    · simp at h
    · split at h
      · simp at h
      · split at h <;> simp at h
    · rename_i sh hlkp
      obtain ⟨hl, hpage⟩ := pairAt_lkp hlkp
      split at h
      next ho =>
        refine evtReg_none fun b hb hpg hoff => ?_
        rw [hl] at hb hoff hpg
        rw [ho] at hoff
        have hno : ∀ b ∈ 0 :: evtBlocks (.shed sh), evtPage (.shed sh) b = 0x20000 → evtInPage (.shed sh) b ≠ 0x300 := by
          intro b hb
          fin_cases hb <;> simp [evtPage, evtInPage]
        exact hno b hb (by rw [← hpg, hpage]) hoff.symm
      next => split at h <;> [simp at h; (split at h <;> simp at h)]
    · split at h
      next ho => exact evtReg_none fun b _ _ hoff => evtInPage_ne _ _ (hoff.symm.trans ho)
      next => split at h <;> [simp at h; (split at h <;> simp at h)]

/-- A selector written as a whole through a view (02 R52, 13 R412). -/
theorem writeReg_selector {off : Nat} {r : RegAt} {p : PairId} {k : Nat} {x : Mod} (hr : regAt off = some r) (hd : regDefined r = true)
    (hp : pairReg r = some (p, 0)) (hk : selMask p = some k) (h1 : reachable x off = true) (h2 : reachable x (pairOff p - 4) = true)
    (v : Word) : writeReg off v x = setPair p (fun _ => { sel := v &&& BitVec.ofNat 32 k }) x := by
  simp only [writeReg, hr, hd, if_true, reach_reachable _ _ _ _ h1, writeAt, evtReg_selector hp, hp, writePair, writeSel, hk,
    reach_reachable _ _ _ _ h2]

/-- An alias write to a register that is no pair's writes the whole register with its RW bits changed (00 R15). -/
theorem aliasWrite_plain {off view : Nat} {r : RegAt} {v : Word} {x : Mod} (hr : regAt (plainOff off) = some r) (hp : pairReg r = none) :
    aliasWrite view off v x = if rwMask r = 0 then x else
      writeReg (plainOff off) (aliasBits view (BitVec.ofNat 32 (aliasOld x r)) (v &&& BitVec.ofNat 32 (rwMask r)) &&&
        BitVec.ofNat 32 (rwMask r)) x := by
  simp only [aliasWrite, hr, hp]

/-- What raising an event in a module that differs in its host state alone leaves. -/
theorem raised_host {x y m : Mod} (h : m = raised y m) (hy : y = { x with host := y.host }) :
    m = { raised x m with host := m.host } :=
  calc m = raised y m := h
    _ = { raised x m with host := (raised y m).host } := by
      rw [hy]
      rfl
    _ = { raised x m with host := m.host } := by rw [← h]

/-- An access that is dropped and logged (13 R411, R431). -/
theorem logAccess_frame (kind be bar off : Nat) (x : Mod) : logAccess kind be bar off x =
    { raised x (logAccess kind be bar off x) with host := (logAccess kind be bar off x).host } :=
  raised_host (raise_raised _ _ _) rfl

theorem emit_frame {o : Out} {x m : Mod} (h : m = { raised x m with host := m.host }) :
    emit o m = { raised x (emit o m) with host := (emit o m).host } := by
  have hn : m.now = x.now := (congrArg Mod.now h :)
  unfold emit
  rw [hn]
  conv_lhs => rw [h]
  rfl

theorem logAccess_access (kind be bar off : Nat) (x : Mod) : (logAccess kind be bar off x).host.access =
    { kind := kind, be := be, count := x.host.access.count + 1, bar := bar, off := off } := by
  simp [logAccess]

theorem logAccess_evtSet (kind be bar off : Nat) (x : Mod) : evtSet .yard evAccessDrop (logAccess kind be bar off x) = true :=
  raise_evtSet _ _ _ (by decide)

/-- The punt settings of four REASONs. -/
theorem foldl_set_range {m : Map Nat (BitVec 8)} {a i n : Nat} (f : Nat → BitVec 8) (hi : i < n) :
    ((List.range n).foldl (fun m i => m.set (a + i) (f i)) m).get (a + i) = f i := by
  induction n with
  | zero => omega
  | succ n ih =>
    rw [List.range_succ, List.foldl_append, List.foldl_cons, List.foldl_nil]
    by_cases hin : i = n
    · rw [hin, Map.get_set_same]
    · rw [Map.get_set_other _ (by omega), ih (by omega)]

/-- PWR_DOM_SEL in the normal view. -/
theorem writeAny_domSel (u : Word) (x : Mod) :
    writeAny 0xE0030 u x = { x with pwr := { x.pwr with domSel := u &&& 0xFFFF#32 } } := by
  rw [writeAny_plain (r := ⟨.yard, 0xE0000, 0x30⟩) rfl rfl rfl (reachable_yard (by decide) (by decide)), writeAt_yard rfl rfl rfl]
  rfl

/-- PWR_DOM_SEL through a view. -/
theorem aliasWrite_domSel {off view : Nat} {v : Word} {x : Mod} (ho : plainOff off = 0xE0030) : aliasWrite view off v x =
    { x with pwr := { x.pwr with domSel := aliasBits view x.pwr.domSel (v &&& 0xFFFF#32) &&& 0xFFFF#32 } } := by
  have hr : regAt (plainOff off) = some ⟨.yard, 0xE0000, 0x30⟩ := by rw [ho]; rfl
  have hold : aliasOld x ⟨.yard, 0xE0000, 0x30⟩ = x.pwr.domSel.toNat := rfl
  have hw : ∀ u, writeReg 0xE0030 u x = { x with pwr := { x.pwr with domSel := u &&& 0xFFFF#32 } } := fun u =>
    writeAny_domSel u x
  rw [aliasWrite_plain hr rfl, if_neg (by decide), hold, ho, hw, BitVec.ofNat_toNat, BitVec.setWidth_eq, BitVec.and_assoc]
  rfl

/-- A view changes no bit outside a field that the register and the written bits keep. -/
theorem aliasBits_field {w f : Word} (h : w &&& f = w) (view : Nat) (v : Word) :
    aliasBits view w (v &&& f) &&& f = aliasBits view w (v &&& f) := by
  ext i hi
  have hi' := congrArg (·.getLsbD i) h
  simp only [BitVec.getLsbD_and] at hi'
  unfold aliasBits
  split <;> [skip; split] <;> simp <;> grind

/-- Settles O20: a word that fills a register is one write of it, an alias write one of its RW bits. -/
theorem registerWritesApply : Obligations.RegisterWritesApply := by
  refine ⟨fun v s => ?_, fun off d s ha => ?_, fun off d s ha hrun hno => ?_, fun off d g s ha hrun hg hdef => ?_,
    fun off d g r s ha hrun ht hen hr hd => ?_, fun off v r p k s hr hd hp hk h1 h2 => ?_, fun v s => ?_,
    fun off v r s hr hp => ?_, fun off v r p i s hr hp c hc ha => ?_⟩
  · dsimp only
    refine ⟨fun ha => ?_, fun ha => ?_, fun k hk ha => ?_, fun k hk ha => ?_, fun l hr hreach ha => ?_⟩
    · refine answers_of (hostWrite _ _ _) rfl ha ?_
      rw [hostWrite_word (by decide), writeAny_domSel]
    · refine answers_of (hostWrite _ _ _) rfl ha ?_
      rw [hostWrite_word (by decide), writeAny_plain (r := ⟨.yard, 0xD0000, 0⟩) rfl rfl rfl (reachable_yard (by decide) (by decide)),
        writeAt_yard rfl rfl rfl]
      rfl
    · refine answers_of (hostWrite _ _ _) rfl ha ?_
      rw [hostWrite_vecMap hk]
      exact ⟨by rw [Map.get_set_other _ (by omega), Map.get_set_same], Map.get_set_same _ _ _, rfl⟩
    · refine answers_of (hostWrite _ _ _) rfl ha ?_
      rw [hostWrite_puntMap hk]
      exact ⟨fun i hi => foldl_set_range (fun i => BitVec.ofNat 8 (fieldOf v (8 * i + 7) (8 * i)) &&& 0xBF#8) hi, rfl⟩
    · refine answers_of (hostWrite _ _ _) rfl ha ?_
      obtain ⟨hv, h4⟩ := trbIrq_offset l
      obtain ⟨-, -, -, hdef⟩ := trbIrq_plain l
      rw [hostWrite_word h4, writeAny_plain hv hr hdef hreach, writeAt_trbIrq]
      simp [writeIrq, bitOf_getLsbD]
  · refine answers_of (hostWrite off d true) rfl ha ?_
    simp only [hostWrite, if_true]
    refine ⟨logAccess_kind _ _ _ _ _, logAccess_counts _ _ _ _ _, by simp [emit, logAccess], logAccess_evtSet _ _ _ _ _, ?_⟩
    exact emit_frame (logAccess_frame _ _ _ _ _)
  · refine answers_of (hostWrite off d false) rfl ha ?_
    have hf : (touched off d).find? (fun o => (regAt o).any regDefined) = none := by
      rw [List.find?_eq_none]
      intro g hg
      rw [hno g hg]
      decide
    simp only [hostWrite, Bool.false_eq_true, if_false, hrun, Bool.not_false, if_true, hf]
  · refine answers_of (hostWrite off d false) rfl ha ?_
    obtain ⟨o, hf⟩ := Option.isSome_iff_exists.mp (List.find?_isSome (p := fun o => (regAt o).any regDefined) |>.mpr ⟨g, hg, hdef⟩)
    simp only [hostWrite, Bool.false_eq_true, if_false, hrun, Bool.not_false, if_true, hf]
    exact ⟨logAccess_kind _ _ _ _ _, logAccess_counts _ _ _ _ _, logAccess_evtSet _ _ _ _ _, logAccess_frame _ _ _ _ _⟩
  · refine answers_of (hostWrite off d false) rfl ha ?_
    have he : hostWrite off d false s.mod = logAccess (if off % 4 = 0 then 0 else 2) (enables (partOf off d g)) 0 g s.mod := by
      simp only [hostWrite, Bool.false_eq_true, if_false, hrun, Bool.not_true, ht, List.foldl_cons, List.foldl_nil, writePart, hen,
        hr, hd, if_true]
    rw [he, logAccess_access]
    exact ⟨rfl, rfl, rfl, logAccess_evtSet _ _ _ _ _, logAccess_frame _ _ _ _ _⟩
  · have hw : ∀ view, aliasWrite view off v s.mod = writeReg (plainOff off) (aliasBits view (s.mod.pairs.get p).sel v) s.mod := fun view => by
      simp only [aliasWrite, hr, hp, hk, Option.isSome_some, if_true]
    dsimp only
    refine ⟨fun ha => ?_, fun ha => ?_, fun ha => ?_⟩
    · refine answers_of (aliasWrite 1 off v) rfl ha ?_
      rw [hw, writeReg_selector hr hd hp hk h1 h2]
      exact ⟨Map.get_upd_same _ _ _, rfl⟩
    · refine answers_of (aliasWrite 2 off v) rfl ha ?_
      rw [hw, writeReg_selector hr hd hp hk h1 h2]
      exact ⟨Map.get_upd_same _ _ _, rfl⟩
    · refine answers_of (aliasWrite 3 off v) rfl ha ?_
      rw [hw, writeReg_selector hr hd hp hk h1 h2]
      exact ⟨Map.get_upd_same _ _ _, rfl⟩
  · dsimp only
    have hP : ∀ view off, plainOff off = 0xE0030 → s.mod.pwr.domSel &&& 0xFFFF#32 = s.mod.pwr.domSel → aliasWrite view off v s.mod =
        { s.mod with pwr := { s.mod.pwr with domSel := aliasBits view s.mod.pwr.domSel (v &&& 0xFFFF#32) } } := fun view off ho hw => by
      rw [aliasWrite_domSel ho, aliasBits_field hw]
    exact ⟨fun ha hw => answers_of (aliasWrite 1 _ v) rfl ha (hP 1 _ rfl hw),
      fun ha hw => answers_of (aliasWrite 2 _ v) rfl ha (hP 2 _ rfl hw),
      fun ha hw => answers_of (aliasWrite 3 _ v) rfl ha (hP 3 _ rfl hw)⟩
  · have hw : ∀ view, aliasWrite view off v s.mod = _ := fun view => aliasWrite_plain hr hp
    dsimp only
    refine ⟨fun ha => ?_, fun ha => ?_, fun ha => ?_⟩
    · exact answers_of (aliasWrite 1 off v) rfl ha (hw 1)
    · exact answers_of (aliasWrite 2 off v) rfl ha (hw 2)
    · exact answers_of (aliasWrite 3 off v) rfl ha (hw 3)
  · have hw : ∀ view, aliasWrite view off v s.mod = logAccess 9 0xF 0 (plainOff off) s.mod := fun view => by
      simp only [aliasWrite, hr, hp]
    have hP : ∀ view, (aliasWrite view off v s.mod).host.access.kind = 9 ∧ (aliasWrite view off v s.mod).pairs = s.mod.pairs ∧
        (aliasWrite view off v s.mod).ctrs = s.mod.ctrs := fun view => by
      rw [hw]
      exact ⟨logAccess_kind _ _ _ _ _, by simp [logAccess], by simp [logAccess]⟩
    simp only [List.mem_cons, List.not_mem_nil, or_false] at hc
    rcases hc with rfl | rfl | rfl
    · exact answers_of (aliasWrite 1 off v) rfl ha (hP 1)
    · exact answers_of (aliasWrite 2 off v) rfl ha (hP 2)
    · exact answers_of (aliasWrite 3 off v) rfl ha (hP 3)

end Sys2Proof.Machine
end

section
/-! Proofs about the reads that latch a group of registers or pop a trouble record (02 R52; 17 R524, R529). -/

namespace Sys2Proof.Machine

-- One theorem at a time: each thread that elaborates another reserves a stack, and their sum has a limit.
set_option Elab.async false

/-- A read of a latched group's first register, where it can be reached and nothing pops. -/
theorem readLatch_group {l : LatchId} {x : Mod} (hr : reachable x (latchOff l) = true) (hw : groupWords x l ≠ []) :
    readLatch l x = answer ((groupWords x l).headD 0) (latchRest l (groupWords x l).tail x) := by
  rw [readLatch, reach_reachable _ _ _ _ hr]
  cases l
  case nowSec | capSec | tsqData | troubleRec => exact absurd rfl hw
  all_goals rfl

theorem readLatch_trouble {l : Level} {x : Mod} (hr : reachable x (latchOff (.troubleRec l)) = true) :
    readLatch (.troubleRec l) x = popRecord l x := reach_reachable _ _ _ _ hr

/-- With no ECC error held no record is skipped. -/
theorem skipSpoilt_clean {x : Mod} (he : x.ecc = []) (l : Level) (t : List TRec) : skipSpoilt l t x = x := by
  have hclean : ∀ w, eccClean w x := fun w e h => by simp [he] at h
  cases t with
  | nil => rfl
  | cons r t => simp [skipSpoilt, eccRead_clean (hclean _)]

/-- Replaying a cycle's events leaves what orders them. -/
theorem TLog.replay_sameTurn (l : TLog) : l.replay.sameTurn l :=
  List.foldlRecOn (motive := fun a : TLog => a.sameTurn l) l.came _ ⟨rfl, rfl, rfl, rfl⟩ fun a ha e _ => by
    obtain ⟨h1, h2, h3, h4⟩ := ha
    obtain ⟨k1, k2, k3, k4⟩ := TLog.enter_sameTurn a e.time e.code e.sev e.addr e.detail
    exact ⟨k1.trans h1, k2.trans h2, k3.trans h3, k4.trans h4⟩

/-- What a change leaves to be met in its cycle is the change of what was met. -/
theorem TLog.met_change (l : TLog) (c : Nat) (f : TStore → TStore) : (l.change c f).met c = f (l.met c) := by
  by_cases hb : l.busyIn c = true
  · obtain ⟨hbefore, hcame, hcyc, -⟩ := TLog.replay_sameTurn { l with before := f l.before }
    have hbusy : (TLog.replay { l with before := f l.before }).busyIn c = true := by
      rw [TLog.busyIn, hcyc, hcame]
      exact hb
    rw [TLog.change, if_pos hb, TLog.met, if_pos hbusy, TLog.met, if_pos hb, hbefore]
  · rw [Bool.not_eq_true] at hb
    rw [TLog.change_quiet hb, TLog.met_quiet hb]
    exact TLog.met_quiet (l := { l with toTStore := f l.toTStore }) hb

/-- Settles O21: a group is latched as it stands, and a record is taken from what the log held before its cycle's events. -/
theorem readsLatchAndPop : Obligations.ReadsLatchAndPop := by
  refine ⟨fun l s ha hr hw => ?_, fun l r t s ha hr he hrec => ?_, fun l s ha hr he hrec => ?_, fun s => ⟨fun l ha => ?_, fun c ha hr => ?_,
    fun g ha => ?_, fun ha => ?_⟩⟩
  · refine answers_of (readLatch l) rfl ha ?_
    rw [readLatch_group hr hw]
    exact ⟨rfl, Map.get_set_same _ _ _, rfl⟩
  · refine answers_of (readLatch (.troubleRec l)) rfl ha ?_
    rw [readLatch_trouble hr]
    have hp : popRecord l s.mod = answer (r.seq.toNat * 65536 + r.sev % 8 * 8192 + 4096 + r.code % 512)
        (latchRest (.troubleRec l) [r.time % 2 ^ 32, r.time / 2 ^ 32, r.detail.toNat]
          { s.mod with logs := s.mod.logs.set l ((s.mod.logs.get l).change s.mod.cyc (fun k => { k with recs := t })) }) := by
      simp only [popRecord, skipSpoilt_clean he, hrec]
    rw [hp]
    refine ⟨?_, rfl, Map.get_set_same _ _ _, rfl⟩
    have hlog : (answer (r.seq.toNat * 65536 + r.sev % 8 * 8192 + 4096 + r.code % 512)
        (latchRest (.troubleRec l) [r.time % 2 ^ 32, r.time / 2 ^ 32, r.detail.toNat]
          { s.mod with logs := s.mod.logs.set l ((s.mod.logs.get l).change s.mod.cyc (fun k => { k with recs := t })) })).logs.get l =
        (s.mod.logs.get l).change s.mod.cyc (fun k => { k with recs := t }) := Map.get_set_same _ _ _
    rw [hlog]
    exact congrArg TStore.recs (TLog.met_change _ s.mod.cyc _)
  · refine answers_of (readLatch (.troubleRec l)) rfl ha ?_
    rw [readLatch_trouble hr]
    have hp : popRecord l s.mod = answer 0 (latchRest (.troubleRec l) [0, 0, 0] s.mod) := by
      simp only [popRecord, skipSpoilt_clean he, hrec]
    rw [hp]
    exact ⟨rfl, rfl⟩
  · rfl
  · have hw : arrives (.captureStampPop c) s.mod = true := ha
    exact (cmd_arrives _ (readLatch (.capSec c)) s ha).trans
      ((congrArg (fun m => Host.Outcome.next { s with mod := m }) (reach_reachable _ _ _ _ hr)).trans
        (cmd_arrives _ (popCapture c) s hw).symm)
  · rfl
  · have hw : arrives .timeNowRead s.mod = true := ha
    have hr : reachable s.mod (latchOff .nowSec) = true := reachable_yard (by decide) (by decide)
    exact (cmd_arrives _ (readLatch .nowSec) s ha).trans
      ((congrArg (fun m => Host.Outcome.next { s with mod := m }) (reach_reachable _ _ _ _ hr)).trans
        (cmd_arrives _ readNow s hw).symm)

end Sys2Proof.Machine
end

section
/-! Proofs about the time unit, its reference and servo, its pulse outputs and capture inputs, and the Daxdy time messages (09 R303 to
R319; 12 R402). -/

namespace Sys2Proof.Machine

-- One theorem at a time: each thread that elaborates another reserves a stack, and their sum has a limit.
set_option Elab.async false

/-- A command whose effect leaves the addressed buffers as they were completes with whatever holds of it. -/
theorem answers_of_all {c : Instr} {s : State} {P : Mod → Prop} (f : Mod × List Host.Cell → Mod × List Host.Cell)
    (he : exec c s = cmdAll c f s) (ha : arrives c s.mod = true) {m : Mod} (hf : f (s.mod, s.mem) = (m, s.mem)) (h : P m) :
    Answers c s P :=
  ⟨m, by rw [he, cmdAll_arrives c f s ha, hf], h⟩

/-! ### Set, step and frequency -/

/-- With nothing in progress or waiting, the unit begins what it accepts at once. -/
theorem acceptTimeOp_idle {x : Mod} {b : List Host.Cell} (hop : x.tim.op = none) (hq : x.tim.queue = []) (r : TimeReq) :
    acceptTimeOp r (x, b) = beginTimeOp r (x, b) := by
  have hsame : setTim (fun k => { k with op := none, queue := [] }) x = x := by
    have htim : { x.tim with op := none, queue := [] } = x.tim := by rw [← hop, ← hq]
    rw [setTim, htim]
  simp only [acceptTimeOp, joinReqs, setTim, hop, hq, Option.toList_none, List.append_nil, List.any_nil, Bool.false_and, Bool.false_eq_true,
    if_false, List.nil_append]
  show nextTimeOp 1 _ = _
  rw [nextTimeOp]
  exact congrArg (fun k => beginTimeOp r (k, b)) hsame

theorem askTimeOp_idle {x : Mod} {b : List Host.Cell} (hop : x.tim.op = none) (hq : x.tim.queue = []) {r : TimeReq}
    (hs : r.servo = true → x.tim.servo = 1 ∨ x.tim.servo = 2) : askTimeOp r (x, b) = beginTimeOp r (x, b) := by
  rw [askTimeOp, if_neg, acceptTimeOp_idle hop hq]
  intro h
  simp only [Bool.and_eq_true, decide_eq_true_eq] at h
  obtain ⟨⟨h0, h1⟩, h2⟩ := h
  exact (hs h0).elim h1 h2

section Begin
variable {x : Mod} {b : List Host.Cell} {r : TimeReq}

/-- An owned and valid request within the threshold stands as the operation in progress. -/
theorem beginTimeOp_accepts (ho : r.servo = true ∨ r.force = true ∨ x.tim.source = 0) (hv : timeInvalid x r.op = false)
    (hj : jumpRefused x r = none) : beginTimeOp r (x, b) = (setTim (fun t => { t with op := some r }) x, b) := by
  have hown : (!r.servo && !r.force && decide (x.tim.source ≠ 0)) = false := by
    rcases ho with h | h | h <;> simp [h]
  simp only [beginTimeOp, hown, hv, hj, Bool.false_eq_true, if_false]

theorem beginTimeOp_notOwned (ho : ¬ (r.servo = true ∨ r.force = true ∨ x.tim.source = 0)) :
    beginTimeOp r (x, b) = endTimeOp r 3 (x, b) := by
  have hown : (!r.servo && !r.force && decide (x.tim.source ≠ 0)) = true := by simpa [not_or, and_assoc] using ho
  simp only [beginTimeOp, hown, if_true]

theorem beginTimeOp_invalid (ho : r.servo = true ∨ r.force = true ∨ x.tim.source = 0) (hv : timeInvalid x r.op = true) :
    beginTimeOp r (x, b) = endTimeOp r 2 (x, b) := by
  have hown : (!r.servo && !r.force && decide (x.tim.source ≠ 0)) = false := by
    rcases ho with h | h | h <;> simp [h]
  simp only [beginTimeOp, hown, hv, Bool.false_eq_true, if_false, if_true]

theorem beginTimeOp_refuses (ho : r.servo = true ∨ r.force = true ∨ x.tim.source = 0) (hv : timeInvalid x r.op = false) {v : BitVec 64}
    (hj : jumpRefused x r = some v) : beginTimeOp r (x, b) = endTimeOp r 1 (refuseJump v x, b) := by
  have hown : (!r.servo && !r.force && decide (x.tim.source ≠ 0)) = false := by
    rcases ho with h | h | h <;> simp [h]
  simp only [beginTimeOp, hown, hv, hj, Bool.false_eq_true, if_false]

theorem endTimeOp_silent (hm : r.mbx = none) (n : Nat) : endTimeOp r n (x, b) = (setTim (fun t => { t with result := n }) x, b) := by
  simp only [endTimeOp, hm]

end Begin

/-- The request a command of the host or of the servo makes: no mailbox waits for it. -/
def unitReq (o : TimeOp) (servo force : Bool) (x : Mod) : TimeReq := { op := o, servo := servo, force := force, at_ := x.now }

/-- The command that asks the time unit for an operation. -/
def unitCmd (o : TimeOp) (servo force : Bool) : Instr :=
  match o with
  | .set sec ns => .timeUnitSet servo force sec ns
  | .step off => .timeUnitStep servo force off
  | .freq f => .timeUnitFrequency servo force f

/-- What a command that asks the time unit does, with nothing in progress or waiting. -/
theorem unitCmd_answers {o : TimeOp} {servo force : Bool} {s : State} {P : Mod → Prop} (ha : arrives (unitCmd o servo force) s.mod = true)
    (hop : s.mod.tim.op = none) (hq : s.mod.tim.queue = []) (hs : servo = true → s.mod.tim.servo = 1 ∨ s.mod.tim.servo = 2) {m : Mod}
    (hb : beginTimeOp (unitReq o servo force s.mod) (s.mod, s.mem) = (m, s.mem)) (h : P m) : Answers (unitCmd o servo force) s P :=
  answers_of_all (fun y => askTimeOp (unitReq o servo force y.1) y) (by cases o <;> rfl) ha ((askTimeOp_idle hop hq hs).trans hb) h

/-- An event raised after a change of the unit: the module differs in the unit and in what raising may touch. -/
theorem raise_setTim (l : Level) (e : Evt) (f : Tim → Tim) (x : Mod) : (raise l e (setTim f x)).tim = f x.tim ∧
    raise l e (setTim f x) = { raised x (raise l e (setTim f x)) with tim := (raise l e (setTim f x)).tim } := by
  have hf := raise_raised l e (setTim f x)
  have htim : (raise l e (setTim f x)).tim = f x.tim := congrArg Mod.tim hf
  refine ⟨htim, ?_⟩
  rw [htim]
  exact hf

/-- A refused jump: TIM_REFUSED holds it and JUMP_REFUSED is set. -/
theorem refuseJump_effect (v : BitVec 64) (x : Mod) : (refuseJump v x).tim = { x.tim with refused := v } ∧
    evtSet .yard evJumpRefused (refuseJump v x) = true ∧
    refuseJump v x = { raised x (refuseJump v x) with tim := (refuseJump v x).tim } :=
  have h := raise_setTim .yard evJumpRefused (fun t => { t with refused := v }) x
  ⟨h.1, raise_evtSet _ _ _ (by decide), h.2⟩

/-- A request beyond the threshold ends with RESULT 1. -/
theorem refusedJump_effect {r : TimeReq} (hm : r.mbx = none) (v : BitVec 64) (x : Mod) (b : List Host.Cell) :
    ∃ m, endTimeOp r 1 (refuseJump v x, b) = (m, b) ∧ m.tim = { x.tim with result := 1, refused := v } ∧
      evtSet .yard evJumpRefused m = true ∧ m = { raised x m with tim := m.tim } := by
  obtain ⟨htim, hevt, hf⟩ := refuseJump_effect v x
  refine ⟨_, endTimeOp_silent hm 1, ?_, hevt, ?_⟩
  · rw [setTim, htim]
  · exact congrArg (setTim fun t => { t with result := 1 }) hf

/-! ### An operation takes effect -/

/-- `y` differs from `x` in what has no part in the unit's reading. -/
def sameUnit (x y : Mod) : Prop := y.tim.base = x.tim.base ∧ y.tim.at_ = x.tim.at_ ∧ y.tim.isSet = x.tim.isSet ∧
  y.tim.freq = x.tim.freq ∧ y.tim.op = x.tim.op ∧ y.tim.queue = x.tim.queue ∧ y.now = x.now

theorem sameUnit.refl (x : Mod) : sameUnit x x := ⟨rfl, rfl, rfl, rfl, rfl, rfl, rfl⟩

theorem sameUnit.trans {x y z : Mod} (h : sameUnit x y) (k : sameUnit y z) : sameUnit x z := by
  obtain ⟨h1, h2, h3, h4, h5, h6, h7⟩ := h
  obtain ⟨k1, k2, k3, k4, k5, k6, k7⟩ := k
  exact ⟨k1.trans h1, k2.trans h2, k3.trans h3, k4.trans h4, k5.trans h5, k6.trans h6, k7.trans h7⟩

theorem drivePulse_sameUnit (o : Nat) (x : Mod) : sameUnit x (drivePulse o x) := by
  unfold drivePulse
  split
  · exact sameUnit.refl x
  · exact sameUnit.refl x

theorem movePulse_sameUnit (u v : Int) (x : Mod) (o : Nat) : sameUnit x (movePulse u v x o) := by
  unfold movePulse
  split
  · split
    · exact (drivePulse_sameUnit o x).trans ⟨rfl, rfl, rfl, rfl, rfl, rfl, rfl⟩
    · split <;> exact ⟨rfl, rfl, rfl, rfl, rfl, rfl, rfl⟩
  · exact sameUnit.refl x

theorem enterServo_sameUnit (n : Nat) (x : Mod) : sameUnit x (enterServo n x) := by
  unfold enterServo openLock markLock
  split <;> split <;> exact ⟨rfl, rfl, rfl, rfl, rfl, rfl, rfl⟩

theorem servoSteers_sameUnit (x : Mod) : sameUnit x (servoSteers x) :=
  sameUnit.trans (y := (drawNat x).2) ⟨rfl, rfl, rfl, rfl, rfl, rfl, rfl⟩ (enterServo_sameUnit _ _)

/-- The unit reads the new time from now on; the outputs that follow it leave it so. -/
theorem moveUnit_unit (u : Int) (x : Mod) : sameUnit (setTim (fun t => { t with base := todOf u, at_ := x.now, isSet := true }) x) (moveUnit u x) :=
  List.foldlRecOn (motive := sameUnit (setTim (fun t => { t with base := todOf u, at_ := x.now, isSet := true }) x)) _ _ (sameUnit.refl _)
    fun a h o _ => h.trans (movePulse_sameUnit _ _ a o)

theorem moveFreq_freq (f : BitVec 32) (x : Mod) : (moveFreq f x).tim.freq = f ∧ (moveFreq f x).tim.op = x.tim.op ∧
    (moveFreq f x).tim.queue = x.tim.queue := by
  unfold moveFreq openLock markLock
  split <;> split <;> exact ⟨rfl, rfl, rfl⟩

/-- What an operation that changed the unit does to the servo. -/
def servoAfter (r : TimeReq) (x : Mod) : Mod :=
  if r.servo then (if x.tim.servo = 1 then servoSteers x else x)
  else if r.force && x.tim.source ≠ 0 && (x.tim.servo = 1 || x.tim.servo = 2 || (x.tim.servo = 4 && r.op.isStep)) then enterServo 1 x
  else x

theorem servoAfter_sameUnit (r : TimeReq) (x : Mod) : sameUnit x (servoAfter r x) := by
  unfold servoAfter
  split
  · split
    · exact servoSteers_sameUnit x
    · exact sameUnit.refl x
  · split
    · exact enterServo_sameUnit 1 x
    · exact sameUnit.refl x

/-- What the unit holds of an operation that has taken effect. -/
def showsOp (o : TimeOp) (x m : Mod) : Prop :=
  (∀ sec ns, o = .set sec ns → m.tim.base = todOf ((sec.toNat * 1000000000 + ns.toNat : Nat) * 65536) ∧ m.tim.at_ = x.now ∧
    m.tim.isSet = true) ∧
  (∀ off, o = .step off → m.tim.base = todOf (unitsAt x x.now + off.toInt) ∧ m.tim.at_ = x.now ∧ m.tim.isSet = true) ∧
  (∀ f, o = .freq f → m.tim.freq = f)

theorem landTimeOp_set {r : TimeReq} {sec : BitVec 48} {ns : BitVec 30} (h : r.op = .set sec ns) (x : Mod) :
    landTimeOp r x = servoAfter r (moveUnit ((sec.toNat * 1000000000 + ns.toNat : Nat) * 65536) x) := by
  simp only [landTimeOp, h, servoAfter]

theorem landTimeOp_step {r : TimeReq} {off : BitVec 64} (h : r.op = .step off) (x : Mod) :
    landTimeOp r x = servoAfter r (moveUnit (unitsAt x x.now + off.toInt) x) := by
  simp only [landTimeOp, h, servoAfter]

theorem landTimeOp_freq {r : TimeReq} {f : BitVec 32} (h : r.op = .freq f) (x : Mod) :
    landTimeOp r x = servoAfter r (moveFreq f x) := by
  simp only [landTimeOp, h, servoAfter]

/-- A move of the unit shows after what it does to the servo. -/
theorem movedUnit_reads (r : TimeReq) (u : Int) (x : Mod) :
    ((servoAfter r (moveUnit u x)).tim.base = todOf u ∧ (servoAfter r (moveUnit u x)).tim.at_ = x.now ∧
      (servoAfter r (moveUnit u x)).tim.isSet = true) ∧
    (servoAfter r (moveUnit u x)).tim.op = x.tim.op ∧ (servoAfter r (moveUnit u x)).tim.queue = x.tim.queue := by
  obtain ⟨hbase, hat, hset, -, ho, hq, -⟩ := (moveUnit_unit u x).trans (servoAfter_sameUnit r _)
  exact ⟨⟨hbase, hat, hset⟩, ho, hq⟩

theorem landTimeOp_shows (r : TimeReq) (x : Mod) : showsOp r.op x (landTimeOp r x) ∧ (landTimeOp r x).tim.op = x.tim.op ∧
    (landTimeOp r x).tim.queue = x.tim.queue := by
  cases hop : r.op with
  | set sec ns =>
    rw [landTimeOp_set hop]
    obtain ⟨hread, hkept⟩ := movedUnit_reads r ((sec.toNat * 1000000000 + ns.toNat : Nat) * 65536) x
    refine ⟨⟨fun sec' ns' h => ?_, fun _ h => (nomatch h), fun _ h => (nomatch h)⟩, hkept⟩
    cases h
    exact hread
  | step off =>
    rw [landTimeOp_step hop]
    obtain ⟨hread, hkept⟩ := movedUnit_reads r (unitsAt x x.now + off.toInt) x
    exact ⟨⟨fun _ _ h => (nomatch h), fun _ h => by injection h with h; subst h; exact hread, fun _ h => (nomatch h)⟩, hkept⟩
  | freq f =>
    rw [landTimeOp_freq hop]
    obtain ⟨hfreq, ho, hq⟩ := moveFreq_freq f x
    obtain ⟨-, -, -, kf, ko, kq, -⟩ := servoAfter_sameUnit r (moveFreq f x)
    exact ⟨⟨fun _ _ h => (nomatch h), fun _ h => (nomatch h), fun _ h => by injection h with h; exact (kf.trans hfreq).trans h⟩,
      ko.trans ho, kq.trans hq⟩

/-- An operation that is valid when its time comes ends with RESULT 0, its effect in the unit. -/
theorem timeOpLands_shows {x : Mod} {b : List Host.Cell} {r : TimeReq} (hop : x.tim.op = some r) (hq : x.tim.queue = [])
    (hv : timeInvalid x r.op = false) :
    (timeOpLands (x, b)).1.tim.op = none ∧ (timeOpLands (x, b)).1.tim.result = 0 ∧ showsOp r.op x (timeOpLands (x, b)).1 := by
  have hv' : timeInvalid (setTim (fun t => { t with op := none }) x) r.op = false := by
    rw [← hv]
    cases r.op <;> rfl
  obtain ⟨hshow, hnone, hempty⟩ := landTimeOp_shows r (setTim (fun t => { t with op := none }) x)
  generalize hm : landTimeOp r (setTim (fun t => { t with op := none }) x) = m at hshow hnone hempty
  have hend : (endTimeOp r 0 (m, b)).1.tim = { m.tim with result := 0 } := by
    unfold endTimeOp
    cases r.mbx with
    | none => rfl
    | some n => simp only [complete_keeps]; rfl
  have hland : timeOpLands (x, b) = endTimeOp r 0 (m, b) := by
    simp only [timeOpLands, hop, hv', Bool.false_eq_true, if_false, hm, hend, hempty]
    show nextTimeOp x.tim.queue.length _ = _
    rw [hq]
    rfl
  rw [hland]
  refine ⟨by rw [hend]; exact hnone, by rw [hend], ?_⟩
  unfold showsOp at hshow ⊢
  rw [hend]
  exact hshow

/-- Settles O22: with nothing in progress the unit begins what it is asked at once, in the order not owned, invalid, refused. -/
theorem timeUnitChanges : Obligations.TimeUnitChanges := by
  refine ⟨fun servo force sec ns s ha hop hq hs ho hns => ?_, fun servo force off s ha hop hq hs ho hin hj => ?_,
    fun servo force freq s ha hop hq hs ho hlo hhi hj => ?_, fun o servo force s => ?_, fun r s ha hop hq hv => ?_⟩
  · exact unitCmd_answers (o := .set sec ns) ha hop hq hs
      (beginTimeOp_accepts ho (decide_eq_false (Nat.not_le.mpr hns)) rfl) rfl
  · have hjump : jumpRefused s.mod (unitReq (.step off) servo force s.mod) = none := by
      simp only [jumpRefused, unitReq]
      rcases hj with h | h | h
      · simp [h]
      · simp [h]
      · simp [Nat.not_lt.mpr h]
    exact unitCmd_answers (o := .step off) ha hop hq hs (beginTimeOp_accepts ho (by simp only [timeInvalid, unitReq, hin, Bool.not_true]) hjump) rfl
  · have hjump : jumpRefused s.mod (unitReq (.freq freq) servo force s.mod) = none := by
      simp only [jumpRefused, unitReq]
      rcases hj with h | h
      · simp [h]
      · simp [Nat.not_lt.mpr h]
    exact unitCmd_answers (o := .freq freq) ha hop hq hs
      (beginTimeOp_accepts ho (by simp [timeInvalid, unitReq, freqOk, hlo, hhi]) hjump) rfl
  · intro c ha hop hq hs owned
    have hc : c = unitCmd o servo force := by cases o <;> rfl
    clear_value c
    subst hc
    refine ⟨fun hn => ?_, fun ho hv => ?_, fun off ho hoff hv hf hset hj => ?_, fun f ho hoff hv hf hj => ?_⟩
    · exact unitCmd_answers ha hop hq hs ((beginTimeOp_notOwned hn).trans (endTimeOp_silent rfl 3)) rfl
    · exact unitCmd_answers ha hop hq hs ((beginTimeOp_invalid ho hv).trans (endTimeOp_silent rfl 2)) rfl
    · subst hoff
      have hjump : jumpRefused s.mod (unitReq (.step off) servo force s.mod) = some off := by
        simp [jumpRefused, unitReq, hf, hset, hj]
      obtain ⟨m, hm, hP⟩ := refusedJump_effect (r := unitReq (.step off) servo force s.mod) rfl off s.mod s.mem
      exact unitCmd_answers ha hop hq hs ((beginTimeOp_refuses ho hv hjump).trans hm) hP
    · subst hoff
      have hjump : jumpRefused s.mod (unitReq (.freq f) servo force s.mod) = some (BitVec.ofInt 64 (f.toInt - s.mod.tim.freq.toInt)) := by
        simp [jumpRefused, unitReq, hf, hj]
      obtain ⟨m, hm, hP⟩ := refusedJump_effect (r := unitReq (.freq f) servo force s.mod) rfl
        (BitVec.ofInt 64 (f.toInt - s.mod.tim.freq.toInt)) s.mod s.mem
      exact unitCmd_answers ha hop hq hs ((beginTimeOp_refuses ho hv hjump).trans hm) hP
  · exact answersBuf_of timeOpLands rfl ha (timeOpLands_shows hop hq hv)

/-! ### Reference and servo -/

theorem raise_setTim_evtSet (l : Level) {e : Evt} (h : e.blk ≠ 0) (f : Tim → Tim) (x : Mod) : evtSet l e (raise l e (setTim f x)) = true :=
  raise_evtSet _ _ _ (by simpa using h)

/-- Entering a state of the servo changes the unit alone. -/
theorem enterServo_effect (n : Nat) (x : Mod) : ∃ f : Tim → Tim, enterServo n x = setTim f x ∧ (f x.tim).servo = n := by
  refine ⟨fun _ => (enterServo n x).tim, ?_⟩
  unfold enterServo openLock markLock
  split <;> split <;> exact ⟨rfl, rfl⟩

theorem moveFreq_effect (v : BitVec 32) (x : Mod) : ∃ f : Tim → Tim, moveFreq v x = setTim f x ∧ (f x.tim).servo = x.tim.servo ∧
    (f x.tim).freq = v := by
  refine ⟨fun _ => (moveFreq v x).tim, ?_⟩
  unfold moveFreq openLock markLock
  split <;> split <;> exact ⟨rfl, rfl, rfl⟩

/-- Holdover is entered at the mean frequency of the last lock. -/
theorem holdNow_effect {x : Mod} (hsrc : x.tim.source ≠ 0) (hserv : x.tim.servo = 1 ∨ x.tim.servo = 2) :
    (holdNow x).tim.servo = 3 ∧ (holdNow x).tim.freq = holdFreq x ∧ evtSet .yard evHoldover (holdNow x) = true ∧
      holdNow x = { raised x (holdNow x) with tim := (holdNow x).tim } := by
  obtain ⟨f, hf, hf3⟩ := enterServo_effect 3 x
  obtain ⟨g, hg, hg3, hgf⟩ := moveFreq_effect (holdFreq x) (setTim f x)
  have h : holdNow x = raise .yard evHoldover (setTim (g ∘ f) x) := by
    have hdue : (decide (x.tim.source ≠ 0) && (decide (x.tim.servo = 1) || decide (x.tim.servo = 2))) = true := by
      simpa [hsrc] using hserv
    rw [holdNow, due, if_pos hdue, hf, hg]
    rfl
  obtain ⟨htim, hframe⟩ := raise_setTim .yard evHoldover (g ∘ f) x
  rw [h]
  exact ⟨by rw [htim]; exact hg3.trans hf3, by rw [htim]; exact hgf, raise_evtSet _ _ _ (by decide), hframe⟩

theorem servoSteers_effect (x : Mod) : ((servoSteers x).tim.servo = 1 ∨ (servoSteers x).tim.servo = 2) ∧
    servoSteers x = { x with free := (servoSteers x).free, tim := (servoSteers x).tim } := by
  obtain ⟨f, hf, hf1⟩ := enterServo_effect (1 + (drawNat x).1 % 2) (drawNat x).2
  have h : servoSteers x = setTim f (drawNat x).2 := hf
  rw [h]
  refine ⟨?_, rfl⟩
  have hs : (setTim f (drawNat x).2).tim.servo = 1 + (drawNat x).1 % 2 := hf1
  omega

/-- The servo stays in holdover with its parent's offset refused. -/
theorem refuseHeld_effect (o : BitVec 64) (x : Mod) : (refuseJump o (enterServo 4 x)).tim.servo = 4 ∧
    (refuseJump o (enterServo 4 x)).tim.refused = o ∧ evtSet .yard evJumpRefused (refuseJump o (enterServo 4 x)) = true ∧
    refuseJump o (enterServo 4 x) = { raised x (refuseJump o (enterServo 4 x)) with tim := (refuseJump o (enterServo 4 x)).tim } := by
  obtain ⟨f, hf, hf4⟩ := enterServo_effect 4 x
  obtain ⟨htim, hevt, hframe⟩ := refuseJump_effect o (setTim f x)
  rw [hf]
  exact ⟨by rw [htim]; exact hf4, by rw [htim], hevt, hframe⟩

section Held
variable {o : BitVec 64} {x : Mod}

theorem ptpHeld_false (h : x.tim.source ≠ 1 ∨ stewardLess x = false) : ptpHeld x = false := by
  rcases h with h | h <;> simp [ptpHeld, h]

/-- A servo in holdover that no steward's absence keeps there is judged by its parent's median. -/
theorem holdoverExits_judges (hs : x.tim.servo = 3 ∨ x.tim.servo = 4) (hp : ptpHeld x = false) :
    holdoverExits o x = if o.toInt.natAbs ≤ x.tim.jump * 65536 then servoSteers x
      else if x.tim.servo = 3 then refuseJump o (enterServo 4 x) else x := by
  rw [holdoverExits, if_neg]
  rcases hs with h | h <;> simp [h, hp]

end Held

/-- Settles O23: the median decides the exit; the mean is taken before the servo's lock is closed. -/
theorem servoAndReference : Obligations.ServoAndReference := by
  refine ⟨fun s ha hd => ?_, fun s ha hl => ?_, fun s ha hsrc hserv hpps => ?_, fun o s ha hserv hst => ⟨fun hj => ?_, fun h3 hj => ?_,
    fun h4 hj => ?_⟩⟩
  · refine answers_of refLocks rfl ha ?_
    rw [refLocks, due, if_pos hd]
    rfl
  · refine answers_of refLost rfl ha ?_
    rw [refLost, due, if_pos hl]
    obtain ⟨htim, hframe⟩ := raise_setTim .yard evRefLoss (fun t => { t with refLock := false }) s.mod
    exact ⟨htim, raise_evtSet _ _ _ (by decide), hframe⟩
  · refine answers_of holdoverEnters rfl ha ?_
    have hdue : (decide (s.mod.tim.source ≠ 2) || ppsSilent s.mod) = true := by
      by_cases h2 : s.mod.tim.source = 2
      · have hsil : ppsSilent s.mod = true := by simpa [ppsSilent, Option.all_eq_true] using hpps h2
        rw [hsil, Bool.or_true]
      · simp [h2]
    rw [holdoverEnters, due, if_pos hdue]
    exact holdNow_effect hsrc hserv
  · refine answers_of (holdoverExits o) rfl ha ?_
    rw [holdoverExits_judges hserv (ptpHeld_false hst), if_pos hj]
    exact servoSteers_effect s.mod
  · refine answers_of (holdoverExits o) rfl ha ?_
    rw [holdoverExits_judges hserv (ptpHeld_false hst), if_neg (Nat.not_le.mpr hj), if_pos h3]
    exact refuseHeld_effect o s.mod
  · refine answers_of (holdoverExits o) rfl ha ?_
    rw [holdoverExits_judges hserv (ptpHeld_false hst), if_neg (Nat.not_le.mpr hj), if_neg (by omega)]

/-! ### Pulse outputs, PPS out, capture inputs and return queues -/

section Arm
variable {o : Nat} {v : Word} {x : Mod}

/-- An output as a write of its configuration leaves it before it is armed. -/
def Pulse.rearmed (v : Word) (p : Pulse) : Pulse := { p with cfg := v &&& 0x60FFFFFF#32, armed := false, invalid := false, next := none }

/-- A write that arms an output of a width: by its period, its start and the time. -/
theorem armPulse_armed (hv : v.getLsbD 31 = true) (hw : ((x.tim.outs.get o).rearmed v).width ≠ 0) : armPulse o v x =
    let p := (x.tim.outs.get o).rearmed v
    if p.periodic && p.period.toNat % 2 ^ 30 ≤ p.width * 16 then setPulse o (fun _ => { p with invalid := true }) x
    else if !p.periodic && p.start < unitsAt x x.now then raise .yard evPulseMissed (setPulse o (fun _ => p) x)
    else setPulse o (fun _ => { p with armed := true, next := some (if p.periodic then p.fromTime (unitsAt x x.now) else p.start) }) x := by
  rw [armPulse, if_neg]
  · rfl
  · have hb : bitOf v.toNat 31 = true := (bitOf_getLsbD v 31).trans hv
    simp only [hb, Bool.not_true, Bool.false_or, decide_eq_true_eq]
    exact hw

end Arm

/-- A pulse's edge fires while domain 438 runs, and the output waits for its next one. -/
theorem firePulse_fires {o : Nat} {x : Mod} {t : Int} (hn : (x.tim.outs.get o).next = some t) (ht : t ≤ unitsAt x x.now)
    (hd : domRuns x 438 = true) : firePulse o x =
      afterPulse o t (emit (.pulse o (!bitOf (x.tim.outs.get o).cfg.toNat 29))
        (setPulse o (fun p => { p with high := some (x.now + p.width * 16000) }) x)) := by
  simp only [firePulse, hn, ht, if_true, drivePulse, hd, Bool.not_true, Bool.false_eq_true, if_false]

theorem captureEdge_taken {c : Nat} {r : Bool} {x : Mod} (hd : domRuns x 439 = true) (ht : (x.tim.ins.get c).takes r = true)
    (hn : ∀ t ∈ (x.tim.ins.get c).lastAt, t + 50000 ≤ x.now) : captureEdge c r x =
      let w := stampWords (unitsAt x x.now)
      if (x.tim.ins.get c).fifo.length < 4 then
        setCapIn c (fun k => { k with lastAt := some x.now, fifo := k.fifo ++ [(w.2, w.1, 0, r)] }) x
      else setCapIn c (fun k => { k with lastAt := some x.now, ovf := true, lostAt := some x.cyc }) x := by
  cases hl : (x.tim.ins.get c).lastAt with
  | none => simp [captureEdge, hl, hd, ht]
  | some t =>
    have hfar : ¬ x.now < t + 50000 := Nat.not_lt.mpr (hn t hl)
    simp [captureEdge, hl, hd, ht, hfar]

section TimeFacts
variable {x : Mod}

theorem setPulse_get (o : Nat) (f : Pulse → Pulse) (x : Mod) : (setPulse o f x).tim.outs.get o = f (x.tim.outs.get o) :=
  Map.get_upd_same _ _ _

theorem setCapIn_get (c : Nat) (f : CapIn → CapIn) (x : Mod) : (setCapIn c f x).tim.ins.get c = f (x.tim.ins.get c) :=
  Map.get_upd_same _ _ _

theorem latchedAnswer_effect (v : Nat) (l : LatchId) (ws : List Nat) (x : Mod) (c : Map CtrId Counter) :
    (answer v (latchRest l ws { x with ctrs := c })).rdata = BitVec.ofNat 32 v ∧
    (answer v (latchRest l ws { x with ctrs := c })).latch.get l = ws.map (BitVec.ofNat 32) ∧
    (answer v (latchRest l ws { x with ctrs := c })).ctrs = c ∧
    answer v (latchRest l ws { x with ctrs := c }) = { x with
      rdata := (answer v (latchRest l ws { x with ctrs := c })).rdata
      latch := (answer v (latchRest l ws { x with ctrs := c })).latch
      ctrs := (answer v (latchRest l ws { x with ctrs := c })).ctrs } :=
  ⟨rfl, Map.get_set_same _ _ _, rfl, rfl⟩

/-- The counters after a read of the time: a retry of the island's sampling counts. -/
def timeReadCtrs (x : Mod) : Map CtrId Counter := if x.now / 4000 = (x.now - 1000) / 4000 then x.ctrs else (tally (.isl .yard 3) x).ctrs

theorem readNow_eq (x : Mod) : readNow x = answer ((todNow x).ns.toNat + (todNow x).frac.toNat / 16384 * 2 ^ 30)
    (latchRest .nowSec [(todNow x).sec.toNat % 2 ^ 32, (todNow x).sec.toNat / 2 ^ 32 + (todNow x).frac.toNat * 65536]
      { x with ctrs := timeReadCtrs x }) := by
  have hx : (if x.now / 4000 = (x.now - 1000) / 4000 then x else tally (.isl .yard 3) x) = { x with ctrs := timeReadCtrs x } := by
    unfold timeReadCtrs
    split <;> rfl
  rw [readNow, hx]

end TimeFacts

/-- Settles O24: each read takes the head of its queue; each edge is judged at the time the unit reads. -/
theorem pulsesAndCaptures : Obligations.PulsesAndCaptures := by
  refine ⟨fun o v s ha hv => ?_, fun o t s ha hn ht hd => ?_, fun s ha hd hset hns hout => ?_, fun c r s ha hd ht hn => ?_,
    fun c e t s ha hf => ?_, fun c v s ha hv hl => ?_, fun g e t s ha hr hf => ?_, fun g v s ha hr hv hl => ?_, fun s ha => ?_⟩
  · intro p0 hw
    have harm := armPulse_armed (o := o) (x := s.mod) hv hw
    refine ⟨fun hp hs => ?_, fun hp hs => ?_, fun hp hs => ?_, fun hp hs => ?_⟩ <;> refine answers_of (armPulse o v) rfl ha ?_ <;> rw [harm]
    · have h1 : ((s.mod.tim.outs.get o).rearmed v).periodic = false := hp
      have h2 : ¬ ((s.mod.tim.outs.get o).rearmed v).start < unitsAt s.mod s.mod.now := Int.not_lt.mpr hs
      simp only [h1, h2, Bool.false_and, decide_false, Bool.and_false, Bool.false_eq_true, if_false]
      rfl
    · have h1 : ((s.mod.tim.outs.get o).rearmed v).periodic = true := hp
      have h2 : ¬ ((s.mod.tim.outs.get o).rearmed v).period.toNat % 2 ^ 30 ≤ ((s.mod.tim.outs.get o).rearmed v).width * 16 := Nat.not_le.mpr hs
      simp only [h1, h2, Bool.not_true, Bool.false_and, decide_false, Bool.and_false, Bool.false_eq_true, if_false, if_true]
      rfl
    · have h1 : ((s.mod.tim.outs.get o).rearmed v).periodic = false := hp
      have h2 : ((s.mod.tim.outs.get o).rearmed v).start < unitsAt s.mod s.mod.now := hs
      simp only [h1, h2, Bool.not_false, Bool.false_and, decide_true, Bool.and_self, Bool.false_eq_true, if_false, if_true]
      refine ⟨?_, raise_evtSet _ _ _ (by decide)⟩
      simp only [raise_keeps, setPulse_get]
      rfl
    · have h1 : ((s.mod.tim.outs.get o).rearmed v).periodic = true := hp
      have h2 : ((s.mod.tim.outs.get o).rearmed v).period.toNat % 2 ^ 30 ≤ ((s.mod.tim.outs.get o).rearmed v).width * 16 := hs
      simp only [h1, h2, decide_true, Bool.and_self, if_true, setPulse_get]
      exact ⟨rfl, trivial⟩
  · intro p0
    refine answers_of (firePulse o) rfl ha ?_
    rw [firePulse_fires hn ht hd, afterPulse]
    simp only [setPulse_get, emit_keeps]
    cases hp : p0.periodic with
    | false =>
      have hp' : Pulse.periodic { s.mod.tim.outs.get o with high := some (s.mod.now + (s.mod.tim.outs.get o).width * 16000) } = false := hp
      simp only [hp', Bool.false_eq_true, if_false]
      exact ⟨rfl, rfl, fun _ => ⟨trivial, trivial⟩, fun h => absurd h (by decide)⟩
    | true =>
      have hp' : Pulse.periodic { s.mod.tim.outs.get o with high := some (s.mod.now + (s.mod.tim.outs.get o).width * 16000) } = true := hp
      simp only [hp', if_true]
      exact ⟨rfl, rfl, fun h => absurd h (by decide), fun _ => ⟨rfl, rfl⟩⟩
  · refine answers_of ppsRises rfl ha ?_
    have hdue : (domRuns s.mod 438 && s.mod.tim.isSet && decide ((todNow s.mod).ns = 0) && s.mod.tim.ppsOut.isNone) = true := by
      simp [hd, hset, hns, hout]
    rw [ppsRises, due, if_pos hdue]
    exact ⟨rfl, rfl⟩
  · refine answers_of (captureEdge c r) rfl ha ?_
    rw [captureEdge_taken hd ht hn]
    dsimp only
    split
    · rw [setCapIn_get]
      exact ⟨rfl, rfl⟩
    · rw [setCapIn_get]
      exact ⟨rfl, rfl, rfl⟩
  · refine answers_of (popCapture c) rfl ha ?_
    simp only [popCapture, hf]
    exact ⟨congrArg CapIn.fifo (setCapIn_get c _ s.mod), rfl, Map.get_set_same _ _ _⟩
  · refine answers_of (capOvfClear c v) rfl ha ?_
    rw [capOvfClear, due, if_pos hv, capCfgLands, setCapIn_get]
    refine ⟨?_, rfl, rfl⟩
    simp [hv, hl]
  · refine answers_of (readLatch (.tsqData g)) rfl ha ?_
    have hpop : readLatch (.tsqData g) s.mod = popTsq g s.mod := reach_reachable _ _ _ _ hr
    simp only [hpop, popTsq, hf]
    exact ⟨congrArg Tsq.ents (Map.get_upd_same _ _ _), rfl, Map.get_set_same _ _ _⟩
  · refine answers_of (reach (levelBase (.stall g) + 0x10004) 1 (tsqOvf g v)) rfl ha ?_
    rw [reach_reachable _ _ _ _ hr, tsqOvf, due, if_pos hv]
    simp only [setTim, Map.get_upd_same]
    exact ⟨by simp [hl], trivial⟩
  · refine answers_of readNow rfl ha ?_
    rw [readNow_eq]
    obtain ⟨hdata, hlatch, hctr, hframe⟩ := latchedAnswer_effect ((todNow s.mod).ns.toNat + (todNow s.mod).frac.toNat / 16384 * 2 ^ 30) .nowSec
      [(todNow s.mod).sec.toNat % 2 ^ 32, (todNow s.mod).sec.toNat / 2 ^ 32 + (todNow s.mod).frac.toNat * 65536] s.mod (timeReadCtrs s.mod)
    refine ⟨hdata, hlatch, fun hne => ?_, fun heq => ?_, hframe⟩
    · rw [counted, hctr, timeReadCtrs, if_neg hne]
      exact tally_same _ _
    · rw [hctr, timeReadCtrs, if_pos heq]

/-! ### The Daxdy time messages -/

/-- A reply leaves the time settings as the handler set them. -/
theorem complete_ptp (n st : Nat) (body : List Byte) (y : Mod × List Host.Cell) :
    (complete n st body y).1.dax.ptpPorts = y.1.dax.ptpPorts ∧ (complete n st body y).1.dax.ptp = y.1.dax.ptp := by
  obtain ⟨x, b⟩ := y
  cases hq : (x.dax.boxes.get n).quiet with
  | true => rw [complete_quiet hq]; exact ⟨rfl, rfl⟩
  | false =>
    rw [complete_heard hq]
    simp only [signal_keeps]
    exact ⟨rfl, rfl⟩

section Posted
variable (r : TimeReq) (y : Mod × List Host.Cell)

theorem endTimeOp_posted (n : Nat) : (endTimeOp r n y).1.tim.posted = y.1.tim.posted := by
  unfold endTimeOp
  cases r.mbx with
  | none => rfl
  | some m => simp only [complete_keeps]; rfl

theorem refuseJump_posted (v : BitVec 64) (x : Mod) : (refuseJump v x).tim.posted = x.tim.posted := by
  rw [(refuseJump_effect v x).1]

theorem beginTimeOp_posted : (beginTimeOp r y).1.tim.posted = y.1.tim.posted := by
  unfold beginTimeOp
  dsimp only
  split
  · exact endTimeOp_posted r y 3
  · split
    · exact endTimeOp_posted r y 2
    · split
      · exact (endTimeOp_posted r _ 1).trans (refuseJump_posted _ _)
      · rfl

theorem nextTimeOp_posted (n : Nat) : (nextTimeOp n y).1.tim.posted = y.1.tim.posted := by
  induction n generalizing y with
  | zero => rfl
  | succ n ih =>
    rw [nextTimeOp]
    split
    · exact (ih _).trans (beginTimeOp_posted _ _)
    · rfl

theorem acceptTimeOp_posted : (acceptTimeOp r y).1.tim.posted = y.1.tim.posted := nextTimeOp_posted _ _

theorem timOpWrite_posted (v : Word) : (timOpWrite v y).1.tim.posted = y.1.tim.posted := by
  unfold timOpWrite
  dsimp only
  split
  · exact acceptTimeOp_posted _ y
  · exact acceptTimeOp_posted _ y
  · exact acceptTimeOp_posted _ y
  · rfl

end Posted

theorem enterServo_posted (n : Nat) (x : Mod) : (enterServo n x).tim.posted = x.tim.posted := by
  unfold enterServo openLock markLock
  split <;> split <;> rfl

theorem setSource_posted (v : Nat) (x : Mod) : (setSource v x).tim.posted = x.tim.posted := by
  unfold setSource
  split
  · rfl
  · exact enterServo_posted _ _

theorem armPulse_posted (o : Nat) (v : Word) (x : Mod) : (armPulse o v x).tim.posted = x.tim.posted := by
  unfold armPulse
  dsimp only
  split
  · rfl
  · split
    · rfl
    · split
      · simp only [raise_keeps]; rfl
      · rfl

/-- What lands does not ask for another landing. -/
theorem timLands_posted (off : Nat) (v : Word) (y : Mod × List Host.Cell) : (timLands off v y).1.tim.posted = y.1.tim.posted := by
  unfold timLands
  dsimp only
  split; · exact setSource_posted _ _
  split; · rfl
  split; · rfl
  split; · rfl
  split; · rfl
  split; · exact timOpWrite_posted y v
  split
  · split
    · exact armPulse_posted _ _ _
    all_goals rfl
  · split <;> rfl

theorem unitsAt_of_tim {x y : Mod} (h : y.tim = x.tim) (t : Nat) : unitsAt y t = unitsAt x t := by
  simp only [unitsAt, h]

/-- A command whose handler completes it ends with the reply, and what the handler set of the time messages stands. -/
theorem completes_ptp {c : Instr} {s : State} {n op st : Nat} {body : List Byte} {x : Mod} {P : Map Nat (Option PtpPort) → Map Nat PtpInst → Prop}
    (f : Mailbox → Mod × List Host.Cell → Mod × List Host.Cell) (he : exec c s = cmdAll c (onCommand n op f) s)
    (ha : arrives c s.mod = true) (hr : running s.mod n op)
    (hf : f (s.mod.dax.boxes.get n) (s.mod, s.mem) = complete n st body (x, s.mem)) (hq : (x.dax.boxes.get n).quiet = false) (h : P x.dax.ptpPorts x.dax.ptp) :
    AnswersBuf c s fun m _ => replied m n st ∧ P m.dax.ptpPorts m.dax.ptp := by
  refine answersBuf_onCommand f he ha hr hf ⟨complete_replied hq _ _ _, ?_⟩
  rw [(complete_ptp n st body _).1, (complete_ptp n st body _).2]
  exact h

/-- Settles O25: a valid message sets what it carries; a step stands in the unit; an argument's write lands alone. -/
theorem timeMessages : Obligations.TimeMessages := by
  refine ⟨fun n s ha hr => ?_, fun n s ha hr => ?_, fun n s ha hr => ?_, fun off v t s ha hp => ?_⟩
  · intro b q hlen h1 h2 h3 h4 h5 h6
    have hquiet := hr.2.2.2
    have hcmd : timePortCmd n b (s.mod, s.mem) = complete n stOk [] ({ s.mod with dax := { s.mod.dax with
        ptpPorts := s.mod.dax.ptpPorts.set (leAt q 0 2) (some
          { mode := bitsOf (leAt q 2 1) 1 0, oneStep := bitOf (leAt q 2 1) 2, instNo := bitsOf (leAt q 2 1) 5 4,
            logSync := (BitVec.ofNat 8 (leAt q 3 1)).toInt, inAdj := (BitVec.ofNat 32 (leAt q 4 4)).toInt,
            egAdj := (BitVec.ofNat 32 (leAt q 8 4)).toInt }) } }, s.mem) := by
      refine if_neg ?_
      simp only [Bool.or_eq_true, not_or, Bool.not_eq_true, decide_eq_false_iff_not, Bool.not_eq_false', Decidable.not_not, Nat.not_le,
        Int.not_lt]
      exact ⟨⟨⟨⟨⟨⟨hlen, h1⟩, h2⟩, h3⟩, h4⟩, h5⟩, h6⟩
    exact completes_ptp (P := fun ports _ => ports.get (leAt q 0 2) = some _) (timePortCmd n) rfl ha hr hcmd hquiet (Map.get_set_same _ _ _)
  · intro b q hlen h1 h2 h3 h4 h5
    have hother : (bitOf (leAt q 3 1) 1 && (List.range 4).any (fun j => j ≠ leAt q 0 1 && (s.mod.dax.ptp.get j).steers)) = false := by
      cases hb : bitOf (leAt q 3 1) 1 with
      | false => rfl
      | true =>
        rw [Bool.true_and, List.any_eq_false]
        intro j hj hbad
        obtain ⟨hne, hst⟩ := Bool.and_eq_true_iff.mp hbad
        have hfree := h5 hb j (List.mem_range.mp hj) (of_decide_eq_true hne)
        rw [hfree] at hst
        exact absurd hst (by decide)
    have hquiet := hr.2.2.2
    have hcmd : ptpConfigCmd n b (s.mod, s.mem) = complete n stOk [] ({ s.mod with dax := { s.mod.dax with
        ptp := s.mod.dax.ptp.set (leAt q 0 1)
          { enable := bitOf (leAt q 3 1) 0, steers := bitOf (leAt q 3 1) 1, gmCap := bitOf (leAt q 3 1) 2, domain := leAt q 1 1,
            profile := leAt q 2 1, prio1 := leAt q 4 1, prio2 := leAt q 5 1, clkClass := leAt q 6 1 } } }, s.mem) := by
      refine if_neg ?_
      simp only [Bool.or_eq_true, not_or, Bool.not_eq_true, decide_eq_false_iff_not, Decidable.not_not, Nat.not_le]
      exact ⟨⟨⟨⟨⟨hlen, h1⟩, h2⟩, Nat.div_eq_of_lt h3⟩, h4⟩, hother⟩
    exact completes_ptp (P := fun _ insts => insts.get (leAt q 0 1) = _) (ptpConfigCmd n) rfl ha hr hcmd hquiet (Map.get_set_same _ _ _)
  · intro b q off force hlen h1 h2 h3 hop hq ho hin hj
    have hvalid : ¬ (decide (b.len ≠ 16) || decide (leAt q 0 1 / 2 ≠ 0) || !allZero (sliceOf q 1 7) ||
        (!(s.mod.dax.version == some (3, 2)) && decide (leAt q 0 1 ≠ 0))) = true := by
      have hnew : (!(s.mod.dax.version == some (3, 2)) && decide (leAt q 0 1 ≠ 0)) = false := by
        by_cases h0 : leAt q 0 1 = 0
        · simp [h0]
        · have hforce : force = true := by
            have hone : leAt q 0 1 = 1 := by omega
            show bitOf (leAt q 0 1) 0 = true
            rw [hone]
            rfl
          simp [h2 hforce]
      rw [hnew]
      simp [hlen, Nat.div_eq_of_lt h1, h3]
    let begun : Mod := setBox n (fun b => { b with began := true }) s.mod
    have hjump : jumpRefused begun { op := .step off, servo := false, force := force, at_ := s.mod.now, mbx := some n } = none := by
      have hnot : ¬ (!force && begun.tim.isSet && decide (begun.tim.jump * 65536 < off.toInt.natAbs)) = true := by
        rcases hj with h | h | h
        · simp [h]
        · simp [begun, h]
        · simp [begun, Nat.not_lt.mpr h]
      exact if_neg hnot
    have hbegin : timeInvalid begun (.step off) = false := by
      have hu : unitsAt begun begun.now = unitsAt s.mod s.mod.now := unitsAt_of_tim rfl _
      rw [timeInvalid, hu, hin]
      rfl
    have hbegins : timeStepCmd n b (s.mod, s.mem) = (setTim (fun t => { t with
        op := some { op := .step off, servo := false, force := force, at_ := s.mod.now, mbx := some n } }) begun, s.mem) := by
      have haccept : timeStepCmd n b (s.mod, s.mem) =
          acceptTimeOp { op := .step off, servo := false, force := force, at_ := s.mod.now, mbx := some n } (begun, s.mem) := if_neg hvalid
      rw [haccept, acceptTimeOp_idle (x := begun) hop hq]
      exact beginTimeOp_accepts (Or.inr ho) hbegin hjump
    refine answersBuf_onCommand (timeStepCmd n) rfl ha hr hbegins ⟨rfl, ?_⟩
    refine ⟨?_, ?_, rfl⟩
    · exact congrArg Mailbox.began (setBox_same n _ s.mod)
    · exact (congrArg Mailbox.st (setBox_same n (fun b => { b with began := true }) s.mod)).trans rfl
  · refine answersBuf_of postedLands rfl ha ?_
    have hland : postedLands (s.mod, s.mem) = timLands off v (setTim (fun t => { t with posted := none }) s.mod, s.mem) := by
      simp only [postedLands, hp]
    rw [hland]
    refine ⟨?_, fun h => ?_, fun h => ?_, fun h => ?_⟩
    · rw [timLands_posted]
      rfl
    · subst h; exact ⟨rfl, rfl⟩
    · subst h; exact ⟨rfl, rfl⟩
    · subst h; exact ⟨rfl, rfl⟩

end Sys2Proof.Machine
end

section
/-! Proofs about the TABLE_EDIT and QUEUE_CONFIG messages that are answered at once (12 R395, R401): a malformed message, one during a
load, and one whose record names no entry. -/

namespace Sys2Proof.Machine

-- One theorem at a time: each thread that elaborates another reserves a stack, and their sum has a limit.
set_option Elab.async false

/-- A change of a mailbox that keeps its request is lost in the reply that ends its command. -/
theorem complete_setBox {n : Nat} {f : Mailbox → Mailbox} {x : Mod} (hreq : (f (x.dax.boxes.get n)).req = (x.dax.boxes.get n).req)
    (hquiet : (f (x.dax.boxes.get n)).quiet = false) (hq : (x.dax.boxes.get n).quiet = false) (st : Nat) (body : List Byte)
    (b : List Host.Cell) : complete n st body (setBox n f x, b) = complete n st body (x, b) := by
  have hget : (setBox n f x).dax.boxes.get n = f (x.dax.boxes.get n) := setBox_same n f x
  have hbytes : replyBytes n st body (setBox n f x) = replyBytes n st body x := by
    simp only [replyBytes, Mailbox.opcode, Mailbox.reqSeq, hget, hreq]
    rfl
  have hbox : answeredBox n st body (setBox n f x) = answeredBox n st body x := by
    simp only [answeredBox, hbytes, Mailbox.reqSeq, hget, hreq]
    rfl
  have hset : setBox n (fun _ => answeredBox n st body x) (setBox n f x) = setBox n (fun _ => answeredBox n st body x) x := by
    simp only [setBox, Map.upd, Map.set_set]
  rw [complete_heard (by rw [hget]; exact hquiet), complete_heard hq, hbytes, hbox, hset]

/-- The command that answers a message of an OP is `tableEdit` at that OP. -/
theorem tableEdit_command {n o : Nat} {c : Instr} (s : State)
    (hc : (c, o) ∈ [(Instr.tableEditInsert n, 0), (Instr.tableEditChange n, 1), (Instr.tableEditDelete n, 2)]) :
    exec c s = cmdAll c (onCommand n 0x10 (tableEdit n o)) s ∧ o ≤ 2 := by
  simp only [List.mem_cons, Prod.mk.injEq, List.not_mem_nil, or_false] at hc
  rcases hc with ⟨rfl, rfl⟩ | ⟨rfl, rfl⟩ | ⟨rfl, rfl⟩ <;> exact ⟨rfl, by decide⟩

/-- What the header and the length of a TABLE_EDIT have wrong. -/
def editBad (x : Mod) (b : Mailbox) : Prop :=
  leAt b.body 2 2 = 0 ∨ sizeOk (leAt b.body 0 1) (leAt b.body 4 2) = false ∨ leAt b.body 6 2 ≠ 0 ∨
    b.len ≠ 8 + leAt b.body 2 2 * leAt b.body 4 2 ∨ (leAt b.body 0 1 = 6 ∧ leAt b.body 2 2 ≠ 1) ∨
    (leAt b.body 0 1 = 14 ∧ versionAtLeast x 3 0 = false)

section Message
variable {n o : Nat} {x : Mod} {l : List Host.Cell} {b : Mailbox}

/-- The check of a message as the model writes it. -/
theorem editBad_iff (ho2 : leAt b.body 1 1 ≤ 2) : editBad x b ↔ (2 < leAt b.body 1 1 || leAt b.body 2 2 = 0 ||
    !sizeOk (leAt b.body 0 1) (leAt b.body 4 2) || (leAt b.body 0 1 = 0x0E && !versionAtLeast x 3 0) ||
    b.len ≠ 8 + leAt b.body 2 2 * leAt b.body 4 2 || leAt b.body 6 2 ≠ 0 || (leAt b.body 0 1 = 6 && leAt b.body 2 2 ≠ 1)) = true := by
  simp only [editBad, Bool.or_eq_true, decide_eq_true_eq, Bool.not_eq_true', Bool.and_eq_true, Nat.not_lt.mpr ho2, false_or]
  constructor
  · rintro (h | h | h | h | h | h) <;> simp [h]
  · rintro (((((h | h) | h) | h) | h) | h) <;> simp [h]

theorem tableEdit_bad (ho : leAt b.body 1 1 = o) (ho2 : o ≤ 2) (hbad : editBad x b) : tableEdit n o b (x, l) = fail n stInvalid (x, l) := by
  subst ho
  exact (if_neg (not_not.mpr (if_neg (Nat.not_lt.mpr ho2)))).trans (if_pos ((editBad_iff ho2).mp hbad))

theorem tableEdit_nothing (ho : 2 < leAt b.body 1 1) : tableEdit n 0 b (x, l) = fail n stInvalid (x, l) := by
  simp [tableEdit, ho]

/-- The header of a message that is not malformed passes. -/
theorem tableEdit_header (ho : leAt b.body 1 1 = o) (ho2 : o ≤ 2) (hok : ¬ editBad x b) : tableEdit n o b (x, l) =
    if x.tt.act.any (·.loading) then fail n stBusy (x, l)
    else if !editTurn x n then (x, l)
    else goOnEdits n (msgBegun n x, l) := by
  subst ho
  exact (if_neg (not_not.mpr (if_neg (Nat.not_lt.mpr ho2)))).trans (if_neg fun h => hok ((editBad_iff ho2).mpr h))

theorem queueConfigCmd_bad (hbad : leAt b.body 0 2 = 0 ∨ 64 < leAt b.body 0 2 ∨ leAt b.body 2 2 ≠ 0 ∨ b.len ≠ 4 + 32 * leAt b.body 0 2) :
    queueConfigCmd n b (x, l) = fail n stInvalid (x, l) := by
  rw [queueConfigCmd, if_pos]
  simp only [Bool.or_eq_true, decide_eq_true_eq]
  tauto

theorem queueConfigCmd_loading (hok : ¬ (leAt b.body 0 2 = 0 ∨ 64 < leAt b.body 0 2 ∨ leAt b.body 2 2 ≠ 0 ∨ b.len ≠ 4 + 32 * leAt b.body 0 2))
    (hload : x.tt.act.any (·.loading) = true) : queueConfigCmd n b (x, l) = fail n stBusy (x, l) := by
  rw [queueConfigCmd, if_neg, if_pos hload]
  simp only [Bool.or_eq_true, decide_eq_true_eq]
  tauto

end Message

/-- A message of one record that does not commit is answered at once: its result shows in the PHASE that ends it. -/
theorem tableEdit_refused {n o : Nat} {x : Mod} {l : List Host.Cell} {b : Mailbox} (hb : x.dax.boxes.get n = b) (hop : b.opcode = 0x10)
    (hquiet : b.quiet = false) (ho : leAt b.body 1 1 = o) (ho2 : o ≤ 2) (hok : ¬ editBad x b) (hload : x.tt.act.any (·.loading) = false)
    (hturn : editTurn x n = true) (h1 : leAt b.body 2 2 = 1) (hx : x.tbl.edits = []) {d : Done1} {p : Nat}
    (hd : (d = .bad ∧ p = 0x100) ∨ ∃ c, d = .fail c ∧ p = 1 + c ∧ c < 0xFF)
    (hrun : hostEdit n (leAt b.body 0 1) o (sliceOf b.body 8 (leAt b.body 4 2)) (msgBegun n x) = (d, msgBegun n x)) :
    tableEdit n o b (x, l) = complete n (if p = 0x100 then stInvalid else stOk)
      [BitVec.ofNat 8 (if p = 0x100 then 0 else p - 1), 0, 0, 0, 0, 0, 0, 0] (x, l) := by
  have hbox : (msgBegun n x).dax.boxes.get n = { b with began := true, phase := 0, doneN := 0 } := by rw [setBox_same, hb]
  have hrecords : ∀ run : Nat → Mod → Done1 × Mod, run 0 (msgBegun n x) = (d, msgBegun n x) →
      runRecords n run 1 0 (msgBegun n x) = setBox n (fun b => { b with phase := p }) (msgBegun n x) := by
    intro run h
    rcases hd with ⟨rfl, rfl⟩ | ⟨c, rfl, rfl, -⟩ <;> simp only [runRecords, h]
  have hgo : goOnEdits n (msgBegun n x, l) = finishEdits n (setBox n (fun b => { b with phase := p }) (msgBegun n x), l) := by
    simp only [goOnEdits, hbox]
    rw [if_pos (show ({ b with began := true, phase := 0, doneN := 0 } : Mailbox).opcode = 0x0010 from hop)]
    have hcount : leAt ({ b with began := true, phase := 0, doneN := 0 } : Mailbox).body 2 2 = 1 := h1
    have hop1 : leAt ({ b with began := true, phase := 0, doneN := 0 } : Mailbox).body 1 1 = o := ho
    rw [hcount, hop1]
    exact congrArg (fun y => finishEdits n (y, l)) (hrecords _ hrun)
  have hbox2 : (setBox n (fun b => { b with phase := p }) (msgBegun n x)).dax.boxes.get n =
      { b with began := true, phase := p, doneN := 0 } := by rw [setBox_same, hbox]
  have hp : p ≠ 0x200 ∧ p ≠ 0 ∧ (0x100 ≤ p ↔ p = 0x100) := by
    rcases hd with ⟨-, rfl⟩ | ⟨c, -, rfl, hc⟩ <;> omega
  have hreply : editReply { b with began := true, phase := p, doneN := 0 } =
      [BitVec.ofNat 8 (if p = 0x100 then 0 else p - 1), 0, 0, 0, 0, 0, 0, 0] := by
    simp only [editReply, hp.2.1, hp.2.2, decide_false, Bool.false_or, decide_eq_true_eq, if_false]
    rfl
  have hfinish : finishEdits n (setBox n (fun b => { b with phase := p }) (msgBegun n x), l) =
      complete n (if p = 0x100 then stInvalid else stOk) (editReply { b with began := true, phase := p, doneN := 0 })
        (setBox n (fun b => { b with phase := p }) (msgBegun n x), l) := by
    simp only [finishEdits, hbox2]
    rw [if_neg]
    simp only [setBox_keeps, hx, List.any_nil, Bool.or_false, decide_eq_true_eq]
    exact hp.1
  rw [tableEdit_header ho ho2 hok, if_neg (by rw [hload]; decide), if_neg (by rw [hturn]; decide), hgo, hfinish, hreply,
    complete_setBox (by rfl) (by rw [hbox]; exact hquiet) (by rw [hbox]; exact hquiet),
    complete_setBox (by rfl) (by rw [hb]; exact hquiet) (by rw [hb]; exact hquiet)]

/-- A record of an insert or a change that is malformed for its table. -/
theorem hostEdit_bad {n tab o : Nat} {r : List Byte} {x : Mod} (hx : x.tbl.edits = []) (ho : o ≠ 2)
    (hrec : recordOk (portDefined x) tab r = false) : hostEdit n tab o r x = (.bad, x) := by
  unfold hostEdit
  simp only [catchUp_idle hx]
  rw [if_neg ho, if_pos (by simp [hrec])]

/-- A delete, or a change of a valid record, whose key the table does not hold. -/
theorem hostEdit_absent {n tab o : Nat} {r : List Byte} {x : Mod} (hx : x.tbl.edits = [])
    (habs : (viewOf x (hostBegins x tab (keyOf tab r)) x.tt.active).find tab (keyOf tab r) = none)
    (ho : o = 2 ∨ (o = 1 ∧ recordOk (portDefined x) tab r = true ∧
      refsBad (viewOf x (hostBegins x tab (keyOf tab r)) x.tt.active) tab r = false ∧
      (tab = 14 → handleTaken (viewOf x (hostBegins x tab (keyOf tab r)) x.tt.active) (keyOf tab r) r = false))) :
    hostEdit n tab o r x = (.fail 1, x) := by
  unfold hostEdit
  simp only [catchUp_idle hx, habs, Option.isNone_none, if_true]
  rcases ho with rfl | ⟨rfl, hok, hrefs, htaken⟩
  · exact if_pos rfl
  · have hhandle : (tab == 0x0E && handleTaken (viewOf x (hostBegins x tab (keyOf tab r)) x.tt.active) (keyOf tab r) r) = false := by
      by_cases ht : tab = 14
      · simp [htaken ht]
      · simp [ht]
    rw [if_neg (by decide), if_neg (by simp [hok, hrefs, hhandle]), if_pos (by decide)]

/-- Settles O26: the header is checked first, then a load, then the record. -/
theorem malformedEditsEnd : Obligations.MalformedEditsEnd := by
  refine ⟨fun n c o s hc ha hr => ?_, fun n s ha hr ho => ?_, fun n s ha hr => ?_⟩
  · intro q bad r key v ho
    obtain ⟨he, ho2⟩ := tableEdit_command s hc
    refine ⟨fun hbad => ?_, fun hok hload => ?_, fun hok hload hturn h1 hx => ⟨fun ho' hrec => ?_, fun ho' habs => ?_⟩⟩
    · exact ends_of _ he ha hr (tableEdit_bad ho ho2 hbad)
    · exact ends_of _ he ha hr ((tableEdit_header ho ho2 hok).trans (if_pos hload))
    · exact ends_of _ he ha hr (tableEdit_refused rfl hr.2.1 hr.2.2.2 ho ho2 hok hload hturn h1 hx (.inl ⟨rfl, rfl⟩)
        (hostEdit_bad hx ho' hrec))
    · exact ends_of _ he ha hr (tableEdit_refused rfl hr.2.1 hr.2.2.2 ho ho2 hok hload hturn h1 hx
        (.inr ⟨1, rfl, rfl, by decide⟩) (hostEdit_absent hx habs ho'))
  · exact ends_of _ rfl ha hr (tableEdit_nothing ho)
  · exact ⟨fun hbad => ends_of _ rfl ha hr (queueConfigCmd_bad hbad), fun hok hload => ends_of _ rfl ha hr (queueConfigCmd_loading hok hload)⟩

end Sys2Proof.Machine
end

section
/-! Proofs about SEARCH, NEXT, JOURNAL_READ and TICKET_READ (04 R138, R139, R141; 05 R152). -/

namespace Sys2Proof.Machine

-- One theorem at a time: each thread that elaborates another reserves a stack, and their sum has a limit.
set_option Elab.async false

section Search
variable {n sh : Nat} {x : Mod} {l : List Host.Cell} {b : Mailbox}

/-- What a SEARCH of a shed has wrong. -/
def searchBad (b : Mailbox) : Prop := leAt b.body 0 1 = 0 ∨ 9 < leAt b.body 0 1 ∨ leAt b.body 2 2 ≠ 0 ∨ b.len < 4 ∨
  sizeOk (leAt b.body 0 1) (b.body.drop 4).length = false ∨ keyOnly (leAt b.body 0 1) (b.body.drop 4) = false

theorem searchCmd_bad (hs : replicaOf x (leAt b.body 1 1) = some sh) (hbad : searchBad b) : searchCmd n b (x, l) = fail n stInvalid (x, l) := by
  simp only [searchCmd, hs]
  rw [if_pos]
  simp only [Bool.or_eq_true, decide_eq_true_eq, Bool.not_eq_true']
  rcases hbad with h | h | h | h | h | h <;> simp only [h, true_or, or_true, ne_eq, not_false_eq_true]

theorem searchBad_false (hok : ¬ searchBad b) : ¬ (decide (leAt b.body 0 1 = 0) || decide (9 < leAt b.body 0 1) ||
    decide (leAt b.body 2 2 ≠ 0) || decide (b.len < 4) || !sizeOk (leAt b.body 0 1) (b.body.drop 4).length ||
    !keyOnly (leAt b.body 0 1) (b.body.drop 4)) = true := by
  simp only [searchBad, not_or] at hok
  obtain ⟨h1, h2, h3, h4, h5, h6⟩ := hok
  simp only [Bool.or_eq_true, decide_eq_true_eq, Bool.not_eq_true', not_or]
  exact ⟨⟨⟨⟨⟨h1, h2⟩, h3⟩, h4⟩, h5⟩, h6⟩

theorem searchCmd_found {e : Ent} (hs : replicaOf x (leAt b.body 1 1) = some sh) (hok : ¬ searchBad b)
    (he : (viewOf x sh x.tt.active).find (leAt b.body 0 1) (keyOf (leAt b.body 0 1) (b.body.drop 4)) = some e) :
    searchCmd n b (x, l) = complete n stOk ([0, BitVec.ofNat 8 sh, 0, 0] ++ shownRec x (leAt b.body 0 1) e) (x, l) := by
  simp only [searchCmd, hs, he]
  exact if_neg (searchBad_false hok)

theorem searchCmd_absent (hs : replicaOf x (leAt b.body 1 1) = some sh) (hok : ¬ searchBad b)
    (he : (viewOf x sh x.tt.active).find (leAt b.body 0 1) (keyOf (leAt b.body 0 1) (b.body.drop 4)) = none) :
    searchCmd n b (x, l) = complete n stOk ([1, BitVec.ofNat 8 sh, 0, 0] ++ zeros (b.body.drop 4).length) (x, l) := by
  simp only [searchCmd, hs, he]
  exact if_neg (searchBad_false hok)

/-- What a NEXT has wrong. -/
def nextBad (b : Mailbox) : Prop := b.len ≠ 16 ∨ leAt b.body 0 1 = 0 ∨ 5 < leAt b.body 0 1 ∨ leAt b.body 2 1 = 0 ∨ 64 < leAt b.body 2 1 ∨
  8 ≤ leAt b.body 3 1 ∨ leAt b.body 0x0E 2 ≠ 0

theorem tableNextCmd_bad (hs : replicaOf x (leAt b.body 1 1) = some sh) (hbad : nextBad b) :
    tableNextCmd n b (x, l) = fail n stInvalid (x, l) := by
  simp only [tableNextCmd, hs]
  rw [if_pos]
  simp only [Bool.or_eq_true, decide_eq_true_eq]
  rcases hbad with h | h | h | h | h | h | h <;> simp [h]

theorem nextBad_false (hok : ¬ nextBad b) : ¬ (decide (b.len ≠ 16) || decide (leAt b.body 0 1 = 0) || decide (5 < leAt b.body 0 1) ||
    decide (leAt b.body 2 1 = 0) || decide (64 < leAt b.body 2 1) || decide (8 ≤ leAt b.body 3 1) ||
    decide (leAt b.body 0x0E 2 ≠ 0)) = true := by
  simp only [nextBad, not_or] at hok
  obtain ⟨h1, h2, h3, h4, h5, h6, h7⟩ := hok
  simp only [Bool.or_eq_true, decide_eq_true_eq, not_or]
  exact ⟨⟨⟨⟨⟨⟨h1, h2⟩, h3⟩, h4⟩, h5⟩, h6⟩, h7⟩

/-- A NEXT of a cursor that is not open. -/
theorem tableNextCmd_closed (hs : replicaOf x (leAt b.body 1 1) = some sh) (hok : ¬ nextBad b) (hh : leAt b.body 4 4 ≠ 0)
    (hc : cursorOf x (leAt b.body 4 4) = none) : tableNextCmd n b (x, l) = nextFails n 4 (x, l) := by
  simp only [tableNextCmd, hs, hc]
  exact (if_neg (nextBad_false hok)).trans (if_pos hh)

/-- A NEXT of an open cursor. -/
theorem tableNextCmd_cursor {k : Nat} {c : Cursor} (hs : replicaOf x (leAt b.body 1 1) = some sh) (hok : ¬ nextBad b)
    (hh : leAt b.body 4 4 ≠ 0) (hc : cursorOf x (leAt b.body 4 4) = some (k, c)) (ht : c.tab = leAt b.body 0 1) :
    tableNextCmd n b (x, l) = walk n k (leAt b.body 2 1) (leAt b.body 3 1) (leAt b.body 8 4) (leAt b.body 0x0C 2) c (x, l) := by
  simp only [tableNextCmd, hs, hc]
  exact ((if_neg (nextBad_false hok)).trans (if_pos hh)).trans (if_neg (not_not.mpr ht))

/-- The cursors of a shed that are open. -/
def openCursors (x : Mod) (sh : Nat) : List Cursor := (x.tbl.cursors.get sh).filter (fun c => decide (x.now ≤ c.lastAt + sec 10))

/-- The module once a NEXT has opened a cursor in a shed. -/
def cursorOpened (x : Mod) (sh : Nat) : Mod := { x with tbl := { x.tbl with
  nextCur := if (x.tbl.nextCur + 1) % 2 ^ 32 = 0 then 1 else (x.tbl.nextCur + 1) % 2 ^ 32
  cursors := x.tbl.cursors.set sh (openCursors x sh) } }

/-- A NEXT that opens a cursor. -/
theorem tableNextCmd_opens (hs : replicaOf x (leAt b.body 1 1) = some sh) (hok : ¬ nextBad b) (hh : leAt b.body 4 4 = 0) :
    tableNextCmd n b (x, l) = if 16 ≤ (openCursors x sh).length then nextFails n 5 (x, l)
      else walk n sh (leAt b.body 2 1) (leAt b.body 3 1) (leAt b.body 8 4) (leAt b.body 0x0C 2)
        { handle := x.tbl.nextCur, shed := sh, tab := leAt b.body 0 1, pos := 0, lastAt := x.now } (cursorOpened x sh, l) := by
  simp only [tableNextCmd, hs]
  rw [if_neg (nextBad_false hok), if_neg (not_not.mpr hh)]
  rfl

/-- What a JOURNAL_READ has wrong. -/
def journalBad (b : Mailbox) : Prop :=
  b.len ≠ 16 ∨ leAt b.body 4 2 = 0 ∨ 4096 < leAt b.body 4 2 ∨ leAt b.body 6 2 ≠ 0 ∨ leAt b.body 8 8 % 64 ≠ 0

theorem journalReadCmd_bad (hbad : journalBad b) : journalReadCmd n b (x, l) = fail n stInvalid (x, l) := by
  refine if_pos ?_
  simp only [Bool.or_eq_true, decide_eq_true_eq]
  rcases hbad with h | h | h | h | h <;> simp [h]

/-- The first index a JOURNAL_READ gives. -/
def journalStart (x : Mod) (from_ : Nat) : Nat :=
  if from_ < x.tbl.jNext - x.tbl.journal.length then firstPart x.tbl.journal (x.tbl.jNext - x.tbl.journal.length) else from_

/-- The records a JOURNAL_READ gives. -/
def journalRecs (x : Mod) (from_ max : Nat) : List (List Byte) :=
  (x.tbl.journal.drop (journalStart x from_ - (x.tbl.jNext - x.tbl.journal.length))).take max

theorem journalReadCmd_good (hok : ¬ journalBad b) : journalReadCmd n b (x, l) =
    complete n stOk ([0, BitVec.ofNat 8 (flag 0 (decide (leAt b.body 0 4 < x.tbl.jNext - x.tbl.journal.length)))] ++
        leBytes 2 (journalRecs x (leAt b.body 0 4) (leAt b.body 4 2)).length ++
        leBytes 4 (journalStart x (leAt b.body 0 4) + (journalRecs x (leAt b.body 0 4) (leAt b.body 4 2)).length))
      (journalSeen (journalStart x (leAt b.body 0 4))
        (min (journalStart x (leAt b.body 0 4) + (journalRecs x (leAt b.body 0 4) (leAt b.body 4 2)).length) x.tbl.jNext)
        (if journalRecs x (leAt b.body 0 4) (leAt b.body 4 2) = [] then x
          else emit (.dma (leAt b.body 8 8) (journalRecs x (leAt b.body 0 4) (leAt b.body 4 2)).flatten) x), l) := by
  simp only [journalBad, not_or] at hok
  obtain ⟨h1, h2, h3, h4, h5⟩ := hok
  have hnext : ∀ recs : List (List Byte),
      (if recs = [] then x else emit (.dma (leAt b.body 8 8) recs.flatten) x).tbl.jNext = x.tbl.jNext := by
    intro recs
    split <;> rfl
  rw [journalReadCmd, if_neg]
  · dsimp only
    rw [hnext]
    rfl
  · simp only [Bool.or_eq_true, decide_eq_true_eq, not_or]
    exact ⟨⟨⟨⟨h1, h2⟩, h3⟩, h4⟩, h5⟩

/-- What a TICKET_READ has wrong. -/
def ticketReadBad (b : Mailbox) : Prop := b.len ≠ 4 ∨ 8 ≤ leAt b.body 0 1 ∨ leAt b.body 1 1 ≠ 0 ∨ 2 ^ 15 ≤ leAt b.body 2 2

theorem ticketReadCmd_bad (hbad : ticketReadBad b) : ticketReadCmd n b (x, l) = fail n stInvalid (x, l) := by
  refine if_pos ?_
  simp only [Bool.or_eq_true, decide_eq_true_eq]
  rcases hbad with h | h | h | h <;> simp only [h, true_or, or_true, ne_eq, not_false_eq_true]

theorem ticketReadCmd_good (hok : ¬ ticketReadBad b) : ticketReadCmd n b (x, l) =
    complete n stOk (zeros 4 ++ (((tkt? x (leAt b.body 0 1) (leAt b.body 2 2)).map tktRecord).getD (zeros 48))) (x, l) := by
  simp only [ticketReadBad, not_or] at hok
  obtain ⟨h1, h2, h3, h4⟩ := hok
  rw [ticketReadCmd, if_neg]
  · cases tkt? x (leAt b.body 0 1) (leAt b.body 2 2) <;> rfl
  · simp only [Bool.or_eq_true, decide_eq_true_eq, not_or]
    exact ⟨⟨⟨h1, h2⟩, h3⟩, h4⟩

end Search

/-- Settles O30: each reply is what the model's search, walk, journal and ticket cache give. -/
theorem searchesAnswer : Obligations.SearchesAnswer := by
  refine ⟨fun n sh s ha hr => ?_, fun n s ha hr h8 hff => ?_, fun n sh s ha hr => ?_, fun n sh c x s ha hr => ?_, fun n s ha hr => ?_,
    fun n s ha hr => ?_⟩
  · intro q hs bad
    refine ⟨fun hbad => ends_of _ rfl ha hr (searchCmd_bad hs hbad), fun hok e he => ?_, fun hok he => ?_⟩
    · exact ends_of _ rfl ha hr (searchCmd_found hs hok he)
    · exact ends_of _ rfl ha hr (searchCmd_absent hs hok he)
  · refine ends_of (searchCmd n) rfl ha hr ?_
    have hnone : replicaOf s.mod (leAt (s.mod.dax.boxes.get n).body 1 1) = none := by
      rw [replicaOf, if_neg (Nat.not_lt.mpr h8), if_neg hff]
    simp only [searchCmd, hnone]
    rfl
  · intro q hs bad
    refine ⟨fun hbad => ends_of _ rfl ha hr (tableNextCmd_bad hs hbad), fun hok hh hc => ?_, fun hok hh hc => ?_⟩
    · exact ends_of _ rfl ha hr (tableNextCmd_closed hs hok hh hc)
    · refine ends_of _ rfl ha hr ((tableNextCmd_opens hs hok hh).trans ?_)
      exact if_pos hc
  · intro q open_ hlen h0 h5 h2 h64 h8 hz hs hcase l passes late ahead all out given c1 others
    have hok : ¬ nextBad (s.mod.dax.boxes.get n) := by
      rintro (h | h | h | h | h | h | h)
      · exact h hlen
      · exact absurd h (Nat.pos_iff_ne_zero.mp h0)
      · exact absurd h (Nat.not_lt.mpr h5)
      · exact absurd h (Nat.pos_iff_ne_zero.mp h2)
      · exact absurd h (Nat.not_lt.mpr h64)
      · exact absurd h (Nat.not_le.mpr h8)
      · exact h hz
    obtain ⟨k, hk⟩ := Option.isSome_iff_exists.mp hs
    by_cases hh : leAt q 4 4 = 0
    · rw [if_pos hh] at hcase
      obtain ⟨hsh, hroom, hc, hx⟩ := hcase
      refine ends_of (tableNextCmd n) rfl ha hr ((tableNextCmd_opens hsh hok hh).trans ?_)
      have hx' : x = cursorOpened s.mod sh := hx
      subst hx' hc
      exact (if_neg (Nat.not_le.mpr hroom)).trans rfl
    · rw [if_neg hh] at hcase
      obtain ⟨hcur, htab, hx⟩ := hcase
      subst hx
      exact ends_of (tableNextCmd n) rfl ha hr ((tableNextCmd_cursor hk hok hh hcur htab).trans rfl)
  · intro q bad oldest start recs
    exact ⟨fun hbad => ends_of _ rfl ha hr (journalReadCmd_bad hbad), fun hok => ends_of _ rfl ha hr (journalReadCmd_good hok)⟩
  · intro q bad
    refine ⟨fun hbad => ends_of _ rfl ha hr (ticketReadCmd_bad hbad), fun hok k hk => ?_, fun hok hk => ?_⟩
    · refine ends_of _ rfl ha hr ((ticketReadCmd_good hok).trans ?_)
      rw [hk]
      rfl
    · refine ends_of _ rfl ha hr ((ticketReadCmd_good hok).trans ?_)
      rw [hk]
      rfl

end Sys2Proof.Machine
end

section
/-! Proofs about the order of the edits (04 R113): what is marked as written, and that a shed that has caught up needs no edit. -/

namespace Sys2Proof.Machine

-- One theorem at a time: each thread that elaborates another reserves a stack, and their sum has a limit.
set_option Elab.async false

/-! ### Marking -/

/-- Marking changes where an edit is written, and nothing else of it. -/
theorem markFirst_forall {P : Edit → Prop} (hP : ∀ e d, P e → P { e with done := d }) {s : Nat} {l : List Edit} (h : ∀ e ∈ l, P e) :
    ∀ e ∈ markFirst s l, P e := by
  induction l with
  | nil => exact h
  | cons a t ih =>
    obtain ⟨ha, ht⟩ := List.forall_mem_cons.mp h
    unfold markFirst
    split
    · exact List.forall_mem_cons.mpr ⟨hP _ _ ha, ht⟩
    · exact List.forall_mem_cons.mpr ⟨ha, ih ht⟩

theorem markFirst_length (s : Nat) (l : List Edit) : (markFirst s l).length = l.length := by
  induction l with
  | nil => rfl
  | cons a t ih =>
    unfold markFirst
    split
    · rfl
    · simp [ih]

/-- An edit that a shed has written it does not need any more. -/
theorem Edit.needs_marked (e : Edit) (s : Nat) : ({ e with done := e.done ++ [s] } : Edit).needs s = false := by simp [Edit.needs]

theorem markFirst_needs (s : Nat) (l : List Edit) : (markFirst s l).countP (·.needs s) = l.countP (·.needs s) - 1 := by
  induction l with
  | nil => rfl
  | cons a t ih =>
    cases ha : a.needs s with
    | true => simp only [markFirst, ha, if_true, List.countP_cons, Edit.needs_marked, Bool.false_eq_true, if_false]; omega
    | false => simp only [markFirst, ha, Bool.false_eq_true, if_false, List.countP_cons, ih]; omega

/-- An edit that no earlier one precedes in a shed is the one marked. -/
theorem markFirst_last {s : Nat} {l : List Edit} {e : Edit} (h : ∀ a ∈ l, a.needs s = false) (he : e.needs s = true) :
    markFirst s (l ++ [e]) = l ++ [{ e with done := e.done ++ [s] }] := by
  induction l with
  | nil => simp [markFirst, he]
  | cons a t ih =>
    obtain ⟨ha, ht⟩ := List.forall_mem_cons.mp h
    simp only [List.cons_append, markFirst, ha, Bool.false_eq_true, if_false, ih ht]

/-! ### Writing the next edit, catching up and beginning -/

theorem writeNext_edits (s : Nat) (x : Mod) : (writeNext s x).tbl.edits = markFirst s x.tbl.edits := by
  unfold writeNext
  cases hf : x.tbl.edits.find? (·.needs s) with
  | none =>
    have hnone := List.find?_eq_none.mp hf
    have hsame : ∀ l : List Edit, (∀ e ∈ l, ¬ e.needs s = true) → markFirst s l = l := by
      intro l h
      induction l with
      | nil => rfl
      | cons a t ih =>
        obtain ⟨ha, ht⟩ := List.forall_mem_cons.mp h
        rw [markFirst, if_neg ha, ih ht]
    exact (hsame _ hnone).symm
  | some e =>
    dsimp only
    split
    · exact (congrArg (·.2.1) (changeNode_editPart _ _ _ _ _) :)
    · exact (congrArg (·.2.1) (applyTable_editPart _ _ _) :)

theorem writeNexts_needs (s : Nat) (l : List Edit) (x : Mod) :
    (l.foldl (fun a _ => writeNext s a) x).tbl.edits.countP (·.needs s) = x.tbl.edits.countP (·.needs s) - l.length := by
  induction l generalizing x with
  | nil => rfl
  | cons e l ih => rw [List.foldl_cons, ih, writeNext_edits, markFirst_needs, List.length_cons]; omega

/-- A shed that has caught up needs none of the edits. -/
theorem catchUp_caught (s : Nat) (x : Mod) : ∀ e ∈ (catchUp s x).tbl.edits, e.needs s = false := by
  have hzero : (catchUp s x).tbl.edits.countP (·.needs s) = 0 := by
    have hle : x.tbl.edits.countP (·.needs s) ≤ x.tbl.edits.length := List.countP_le_length
    rw [catchUp, writeNexts_needs]
    omega
  intro e he
  simpa using (List.countP_eq_zero.mp hzero) e he

/-- An edit that is begun comes last in the order, written in the shed that begins it. -/
theorem beginEdit_edits {e : Edit} (hown : e.own) (x : Mod) :
    (beginEdit e x).tbl.edits = (catchUp e.begin_ x).tbl.edits ++ [e.begun x.now] := by
  have hrenamed : ∀ (v w : View) (t : Nat) (o d : List Byte) (z : Mod), (renewNames v w t o d z).tbl.edits = z.tbl.edits :=
    fun v w t o d z => congrArg (·.2.1) (renewNames_editPart v w t o d z)
  unfold beginEdit
  dsimp only
  rw [hrenamed, writeNext_edits]
  exact markFirst_last (catchUp_caught _ x) (Edit.own_needs hown x.now)

end Sys2Proof.Machine
end

section
/-! Proofs about FLUSH_BY_PORT, TICKET_FLUSH, COUNTER_READ and CAPTURE_RING (04 R140; 05 R152, R178; 08 R272, R281; 12 R389). -/

namespace Sys2Proof.Machine

-- One theorem at a time: each thread that elaborates another reserves a stack, and their sum has a limit.
set_option Elab.async false

/-! ### Leave for a command -/

/-- The counters that are not the power management's. -/
def powerCtr : CtrId → Bool
  | .pwr _ => true
  | _ => false

/-- A leave asked for stops and starts no domain, and counts for the power management alone. -/
theorem askLeave_homes (op unit : Nat) (mbx : Option Nat) (x : Mod) : (askLeave op unit mbx x).2.pwr.doms = x.pwr.doms ∧
    ∀ c : CtrId, powerCtr c = false → (askLeave op unit mbx x).2.ctrs.get c = x.ctrs.get c := by
  have hother : ∀ (k : Nat) (z : Mod) (c : CtrId), powerCtr c = false → (tally (.pwr k) z).ctrs.get c = z.ctrs.get c :=
    fun k z c hc => count_other (by rintro rfl; exact nomatch hc) 1 z
  unfold askLeave
  split
  · exact ⟨rfl, fun c hc => hother 4 _ c hc⟩
  · exact ⟨rfl, fun c hc => hother 5 _ c hc⟩
  · unfold refuseLeave
    dsimp only
    split
    · rw [notify_raised]
      simp only [raised, raise_keeps]
      exact ⟨rfl, fun c hc => hother 6 _ c hc⟩
    · simp only [raise_keeps]
      exact ⟨rfl, fun c hc => hother 6 _ c hc⟩

/-- The module without what asking for leave changes: events, power, counters, and the requests noted in the mailbox. -/
def unasked (n : Nat) (x : Mod) : Mod := setBox n (fun b => { b with leave := [] }) (offPower x)

theorem unasked_setBox (n : Nat) (l : List Nat) (x : Mod) : unasked n (setBox n (fun b => { b with leave := b.leave ++ l }) x) = unasked n x := by
  have h : ∀ z : Mod, setBox n (fun b => { b with leave := [] }) (setBox n (fun b => { b with leave := b.leave ++ l }) z) =
      setBox n (fun b => { b with leave := [] }) z := by
    intro z
    simp only [setBox, Map.upd, Map.set_set, Map.get_set_same]
  exact h (offPower x)

theorem unasked_askLeave (n op unit : Nat) (mbx : Option Nat) (x : Mod) : unasked n (askLeave op unit mbx x).2 = unasked n x :=
  congrArg (setBox n fun b => { b with leave := [] }) (askLeave_offPower op unit mbx x)

/-- What a command that asks for leave changes of the module. -/
theorem askLeaves_effect (n op : Nat) (units : List Nat) (x : Mod) : unasked n (askLeaves n op units x).2 = unasked n x ∧
    (askLeaves n op units x).2.pwr.doms = x.pwr.doms ∧
    ∀ c : CtrId, powerCtr c = false → (askLeaves n op units x).2.ctrs.get c = x.ctrs.get c := by
  induction units generalizing x with
  | nil => exact ⟨rfl, rfl, fun _ _ => rfl⟩
  | cons u t ih =>
    have hu := unasked_askLeave n op u (some n) x
    obtain ⟨hd, hc⟩ := askLeave_homes op u (some n) x
    unfold askLeaves
    cases hask : askLeave op u (some n) x with
    | mk r x1 =>
      rw [hask] at hu hd hc
      cases r with
      | granted id =>
        obtain ⟨h1, h2, h3⟩ := ih x1
        exact ⟨h1.trans hu, h2.trans hd, fun c k => (h3 c k).trans (hc c k)⟩
      | queued id =>
        obtain ⟨h1, h2, h3⟩ := ih (setBox n (fun b => { b with leave := b.leave ++ [id] }) x1)
        exact ⟨(h1.trans (unasked_setBox n [id] x1)).trans hu, h2.trans hd, fun c k => (h3 c k).trans (hc c k)⟩
      | refused k => exact ⟨hu, hd, hc⟩

section Leave
variable {m op : Nat} {units : List Nat} {go : Mod × List Host.Cell → Mod × List Host.Cell} {x : Mod} {l : List Host.Cell}

/-- The answers to a command's requests for leave, and the module after them. -/
abbrev leaveAsked (m op : Nat) (units : List Nat) (x : Mod) : Bool × Mod :=
  askLeaves m op units (setBox m (fun b => { b with began := true, leave := [] }) x)

theorem underLeave_refused (h : (leaveAsked m op units x).1 = false) :
    underLeave m op units go (x, l) = fail m stLeave ((leaveAsked m op units x).2, l) := by
  cases ha : leaveAsked m op units x with
  | mk ok x1 =>
    rw [ha] at h
    subst h
    rw [underLeave, show askLeaves m op units (setBox m _ (x, l).1) = (false, x1) from ha]

theorem underLeave_waits (h : (leaveAsked m op units x).1 = true) (hw : ((leaveAsked m op units x).2.dax.boxes.get m).leave ≠ []) :
    underLeave m op units go (x, l) = ((leaveAsked m op units x).2, l) := by
  cases ha : leaveAsked m op units x with
  | mk ok x1 =>
    rw [ha] at h hw
    subst h
    rw [underLeave, show askLeaves m op units (setBox m _ (x, l).1) = (true, x1) from ha]
    exact if_neg hw

theorem underLeave_goes (h : (leaveAsked m op units x).1 = true) (hw : ((leaveAsked m op units x).2.dax.boxes.get m).leave = []) :
    underLeave m op units go (x, l) = go ((leaveAsked m op units x).2, l) := by
  cases ha : leaveAsked m op units x with
  | mk ok x1 =>
    rw [ha] at h hw
    subst h
    rw [underLeave, show askLeaves m op units (setBox m _ (x, l).1) = (true, x1) from ha]
    exact if_pos hw

/-- What a command finds of the module once its leave is given. -/
structure Granted (n : Nat) (x y : Mod) : Prop where
  tbl : y.tbl = x.tbl
  tkt : y.tkt = x.tkt
  trb : y.trb = x.trb
  tt : y.tt = x.tt
  now : y.now = x.now
  doms : y.pwr.doms = x.pwr.doms
  ctrs : ∀ c : CtrId, powerCtr c = false → y.ctrs.get c = x.ctrs.get c
  st : (y.dax.boxes.get n).st = (x.dax.boxes.get n).st
  quiet : (y.dax.boxes.get n).quiet = (x.dax.boxes.get n).quiet
  req : (y.dax.boxes.get n).req = (x.dax.boxes.get n).req

theorem leaveAsked_granted (n op : Nat) (units : List Nat) (x : Mod) : Granted n x (leaveAsked n op units x).2 := by
  obtain ⟨hu, hd, hc⟩ := askLeaves_effect n op units (setBox n (fun b => { b with began := true, leave := [] }) x)
  have hbox : ∀ z : Mod, (unasked n z).dax.boxes.get n = { z.dax.boxes.get n with leave := [] } := fun z => setBox_same n _ (offPower z)
  have hboxes : ({ (leaveAsked n op units x).2.dax.boxes.get n with leave := [] } : Mailbox) =
      { x.dax.boxes.get n with began := true, leave := [] } := by
    rw [← hbox, hu, hbox, setBox_same]
  exact ⟨(congrArg Mod.tbl hu :), (congrArg Mod.tkt hu :), (congrArg Mod.trb hu :), (congrArg Mod.tt hu :), (congrArg Mod.now hu :), hd, hc,
    (congrArg Mailbox.st hboxes :), (congrArg Mailbox.quiet hboxes :), (congrArg Mailbox.req hboxes :)⟩

end Leave

/-! ### The flush by port -/

/-- What decides the home of a key. -/
def homes (x : Mod) : Map Nat ShedTrb × Map Nat Dom := (x.trb, x.pwr.doms)

theorem keyHome_of_homes {x y : Mod} (h : homes y = homes x) (key : List Byte) : keyHome y key = keyHome x key := by
  obtain ⟨htrb, hdoms⟩ := Prod.mk.inj h
  have hworks : shedWorks y = shedWorks x := by
    funext s
    simp only [shedWorks, htrb]
  have hruns : domRuns y = domRuns x := by
    funext d
    simp only [domRuns, domSt, hdoms]
  simp only [keyHome, homeOf, homeNow, hworks, hruns]

theorem raise_homes (l : Level) (e : Evt) (x : Mod) : homes (raise l e x) = homes x := by
  rw [raise_raised]
  rfl

theorem applyTable_homes (s : Nat) (e : Edit) (x : Mod) : homes (applyTable s e x) = homes x := by
  have htickets : ∀ (v : View) (p : Nat) (b : Bool) (z : Mod), homes (editTickets s v e p b z) = homes z := by
    intro v p b z
    unfold editTickets
    repeat' split
    all_goals rfl
  have hmeter : ∀ (i : Nat) (o : Option Ent) (z : Mod), homes (editMeter s i o e z) = homes z := by
    intro i o z
    unfold editMeter
    repeat' split
    all_goals rfl
  have hcursors : ∀ (t : Nat) (f : Cursor → List (List Byte)) (z : Mod), homes (cursorsCatch s t f z) = homes z :=
    fun t f z => foldl_keeps homes _ _ _ fun a _ => raise_homes _ _ a
  unfold applyTable
  dsimp only
  rw [htickets]
  split
  · rw [hmeter]
    exact hcursors _ _ _
  · exact hcursors _ _ _

/-- The edits of a flush by the command of mailbox `n`. -/
def Edit.flushes (n : Nat) (e : Edit) : Prop := e.kind = 5 ∧ e.mbx = some n ∧ e.tab = 1 ∧ e.op = 2

/-- Where an edit of the flush is written, its key is gone. -/
structure Flushing (n : Nat) (y : Mod) : Prop where
  edits : ∀ e ∈ y.tbl.edits, e.flushes n
  written : ∀ e ∈ y.tbl.edits, ∀ s ∈ e.done, ∀ d ∈ y.tbl.ents.get (s, 1), d.key ≠ e.key

/-- What a step of the flush keeps: it only removes entries, and moves no home and no mailbox. -/
structure Removes (x y : Mod) : Prop where
  ents : ∀ s, ∀ d ∈ y.tbl.ents.get (s, 1), d ∈ x.tbl.ents.get (s, 1)
  boxes : y.dax.boxes = x.dax.boxes
  homes : homes y = homes x

theorem Removes.refl (x : Mod) : Removes x x := ⟨fun _ _ h => h, rfl, rfl⟩

theorem Removes.trans {x y z : Mod} (h : Removes x y) (k : Removes y z) : Removes x z :=
  ⟨fun s d hd => h.ents s d (k.ents s d hd), k.boxes.trans h.boxes, k.homes.trans h.homes⟩

/-- The edits after a mark: as they were, or the first one needed marked. -/
theorem mem_markFirst {s : Nat} {l : List Edit} {e : Edit} (h : e ∈ markFirst s l) :
    e ∈ l ∨ ∃ a, l.find? (·.needs s) = some a ∧ e = { a with done := a.done ++ [s] } := by
  induction l with
  | nil => exact .inl h
  | cons a t ih =>
    cases ha : a.needs s with
    | true =>
      rw [markFirst, if_pos ha] at h
      rcases List.mem_cons.mp h with h | h
      · exact .inr ⟨a, List.find?_cons_of_pos ha, h⟩
      · exact .inl (List.mem_cons_of_mem _ h)
    | false =>
      rw [markFirst, ha, if_neg (by decide)] at h
      rcases List.mem_cons.mp h with h | h
      · exact .inl (List.mem_cons.mpr (.inl h))
      · rcases ih h with h | ⟨b, hb, h⟩
        · exact .inl (List.mem_cons_of_mem _ h)
        · exact .inr ⟨b, by rw [List.find?_cons_of_neg (by simp [ha])]; exact hb, h⟩

theorem Flushing.writeNext {n : Nat} {y : Mod} (h : Flushing n y) (s : Nat) : Flushing n (writeNext s y) ∧ Removes y (writeNext s y) := by
  have hedits := writeNext_edits s y
  cases hf : y.tbl.edits.find? (·.needs s) with
  | none =>
    have hsame : Machine.writeNext s y = y := by simp only [Machine.writeNext, hf]
    rw [hsame]
    exact ⟨h, .refl y⟩
  | some a =>
    obtain ⟨ha5, ham, hatab, haop⟩ := h.edits a (List.mem_of_find?_eq_some hf)
    have happly : Machine.writeNext s y = applyTable s a { y with tbl := { y.tbl with edits := markFirst s y.tbl.edits } } := by
      simp only [Machine.writeNext, hf]
      rw [if_neg (by omega)]
    have hpart := applyTable_editPart s a { y with tbl := { y.tbl with edits := markFirst s y.tbl.edits } }
    rw [← happly] at hpart
    obtain ⟨hents, -, hboxes, -⟩ : (Machine.writeNext s y).tbl.ents = _ ∧ (Machine.writeNext s y).tbl.edits = _ ∧
        (Machine.writeNext s y).dax.boxes = _ ∧ (Machine.writeNext s y).que.nodes = _ := by
      simpa only [editPart, Prod.mk.injEq] using hpart
    have hget : ∀ k, (Machine.writeNext s y).tbl.ents.get (k, 1) =
        if k = s then (y.tbl.ents.get (s, 1)).filter (fun o => o.key != a.key) else y.tbl.ents.get (k, 1) := by
      intro k
      rw [hents, hatab, Edit.written, if_pos haop]
      by_cases hk : k = s
      · rw [hk, if_pos rfl]
        exact Map.get_set_same _ _ _
      · rw [if_neg hk]
        exact Map.get_set_other _ (by simpa using hk) _
    have hsub : ∀ k, ∀ d ∈ (Machine.writeNext s y).tbl.ents.get (k, 1), d ∈ y.tbl.ents.get (k, 1) := by
      intro k d hd
      rw [hget] at hd
      split at hd
      case isTrue hk => exact hk ▸ List.mem_of_mem_filter hd
      case isFalse => exact hd
    refine ⟨⟨?_, fun e he k hk d hd => ?_⟩, hsub, hboxes, by rw [happly]; exact applyTable_homes _ _ _⟩
    · rw [hedits]
      exact markFirst_forall (fun _ _ hP => hP) h.edits
    · rw [hedits] at he
      rcases mem_markFirst he with he | ⟨b, hb, rfl⟩
      · exact h.written e he k hk d (hsub k d hd)
      · obtain rfl : a = b := Option.some.inj (hf.symm.trans hb)
        rcases List.mem_append.mp hk with hk | hk
        · exact h.written a (List.mem_of_find?_eq_some hf) k hk d (hsub k d hd)
        · rw [hget, if_pos (List.mem_singleton.mp hk)] at hd
          simpa using (List.mem_filter.mp hd).2

theorem Flushing.catchUp {n : Nat} {y : Mod} (h : Flushing n y) (s : Nat) : Flushing n (catchUp s y) ∧ Removes y (catchUp s y) :=
  List.foldlRecOn (motive := fun a : Mod => Flushing n a ∧ Removes y a) y.tbl.edits _ ⟨h, .refl y⟩ fun _ ha _ _ =>
    ⟨(ha.1.writeNext s).1, ha.2.trans (ha.1.writeNext s).2⟩

theorem zeroNamed_homes (i : Nat) (x : Mod) : homes (zeroNamed i x) = homes x := foldl_keeps homes _ _ _ fun _ _ => rfl

theorem fullMeter_homes (i : Nat) (x : Mod) : homes (fullMeter i x) = homes x := foldl_keeps homes _ _ _ fun _ _ => rfl

theorem renewNames_homes (v w : View) (t : Nat) (o d : List Byte) (x : Mod) : homes (renewNames v w t o d x) = homes x :=
  (foldl_keeps homes _ _ _ fun a i => fullMeter_homes i a).trans (foldl_keeps homes _ _ _ fun a i => zeroNamed_homes i a)

/-- An entry removed by its home, in a flush. -/
theorem Flushing.removeL2 {n : Nat} {y : Mod} (h : Flushing n y) (s : Nat) (e : Ent) : Flushing n (removeL2 s 5 e (some n) y) ∧
    Removes y (removeL2 s 5 e (some n) y) ∧ (removeL2 s 5 e (some n) y).tbl.edits.length = y.tbl.edits.length + 1 ∧
    ∀ d ∈ (removeL2 s 5 e (some n) y).tbl.ents.get (s, 1), d.key ≠ e.key := by
  obtain ⟨hcaught, hkept⟩ := h.catchUp s
  have hlast := beginEdit_edits (e := l2Edit s 5 2 e.key e.dat (some n)) (.inl rfl) y
  have hlen : ∀ l : List Edit, ∀ x : Mod, (l.foldl (fun a _ => Machine.writeNext s a) x).tbl.edits.length = x.tbl.edits.length :=
    fun l x => foldl_keeps (fun a : Mod => a.tbl.edits.length) _ _ _ fun a _ => by
      show (Machine.writeNext s a).tbl.edits.length = _
      rw [writeNext_edits, markFirst_length]
  have hjoin : Flushing n { Machine.catchUp s y with tbl := { (Machine.catchUp s y).tbl with
      edits := (Machine.catchUp s y).tbl.edits ++ [{ l2Edit s 5 2 e.key e.dat (some n) with at_ := y.now, done := [] }] } } := by
    refine ⟨fun d hd => ?_, fun d hd k hk => ?_⟩
    · rcases List.mem_append.mp hd with hd | hd
      · exact hcaught.edits d hd
      · rw [List.mem_singleton.mp hd]
        exact ⟨rfl, rfl, rfl, rfl⟩
    · rcases List.mem_append.mp hd with hd | hd
      · exact hcaught.written d hd k hk
      · rw [List.mem_singleton.mp hd] at hk
        exact absurd hk (by simp)
  obtain ⟨hwrote, hremoved⟩ := hjoin.writeNext s
  -- what follows the write names indices anew, and drops what the home keeps of the key
  have hafter : ∀ (v w : View) (t : Nat) (o d : List Byte) (z : Mod), Flushing n z → Removes y z →
      Flushing n (dropMeta e.key (renewNames v w t o d z)) ∧ Removes y (dropMeta e.key (renewNames v w t o d z)) := by
    intro v w t o d z hz hyz
    obtain ⟨hents, hedits, hboxes, -⟩ : (renewNames v w t o d z).tbl.ents = _ ∧ (renewNames v w t o d z).tbl.edits = _ ∧
        (renewNames v w t o d z).dax.boxes = _ ∧ (renewNames v w t o d z).que.nodes = _ := by
      simpa only [editPart, Prod.mk.injEq] using renewNames_editPart v w t o d z
    exact ⟨⟨hedits ▸ hz.edits, by
        show ∀ a ∈ (renewNames v w t o d z).tbl.edits, ∀ s ∈ a.done, ∀ b ∈ (renewNames v w t o d z).tbl.ents.get (s, 1), b.key ≠ a.key
        rw [hedits, hents]
        exact hz.written⟩,
      by
        show ∀ s, ∀ b ∈ Map.get (renewNames v w t o d z).tbl.ents (s, 1), b ∈ y.tbl.ents.get (s, 1)
        rw [hents]
        exact hyz.ents,
      hboxes.trans hyz.boxes, (renewNames_homes v w t o d z).trans hyz.homes⟩
  have hyz : Removes y (Machine.writeNext s { Machine.catchUp s y with tbl := { (Machine.catchUp s y).tbl with
      edits := (Machine.catchUp s y).tbl.edits ++ [{ l2Edit s 5 2 e.key e.dat (some n) with at_ := y.now, done := [] }] } }) :=
    hkept.trans ⟨hremoved.ents, hremoved.boxes, hremoved.homes⟩
  obtain ⟨hflush, hrem⟩ : Flushing n (Machine.removeL2 s 5 e (some n) y) ∧ Removes y (Machine.removeL2 s 5 e (some n) y) :=
    hafter _ _ _ _ _ _ hwrote hyz
  have hedits : (Machine.removeL2 s 5 e (some n) y).tbl.edits = (Machine.catchUp s y).tbl.edits ++
      [(l2Edit s 5 2 e.key e.dat (some n)).begun y.now] := hlast
  refine ⟨hflush, hrem, ?_, fun d hd => ?_⟩
  · rw [hedits, List.length_append]
    exact congrArg (· + 1) (hlen y.tbl.edits y)
  · refine hflush.written ((l2Edit s 5 2 e.key e.dat (some n)).begun y.now) ?_ s ?_ d hd
    · rw [hedits]
      simp
    · exact List.mem_singleton.mpr rfl

/-- All the entries a flush finds are removed by their homes. -/
theorem Flushing.removeAll {n : Nat} (l : List Ent) {y : Mod} (h : Flushing n y) :
    let z := l.foldl (fun a e => Machine.removeL2 (keyHome a e.key) 5 e (some n) a) y
    Flushing n z ∧ Removes y z ∧ z.tbl.edits.length = y.tbl.edits.length + l.length ∧
      ∀ e ∈ l, ∀ d ∈ z.tbl.ents.get (keyHome y e.key, 1), d.key ≠ e.key := by
  induction l generalizing y with
  | nil => exact ⟨h, .refl y, rfl, fun e he => absurd he (by simp)⟩
  | cons a t ih =>
    obtain ⟨hflush, hrem, hlen, hgone⟩ := h.removeL2 (keyHome y a.key) a
    obtain ⟨hflush', hrem', hlen', hgone'⟩ := ih hflush
    refine ⟨hflush', hrem.trans hrem', ?_, List.forall_mem_cons.mpr ⟨fun d hd => ?_, fun e he d hd => ?_⟩⟩
    · rw [List.length_cons]
      have hsum := hlen'.trans (congrArg (· + t.length) hlen)
      exact hsum.trans (by omega)
    · exact hgone d (hrem'.ents _ d hd)
    · refine hgone' e he d ?_
      rw [keyHome_of_homes hrem.homes]
      exact hd

section Flush
variable {n : Nat} {x : Mod} {l : List Host.Cell} {b : Mailbox}

/-- What a FLUSH_BY_PORT has wrong. -/
def flushBad (x : Mod) (b : Mailbox) : Prop := b.len ≠ 8 ∨ destOk (portDefined x) (leAt b.body 0 4) 2 = false ∨ 4 ≤ leAt b.body 6 1 ∨
  leAt b.body 7 1 ≠ 0 ∨ (bitOf (leAt b.body 6 1) 0 = true ∧ 2 ^ 14 ≤ leAt b.body 4 2)

theorem flushBad_iff : flushBad x b ↔ (b.len ≠ 8 || !destOk (portDefined x) (leAt b.body 0 4) 2 || 4 ≤ leAt b.body 6 1 ||
    leAt b.body 7 1 ≠ 0 || (bitOf (leAt b.body 6 1) 0 && 2 ^ 14 ≤ leAt b.body 4 2)) = true := by
  simp only [flushBad, Bool.or_eq_true, decide_eq_true_eq, Bool.not_eq_true', Bool.and_eq_true, or_assoc]

theorem flushCmd_bad (h : flushBad x b) : flushCmd n b (x, l) = fail n stInvalid (x, l) := if_pos (flushBad_iff.mp h)

theorem flushCmd_asks (h : ¬ flushBad x b) : flushCmd n b (x, l) = underLeave n 5 (workingSheds x) (startFlush n) (x, l) :=
  if_neg fun k => h (flushBad_iff.mpr k)

/-- The entries a FLUSH_BY_PORT removes. -/
def flushHits (x : Mod) (q : List Byte) : List Ent := (x.tbl.ents.get (lowestShed x, 1)).filter (fun e =>
  !isStatic e.dat && leAt e.dat 8 4 == leAt q 0 4 && decide ((metaOf x e.key).portTime / 1000 < x.now / 1000) &&
    (bitOf (leAt q 6 1) 1 || (metaOf x e.key).frozenAt.isNone) && (!bitOf (leAt q 6 1) 0 || l2Fid e.key == leAt q 4 2))

theorem lowestShed_of_trb {x y : Mod} (h : y.trb = x.trb) : lowestShed y = lowestShed x := by
  have hworks : shedWorks y = shedWorks x := by
    funext s
    simp only [shedWorks, h]
  simp only [lowestShed, hworks]

theorem Granted.flushHits {y : Mod} (h : Granted n x y) (q : List Byte) : flushHits y q = flushHits x q := by
  have hmeta : metaOf y = metaOf x := by
    funext k
    simp only [metaOf, h.tbl]
  unfold Machine.flushHits
  rw [lowestShed_of_trb h.trb, hmeta, h.tbl, h.now]

theorem Granted.body {y : Mod} (h : Granted n x y) : (y.dax.boxes.get n).body = (x.dax.boxes.get n).body := by
  simp only [Mailbox.body, Mailbox.len, h.req]

/-- The flush once its entries are removed. -/
def flushDone (n : Nat) (y : Mod) : Mod :=
  setBox n (fun b => { b with doneN := (flushHits y (y.dax.boxes.get n).body).length, phase := y.now / 1000 })
    ((flushHits y (y.dax.boxes.get n).body).foldl (fun a e => removeL2 (keyHome a e.key) 5 e (some n) a) y)

theorem startFlush_eq {y : Mod} (hy : y.tbl.edits = []) (l : List Host.Cell) : startFlush n (y, l) = finishFlush n (flushDone n y, l) := by
  simp only [startFlush, catchUp_idle hy]
  rfl

end Flush

/-- A TICKET_FLUSH of some sheds counts once in each and leaves no ticket there. -/
theorem flushTickets_effect (l : List Nat) (hn : l.Nodup) (x : Mod) :
    let m := l.foldl (fun a s => tally (.otrT s 6) a) (flushTickets l x)
    (∀ sh ∈ l, m.ctrs.get (.otrT sh 6) = (x.ctrs.get (.otrT sh 6)).addIn x.cyc 1 ∧ ∀ t, tkt? m sh t = none) ∧ m.dax = x.dax := by
  have hflush : ∀ z : Mod, (flushTickets l z).ctrs = z.ctrs ∧ (flushTickets l z).now = z.now ∧ (flushTickets l z).dax = z.dax := fun z =>
    ⟨foldl_keeps (fun a : Mod => a.ctrs) _ _ _ fun _ _ => rfl, foldl_keeps (fun a : Mod => a.now) _ _ _ fun _ _ => rfl, foldl_keeps (fun a : Mod => a.dax) _ _ _ fun _ _ => rfl⟩
  have htally : ∀ (k : List Nat) (z : Mod), (k.foldl (fun a s => tally (.otrT s 6) a) z).tkt = z.tkt ∧
      (k.foldl (fun a s => tally (.otrT s 6) a) z).now = z.now ∧ (k.foldl (fun a s => tally (.otrT s 6) a) z).dax = z.dax := fun k z =>
    ⟨foldl_keeps (fun a : Mod => a.tkt) _ _ _ fun _ _ => rfl, foldl_keeps (fun a : Mod => a.now) _ _ _ fun _ _ => rfl, foldl_keeps (fun a : Mod => a.dax) _ _ _ fun _ _ => rfl⟩
  have hother : ∀ (c : Nat) (k : List Nat) (z : Mod), (∀ e ∈ k, c ≠ e) →
      (k.foldl (fun a s => tally (.otrT s 6) a) z).ctrs.get (.otrT c 6) = z.ctrs.get (.otrT c 6) := fun c k z hk =>
    foldl_keeps_mem (fun a : Mod => a.ctrs.get (.otrT c 6)) _ _ _ fun a e he => count_other (by simpa using hk e he) 1 a
  have hgone : ∀ (k : List Nat) (z : Mod) (sh t : Nat), sh ∈ k ∨ tkt? z sh t = none →
      tkt? (k.foldl (fun a s => setTkt s (fun c => { c with ways := .const none, bad := [] }) a) z) sh t = none := by
    intro k
    induction k with
    | nil => exact fun z sh t h => h.resolve_left (by simp)
    | cons a k ih =>
      intro z sh t h
      refine ih _ sh t ?_
      by_cases hs : sh = a
      · refine .inr ?_
        rw [hs]
        simp only [tkt?, setTkt, Map.get_upd_same]
        rfl
      · rcases h with h | h
        · exact .inl ((List.mem_cons.mp h).resolve_left hs)
        · refine .inr ?_
          simp only [tkt?, setTkt, Map.get_upd_other _ hs]
          exact h
  refine ⟨fun sh hsh => ⟨?_, fun t => ?_⟩, ((htally _ _).2.2).trans (hflush x).2.2⟩
  · obtain ⟨l₁, l₂, hfold, h1, h2⟩ := foldl_at (fun a s => tally (.otrT s 6) a) hsh hn (flushTickets l x)
    have hcyc : (l₁.foldl (fun a s => tally (.otrT s 6) a) (flushTickets l x)).cyc = x.cyc :=
      congrArg (· / 625) ((htally l₁ _).2.1.trans (hflush x).2.1)
    rw [hfold, hother sh l₂ _ h2, tally_same, hother sh l₁ _ h1, hcyc, (hflush x).1]
  · have htkt := (htally l (flushTickets l x)).1
    simp only [tkt?, htkt]
    exact hgone l x sh t (.inl hsh)

theorem flushSheds_nodup (x : Mod) (b : Nat) : (flushSheds x b).Nodup := by
  unfold flushSheds workingSheds
  split
  · exact List.nodup_range.filter _
  · exact List.nodup_singleton b

/-- A mailbox's grants are given back. -/
theorem dropLeaves_grants (n : Nat) (x : Mod) : ∀ g ∈ (dropLeaves n x).pwr.grants, g.mbx ≠ some n := by
  intro g hg
  simpa using (List.mem_filter.mp hg).2

section Read
variable {n : Nat} {x : Mod} {l : List Host.Cell} {b : Mailbox}

/-- What a TICKET_FLUSH has wrong. -/
def ticketFlushBad (b : Mailbox) : Prop := b.len ≠ 1 ∨ (8 ≤ leAt b.body 0 1 ∧ leAt b.body 0 1 ≠ 0xFF)

theorem ticketFlushCmd_bad (h : ticketFlushBad b) : ticketFlushCmd n b (x, l) = fail n stInvalid (x, l) := by
  refine if_pos ?_
  simpa only [ticketFlushBad, Bool.or_eq_true, decide_eq_true_eq, Bool.and_eq_true] using h

theorem ticketFlushCmd_asks (h : ¬ ticketFlushBad b) : ticketFlushCmd n b (x, l) =
    underLeave n 6 (flushSheds x (leAt b.body 0 1)) (startTicketFlush n) (x, l) := by
  refine if_neg fun k => h ?_
  simpa only [ticketFlushBad, Bool.or_eq_true, decide_eq_true_eq, Bool.and_eq_true] using k

theorem startTicketFlush_eq {y : Mod} {sheds : List Nat} (h : flushSheds y (leAt (y.dax.boxes.get n).body 0 1) = sheds) (l : List Host.Cell) :
    startTicketFlush n (y, l) =
      complete n stOk [] (dropLeaves n (sheds.foldl (fun a k => tally (.otrT k 6) a) (flushTickets sheds y)), l) := by
  subst h
  rfl

/-- What a COUNTER_READ has wrong. -/
def counterReadBad (b : Mailbox) : Prop := b.len ≠ 24 ∨ 8 ≤ leAt b.body 0 1 ∨ leAt b.body 1 3 ≠ 0 ∨ 2 ^ 20 ≤ leAt b.body 4 4 ∨
  leAt b.body 8 2 = 0 ∨ 4096 < leAt b.body 8 2 ∨ 2 ^ 20 < leAt b.body 4 4 + leAt b.body 8 2 ∨ allZero (sliceOf b.body 0x0A 6) = false ∨
  leAt b.body 0x10 8 % 8 ≠ 0

theorem counterReadBad_iff : counterReadBad b ↔ (b.len ≠ 24 || 8 ≤ leAt b.body 0 1 || leAt b.body 1 3 ≠ 0 || 2 ^ 20 ≤ leAt b.body 4 4 ||
    leAt b.body 8 2 = 0 || 4096 < leAt b.body 8 2 || 2 ^ 20 < leAt b.body 4 4 + leAt b.body 8 2 ||
    !allZero (sliceOf b.body 0x0A 6) || leAt b.body 0x10 8 % 8 ≠ 0) = true := by
  simp only [counterReadBad, Bool.or_eq_true, decide_eq_true_eq, Bool.not_eq_true', or_assoc]

/-- What a CAPTURE_RING has wrong. -/
def captureRingBad (x : Mod) (b : Mailbox) : Prop := b.len ≠ 4 ∨ 16 ≤ leAt b.body 0 1 ∨ ¬ (leAt b.body 1 1 = 1 ∨ leAt b.body 1 1 = 2) ∨
  2 ≤ leAt b.body 2 1 ∨ leAt b.body 3 1 ≠ 0 ∨ (leAt b.body 1 1 = 2 ∧ versionAtLeast x 3 1 = false) ∨
  (leAt b.body 1 1 = 1 ∧ leAt b.body 2 1 = 1 ∧ ringNamedV2 x (leAt b.body 0 1) = true)

theorem captureRingCmd_eq [Decidable (captureRingBad x b)] : captureRingCmd n b (x, l) = if captureRingBad x b then fail n stInvalid (x, l)
    else complete n stOk [] (setCapRing (leAt b.body 0 1) (fun c => { c with enable := leAt b.body 2 1 == 1, format := leAt b.body 1 1 }) x, l) := by
  unfold captureRingCmd
  dsimp only
  split
  case isTrue h =>
    simp only [Bool.or_eq_true, decide_eq_true_eq, Bool.not_eq_true', Bool.or_eq_false_iff, beq_eq_false_iff_ne] at h
    rw [if_pos]
    unfold captureRingBad
    rcases h with (((h | h) | ⟨h, k⟩) | h) | h
    · exact .inl h
    · exact .inr (.inl h)
    · exact .inr (.inr (.inl (not_or.mpr ⟨h, k⟩)))
    · exact .inr (.inr (.inr (.inl h)))
    · exact .inr (.inr (.inr (.inr (.inl h))))
  case isFalse h =>
    simp only [Bool.or_eq_true, decide_eq_true_eq, Bool.not_eq_true', Bool.or_eq_false_iff, beq_eq_false_iff_ne, not_or] at h
    obtain ⟨⟨⟨⟨h1, h2⟩, h3⟩, h4⟩, h5⟩ := h
    split
    case isTrue h =>
      rw [if_pos]
      exact .inr (.inr (.inr (.inr (.inr (.inl (by simpa using h))))))
    case isFalse h6 =>
      split
      case isTrue h =>
        rw [if_pos]
        exact .inr (.inr (.inr (.inr (.inr (.inr (by simpa [and_assoc] using h))))))
      case isFalse h7 =>
        rw [if_neg]
        rintro (h | h | h | h | h | h | h)
        · exact h1 h
        · exact h2 h
        · exact h3 ⟨fun k => h (.inl k), fun k => h (.inr k)⟩
        · exact h4 h
        · exact h5 h
        · exact h6 (by simpa using h)
        · exact h7 (by simpa [and_assoc] using h)

end Read

/-- Settles O31: leave first, then the removals, each by its home; the reads and the ring answer at once. -/
theorem flushesAndReads : Obligations.FlushesAndReads := by
  refine ⟨fun n s ha hr => ?_, fun n s ha hr => ?_, fun n s ha hr => ?_, fun n s ha hr => ?_⟩
  · intro b q bad ask
    have hgrant : Granted n s.mod ask.2 := leaveAsked_granted n 5 (workingSheds s.mod) s.mod
    have hquiet : (ask.2.dax.boxes.get n).quiet = false := hgrant.quiet.trans hr.2.2.2
    refine ⟨fun hbad => ends_of _ rfl ha hr (flushCmd_bad hbad), fun hok hno => ?_, ?_⟩
    · exact ends_of _ rfl ha hr ((flushCmd_asks hok).trans (underLeave_refused hno))
    intro hit
    have hhit : flushHits ask.2 (ask.2.dax.boxes.get n).body = hit := by rw [hgrant.body, hgrant.flushHits]; rfl
    refine ⟨fun hok hyes hnow hidle => ?_, fun hok hyes hwait => ?_⟩
    · have hidle' : ask.2.tbl.edits = [] := by rw [hgrant.tbl]; exact hidle
      have hcmd : flushCmd n b (s.mod, s.mem) = finishFlush n (flushDone n ask.2, s.mem) :=
        ((flushCmd_asks hok).trans (underLeave_goes hyes hnow)).trans (startFlush_eq hidle' _)
      have hstart : Flushing n ask.2 := ⟨by simp [hidle'], by simp [hidle']⟩
      obtain ⟨hflush, hrem, hlen, hgone⟩ := hstart.removeAll hit
      have hdone : flushDone n ask.2 = setBox n (fun b => { b with doneN := hit.length, phase := ask.2.now / 1000 })
          (hit.foldl (fun a e => removeL2 (keyHome a e.key) 5 e (some n) a) ask.2) := by rw [flushDone, hhit]
      generalize hz : hit.foldl (fun a e => removeL2 (keyHome a e.key) 5 e (some n) a) ask.2 = z at hflush hrem hlen hgone hdone
      rw [hidle', List.length_nil, Nat.zero_add] at hlen
      by_cases hempty : hit = []
      · have hz2 : z = ask.2 := by rw [← hz, hempty]; rfl
        have hnone : (flushDone n ask.2).tbl.edits.any (fun e => e.mbx == some n) = false := by
          rw [hdone, hz2]
          simp only [setBox_keeps, hidle', List.any_nil]
        have hend : finishFlush n (flushDone n ask.2, s.mem) = complete n stOk
            (zeros 4 ++ leBytes 4 ((flushDone n ask.2).dax.boxes.get n).doneN ++ leBytes 8 ((flushDone n ask.2).dax.boxes.get n).phase)
            (dropLeaves n (flushDone n ask.2), s.mem) := by
          simp only [finishFlush, hnone, Bool.false_eq_true, if_false]
        refine answersBuf_onCommand (flushCmd n) rfl ha hr (hcmd.trans hend)
          ⟨fun _ => ⟨complete_replied ?_ _ _ _, ?_⟩, fun h => absurd hempty h⟩
        · have hbox : (flushDone n ask.2).dax.boxes.get n = { ask.2.dax.boxes.get n with doneN := hit.length, phase := ask.2.now / 1000 } := by
            rw [hdone, hz2, setBox_same]
          show ((flushDone n ask.2).dax.boxes.get n).quiet = false
          rw [hbox]
          exact hquiet
        · simp only [complete_keeps]
          show (flushDone n ask.2).tbl = s.mod.tbl
          rw [hdone, hz2]
          exact hgrant.tbl
      · have hedit : ∃ e, e ∈ z.tbl.edits := List.exists_mem_of_length_pos (by rw [hlen]; exact List.length_pos_iff.mpr hempty)
        obtain ⟨e, he⟩ := hedit
        have hany : (flushDone n ask.2).tbl.edits.any (fun e => e.mbx == some n) = true := by
          rw [hdone]
          exact List.any_eq_true.mpr ⟨e, he, by simp [(hflush.edits e he).2.1]⟩
        have hwait : finishFlush n (flushDone n ask.2, s.mem) = (flushDone n ask.2, s.mem) := by
          simp only [finishFlush, hany, if_true]
        refine answersBuf_onCommand (flushCmd n) rfl ha hr (hcmd.trans hwait) ⟨fun h => absurd h hempty, fun _ => ⟨rfl, ?_⟩⟩
        rw [hdone]
        refine ⟨?_, hlen, fun d hd => ⟨(hflush.edits d hd).1, (hflush.edits d hd).2.1⟩, fun e he d hd => ?_⟩
        · rw [setBox_same]
          show (z.dax.boxes.get n).st = _
          rw [hrem.boxes, hgrant.st]
        · refine hgone e he d ?_
          rw [keyHome_of_homes (x := s.mod) (Prod.ext hgrant.trb hgrant.doms)]
          exact hd
    · exact answersBuf_onCommand (flushCmd n) rfl ha hr ((flushCmd_asks hok).trans (underLeave_waits hyes hwait)) ⟨rfl, rfl⟩
  · intro b q bad ask
    have hgrant : Granted n s.mod ask.2 := leaveAsked_granted n 6 (flushSheds s.mod (leAt q 0 1)) s.mod
    have hquiet : (ask.2.dax.boxes.get n).quiet = false := hgrant.quiet.trans hr.2.2.2
    refine ⟨fun hbad => ends_of _ rfl ha hr (ticketFlushCmd_bad hbad), fun hok hno => ?_, fun hok hyes hnow => ?_, fun hok hyes hwait => ?_⟩
    · exact ends_of _ rfl ha hr ((ticketFlushCmd_asks hok).trans (underLeave_refused hno))
    · have hsheds : flushSheds ask.2 (leAt (ask.2.dax.boxes.get n).body 0 1) = flushSheds s.mod (leAt q 0 1) := by
        have hworks : shedWorks ask.2 = shedWorks s.mod := by
          funext k
          simp only [shedWorks, hgrant.trb]
        rw [hgrant.body]
        simp only [flushSheds, workingSheds, hworks]
        rfl
      have hcmd : ticketFlushCmd n b (s.mod, s.mem) = complete n stOk [] (dropLeaves n
          ((flushSheds s.mod (leAt q 0 1)).foldl (fun a k => tally (.otrT k 6) a) (flushTickets (flushSheds s.mod (leAt q 0 1)) ask.2)), s.mem) := by
        exact ((ticketFlushCmd_asks hok).trans (underLeave_goes hyes hnow)).trans (startTicketFlush_eq hsheds s.mem)
      obtain ⟨hcount, hdax⟩ := flushTickets_effect (flushSheds s.mod (leAt q 0 1)) (flushSheds_nodup _ _) ask.2
      generalize hz : (flushSheds s.mod (leAt q 0 1)).foldl (fun a k => tally (.otrT k 6) a)
        (flushTickets (flushSheds s.mod (leAt q 0 1)) ask.2) = z at hcmd hcount hdax
      refine answersBuf_onCommand (ticketFlushCmd n) rfl ha hr hcmd ⟨complete_replied ?_ _ _ _, ?_, fun sh hsh => ?_⟩
      · show (z.dax.boxes.get n).quiet = false
        rw [hdax]
        exact hquiet
      · simp only [complete_keeps]
        exact dropLeaves_grants n z
      · obtain ⟨hc, ht⟩ := hcount sh hsh
        refine ⟨?_, fun t => ?_⟩
        · simp only [counted, complete_keeps]
          show z.ctrs.get _ = _
          rw [hc, hgrant.ctrs _ rfl]
          simp only [Mod.cyc, hgrant.now]
        · simp only [tkt?, complete_keeps]
          exact ht t
    · exact answersBuf_onCommand (ticketFlushCmd n) rfl ha hr ((ticketFlushCmd_asks hok).trans (underLeave_waits hyes hwait)) ⟨rfl, rfl⟩
  · intro b q bad
    refine ⟨fun hbad => ends_of (counterReadCmd n) rfl ha hr (if_pos (counterReadBad_iff.mp hbad)), fun hok => ⟨(drawBits 1 s.mod).1 == 1, ?_⟩⟩
    exact ends_of (counterReadCmd n) rfl ha hr (if_neg fun h => hok (counterReadBad_iff.mpr h))
  · intro b q bad
    have := Classical.propDecidable (captureRingBad s.mod b)
    exact ⟨fun hbad => ends_of _ rfl ha hr (captureRingCmd_eq.trans (if_pos hbad)),
      fun hok => ends_of _ rfl ha hr (captureRingCmd_eq.trans (if_neg hok))⟩

end Sys2Proof.Machine
end

section
/-! Proofs about the activations of timetables (10 R329, R332, R333, R338 to R340). -/

namespace Sys2Proof.Machine

-- One theorem at a time: each thread that elaborates another reserves a stack, and their sum has a limit.
set_option Elab.async false

/-! ### TT_ACTIVATE -/

section Activate
variable {n : Nat} {x : Mod} {l : List Host.Cell} {b : Mailbox}

theorem ttActivateCmd_mode (hlen : b.len = 40) (hk : leAt b.body 0 1 ≤ 1) (h0 : leAt b.body 1 3 = 0) :
    ttActivateCmd n b (x, l) = if x.mode.mode ∈ [.standalone, .paired, .quiesced] then
      (if activationOn x then fail n stBusy (x, l) else tryActivate n (x, l)) else fail n stWrongMode (x, l) := by
  rw [ttActivateCmd, if_neg (by simp [hlen, h0, Nat.not_lt.mpr hk])]
  cases x.mode.mode <;> rfl

/-- The mailbox of a TT_ACTIVATE that has begun. -/
abbrev actBegun (n : Nat) (x : Mod) : Mod := setBox n (fun b => { b with began := true, phase := 0 }) x

theorem actBegun_body : ((actBegun n x).dax.boxes.get n).body = (x.dax.boxes.get n).body := by
  rw [setBox_same]
  rfl

theorem tryActivate_drains (h : draining x = true) :
    tryActivate n (x, l) = (setBox n (fun b => { b with began := true, phase := 0x300 }) x, l) := by
  have hset : setBox n (fun b => { b with phase := 0x300 }) (actBegun n x) = setBox n (fun b => { b with began := true, phase := 0x300 }) x := by
    simp only [setBox, Map.upd, Map.set_set, Map.get_set_same]
  have hd : draining (actBegun n x) = true := h
  simp only [tryActivate]
  rw [if_pos hd, hset]

/-- Why a bank is not activated, in the order of the tests (10 R333): 0 where it is. -/
def activateRefusal (x : Mod) (q : List Byte) : Nat :=
  if (x.tt.banks.get (leAt q 0 1)).st ≠ .valid then ttNotValid
  else if (x.tt.banks.get (leAt q 0 1)).seq ≠ BitVec.ofNat 32 (leAt q 4 4) ∨ (x.tt.banks.get (leAt q 0 1)).digest ≠ digestOf (sliceOf q 8 32) then
    ttMismatch
  else if x.tt.active.any (fun o => !serialNewer (x.tt.banks.get (leAt q 0 1)).seq (x.tt.banks.get o).seq) then ttStale
  else 0

/-- The module that asks for the leave of an activation's loads. -/
def activationAsked (n : Nat) (x : Mod) : Bool × Mod :=
  askLeaves n 5 (workingSheds x) (setBox n (fun b => { b with began := true, phase := 0, leave := [] })
    (setTt (fun t => { t with act := some { bank := leAt (x.dax.boxes.get n).body 0 1, mbx := some n } }) x))

/-- The activation of a mailbox's message. -/
abbrev boxActivation (n : Nat) (x : Mod) : Activation := { bank := leAt (x.dax.boxes.get n).body 0 1, mbx := some n }

theorem tryActivate_tests (hd : draining x = false) (hq : (x.dax.boxes.get n).quiet = false) : tryActivate n (x, l) =
    if activateRefusal x (x.dax.boxes.get n).body ≠ 0 then
      complete n stOk (activateReply (activateRefusal x (x.dax.boxes.get n).body) 0 0) (x, l)
    else if (activationAsked n x).1 = false then activationFails (boxActivation n x) stLeave 0 ((activationAsked n x).2, l)
    else (if ((activationAsked n x).2.dax.boxes.get n).leave = [] then
        setTt (fun t => { t with act := some { boxActivation n x with loading := true } }) (activationAsked n x).2
      else (activationAsked n x).2, l) := by
  have hd' : draining (actBegun n x) = false := hd
  have hrefuse : ∀ r, complete n stOk (activateReply r 0 0) (actBegun n x, l) = complete n stOk (activateReply r 0 0) (x, l) :=
    fun r => complete_setBox rfl hq hq _ _ _
  have hset : setBox n (fun b => { b with leave := [] }) (setTt (fun t => { t with act := some (boxActivation n x) }) (actBegun n x)) =
      setBox n (fun b => { b with began := true, phase := 0, leave := [] }) (setTt (fun t => { t with act := some (boxActivation n x) }) x) := by
    simp only [setTt, setBox, Map.upd, Map.set_set, Map.get_set_same]
  have hask : askLeaves n 5 (workingSheds (actBegun n x)) (setBox n (fun b => { b with leave := [] })
      (setTt (fun t => { t with act := some (boxActivation n x) }) (actBegun n x))) = activationAsked n x := by
    rw [hset]
    rfl
  have hleave : ∀ y : Bool × Mod, activationAsked n x = y → (match y with
      | (false, x1) => activationFails (boxActivation n x) stLeave 0 (x1, l)
      | (true, x1) => (if (x1.dax.boxes.get n).leave = [] then
          setTt (fun t => { t with act := some { boxActivation n x with loading := true } }) x1 else x1, l)) =
      if y.1 = false then activationFails (boxActivation n x) stLeave 0 (y.2, l)
      else (if (y.2.dax.boxes.get n).leave = [] then
          setTt (fun t => { t with act := some { boxActivation n x with loading := true } }) y.2 else y.2, l) := by
    rintro ⟨ok, y⟩ -
    cases ok <;> rfl
  simp only [tryActivate, actBegun_body, hd', Bool.false_eq_true, if_false, hrefuse, hask, activateRefusal, setBox_keeps]
  by_cases h1 : (x.tt.banks.get (leAt (x.dax.boxes.get n).body 0 1)).st = .valid
  · by_cases h2 : (x.tt.banks.get (leAt (x.dax.boxes.get n).body 0 1)).seq ≠ BitVec.ofNat 32 (leAt (x.dax.boxes.get n).body 4 4) ∨
        (x.tt.banks.get (leAt (x.dax.boxes.get n).body 0 1)).digest ≠ digestOf (sliceOf (x.dax.boxes.get n).body 8 32)
    · rw [if_neg (by simp [h1]), if_pos (by simpa using h2), if_neg (not_not.mpr h1), if_pos h2]
      rfl
    · rw [if_neg (by simp [h1]), if_neg (by simpa using h2), if_neg (not_not.mpr h1), if_neg h2]
      cases hact : x.tt.active with
      | none => exact hleave _ rfl
      | some o =>
        simp only [Option.any_some]
        by_cases h3 : (!serialNewer (x.tt.banks.get (leAt (x.dax.boxes.get n).body 0 1)).seq (x.tt.banks.get o).seq) = true
        · rw [if_pos h3, if_pos h3]
          rfl
        · rw [if_neg h3, if_neg h3]
          exact hleave _ rfl
  · rw [if_pos (by simpa using h1), if_pos h1]
    rfl

end Activate

/-! ### An activation that fails -/

theorem dropActLeave_keeps (a : Activation) (x : Mod) : Calm x (dropActLeave a x) ∧ (dropActLeave a x).dax = x.dax := by
  unfold dropActLeave
  split
  · exact ⟨.dropLeaves (.refl x), rfl⟩
  · exact ⟨.setPwr (.refl x), rfl⟩

/-- An activation that fails is over, the banks as they were, with ACTIVATE_FAIL and every earlier event set. -/
theorem activationFails_effect (a : Activation) (status result : Nat) (x : Mod) (l : List Host.Cell) :
    let m := (activationFails a status result (x, l)).1
    m.tt.act = none ∧ m.tt.active = x.tt.active ∧ m.tt.banks = x.tt.banks ∧ evtSet .yard evActivateFail m = true ∧
      ∀ lv e, evtSet lv e x = true → evtSet lv e m = true := by
  let x0 := setTt (fun t => { t with act := none }) x
  let x1 := raise .yard evActivateFail (dropActLeave a x0)
  let x2 := notify (ttNote x1) x1
  have h2 : Calm x0 x2 := .notify (.raise (dropActLeave_keeps a x0).1)
  have hevt : evtSet .yard evActivateFail x2 = true := notify_evtSet_mono _ _ _ _ (raise_evtSet _ _ _ (by decide))
  have hends : Calm x2 (activationFails a status result (x, l)).1 := by
    unfold activationFails
    cases a.mbx with
    | none => exact .setStage (.enterMode (.refl x2))
    | some n => exact .complete (.refl x2)
  have hall := h2.trans hends
  exact ⟨(congrArg TtSt.act hall.tt).trans rfl, (congrArg TtSt.active hall.tt).trans rfl, (congrArg TtSt.banks hall.tt).trans rfl,
    hends.evts _ _ hevt, fun lv e h => hall.evts lv e h⟩

theorem activationFails_replied {a : Activation} {n : Nat} (ha : a.mbx = some n) {x : Mod} (hq : (x.dax.boxes.get n).quiet = false)
    (status result : Nat) (l : List Host.Cell) : replied (activationFails a status result (x, l)).1 n status := by
  unfold activationFails
  rw [ha]
  refine complete_replied ?_ _ _ _
  simp only [notify_keeps, raise_keeps, (dropActLeave_keeps _ _).2]
  exact hq

/-- The mailbox of an activation hears its answer, and the activation stands in its place while leave is asked for. -/
theorem activationAsked_effect (n : Nat) (x : Mod) : (activationAsked n x).2.tt = { x.tt with act := some (boxActivation n x) } ∧
    ((activationAsked n x).2.dax.boxes.get n).quiet = (x.dax.boxes.get n).quiet := by
  obtain ⟨hu, -, -⟩ := askLeaves_effect n 5 (workingSheds x) (setBox n (fun b => { b with began := true, phase := 0, leave := [] })
    (setTt (fun t => { t with act := some (boxActivation n x) }) x))
  have hbox : ∀ z : Mod, (unasked n z).dax.boxes.get n = { z.dax.boxes.get n with leave := [] } := fun z => setBox_same n _ (offPower z)
  refine ⟨(congrArg Mod.tt hu :), ?_⟩
  have hb := (hbox (activationAsked n x).2).symm.trans ((congrArg (fun z : Mod => z.dax.boxes.get n) hu).trans (hbox _))
  rw [setBox_same] at hb
  exact (congrArg Mailbox.quiet hb :)

/-! ### A shed's load ends -/

section Load
variable {sh : Nat} {d : Digest} {a : Activation} {x : Mod} {l : List Host.Cell}

/-- A load that ends in a working shed with its grant goes by the digest. -/
theorem shedLoaded_judged (hst : (x.trb.get sh).st ≠ .returning) (hact : x.tt.act = some a) (hload : a.loading = true)
    (hworks : shedWorks x sh = true) (hok : a.okAt.get sh = false) (hgrant : loadGranted x sh a.mbx = true) :
    shedLoaded sh d (x, l) = if d = (x.tt.banks.get a.bank).digest then
        (announceFlip (dropLoadGrant sh a.mbx (setTt (fun t => { t with act := some { a with okAt := a.okAt.set sh true } }) x)), l)
      else if a.loads.get sh = 0 then (setTt (fun t => { t with act := some { a with loads := a.loads.set sh 1 } }) x, l)
      else activationFails a stOk ttShedDigest (raise .yard evShedDiverge x, l) := by
  have hret : ¬ ((x.trb.get sh).st == .returning && (x.trb.get sh).step == 4) = true := by simp [hst]
  unfold shedLoaded
  simp only [hact]
  rw [if_neg hret, if_neg (by simp [hload, hworks, hok, hgrant])]

theorem dropLoadGrant_gone (sh : Nat) (m : Option Nat) (x : Mod) : loadGranted (dropLoadGrant sh m x) sh m = false := by
  simp only [loadGranted, dropLoadGrant, setPwr, List.any_eq_false]
  intro g hg hbad
  have hkept := (List.mem_filter.mp hg).2
  rw [hbad] at hkept
  exact absurd hkept (by decide)

/-- Where a flip's time is chosen, the activation keeps its bank and what has confirmed, and the power is as it was. -/
theorem announceFlip_effect {x : Mod} (h : x.tt.act = some a) :
    (∃ a', (announceFlip x).tt.act = some a' ∧ a'.bank = a.bank ∧ a'.okAt = a.okAt) ∧ (announceFlip x).pwr = x.pwr := by
  unfold announceFlip
  rw [h]
  dsimp only
  split
  · exact ⟨⟨_, rfl, rfl, rfl⟩, rfl⟩
  · exact ⟨⟨a, h, rfl, rfl⟩, rfl⟩

end Load

/-- Settles O33: the tests in their order, then the leave; a load is judged by its digest. -/
theorem activationsAreAsked : Obligations.ActivationsAreAsked := by
  refine ⟨fun n s ha hr => ?_, fun sh d a s ha hst hact hload hworks hok hgrant => ⟨fun hd => ?_, fun hd h0 => ?_, fun hd h0 => ?_⟩⟩
  · intro q k bank stale x0 ask hlen hk hz
    have hask : ask = activationAsked n s.mod := rfl
    clear_value ask
    subst hask
    have hmode := ttActivateCmd_mode (n := n) (x := s.mod) (l := s.mem) hlen hk hz
    refine ⟨fun hno => ends_of _ rfl ha hr (hmode.trans (if_neg hno)), fun hin => ?_⟩
    rw [if_pos hin] at hmode
    refine ⟨fun hon => ends_of _ rfl ha hr (hmode.trans (if_pos hon)), fun hoff hdr => ?_, fun hoff hdr => ?_⟩
    · rw [if_neg (by rw [hoff]; decide), tryActivate_drains hdr] at hmode
      exact answersBuf_onCommand _ rfl ha hr hmode ⟨rfl, rfl⟩
    rw [if_neg (by rw [hoff]; decide), tryActivate_tests hdr hr.2.2.2] at hmode
    obtain ⟨htt, hquiet⟩ := activationAsked_effect n s.mod
    refine ⟨fun hst => ?_, fun hst hmm => ?_, fun hst hseq hdig => ?_⟩
    · have hres : activateRefusal s.mod q = ttNotValid := if_pos hst
      rw [hres] at hmode
      exact ends_of _ rfl ha hr hmode
    · have hres : activateRefusal s.mod q = ttMismatch := (if_neg (not_not.mpr hst)).trans (if_pos hmm)
      rw [hres] at hmode
      exact ends_of _ rfl ha hr hmode
    have htest : activateRefusal s.mod q = if stale = true then ttStale else 0 :=
      (if_neg (not_not.mpr hst)).trans (if_neg (not_or.mpr ⟨not_not.mpr hseq, not_not.mpr hdig⟩))
    refine ⟨fun hstale => ?_, fun hstale hyes hnow => ?_, fun hstale hyes hwait => ?_, fun hstale hno => ?_⟩
    · rw [htest, if_pos hstale] at hmode
      exact ends_of _ rfl ha hr hmode
    all_goals
      have h0 : activateRefusal s.mod q = 0 := htest.trans (if_neg (by rw [hstale]; decide))
      rw [if_neg (not_not.mpr h0)] at hmode
    · rw [if_neg (by rw [hyes]; decide), if_pos hnow] at hmode
      exact answersBuf_onCommand _ rfl ha hr hmode ⟨rfl, rfl⟩
    · rw [if_neg (by rw [hyes]; decide), if_neg hwait] at hmode
      exact answersBuf_onCommand _ rfl ha hr hmode ⟨rfl, rfl⟩
    · rw [if_pos hno] at hmode
      obtain ⟨hact, -, hbanks, hevt, -⟩ := activationFails_effect (boxActivation n s.mod) stLeave 0 (activationAsked n s.mod).2 s.mem
      exact answersBuf_onCommand _ rfl ha hr hmode
        ⟨activationFails_replied rfl (hquiet.trans hr.2.2.2) _ _ _, hact, hbanks.trans ((congrArg TtSt.banks htt).trans rfl), hevt⟩
  all_goals
    refine answersBuf_of (shedLoaded sh d) rfl ha ?_
    rw [shedLoaded_judged hst hact hload hworks hok hgrant]
  · rw [if_pos hd]
    obtain ⟨⟨a', ha', hbank, hokAt⟩, hpwr⟩ := announceFlip_effect
      (x := dropLoadGrant sh a.mbx (setTt (fun t => { t with act := some { a with okAt := a.okAt.set sh true } }) s.mod)) rfl
    refine ⟨rfl, ⟨a', ha', hbank, hokAt⟩, ?_⟩
    have hgone := dropLoadGrant_gone sh a.mbx (setTt (fun t => { t with act := some { a with okAt := a.okAt.set sh true } }) s.mod)
    simp only [loadGranted, hpwr]
    exact hgone
  · rw [if_neg hd, if_pos h0]
    exact ⟨rfl, rfl⟩
  · rw [if_neg hd, if_neg h0]
    obtain ⟨hnone, hactive, -, hevt, hmono⟩ := activationFails_effect a stOk ttShedDigest (raise .yard evShedDiverge s.mod) s.mem
    exact ⟨hnone, hactive.trans (congrArg TtSt.active (Calm.raise (.refl s.mod)).tt), hmono _ _ (raise_evtSet _ _ _ (by decide)), hevt⟩

/-! ### Verification and the checks -/

/-- The end of a verification: the bank by its result, which is reported. -/
theorem endVerify_effect (k : Nat) (mem : List Host.Cell) (x : Mod) :
    let v := verifyImage x (bankImage x mem k) (x.tt.banks.get k).len false
    let m := endVerify k false mem x
    (m.tt.banks.get k).st = (if v.1.1 = ttOk then .valid else .invalid) ∧
      (v.1.1 = ttOk → (m.tt.banks.get k).seq = BitVec.ofNat 32 (leAt (bankImage x mem k) 8 4) ∧ (m.tt.banks.get k).sigChecked = v.2) ∧
      m.tt.verifyLog = reg [flag 31 (k == 1), at_ 24 7 v.1.1, at_ 16 8 v.1.2.1, min v.1.2.2 0xFFFF] ∧ evtSet .yard evVerified m = true := by
  intro v m
  generalize hv : v = w at *
  have hm : m = reportBank k w.1.1 w.1.2.1 w.1.2.2 (setBank k (fun b => if w.1.1 = ttOk then
      { b with
        st := .valid
        seq := BitVec.ofNat 32 (leAt (bankImage x mem k) 8 4)
        digest := digestOf (sliceOf (bankImage x mem k) 0x40 32)
        sigChecked := w.2
        mac := BitVec.ofNat 48 (beAt (bankImage x mem k) 0x18 6)
        content := some (Config.ttContent (bankImage x mem k)) }
      else { b with st := .invalid, content := none }) x) := by
    rw [← hv]
    rfl
  obtain ⟨hevt, htt⟩ := reportBank_reports k w.1.1 w.1.2.1 w.1.2.2 (setBank k (fun b => if w.1.1 = ttOk then
      { b with
        st := .valid
        seq := BitVec.ofNat 32 (leAt (bankImage x mem k) 8 4)
        digest := digestOf (sliceOf (bankImage x mem k) 0x40 32)
        sigChecked := w.2
        mac := BitVec.ofNat 48 (beAt (bankImage x mem k) 0x18 6)
        content := some (Config.ttContent (bankImage x mem k)) }
      else { b with st := .invalid, content := none }) x)
  rw [← hm] at hevt htt
  have hbank := (congrArg (fun t : TtSt => t.banks.get k) htt).trans (Map.get_upd_same _ _ _)
  refine ⟨?_, fun hok => ?_, (congrArg TtSt.verifyLog htt :), hevt⟩
  · rw [hbank]
    split <;> rfl
  · rw [hbank, if_pos hok]
    exact ⟨rfl, rfl⟩

/-! ### The start -/

/-- What decides leave for a load, but for the grants and the queue. -/
structure LeaveAsIn (x y : Mod) : Prop where
  holdup : y.pwr.holdup = x.pwr.holdup
  therm : y.pwr.therm = x.pwr.therm
  doms : y.pwr.doms = x.pwr.doms
  inlets : y.pwr.a = x.pwr.a ∧ y.pwr.b = x.pwr.b

theorem LeaveAsIn.committedRun {x y : Mod} (h : LeaveAsIn x y) : committedRun y = committedRun x := by
  have hdraws : domDraws y = domDraws x := by
    funext d
    simp only [domDraws, domSt, h.doms]
  simp only [Machine.committedRun, hdraws]

theorem LeaveAsIn.budget {x y : Mod} (h : LeaveAsIn x y) : budget y = budget x := by
  simp only [Machine.budget, h.inlets.1, h.inlets.2]

/-- Leave for a load is granted or waits where neither hold-up, nor the queue, nor heat, nor the budget speaks against it. -/
theorem askLeave_given {x : Mod} {u : Nat} (hh : x.pwr.holdup = none) (hq : x.pwr.queue.length < 32) (ht : (x.pwr.therm.get u).state < 2)
    (hb : committedRun x + leaveEst 5 ≤ budget x) : (∀ r, (askLeave 5 u none x).1 ≠ .refused r) ∧
    LeaveAsIn x (askLeave 5 u none x).2 ∧ (askLeave 5 u none x).2.pwr.queue.length ≤ x.pwr.queue.length + 1 ∧
    (askLeave 5 u none x).2.pwr.stage = x.pwr.stage ∧ (askLeave 5 u none x).2.mode = x.mode ∧ (askLeave 5 u none x).2.tt = x.tt ∧
    (askLeave 5 u none x).2.evts = x.evts := by
  have hdecide : decideLeave x 5 u = .granted x.pwr.nextId ∨ decideLeave x 5 u = .queued x.pwr.nextId := by
    have htherm : (leaveSheds 5 u).any (fun k => 2 ≤ (x.pwr.therm.get k).state) = false := by
      simpa [leaveSheds] using ht
    unfold decideLeave
    rw [if_neg (by rw [hh]; decide), if_neg (Nat.not_le.mpr hq), if_neg (by rw [htherm, Bool.and_false]; decide)]
    split
    · exact .inl rfl
    · exact .inr rfl
  unfold askLeave
  rcases hdecide with h | h <;> rw [h]
  · exact ⟨fun r => Leave.noConfusion, ⟨rfl, rfl, rfl, rfl, rfl⟩, Nat.le_succ _, rfl, rfl, rfl, rfl⟩
  · exact ⟨fun r => Leave.noConfusion, ⟨rfl, rfl, rfl, rfl, rfl⟩, by simp [tally, count], rfl, rfl, rfl, rfl⟩

/-- With room in the queue for every shed, the loads of the start are granted or wait. -/
theorem startLoads_given {a : Activation} (us : List Nat) {x : Mod} (l : List Host.Cell) (hh : x.pwr.holdup = none)
    (hq : x.pwr.queue.length + us.length ≤ 32) (ht : ∀ u ∈ us, (x.pwr.therm.get u).state < 2)
    (hb : committedRun x + leaveEst 5 ≤ budget x) : (startLoads a us (x, l)).2 = l ∧ (startLoads a us (x, l)).1.pwr.stage = x.pwr.stage ∧
    (startLoads a us (x, l)).1.mode = x.mode ∧ (startLoads a us (x, l)).1.tt = x.tt ∧ (startLoads a us (x, l)).1.evts = x.evts := by
  induction us generalizing x with
  | nil => exact ⟨rfl, rfl, rfl, rfl, rfl⟩
  | cons u t ih =>
    rw [List.length_cons] at hq
    obtain ⟨hu, ht⟩ := List.forall_mem_cons.mp ht
    obtain ⟨hgiven, hsame, hlen, hstage, hmode, htt, hevts⟩ := askLeave_given hh (by omega) hu hb
    have hgo : startLoads a (u :: t) (x, l) = startLoads a t ((askLeave 5 u none x).2, l) := by
      rw [startLoads]
      cases hask : askLeave 5 u none x with
      | mk r y =>
        rw [hask] at hgiven
        cases r with
        | granted id => rfl
        | queued id => rfl
        | refused k => exact absurd rfl (hgiven k)
    obtain ⟨h1, h2, h3, h4, h5⟩ := ih (x := (askLeave 5 u none x).2) (hsame.holdup.trans hh) (by omega)
      (fun k hk => by rw [hsame.therm]; exact ht k hk) (by rw [hsame.committedRun, hsame.budget]; exact hb)
    rw [hgo]
    exact ⟨h1, h2.trans hstage, h3.trans hmode, h4.trans htt, h5.trans hevts⟩

theorem enterMode_mode (m : Mode) (c : Nat) (x : Mod) : (enterMode m c x).mode.mode = m := by
  unfold enterMode
  dsimp only
  split
  · simp only [notify_keeps]
  · rfl

section Start
variable {x : Mod} {l : List Host.Cell}

/-- At stage 9, the verifications done and no activation on, with no bank to choose. -/
theorem startActivates_none (hm : x.mode.mode = .harnessing) (h9 : x.pwr.stage = 9) (hd : x.tt.startDone = true) (ha : x.tt.act = none)
    (hc : startChoice x = none) : startActivates (x, l) =
      (setStage 14 (enterMode .quiesced 3 (notify (ttNote (raise .yard evNoneValid x)) (raise .yard evNoneValid x))), l) := by
  simp only [startActivates, hc]
  exact if_neg (by simp [hm, h9, hd, ha])

/-- The same with a bank chosen. -/
theorem startActivates_some {k : Nat} {u : Bool} (hm : x.mode.mode = .harnessing) (h9 : x.pwr.stage = 9) (hd : x.tt.startDone = true)
    (ha : x.tt.act = none) (hc : startChoice x = some (k, u)) : startActivates (x, l) =
      startLoads { bank := k, mbx := none, loading := true } (workingSheds (if u then raise .yard evSeqUnordered x else x))
        (setStage 10 (setTt (fun t => { t with act := some { bank := k, mbx := none, loading := true } })
          (if u then raise .yard evSeqUnordered x else x)), l) := by
  simp only [startActivates, hc]
  exact if_neg (by simp [hm, h9, hd, ha])

end Start

/-- Settles O35: each check is made when it is due, and the start's loads find their leave. -/
theorem timetablesAreChecked : Obligations.TimetablesAreChecked := by
  refine ⟨fun k s ha hstart hst => ?_, fun k s ha hact hup hat => ?_, fun t s ha hmm hmode ht hraised hon hother => ?_,
    fun s ha hmode h9 hdone hact => ⟨fun hnone => ?_, fun k u hchoice hh hq ht hb => ?_⟩⟩
  · refine answersBuf_of (verificationEnds k) rfl ha ?_
    have hend : verificationEnds k (s.mod, s.mem) = (endVerify k false s.mem s.mod, s.mem) := by
      simp only [verificationEnds, hstart, hst]
      rfl
    rw [hend]
    obtain ⟨h1, h2, h3, h4⟩ := endVerify_effect k s.mem s.mod
    exact ⟨rfl, ⟨h1, h2, h3⟩, h4⟩
  · refine answers_of checkDigests rfl ha ?_
    have hcheck : checkDigests s.mod = if (List.range 8).any (fun sh => shedWorks s.mod sh &&
        (s.mod.tt.sheds.get sh).digest != (s.mod.tt.banks.get k).digest) then
          raise .yard evShedDiverge (setTt (fun t => { t with digestAt := some s.mod.now }) s.mod)
        else setTt (fun t => { t with digestAt := some s.mod.now }) s.mod := by
      unfold checkDigests
      cases hd : s.mod.tt.digestAt with
      | none => simp only [hact, hup, Bool.not_true, Bool.or_self, Bool.false_eq_true, if_false]
      | some t =>
        have hp := hat t hd
        simp only [hact, hup, hp, Bool.not_true, Bool.or_self, Bool.false_eq_true, if_false]
    rw [hcheck]
    refine ⟨fun hdiff => ?_, fun hsame => ?_⟩
    · rw [if_pos hdiff]
      exact ⟨raise_evtSet _ _ _ (by decide), congrArg TtSt.digestAt (Calm.raise (.refl _)).tt⟩
    · rw [if_neg (by rw [hsame]; decide)]
  · refine answers_of partnerMismatches rfl ha ?_
    let x1 := raise .yard evPartnerMismatch (setCpl (fun c => { c with mmRaised := true }) s.mod)
    have hmis : partnerMismatches s.mod = notify (ttNote x1) x1 := by
      unfold partnerMismatches
      cases hp : s.mod.cpl.partner with
      | none =>
        simp only [hmm]
        exact if_pos (by simp [hmode, ht, hraised, hon])
      | some p =>
        have hact : p.activating = false := by rw [hp] at hother; exact hother
        simp only [hmm]
        exact if_pos (by simp [hmode, ht, hraised, hon, hact])
    rw [hmis]
    refine ⟨notify_evtSet_mono _ _ _ _ (raise_evtSet _ _ _ (by decide)), ?_⟩
    simp only [notify_keeps, x1, raise_keeps]
    rfl
  · refine answersBuf_of startActivates rfl ha ?_
    rw [startActivates_none hmode h9 hdone hact hnone]
    refine ⟨rfl, enterMode_mode .quiesced 3 _, ?_⟩
    exact (Calm.setStage (.enterMode (.notify (.refl _)))).evts _ _ (raise_evtSet .yard evNoneValid s.mod (by decide))
  · refine answersBuf_of startActivates rfl ha ?_
    rw [startActivates_some hmode h9 hdone hact hchoice]
    generalize hx : (if u = true then raise .yard evSeqUnordered s.mod else s.mod) = x1
    have hkeeps : x1.pwr = s.mod.pwr ∧ x1.mode = s.mod.mode ∧ x1.trb = s.mod.trb ∧ x1.tt = s.mod.tt ∧
        (u = true → evtSet .yard evSeqUnordered x1 = true) := by
      subst hx
      cases u with
      | true => exact ⟨by simp only [if_true, raise_keeps], by simp only [if_true, raise_keeps], by simp only [if_true, raise_keeps],
          by simp only [if_true, raise_keeps], fun _ => raise_evtSet _ _ _ (by decide)⟩
      | false => exact ⟨rfl, rfl, rfl, rfl, fun h => absurd h (by decide)⟩
    obtain ⟨hpwr, hmode1, htrb, htt, hevt⟩ := hkeeps
    have hsheds : workingSheds x1 = workingSheds s.mod := by
      have hworks : shedWorks x1 = shedWorks s.mod := by
        funext j
        simp only [shedWorks, htrb]
      simp only [workingSheds, hworks]
    have hasin : LeaveAsIn s.mod (setStage 10 (setTt (fun t => { t with act := some { bank := k, mbx := none, loading := true } }) x1)) := by
      refine ⟨?_, ?_, ?_, ?_, ?_⟩
      · exact (congrArg Pwr.holdup hpwr :)
      · exact (congrArg Pwr.therm hpwr :)
      · exact (congrArg Pwr.doms hpwr :)
      · exact (congrArg Pwr.a hpwr :)
      · exact (congrArg Pwr.b hpwr :)
    have hqueue : (setStage 10 (setTt (fun t => { t with act := some { bank := k, mbx := none, loading := true } }) x1)).pwr.queue =
        s.mod.pwr.queue := (congrArg Pwr.queue hpwr :)
    rw [hsheds]
    obtain ⟨h1, h2, h3, h4, h5⟩ := startLoads_given (a := { bank := k, mbx := none, loading := true }) (workingSheds s.mod) s.mem
      (hasin.holdup.trans hh) (by rw [hqueue]; exact hq) (fun j hj => by rw [hasin.therm]; exact ht j hj)
      (by rw [hasin.committedRun, hasin.budget]; exact hb)
    refine ⟨h1, h3.trans hmode1, h2, (congrArg TtSt.act h4).trans rfl, (congrArg TtSt.banks h4).trans (congrArg TtSt.banks htt :), fun hu => ?_⟩
    rw [evtSet, h5]
    exact hevt hu

end Sys2Proof.Machine
end

section
/-! Proofs about the mailboxes: rings, taking, starting and deadlines, notifications, the host watchdog and sessions (12 R381 to R394,
R400). -/

namespace Sys2Proof.Machine

-- One theorem at a time: each thread that elaborates another reserves a stack, and their sum has a limit.
set_option Elab.async false

/-! ### Doorbells -/

/-- A ring restarts the watchdog's count, and changes nothing else. -/
theorem ringWatchdog_eq (x : Mod) : ringWatchdog x =
    { x with dax := { x.dax with wdogFrom := if x.dax.wdogMs = 0 then x.dax.wdogFrom else some x.now } } := by
  unfold ringWatchdog
  split <;> rfl

theorem doorbell_pending {n : Nat} {x : Mod} (h : (x.dax.boxes.get n).shown = .idle ∨ (x.dax.boxes.get n).shown = .done) :
    doorbell n x = setBox n (fun b => { b with ring := true, rung := if b.ring then b.rung else x.now }) (ringWatchdog x) := by
  unfold doorbell
  rcases h with h | h <;> rw [h]

theorem doorbell_busy {n : Nat} {x : Mod} (h : (x.dax.boxes.get n).shown ∈ [.taken, .running, .extended]) :
    doorbell n x = raise .yard evDoorbellBusy (ringWatchdog x) := by
  simp only [List.mem_cons, List.not_mem_nil, or_false] at h
  unfold doorbell
  rcases h with h | h | h <;> rw [h]

/-! ### Taking a request -/

/-- The request in a message buffer. -/
abbrev bufferReq (n : Nat) (l : List Host.Cell) : List Byte := Memory.reads l (mbxBase n) 3968

theorem takeOne_new {n : Nat} {x : Mod} {l : List Host.Cell}
    (h : ∀ k ∈ (x.dax.boxes.get n).stored, k.1 ≠ BitVec.ofNat 32 (leAt (bufferReq n l) 4 4)) :
    takeOne n (x, l) = (setBox n (fun b => {
        st := .taken
        seq := BitVec.ofNat 32 (leAt (bufferReq n l) 4 4)
        req := bufferReq n l
        order := x.dax.taken
        stored := b.stored
        due := x.now + ms (classMs (opcodeClass (leAt (bufferReq n l) 2 2))) })
      { x with dax := { x.dax with taken := x.dax.taken + 1 } }, l) := by
  have hnone : (x.dax.boxes.get n).stored.filter (fun k => k.1 == BitVec.ofNat 32 (leAt (bufferReq n l) 4 4)) = none := by
    cases hs : (x.dax.boxes.get n).stored with
    | none => rfl
    | some k => simpa [Option.filter] using h k hs
  simp only [takeOne, hnone]

theorem takeOne_repeat {n : Nat} {x : Mod} {l : List Host.Cell} {st : Nat} {bytes : List Byte}
    (h : (x.dax.boxes.get n).stored = some (BitVec.ofNat 32 (leAt (bufferReq n l) 4 4), st, bytes)) :
    takeOne n (x, l) = (signal n (setBox n (fun b => { b with
        ring := false
        st := .done
        seq := BitVec.ofNat 32 (leAt (bufferReq n l) 4 4)
        status := st }) x), Memory.writes l (mbxBase n) bytes) := by
  have hsome : (x.dax.boxes.get n).stored.filter (fun k => k.1 == BitVec.ofNat 32 (leAt (bufferReq n l) 4 4)) =
      some (BitVec.ofNat 32 (leAt (bufferReq n l) 4 4), st, bytes) := by
    rw [h]
    exact Option.filter_some_pos (by simp)
  simp only [takeOne, hsome]

/-- Taking a request ends its ring, and leaves the other mailboxes as they were. -/
theorem takeOne_ring (n : Nat) (y : Mod × List Host.Cell) : ((takeOne n y).1.dax.boxes.get n).ring = false ∧
    ∀ k, k ≠ n → (takeOne n y).1.dax.boxes.get k = y.1.dax.boxes.get k := by
  obtain ⟨x, l⟩ := y
  simp only [takeOne]
  generalize Memory.reads l (mbxBase n) 3968 = req
  split
  · simp only [signal_keeps, setBox_same]
    exact ⟨trivial, fun k hk => Map.get_upd_other _ hk _⟩
  · simp only [setBox_same]
    exact ⟨trivial, fun k hk => Map.get_upd_other _ hk _⟩

theorem takeAll_ring (l : List Nat) (y : Mod × List Host.Cell) {k : Nat} (h : k ∈ l ∨ (y.1.dax.boxes.get k).ring = false) :
    ((l.foldl (fun z j => takeOne j z) y).1.dax.boxes.get k).ring = false := by
  induction l generalizing y with
  | nil => exact h.resolve_left (by simp)
  | cons a t ih =>
    refine ih _ ?_
    obtain ⟨hring, hother⟩ := takeOne_ring a y
    by_cases hk : k = a
    · subst hk
      exact .inr hring
    · exact h.imp (fun hm => (List.mem_cons.mp hm).resolve_left hk) (fun hm => (congrArg Mailbox.ring (hother k hk)).trans hm)

/-- A pending request is taken while Foltin runs: alone, or with the rings of its cycle. -/
theorem takeCommand_takes {n : Nat} {y : Mod × List Host.Cell} (hup : y.1.dax.up = true) (hring : (y.1.dax.boxes.get n).ring = true)
    (hbusy : (y.1.dax.boxes.get n).busy = false) :
    (ringsWith y.1 n = [n] → takeCommand n y = takeOne n y) ∧
    ∀ k rest, ringsWith y.1 n = k :: rest → rest ≠ [] → takeCommand n y =
      ({ ((k :: rest).foldl (fun z j => takeOne j z) y).1 with dax := { ((k :: rest).foldl (fun z j => takeOne j z) y).1.dax with
        boxPtr := (k + 1) % 15 } }, ((k :: rest).foldl (fun z j => takeOne j z) y).2) := by
  have hgo : ¬ (!(y.1.dax.up && (y.1.dax.boxes.get n).ring && !(y.1.dax.boxes.get n).busy)) = true := by simp [hup, hring, hbusy]
  refine ⟨fun h => ?_, fun k rest h hne => ?_⟩
  · simp only [takeCommand, h]
    exact if_neg hgo
  · obtain ⟨a, t, rfl⟩ := List.exists_cons_of_ne_nil hne
    simp only [takeCommand, h]
    exact if_neg hgo

/-! ### Starting and deadlines -/

/-- What the header of a request has out of range. -/
def startBad (b : Mailbox) : Prop := 3952 < b.len ∨ leAt b.req 10 1 ≠ 0 ∨ leAt b.req 11 1 ≠ 0 ∨ leAt b.req 12 4 ≠ 0

/-- The header's version. -/
abbrev headerVersion (b : Mailbox) : Nat × Nat := (leAt b.req 1 1, leAt b.req 0 1)

/-- The checks of a taken command that may run, in their order. -/
theorem startCommand_checks {n : Nat} {x : Mod} (l : List Host.Cell) (hup : x.dax.up = true) (hst : (x.dax.boxes.get n).st = .taken)
    (hm : mayStart x n = true) [Decidable (startBad (x.dax.boxes.get n))] : startCommand n (x, l) =
    if (x.dax.boxes.get n).opcode ≠ 1 ∧ x.dax.version ≠ some (headerVersion (x.dax.boxes.get n)) then fail n stVersion (x, l)
    else if opcodeIn (x.dax.version.getD (3, 2)) (x.dax.boxes.get n).opcode = false then fail n stUnknown (x, l)
    else if startBad (x.dax.boxes.get n) then fail n stInvalid (x, l)
    else if opcodeClass (x.dax.boxes.get n).opcode = 2 ∧ classCRuns x n = true then fail n stBusy (x, l)
    else (setBox n (fun b => { b with st := .running }) x, l) := by
  have hgo : ¬ (!(x.dax.up && (x.dax.boxes.get n).st == .taken && mayStart x n)) = true := by simp [hup, hst, hm]
  have hbad : (3952 < (x.dax.boxes.get n).len || leAt (x.dax.boxes.get n).req 10 1 ≠ 0 || leAt (x.dax.boxes.get n).req 11 1 ≠ 0 ||
      leAt (x.dax.boxes.get n).req 12 4 ≠ 0) = true ↔ startBad (x.dax.boxes.get n) := by
    simp only [startBad, Bool.or_eq_true, decide_eq_true_eq, or_assoc]
  unfold startCommand
  dsimp only
  rw [if_neg hgo]
  refine if_congr (by simp) rfl (if_congr (by simp) rfl (if_congr hbad rfl (if_congr (by simp) rfl rfl)))

theorem deadline_passes {n : Nat} {x : Mod} (l : List Host.Cell) (hup : x.dax.up = true) (hb : (x.dax.boxes.get n).busy = true)
    (hd : (x.dax.boxes.get n).due < x.now) (hq : (x.dax.boxes.get n).quiet = false) :
    ∃ est, est ≤ classMs (opcodeClass (x.dax.boxes.get n).opcode) ∧ deadline n (x, l) =
      (signal n (setBox n (fun b => { b with st := .extended, status := stExtended, due := x.now + ms est, extended := true }) (drawNat x).2),
        Memory.writes l (mbxBase n) (replyHeader x.dax.version (x.dax.boxes.get n).opcode (x.dax.boxes.get n).reqSeq 0 stExtended est)) := by
  refine ⟨(drawNat x).1 % (classMs (opcodeClass (x.dax.boxes.get n).opcode) + 1), Nat.lt_succ_iff.mp (Nat.mod_lt _ (Nat.succ_pos _)), ?_⟩
  have hgo : ¬ (!(x.dax.up && (x.dax.boxes.get n).busy && decide ((x.dax.boxes.get n).due < x.now))) = true := by simp [hup, hb, hd]
  unfold deadline
  dsimp only
  rw [if_neg hgo, if_neg (by rw [hq]; decide)]

/-- Settles O37: a ring is pending, taken by its SEQ, checked in the order of the header, and extended at its deadline. -/
theorem requestsAreTakenAndStart : Obligations.RequestsAreTakenAndStart := by
  refine ⟨fun n s ha hn => ⟨fun h => ?_, fun h => ?_⟩, fun n s ha hup hring hbusy hone => ?_, fun n k rest s ha hup hring hbusy hlist hne => ?_,
    fun n s ha hup hst hm => ?_, fun n s ha hup hb hd hq => ?_⟩
  · refine answers_of (fun x => if n = 15 then ackNotif x else doorbell n x) rfl ha ?_
    rw [if_neg (by omega), doorbell_pending h, ringWatchdog_eq]
    exact ⟨congrArg Mailbox.ring (setBox_same n _ _), rfl, rfl⟩
  · refine answers_of (fun x => if n = 15 then ackNotif x else doorbell n x) rfl ha ?_
    rw [if_neg (by omega), doorbell_busy h, ringWatchdog_eq]
    refine ⟨raise_evtSet _ _ _ (by decide), ?_, ?_⟩ <;> simp only [raise_keeps]
  · intro req seq
    have htake := (takeCommand_takes (y := (s.mod, s.mem)) hup hring hbusy).1 hone
    refine ⟨fun hnew => ?_, fun st bytes hstored => ?_⟩
    · refine answersBuf_of (takeCommand n) rfl ha ?_
      rw [htake, takeOne_new hnew]
      simp only [setBox_same, req, seq, and_self]
    · refine answersBuf_of (takeCommand n) rfl ha ?_
      rw [htake, takeOne_repeat hstored]
      simp only [replied, signal_keeps, setBox_same, and_self, true_and, and_true]
      rfl
  · refine answersBuf_of (takeCommand n) rfl ha ?_
    rw [(takeCommand_takes (y := (s.mod, s.mem)) hup hring hbusy).2 k rest hlist hne]
    exact ⟨rfl, fun j hj => takeAll_ring (k :: rest) (s.mod, s.mem) (.inl hj)⟩
  · intro b v bad known
    have := Classical.propDecidable (startBad (s.mod.dax.boxes.get n))
    have hchecks := startCommand_checks s.mem hup hst hm
    have hends : ∀ st, startCommand n (s.mod, s.mem) = fail n st (s.mod, s.mem) → Ends (.commandStart n) s n st [] s.mod := fun st h =>
      (cmdAll_arrives _ (startCommand n) s ha).trans (by rw [h]; rfl)
    refine ⟨fun h1 hv => hends _ (hchecks.trans (if_pos ⟨h1, hv⟩)), fun hok => ?_⟩
    rw [if_neg fun h => hok.elim h.1 h.2] at hchecks
    refine ⟨fun hk => hends _ (hchecks.trans (if_pos hk)), fun hk hbad => ?_, fun hk hgood h2 hc => ?_, fun hk hgood hc => ?_⟩
    all_goals rw [if_neg (by rw [show opcodeIn _ _ = true from hk]; decide)] at hchecks
    · exact hends _ (hchecks.trans (if_pos hbad))
    · exact hends _ ((hchecks.trans (if_neg hgood)).trans (if_pos ⟨h2, hc⟩))
    · refine answersBuf_of (startCommand n) rfl ha ?_
      rw [hchecks, if_neg (show ¬ startBad (s.mod.dax.boxes.get n) from hgood), if_neg fun h => hc.elim (fun k => k h.1) (fun k => by rw [h.2] at k; exact absurd k (by decide))]
      exact ⟨rfl, rfl⟩
  · obtain ⟨est, hest, hd⟩ := deadline_passes s.mem hup hb hd hq
    refine answersBuf_of (deadline n) rfl ha ?_
    rw [hd]
    simp only [signal_keeps, setBox_same]
    exact ⟨trivial, trivial, est, hest, rfl, rfl⟩

/-! ### Notifications, the watchdog and sessions -/

/-- A posted notification is acknowledged. -/
theorem ackNotif_posted {x : Mod} (hp : x.dax.posted = true) : (ackNotif x).dax.posted = false ∧ ((ackNotif x).dax.boxes.get 15).st = .idle ∧
    (ackNotif x).dax.notifs = (if x.dax.postedLost = 0 then x.dax.notifs.drop 1 else x.dax.notifs) ∧
    (ackNotif x).dax.notifLost = x.dax.notifLost - x.dax.postedLost ∧ (x.dax.wdogMs ≠ 0 → (ackNotif x).dax.wdogFrom = some x.now) := by
  have hack : ackNotif x = setBox 15 (fun b => { b with st := .idle }) { ringWatchdog x with dax := { (ringWatchdog x).dax with
      posted := false
      postedLost := 0
      notifLost := (ringWatchdog x).dax.notifLost - (ringWatchdog x).dax.postedLost
      notifs := if (ringWatchdog x).dax.postedLost = 0 then (ringWatchdog x).dax.notifs.drop 1 else (ringWatchdog x).dax.notifs } } := by
    simp only [ackNotif, hp, if_true]
  rw [hack, ringWatchdog_eq]
  exact ⟨rfl, congrArg Mailbox.st (setBox_same 15 _ _), rfl, rfl, fun h => if_neg h⟩

theorem showNotif_shows (n : Notif) (x : Mod) (l : List Host.Cell) : (showNotif n x l).1.dax.posted = true ∧
    (showNotif n x l).1.dax.notifSeq = x.dax.notifSeq + 1 ∧ replied (showNotif n x l).1 15 0 ∧
    ((showNotif n x l).1.dax.boxes.get 15).seq = x.dax.notifSeq + 1 ∧ (showNotif n x l).1.dax.notifs = x.dax.notifs ∧
    (showNotif n x l).1.dax.postedLost = x.dax.postedLost ∧
    (showNotif n x l).2 = Memory.writes l (mbxBase 15) (notifBytes x (x.dax.notifSeq + 1) n) := by
  unfold showNotif
  simp only [replied, signal_keeps, setBox_same]
  exact ⟨rfl, rfl, ⟨trivial, trivial⟩, trivial, rfl, rfl, trivial⟩

/-- A HELLO passes its form, and then goes by the versions. -/
theorem helloCmd_form {n : Nat} {x : Mod} {l : List Host.Cell} {b : Mailbox} :
    (b.len ≠ 8 ∨ 1 < leAt b.body 3 1 ∨ leAt b.body 4 4 ≠ 0 → helloCmd n b (x, l) = fail n stInvalid (x, l)) ∧
    (¬ (b.len ≠ 8 ∨ 1 < leAt b.body 3 1 ∨ leAt b.body 4 4 ≠ 0) →
      (negotiate (leAt b.body 1 1) (leAt b.body 0 1) (leAt b.body 2 1) = none →
        helloCmd n b (x, l) = complete n stVersion (helloReply (0, 0) 0) (x, l)) ∧
      ∀ v, negotiate (leAt b.body 1 1) (leAt b.body 0 1) (leAt b.body 2 1) = some v → helloCmd n b (x, l) =
        if (List.range 15).any (fun k => k != n && (x.dax.boxes.get k).busy && !(x.dax.boxes.get k).quiet) && leAt b.body 3 1 = 0 then
          fail n stBusy (x, l)
        else
          let y := complete n stOk (helloReply v (nextSession x.dax.sessions)) (clearStored (abandonOthers n { x with dax := { x.dax with
            version := some v
            session := nextSession x.dax.sessions
            sessions := nextSession x.dax.sessions } }), l)
          (setBox n (fun b => { b with stored := none }) y.1, y.2)) := by
  have hform : (b.len ≠ 8 || leAt b.body 3 1 / 2 ≠ 0 || leAt b.body 4 4 ≠ 0) = true ↔
      (b.len ≠ 8 ∨ 1 < leAt b.body 3 1 ∨ leAt b.body 4 4 ≠ 0) := by
    simp only [Bool.or_eq_true, decide_eq_true_eq, or_assoc]
    refine or_congr Iff.rfl (or_congr ?_ Iff.rfl)
    omega
  refine ⟨fun hbad => if_pos (hform.mpr hbad), fun hok => ⟨fun hv => ?_, fun v hv => ?_⟩⟩
  · simp only [helloCmd, hv]
    exact if_neg fun h => hok (hform.mp h)
  · simp only [helloCmd, hv]
    exact if_neg fun h => hok (hform.mp h)

/-- A map's listed entries are changed, and its default is not. -/
theorem Map.get_mapEnts_cases {κ ν : Type} [DecidableEq κ] (m : Map κ ν) (f : κ → ν → ν) (k : κ) :
    (m.mapEnts f).get k = f k (m.get k) ∨ (m.mapEnts f).get k = m.get k := by
  cases h : Map.look k m.ents with
  | none => exact .inr (by simp [Map.get, Map.mapEnts, Map.look_map, h])
  | some v => exact .inl (by simp [Map.get, Map.mapEnts, Map.look_map, h])

/-- The mailbox of a HELLO is neither abandoned nor silenced by it. -/
theorem helloBox_quiet (n : Nat) (x : Mod) : ((clearStored (abandonOthers n x)).dax.boxes.get n).quiet = (x.dax.boxes.get n).quiet := by
  have habandon : (abandonOthers n x).dax.boxes.get n = x.dax.boxes.get n := by
    rcases Map.get_mapEnts_cases x.dax.boxes (fun k b => if k ≠ n && k ≠ 15 && b.busy then { b with quiet := true, status := stAbandoned } else b) n
      with h | h
    · exact h.trans (if_neg (by simp))
    · exact h
  rw [← habandon]
  rcases Map.get_mapEnts_cases (abandonOthers n x).dax.boxes (fun _ b => { b with stored := none }) n with h | h
  · exact (congrArg Mailbox.quiet h :)
  · exact (congrArg Mailbox.quiet h :)

theorem nextSession_ne_zero (n : Nat) : nextSession n ≠ 0 := by
  unfold nextSession
  split
  · decide
  · assumption

/-- A reply leaves the session as it is. -/
theorem complete_session (n st : Nat) (body : List Byte) (y : Mod × List Host.Cell) :
    (complete n st body y).1.dax.version = y.1.dax.version ∧ (complete n st body y).1.dax.session = y.1.dax.session := by
  obtain ⟨x, b⟩ := y
  cases hq : (x.dax.boxes.get n).quiet with
  | true => rw [complete_quiet hq]; exact ⟨rfl, rfl⟩
  | false =>
    rw [complete_heard hq]
    simp only [signal_keeps]
    exact ⟨rfl, rfl⟩

/-- Settles O39: the queue is shown from its front, the watchdog counts from the last ring, and a HELLO opens a new session. -/
theorem notificationsAndSessions : Obligations.NotificationsAndSessions := by
  refine ⟨fun s ha hup hpost hv hsome => ?_, fun s ha hp => ?_, fun s ha hp => ?_, fun t s ha hring hfrom hms hpass => ?_, fun v s ha => ?_,
    fun n s ha hr => ?_, fun n s ha hr => ?_⟩
  · refine answersBuf_of postNotif rfl ha ?_
    have hgo : ¬ (!s.mod.dax.up || s.mod.dax.posted || s.mod.dax.version.isNone) = true := by
      simp [hup, hpost, Option.isNone_iff_eq_none, ← Option.isSome_iff_ne_none, hv]
    by_cases hlost : 0 < s.mod.dax.notifLost
    · have hshow : postNotif (s.mod, s.mem) =
          showNotif (lostNote s.mod) { s.mod with dax := { s.mod.dax with postedLost := s.mod.dax.notifLost } } s.mem := by
        unfold postNotif
        dsimp only
        rw [if_neg hgo, if_pos hlost]
      rw [hshow, if_pos hlost, if_pos hlost]
      exact showNotif_shows _ _ _
    · obtain ⟨a, t, hnotifs⟩ := List.exists_cons_of_ne_nil (hsome.resolve_left hlost)
      have hshow : postNotif (s.mod, s.mem) = showNotif a s.mod s.mem := by
        unfold postNotif
        dsimp only
        rw [if_neg hgo, if_neg hlost, hnotifs]
      rw [hshow, if_neg hlost, if_neg hlost]
      have hhead : s.mod.dax.notifs.headD (lostNote s.mod) = a := by rw [hnotifs]; rfl
      rw [hhead]
      exact showNotif_shows _ _ _
  · exact answers_of ackNotif rfl ha (ackNotif_posted hp)
  · exact answers_of (fun x => if (15 : Nat) = 15 then ackNotif x else doorbell 15 x) rfl ha (ackNotif_posted hp)
  · refine answers_of (fun x => if ringComes s.pending then x else hostSilentNow x) rfl ha ?_
    rw [if_neg (by rw [hring]; decide)]
    simp only [hostSilentNow, hfrom]
    rw [if_pos (by simp [hms, hpass])]
    refine ⟨notify_evtSet_mono _ _ _ _ (raise_evtSet _ _ _ (by decide)), ?_, ?_⟩ <;> simp only [notify_keeps, raise_keeps]
  · refine answers_of (writeWdog v) rfl ha ⟨rfl, fun h0 => ?_, fun h0 hne => ?_, rfl⟩
    · have hmin : min (fieldOf v 31 16) 60000 = 0 := by omega
      exact if_pos hmin
    · exact (if_neg h0).trans (if_neg hne)
  · intro q bad others
    have hform := helloCmd_form (n := n) (x := s.mod) (l := s.mem) (b := s.mod.dax.boxes.get n)
    refine ⟨fun hbad => ends_of _ rfl ha hr (hform.1 hbad), fun hok hv => ends_of _ rfl ha hr ((hform.2 hok).1 hv),
      fun hok v hv => ⟨fun hoth h0 => ?_, fun hfree => ?_⟩⟩
    · exact ends_of _ rfl ha hr (((hform.2 hok).2 v hv).trans (if_pos (by
        rw [Bool.and_eq_true, decide_eq_true_eq]
        exact ⟨hoth, h0⟩)))
    · have hgo : ¬ ((List.range 15).any (fun k => k != n && (s.mod.dax.boxes.get k).busy && !(s.mod.dax.boxes.get k).quiet) &&
          decide (leAt q 3 1 = 0)) = true := by
        rw [Bool.and_eq_true, decide_eq_true_eq]
        rintro ⟨hoth, h0⟩
        rcases hfree with h | h
        · exact absurd (hoth.symm.trans h) (by decide)
        · omega
      refine answersBuf_onCommand (helloCmd n) rfl ha hr (((hform.2 hok).2 v hv).trans (if_neg hgo)) ?_
      dsimp only
      generalize hx : ({ s.mod with dax := { s.mod.dax with
        version := some v
        session := nextSession s.mod.dax.sessions
        sessions := nextSession s.mod.dax.sessions } } : Mod) = x
      have hquiet : ((clearStored (abandonOthers n x)).dax.boxes.get n).quiet = false := by
        rw [helloBox_quiet, ← hx]
        exact hr.2.2.2
      have hsession : (clearStored (abandonOthers n x)).dax.version = some v ∧
          (clearStored (abandonOthers n x)).dax.session = nextSession s.mod.dax.sessions := by
        rw [← hx]
        exact ⟨rfl, rfl⟩
      obtain ⟨hst, hstatus⟩ := complete_replied hquiet stOk (helloReply v (nextSession s.mod.dax.sessions)) s.mem
      obtain ⟨hver, hses⟩ := complete_session n stOk (helloReply v (nextSession s.mod.dax.sessions)) (clearStored (abandonOthers n x), s.mem)
      generalize complete n stOk (helloReply v (nextSession s.mod.dax.sessions)) (clearStored (abandonOthers n x), s.mem) = y at *
      refine ⟨?_, hver.trans hsession.1, hses.trans hsession.2, ?_, ?_⟩
      · rw [replied, setBox_same]
        exact ⟨hst, hstatus⟩
      · exact ne_of_eq_of_ne (hses.trans hsession.2) (nextSession_ne_zero _)
      · exact congrArg Mailbox.stored (setBox_same n _ y.1)
  · refine ⟨fun h => ends_of (moduleInfoCmd n) rfl ha hr (if_pos h), fun h => ends_of (moduleInfoCmd n) rfl ha hr (if_neg (not_not.mpr h))⟩

end Sys2Proof.Machine
end

section
/-! What the end of frames and copies, table edits and ports going down leave unchanged. The relation `Still`: all but frames, cells,
queues, meters, tables, tickets, captures, counters, events and power is as it was; each operation has its lemma `Still.<operation>`. The
relation `Quiet` lets, besides, the transmissions and flow control of the ports change. -/

namespace Sys2Proof.Machine

-- One theorem at a time: each thread that elaborates another reserves a stack, and their sum has a limit.
set_option Elab.async false

/-- The part of the module that `Still` speaks of. -/
def stillPart (x : Mod) : Mod := { raised x {} with
  ctrs := .const {}
  pwr := {}
  cpl := { x.cpl with twins := .const (0, []) }
  frames := .const none
  tbl := {}
  tkt := .const {}
  loft := .const {}
  mesh := {}
  que := {}
  cap := {}
  ecc := [] }

/-- From `x` to `y` nothing changes but what the handling of frames and of edits owns. -/
def Still (x y : Mod) : Prop := stillPart y = stillPart x

theorem stillPart_raised (x m : Mod) : stillPart (raised x m) = stillPart x := rfl

theorem stillPart_offPower {x y : Mod} (h : offPower y = offPower x) : stillPart y = stillPart x :=
  (congrArg stillPart h : stillPart (offPower y) = stillPart (offPower x))

namespace Still

variable {x y z : Mod}

theorem refl (x : Mod) : Still x x := rfl

theorem trans (h : Still x y) (k : Still y z) : Still x z := Eq.trans k h

/-- An update of what `Still` does not speak of. -/
theorem same (h : Still x y) (e : stillPart z = stillPart y := by rfl) : Still x z := Eq.trans e h

theorem ite {c : Prop} [Decidable c] (h : Still x y) (k : Still x z) : Still x (if c then y else z) := by
  split
  · exact h
  · exact k

theorem foldl {β : Type} {f : Mod → β → Mod} {l : List β} (step : ∀ a e, Still x a → Still x (f a e)) (h : Still x y) :
    Still x (l.foldl f y) :=
  List.foldlRecOn l f h (fun a ha e _ => step a e ha)

theorem line (h : Still x y) : y.line = x.line := (congrArg Mod.line h :)

theorem now (h : Still x y) : y.now = x.now := (congrArg Mod.now h :)

theorem mode (h : Still x y) : y.mode = x.mode := (congrArg Mod.mode h :)

theorem tt (h : Still x y) : y.tt = x.tt := (congrArg Mod.tt h :)

theorem trb (h : Still x y) : y.trb = x.trb := (congrArg Mod.trb h :)

theorem raise {l : Level} {e : Evt} (h : Still x y) : Still x (raise l e y) := h.same (by rw [raise_raised, stillPart_raised])

theorem notify {n : Notif} (h : Still x y) : Still x (notify n y) := h.same (by rw [notify_raised, stillPart_raised])

theorem countPort {c : Nat → Nat → CtrId} {p i n : Nat} (h : Still x y) : Still x (countPort c p i n y) := .ite (.same h) h

theorem askWake {src d : Nat} (h : Still x y) : Still x (askWake src d y) := h.same (stillPart_offPower (askWake_offPower src d y))

theorem askLeave {op unit : Nat} {mbx : Option Nat} (h : Still x y) : Still x (askLeave op unit mbx y).2 :=
  h.same (stillPart_offPower (askLeave_offPower op unit mbx y))

theorem setLoft {s : Nat} {g : Loft → Loft} (h : Still x y) : Still x (setLoft s g y) := .same h

theorem setFrame {f : Nat} {g : Frame → Frame} (h : Still x y) : Still x (setFrame f g y) := .same h

theorem setHalf {s k : Nat} {g : Half → Half} (h : Still x y) : Still x (setHalf s k g y) := .same h

theorem setShaper {p lvl n : Nat} {f : Shaper → Shaper} (h : Still x y) : Still x (setShaper p lvl n f y) := .same h

theorem setPointer {p arb prio child : Nat} (h : Still x y) : Still x (setPointer p arb prio child y) := .same h

theorem withQue {q : Que} (h : Still x y) : Still x { y with que := q } := .same h

theorem withTbl {t : Tbl} (h : Still x y) : Still x { y with tbl := t } := .same h

theorem askGen {s : Nat} (h : Still x y) : Still x (askGen s y) := .same h

theorem clearEligible {s : Nat} {f : Tkt → Bool} (h : Still x y) : Still x (clearEligible s f y) := .same h

theorem setCapRing {r : Nat} {g : CapRing → CapRing} (h : Still x y) : Still x (setCapRing r g y) := .same h

theorem setCap {s : Nat} {g : ShedCap → ShedCap} (h : Still x y) : Still x (setCap s g y) := .same h

theorem buffer {r : Nat} {l : List Byte} (h : Still x y) : Still x (buffer r l y) := .same h

/-! ### The Loft and the end of copies -/

theorem loftBankWake {s : Nat} (h : Still x y) : Still x (loftBankWake s y) := by
  unfold Machine.loftBankWake
  dsimp only
  split
  · split
    · exact .same h
    · split
      · exact .askWake (.same h)
      · exact .same h
  · exact h

theorem loftWatch {s : Nat} (h : Still x y) : Still x (loftWatch s y) := by
  unfold Machine.loftWatch
  have h1 : ∀ g, Still x (Machine.setLoft s g y) := fun _ => .same h
  exact .loftBankWake (.ite (.raise (.ite (h1 _).raise (h1 _))) (.ite (h1 _).raise (h1 _)))

theorem dropHeld {s f : Nat} (h : Still x y) : Still x (dropHeld s f y) := by
  unfold Machine.dropHeld
  split
  · exact .ite (.same h) h
  · exact h

theorem dropHead {s f c : Nat} (h : Still x y) : Still x (dropHead s f c y) := by
  unfold Machine.dropHead
  split
  · exact h
  · exact .loftWatch (.dropHeld (.same h))

theorem decCell {s cell requester : Nat} (h : Still x y) : Still x (decCell s cell requester y) :=
  .ite (.raise (.same h)) (.ite (.raise (.same h)) (.same h))

theorem tidyFrame {f : Nat} (h : Still x y) : Still x (tidyFrame f y) := by
  unfold Machine.tidyFrame
  split
  · exact h
  · exact .ite (.same h) h

theorem settleDesc {s f : Nat} (h : Still x y) : Still x (settleDesc s f y) := by
  unfold Machine.settleDesc
  split
  · exact h
  · exact .ite (.same h) h

theorem finishCopy {f c requester : Nat} (h : Still x y) : Still x (finishCopy f c requester y) := by
  unfold Machine.finishCopy
  split
  · rename_i k fr _ _
    have h1 : Still x (Machine.dropHead (shedOfPort fr.port) f c (setCopy f c (fun k => { k with st := .done }) y)) :=
      .dropHead (.same h)
    refine .ite h (.tidyFrame (.settleDesc ?_))
    split
    · exact .foldl (fun _ _ ha => ha.decCell) h1
    · exact h1
  · exact h

theorem abandonFrame {f : Nat} (h : Still x y) : Still x (abandonFrame f y) := by
  unfold Machine.abandonFrame
  split
  · exact h
  · refine .tidyFrame (.foldl (fun _ _ ha => ha.settleDesc) (.same (.foldl (fun a e ha => ?_) h)))
    exact .ite ha (.finishCopy (.same ha))

theorem writeMarker {r : Nat} (h : Still x y) : Still x (writeMarker r y) := .ite h (.same h)

theorem offerRecord {r : Nat} {hdr data : List Byte} (h : Still x y) : Still x (offerRecord r hdr data y) :=
  .ite h (.ite (.buffer (.setCapRing h.writeMarker)) (.raise (.setCapRing (.setCapRing h.writeMarker))))

theorem mirrorsReady {f c dropped : Nat} {txLast : Option Nat} (h : Still x y) : Still x (mirrorsReady f c dropped txLast y) := by
  unfold Machine.mirrorsReady
  split
  · exact h
  · refine .foldl (fun a i ha => ?_) h
    split
    · exact ha
    · refine .ite ha (.ite (.ite ha.finishCopy ha) ?_)
      split
      · exact .finishCopy ha.offerRecord
      · exact .finishCopy ha.offerRecord
      · exact .same ha

theorem preciseRecord {f : Nat} {fr : Frame} {c : Option Copy} {cause n : Nat} {txLast : Option Nat} (h : Still x y) :
    Still x (preciseRecord f fr c cause n txLast y) :=
  .ite h (.setCap (.ite h h.offerRecord))

theorem dropCopy {f c cause ctr : Nat} (h : Still x y) : Still x (dropCopy f c cause ctr y) := by
  unfold Machine.dropCopy
  split
  · rename_i k fr _ _
    have h3 : ∀ q, stillPart q = stillPart y → Still x (Machine.mirrorsReady f c cause none q) := fun _ hq => .mirrorsReady (.same h hq)
    have h2 : ∀ q, stillPart q = stillPart y → Still x (if othersLeft fr c then Machine.mirrorsReady f c cause none q
        else Machine.preciseRecord f fr (some k) cause fr.bytes.length none (Machine.mirrorsReady f c cause none q)) :=
      fun q hq => .ite (h3 q hq) (h3 q hq).preciseRecord
    refine .finishCopy (h2 _ ?_)
    split <;> rfl
  · exact h

theorem clearDeficits {p : Nat} (h : Still x y) : Still x (clearDeficits p y) :=
  .foldl (fun _ _ ha => .ite ha (.same ha)) (.foldl (fun _ _ ha => .ite ha (.same ha)) h)

theorem pruneQueue {p q : Nat} {keep : List QEnt → List QEnt} (h : Still x y) : Still x (pruneQueue p q keep y) :=
  .clearDeficits (.same h)

theorem flushQueues {p cause ctr : Nat} (h : Still x y) : Still x (flushQueues p cause ctr y) :=
  .foldl (fun _ _ ha => .foldl (fun _ _ hb => .dropCopy (.pruneQueue hb)) ha) h

theorem cutReception {p : Nat} (h : Still x y) : Still x (cutReception p y) :=
  .foldl (fun _ _ ha => .ite (.same ha) ha) h

theorem correctMeters {f : Nat} {fr : Frame} {len : Nat} (h : Still x y) : Still x (correctMeters f fr len y) := by
  refine .foldl (fun a e ha => ?_) (.same h)
  unfold correctMeter
  split
  · exact ha
  · exact .same ha

theorem withdrawCopy {f : Nat} {e : Nat × Copy} (h : Still x y) : Still x (withdrawCopy f y e) :=
  .finishCopy (.ite h.pruneQueue h)

theorem discardCopies {f : Nat} (h : Still x y) : Still x (discardCopies f y) := by
  unfold Machine.discardCopies
  split
  · exact h
  · exact .tidyFrame (.settleDesc (.foldl (fun _ _ ha => .ite ha ha.withdrawCopy) h))

theorem lagsFollow {p : Nat} (h : Still x y) : Still x (lagsFollow p y) :=
  .ite (.foldl (fun _ _ ha => .ite (.same ha) (.same ha)) h) h

theorem portEvent {p : Nat} {e : Evt} (h : Still x y) : Still x (portEvent p e y) := .notify (.raise h)

/-- Once the port is idle, aborting its transmission only ends the frame. -/
theorem abortTx {p : Nat} {t : TxNow} (ht : (portSt y p).tx = some t) :
    Still (setPort p (fun s => { s with tx := none, idleAt := y.now }) y) (abortTx p y) := by
  unfold Machine.abortTx
  rw [ht]
  generalize setPort p (fun s => { s with tx := none, idleAt := y.now }) y = a
  dsimp only
  split
  · split
    · exact .refl a
    · split
      · exact .refl a
      · refine .ite (.dropCopy (.countPort (.setFrame ?_))) (.setFrame ?_)
        all_goals
          split
          · exact .setHalf (.refl a)
          · exact .refl a
  · exact .dropCopy (.same (.refl a))
  · exact .refl a

/-! ### Table edits -/

theorem movePointer {p arb arb' prio prio' i from_ : Nat} {left joined : List Nat} (h : Still x y) :
    Still x (movePointer p arb arb' prio prio' i from_ left joined y) :=
  .ite (.same h) (.same h)

theorem changeNode {p lvl i : Nat} {b : Node} (h : Still x y) : Still x (changeNode p lvl i b y) := by
  unfold Machine.changeNode
  refine .ite (.foldl (fun _ _ ha => ha.askGen) (.setShaper ?_)) (.setShaper ?_)
  all_goals
    refine .ite (.setShaper ?_) ?_
    all_goals exact .ite (.movePointer (.ite h.withQue (.setPointer h.withQue))) h.withQue

theorem cursorsCatch {s tab : Nat} {passed_ : Cursor → List (List Byte)} (h : Still x y) : Still x (cursorsCatch s tab passed_ y) :=
  .foldl (fun _ _ ha => ha.raise) (.same h)

theorem editMeter {s i : Nat} {old : Option Ent} {e : Edit} (h : Still x y) : Still x (editMeter s i old e y) := by
  unfold Machine.editMeter
  dsimp only
  split
  · exact .same h
  · refine .ite (.same h) ?_
    split <;> exact .same h

theorem editTickets {s : Nat} {v : View} {e : Edit} {pos : Nat} {isNew : Bool} (h : Still x y) :
    Still x (editTickets s v e pos isNew y) := by
  unfold Machine.editTickets
  dsimp only
  split
  case h_2 | h_3 | h_4 =>
    refine .ite ?_ h.clearEligible
    split
    · exact h.clearEligible.clearEligible
    · exact h.clearEligible
  · exact h.clearEligible
  · exact h.clearEligible.clearEligible
  · exact h.clearEligible
  iterate 6 exact h.askGen
  exact h

theorem applyTable {s : Nat} {e : Edit} (h : Still x y) : Still x (applyTable s e y) := by
  have h1 : ∀ n w m, Still x (count (.lkp s 9) n (eccWrite w { y with tbl := { y.tbl with ents := m } })) := fun _ _ _ => .same h
  exact .editTickets (.ite (.editMeter (.cursorsCatch (h1 _ _ _))) (.cursorsCatch (h1 _ _ _)))

theorem writeNext {s : Nat} (h : Still x y) : Still x (writeNext s y) := by
  unfold Machine.writeNext
  split
  · exact h
  · exact .ite (.changeNode (.same h)) (.applyTable (.same h))

theorem catchUp {s : Nat} (h : Still x y) : Still x (catchUp s y) := .foldl (fun _ _ ha => ha.writeNext) h

theorem renewNames {v w : View} {tab : Nat} {old new : List Byte} (h : Still x y) : Still x (renewNames v w tab old new y) := by
  have hz : ∀ a i, Still x a → Still x (zeroNamed i a) := fun _ _ ha => .foldl (fun _ _ hb => .same hb) ha
  have hm : ∀ a i, Still x a → Still x (fullMeter i a) := fun _ _ ha => .foldl (fun _ _ hb => .same hb) ha
  exact .withTbl (foldl (l := (metersOf tab new).filter (fun i => !meterNamed v i)) hm
    (foldl (l := (countersOf tab new).filter (fun i => !counterNamed v i)) hz h))

theorem beginEdit {e : Edit} (h : Still x y) : Still x (beginEdit e y) :=
  .renewNames (.writeNext (.withTbl h.catchUp))

theorem removeL2 {s kind : Nat} {e : Ent} {mbx : Option Nat} (h : Still x y) : Still x (removeL2 s kind e mbx y) :=
  .withTbl h.beginEdit

end Still

/-! ### Frames that end and ports -/

/-- The part of a port that ending a frame leaves. -/
def PortSt.rest (k : PortSt) : PortSt := { k with
  idleAt := 0
  ctl := []
  asked := .const false
  sentAt := .const 0
  tx := none }

/-- From `x` to `y` nothing changes but what the handling of frames and of edits owns, with the transmissions and the flow control of the
ports. -/
structure Quiet (x y : Mod) : Prop where
  part : { stillPart y with line := { y.line with ports := .const {} } } = { stillPart x with line := { x.line with ports := .const {} } }
  ports : ∀ p, (portSt y p).rest = (portSt x p).rest

namespace Quiet

variable {x y z : Mod}

theorem refl (x : Mod) : Quiet x x := ⟨rfl, fun _ => rfl⟩

theorem trans (h : Quiet x y) (k : Quiet y z) : Quiet x z := ⟨k.part.trans h.part, fun p => (k.ports p).trans (h.ports p)⟩

theorem of_still (h : Still x y) : Quiet x y :=
  ⟨by rw [show stillPart y = stillPart x from h, h.line], fun p => by rw [portSt, h.line, portSt]⟩

theorem still (h : Quiet x y) (k : Still y z) : Quiet x z := h.trans (of_still k)

theorem ite {c : Prop} [Decidable c] (h : Quiet x y) (k : Quiet x z) : Quiet x (if c then y else z) := by
  split
  · exact h
  · exact k

theorem foldl {β : Type} {f : Mod → β → Mod} {l : List β} (step : ∀ a e, Quiet x a → Quiet x (f a e)) (h : Quiet x y) :
    Quiet x (l.foldl f y) :=
  List.foldlRecOn l f h (fun a ha e _ => step a e ha)

theorem now (h : Quiet x y) : y.now = x.now := (congrArg Mod.now h.part :)

theorem mode (h : Quiet x y) : y.mode = x.mode := (congrArg Mod.mode h.part :)

theorem lanes (h : Quiet x y) : y.line.lanes = x.line.lanes := (congrArg (fun a => a.line.lanes) h.part :)

theorem up (h : Quiet x y) (p : Nat) : (portSt y p).up = (portSt x p).up := (congrArg PortSt.up (h.ports p) :)

/-- A change of a port's transmission or flow control. -/
theorem setPort {p : Nat} {f : PortSt → PortSt} (h : Quiet x y) (hf : ∀ k : PortSt, (f k).rest = k.rest) : Quiet x (setPort p f y) :=
  ⟨h.part, fun q => by
    refine Eq.trans ?_ (h.ports q)
    by_cases hq : q = p
    · subst hq
      exact (congrArg PortSt.rest (setPort_same q f y)).trans (hf _)
    · exact congrArg PortSt.rest (Map.get_upd_other _ hq f)⟩

theorem setLoft {s : Nat} {g : Loft → Loft} (h : Quiet x y) : Quiet x (setLoft s g y) := h.still (.setLoft (.refl y))

theorem loftWatch {s : Nat} (h : Quiet x y) : Quiet x (loftWatch s y) := h.still (.loftWatch (.refl y))

theorem askPause {p : Nat} {c : Option Nat} {b : Bool} (h : Quiet x y) : Quiet x (askPause p c b y) := h.setPort fun _ => rfl

theorem tally {c : CtrId} (h : Quiet x y) : Quiet x (tally c y) := h.still rfl

theorem pauseUpdate {s p cls before : Nat} (h : Quiet x y) : Quiet x (pauseUpdate s p cls before y) :=
  .ite h (.ite (.askPause (.tally h.setLoft)) (.ite (.ite (.askPause h.setLoft) (.ite (.askPause h.setLoft) h.setLoft)) h))

theorem setUse {s p cls pool : Nat} {f : Nat → Nat} (h : Quiet x y) : Quiet x (setUse s p cls pool f y) :=
  .ite h.setLoft.pauseUpdate h.setLoft

theorem releaseUnwritten {s f : Nat} (h : Quiet x y) : Quiet x (releaseUnwritten s f y) := by
  unfold Machine.releaseUnwritten
  split
  · exact h
  · exact .ite h (.loftWatch (.setUse h.setLoft))

theorem writeCells {s f n : Nat} (h : Quiet x y) : Quiet x (writeCells s f n y) := by
  unfold Machine.writeCells
  split
  · exact h
  · exact .ite h (.loftWatch (.setUse (.setLoft (h.still rfl))))

theorem settleCells {s f n : Nat} (h : Quiet x y) : Quiet x (settleCells s f n y) := h.writeCells.releaseUnwritten

theorem stompTx {p cap at_ : Nat} (h : Quiet x y) : Quiet x (stompTx p cap at_ y) := by
  unfold Machine.stompTx
  split
  · exact h
  · exact h.setPort fun _ => rfl

theorem stompSending {f : Nat} (h : Quiet x y) : Quiet x (stompSending f y) := by
  unfold Machine.stompSending
  refine .foldl (fun a p ha => ?_) h
  split
  · exact .ite ha.stompTx ha
  · exact ha

theorem endBad {f : Nat} {fr : Frame} {len : Nat} (h : Quiet x y) : Quiet x (endBad f fr len y) := by
  unfold Machine.endBad
  have hmeters : Quiet x (Machine.setFrame f (fun r => { r with
      ended := true
      bad := true
      refused := r.refused || !r.admitted
      decided := r.decided || r.recov.isSome }) (correctMeters f fr len y)) := h.still (.setFrame (.correctMeters (.refl y)))
  exact hmeters.stompSending.settleCells.still (.discardCopies (.refl _))

theorem endCut {p : Nat} (h : Quiet x y) : Quiet x (endCut p y) := by
  refine .foldl (fun a e ha => ?_) h
  dsimp only
  split
  swap
  · exact ha
  have h1 : ∀ n, Still a (if headLeft a e.1 e.2 then Machine.countPort lneCtr p 24 1 (Machine.countPort lneCtr p 22 1
      (Machine.countPort lneCtr p 28 n a)) else Machine.countPort lneCtr p 22 1 (Machine.countPort lneCtr p 28 n a)) :=
    fun _ => .ite (Still.refl a).countPort.countPort.countPort (Still.refl a).countPort.countPort
  split
  · exact ha.still (.same (h1 _))
  · exact endBad (ha.still (h1 _))

theorem abortTx {p : Nat} (h : Quiet x y) : Quiet x (abortTx p y) := by
  cases ht : (portSt y p).tx with
  | none =>
    unfold Machine.abortTx
    rw [ht]
    exact h
  | some t =>
    have h1 : Quiet x (Machine.setPort p (fun s => { s with tx := none, idleAt := y.now }) y) := h.setPort fun _ => rfl
    exact h1.still (Still.abortTx ht)

end Quiet

end Sys2Proof.Machine
end

section
/-! Proofs about ports and lanes that come and go (02 R39, R40). -/

namespace Sys2Proof.Machine

-- One theorem at a time: each thread that elaborates another reserves a stack, and their sum has a limit.
set_option Elab.async false

theorem cutReception_keeps (p : Nat) (x : Mod) : (cutReception p x).ctrs = x.ctrs ∧ (cutReception p x).line = x.line :=
  Prod.mk.inj (foldl_keeps (fun a : Mod => (a.ctrs, a.line)) _ _ _ fun a e => by split <;> rfl)

/-- The part of the module that a port's event and the shared LAGs leave. -/
def lagPart (x : Mod) : Mod := { raised x {} with cpl := { x.cpl with twins := .const (0, []) } }

theorem lagsFollow_lagPart (p : Nat) (x : Mod) : lagPart (lagsFollow p x) = lagPart x := by
  unfold lagsFollow
  split
  · refine foldl_keeps lagPart _ _ _ fun a g => ?_
    unfold decideLag
    dsimp only
    split <;> rfl
  · rfl

theorem lagPart_frame {x m : Mod} (h : lagPart m = lagPart x) :
    m = { raised x m with cpl := { x.cpl with twins := m.cpl.twins } } := by
  calc m = { raised (lagPart m) m with cpl := { (lagPart m).cpl with twins := m.cpl.twins } } := rfl
    _ = { raised (lagPart x) m with cpl := { (lagPart x).cpl with twins := m.cpl.twins } } := by rw [h]
    _ = { raised x m with cpl := { x.cpl with twins := m.cpl.twins } } := rfl

theorem abortTx_tx (p : Nat) (x : Mod) : (portSt (abortTx p x) p).tx = none := by
  cases ht : (portSt x p).tx with
  | none =>
    unfold abortTx
    rw [ht]
    exact ht
  | some t => rw [portSt, (Still.abortTx ht).line, setPort_same]

/-- A port that goes down sends nothing, and the lanes are as they were. -/
theorem portGoesDown_effect {p : Nat} {x : Mod} (hup : (portSt x p).up = true) (cause ctr : Nat) :
    (portGoesDown p cause ctr x).now = x.now ∧ (portGoesDown p cause ctr x).line.lanes = x.line.lanes ∧
    (portSt (portGoesDown p cause ctr x) p).up = false ∧ (portSt (portGoesDown p cause ctr x) p).tx = none ∧
    (portSt (portGoesDown p cause ctr x) p).ctl = [] ∧ (portSt (portGoesDown p cause ctr x) p).paused = .const {} ∧
    evtSet (.stall (stallOf p)) evLinkDown (portGoesDown p cause ctr x) = true := by
  have hdown : portGoesDown p cause ctr x = lagsFollow p (portEvent p evLinkDown (setPort p (fun s => { s with
      up := false
      txLpi := false
      rxLpi := false
      lpiWake := none
      paused := .const {}
      ctl := []
      lastIn := none }) (flushQueues p cause ctr (abortTx p (endCut p (cutReception p x)))))) := by
    unfold portGoesDown
    rw [if_neg (by rw [hup]; decide)]
  rw [hdown]
  have hcut : Quiet x (abortTx p (endCut p (cutReception p x))) := ((Quiet.of_still (Still.refl x).cutReception).endCut).abortTx
  have hflush := hcut.still (Still.refl _).flushQueues (x := x) (z := flushQueues p cause ctr (abortTx p (endCut p (cutReception p x))))
  have htx : (portSt (flushQueues p cause ctr (abortTx p (endCut p (cutReception p x)))) p).tx = none := by
    rw [portSt, (Still.refl (abortTx p (endCut p (cutReception p x)))).flushQueues.line]
    exact abortTx_tx _ _
  generalize flushQueues p cause ctr (abortTx p (endCut p (cutReception p x))) = y at hflush htx
  have hend := fun a : Mod => ((Still.refl a).portEvent (p := p) (e := evLinkDown)).lagsFollow (p := p)
  refine ⟨(hend _).now.trans hflush.now, ?_, ?_⟩
  · rw [(hend _).line]
    exact hflush.lanes
  · rw [portSt, (hend _).line, setPort_same]
    exact ⟨rfl, htx, rfl, rfl, (Calm.lagsFollow (Calm.refl _)).evts _ _ (portEvent_evtSet _ (by decide) _)⟩

/-- A lane with lock from now on. -/
abbrev laneLocked (lane : Nat) (x : Mod) : Mod := setLane lane (fun l => { l with lock := true, since := x.now }) x

theorem laneRegains_port {lane p : Nat} {x : Mod} (hlock : (x.line.lanes.get lane).lock = false) (hlive : laneLive x lane = true)
    (hp : portOfLane x lane = some p) (hup : (portSt x p).up = true) : laneRegains lane x =
    if (x.line.lanes.get lane).since + us 2 < x.now then laneLocked lane (portGoesDown p 1 7 x) else portEvent p evLaneLoss (laneLocked lane x) := by
  unfold laneRegains
  rw [if_neg (by rw [hlock, hlive]; decide)]
  simp only [hp]
  exact if_neg (by rw [hup]; decide)

theorem laneRegains_alone {lane : Nat} {x : Mod} (hlock : (x.line.lanes.get lane).lock = false) (hlive : laneLive x lane = true)
    (hp : ∀ p, portOfLane x lane = some p → (portSt x p).up = false) : laneRegains lane x = laneLocked lane x := by
  unfold laneRegains
  rw [if_neg (by rw [hlock, hlive]; decide)]
  dsimp only
  split
  · rename_i p he
    exact if_pos (by rw [hp p he]; rfl)
  · rfl

/-- A live lane that regains lock holds it from now, whatever its port does. -/
theorem laneRegains_locks {lane : Nat} {x : Mod} (hlock : (x.line.lanes.get lane).lock = false) (hlive : laneLive x lane = true) :
    ((laneRegains lane x).line.lanes.get lane).lock = true ∧ ((laneRegains lane x).line.lanes.get lane).since = x.now := by
  by_cases hp : ∀ p, portOfLane x lane = some p → (portSt x p).up = false
  · rw [laneRegains_alone hlock hlive hp, setLane_same]
    exact ⟨rfl, rfl⟩
  · push Not at hp
    obtain ⟨p, hp, hup⟩ := hp
    rw [Bool.ne_false_iff] at hup
    rw [laneRegains_port hlock hlive hp hup]
    split
    · rw [setLane_same]
      exact ⟨rfl, (portGoesDown_effect hup 1 7).1⟩
    · rw [((Still.refl (laneLocked lane x)).portEvent (p := p) (e := evLaneLoss)).line, setLane_same]
      exact ⟨rfl, rfl⟩

/-- Settles O3: of a port that goes down only its own state and what ends its frames change; the lanes keep their time. -/
theorem portsComeAndGo : Obligations.PortsComeAndGo := by
  refine ⟨fun p s ha hd hup hrun hl => ?_, fun p s ha hup hlost => ?_, fun lane p s ha hlock hp hline => ?_,
    fun lane p s ha hlock hlive hp hup => ?_, fun lane s ha hlock hsig hlive => ?_⟩
  · refine answers_of (portComesUp p) rfl ha ?_
    have hgo : portComesUp p s.mod = lagsFollow p (portEvent p evLinkUp (setPort p (fun k => { k with up := true, idleAt := s.mod.now }) s.mod)) := by
      refine if_pos ?_
      simp only [Bool.and_eq_true, List.all_eq_true, hd, hup, hrun, Bool.not_false, and_self, true_and]
      exact hl
    rw [hgo]
    have hstill := ((Still.refl (setPort p (fun k => { k with up := true, idleAt := s.mod.now }) s.mod)).portEvent (p := p)
      (e := evLinkUp)).lagsFollow (p := p)
    refine ⟨?_, ?_, (Calm.lagsFollow (Calm.refl _)).evts _ _ (portEvent_evtSet _ (by decide) _), ?_, ?_⟩
    · rw [portSt, hstill.line, setPort_same]
    · rw [portSt, hstill.line, setPort_same]
    · have hpart : lagPart (lagsFollow p (portEvent p evLinkUp (setPort p (fun k => { k with up := true, idleAt := s.mod.now }) s.mod))) =
          lagPart (setPort p (fun k => { k with up := true, idleAt := s.mod.now }) s.mod) := by
        rw [lagsFollow_lagPart, portEvent_raised]
        rfl
      have hline := hstill.line
      refine (lagPart_frame hpart).trans ?_
      rw [hline]
      rfl
    · rw [hstill.line]
      rfl
  · refine answers_of (portDownNow p) rfl ha ?_
    have hgo : portDownNow p s.mod = portGoesDown p 1 7 s.mod := if_pos (by rw [hup, hlost]; rfl)
    rw [hgo]
    obtain ⟨-, -, hdown, htx, hctl, hpaused, hev⟩ := portGoesDown_effect hup 1 7
    exact ⟨hdown, htx, hctl, fun c _ => by rw [hpaused]; rfl, hev⟩
  · refine answers_of (laneLoses lane) rfl ha ?_
    have hgo : laneLoses lane s.mod = cutReception p (countPort lneCtr p 58 1 (setLane lane (fun l => { l with
        lock := false
        since := s.mod.now }) s.mod)) := by
      unfold laneLoses
      rw [if_neg (by rw [hlock]; decide)]
      simp only [hp]
    rw [hgo, (cutReception_keeps _ _).2, countPort_line hline]
    refine ⟨?_, ?_, ?_, ?_⟩
    · simp
    · simp
    · rw [counted, (cutReception_keeps _ _).1, count_same]
      rfl
    · simp only [count_keeps]
      rfl
  · refine answers_of (laneRegains lane) rfl ha ?_
    obtain ⟨hheld, hsince⟩ := laneRegains_locks hlock hlive
    refine ⟨hheld, hsince, ?_⟩
    rw [laneRegains_port hlock hlive hp hup]
    split
    · obtain ⟨-, -, hdown, -, -, -, hev⟩ := portGoesDown_effect hup 1 7
      exact ⟨hdown, hev⟩
    · refine ⟨?_, portEvent_evtSet _ (by decide) _⟩
      rw [portSt, ((Still.refl (laneLocked lane s.mod)).portEvent (p := p) (e := evLaneLoss)).line]
      exact hup
  · refine answers_of (lockAcquired lane) rfl ha ?_
    rw [lockAcquired, if_pos hsig]
    exact laneRegains_locks hlock hlive

end Sys2Proof.Machine
end

section
/-! Proofs about pairing: heartbeats, the lease, the coupler link, sync records and the handover of generation (11). -/

namespace Sys2Proof.Machine

-- One theorem at a time: each thread that elaborates another reserves a stack, and their sum has a limit.
set_option Elab.async false

/-! ### Pairing events -/

theorem raisePair_raised (e : Evt) (x : Mod) : raisePair e x = raised x (raisePair e x) := by
  unfold raisePair
  rw [notify_raised, raise_raised]
  rfl

theorem raisePair_evtSet {e : Evt} (h : e.blk ≠ 0) (x : Mod) : evtSet .yard e (raisePair e x) = true :=
  notify_evtSet_mono _ _ _ _ (raise_evtSet _ _ _ h)

@[simp] theorem raisePair_keeps (e : Evt) (x : Mod) : (raisePair e x).cpl = x.cpl ∧ (raisePair e x).ctrs = x.ctrs ∧
    (raisePair e x).mode = x.mode ∧ (raisePair e x).tbl = x.tbl ∧ (raisePair e x).now = x.now ∧ (raisePair e x).tt = x.tt ∧
    (raisePair e x).pwr = x.pwr ∧ (raisePair e x).tbl = x.tbl := by
  simp [raisePair]

theorem Calm.raisePair {x y : Mod} {e : Evt} (h : Calm x y) : Calm x (raisePair e y) := .notify (.raise h)

/-! ### Loss of partner -/

theorem Calm.removeL2 {x y : Mod} {s kind : Nat} {e : Ent} {mbx : Option Nat} (h : Calm x y) : Calm x (removeL2 s kind e mbx y) :=
  .dropMeta h.beginEdit

theorem Calm.endSync {x y : Mod} (h : Calm x y) : Calm x (endSync y) := .same h

theorem Calm.forgetPartner {x y : Mod} (h : Calm x y) : Calm x (forgetPartner y) :=
  .foldl (fun _ _ ha => .ite ha.removeL2 (.ite (.same ha) ha)) h

theorem Calm.takeOver {x y : Mod} (h : Calm x y) : Calm x (takeOver y) :=
  .foldl (fun _ _ ha => .ite ha (.ite (.same ha) (.tally (.same ha)))) h

/-- The events of a loss of partner stay while its effects are carried out. -/
theorem Calm.afterLoss {x y : Mod} (h : Calm x y) : Calm x (Machine.takeOver (Machine.flushQueues 1036 1 7 (Machine.forgetPartner
    (Machine.endSync y)))) :=
  h.endSync.forgetPartner.flushQueues.takeOver

theorem Calm.partnerLost {x y : Mod} (h : Calm x y) : Calm x (partnerLost y) :=
  .afterLoss (.raisePair (.setCpl (.ite h h.enterMode)))

theorem Calm.lossCheck {x y : Mod} (h : Calm x y) : Calm x (lossCheck y) := .ite h.partnerLost h

/-- The pairing state that a loss of partner leaves. -/
def Cpl.kept (c : Cpl) : Cpl := { c with
  consec := 0
  stewardFrom := none
  stopRenew := false
  keyDiffs := 0
  mismatch := none
  unsent := []
  unacked := []
  resyncOut := false
  resyncIn := false
  resyncSeen := []
  gens := .const {}
  twins := .const (0, []) }

/-- Losing the partner ends Paired, unless a drain is on its way, and leaves the paths and the reins as they are. -/
theorem partnerLost_effect (x : Mod) : (partnerLost x).cpl.kept = x.cpl.kept ∧
    (partnerLost x).mode = (if x.mode.drainEnd.isSome then x else enterMode .standalone 5 x).mode := by
  have hover : ∀ z : Mod, (takeOver z).cpl.kept = z.cpl.kept ∧ (takeOver z).mode = z.mode := fun z =>
    Prod.mk.inj (foldl_keeps (fun a : Mod => (a.cpl.kept, a.mode)) _ _ _ fun a r => by
      dsimp only
      split
      · rfl
      · split <;> rfl)
  have hstill : ∀ z : Mod, Still z (flushQueues 1036 1 7 (forgetPartner z)) := fun z => by
    exact .flushQueues (.foldl (fun a e ha => .ite ha.removeL2 (.ite (.same ha) ha)) (.refl z))
  have hcpl : ∀ {y z : Mod}, Still y z → z.cpl.kept = y.cpl.kept := fun h => (congrArg (fun a : Mod => a.cpl.kept) h :)
  unfold partnerLost
  refine ⟨(hover _).1.trans ((hcpl (hstill _)).trans ?_), (hover _).2.trans ((hstill _).mode.trans ?_)⟩
  · simp only [endSync, setCpl, releaseGrant, raisePair_keeps]
    split
    · rfl
    · unfold enterMode
      split
      · simp only [notify_keeps]
        rfl
      · rfl
  · simp only [endSync, setCpl, releaseGrant, raisePair_keeps]

theorem enterMode_cause (m : Mode) (c : Nat) (x : Mod) : (enterMode m c x).mode.cause = c := by
  unfold enterMode
  split
  · simp only [notify_keeps]
  · rfl

theorem partnerLost_evtSet (x : Mod) : evtSet .yard evPartnerLost (partnerLost x) = true :=
  (Calm.afterLoss (.refl _)).evts _ _ (raisePair_evtSet (by decide) _)

theorem lossCheck_kept (x : Mod) : (lossCheck x).cpl.kept = x.cpl.kept := by
  unfold lossCheck
  dsimp only
  split
  · exact (partnerLost_effect x).1
  · rfl

theorem lossCheck_evtSet {e : Evt} {x : Mod} (h : evtSet .yard e x = true) : evtSet .yard e (lossCheck x) = true :=
  (Calm.lossCheck (.refl x)).evts _ _ h

/-! ### Heartbeats -/

/-- What a heartbeat taken in says of its path and of the partner. -/
def heard (x : Mod) : Map Path PathSt × Option Partner × Nat := (x.cpl.paths, x.cpl.partner, x.cpl.refusal)

theorem askResync_heard (x : Mod) : heard (askResync x) = heard x := by
  have hask : heard (askLeave 10 0 none (setCpl (fun c => { c with resyncOut := true }) x)).2 = heard x :=
    (congrArg heard (askLeave_offPower 10 0 none _) :)
  unfold askResync
  split
  · rfl
  · split
    all_goals
      rename_i he
      rw [he] at hask
      exact Eq.trans rfl hask

theorem compareKeys_heard (p : Partner) (x : Mod) : heard (compareKeys p x) = heard x := by
  unfold compareKeys
  split
  · rfl
  · split
    · rfl
    · dsimp only
      split
      · rfl
      · rw [askResync_heard]
        simp only [heard, setCpl, raisePair_keeps]

theorem compareEdits_heard (p : Partner) (x : Mod) : heard (compareEdits p x) = heard x := by
  unfold compareEdits
  split
  · rfl
  · split
    · rfl
    · split
      · rfl
      · simp only [heard, setCpl, raisePair_keeps]

theorem tryTake_heard (x : Mod) : heard (tryTake x) = heard x := by
  unfold tryTake
  split
  · simp only [heard, raisePair_keeps]
    rfl
  · rfl

theorem enterMode_cpl (m : Mode) (c : Nat) (x : Mod) : (enterMode m c x).cpl = x.cpl := by
  unfold enterMode
  split
  · simp only [notify_keeps]
  · rfl

theorem enterPaired_heard (p : Partner) (x : Mod) : heard (enterPaired p x) = heard x := by
  have hsend : ∀ z : Mod, heard (sendHandovers z) = heard z := fun z => foldl_keeps heard _ _ _ fun a r => by
    dsimp only
    split <;> rfl
  unfold enterPaired
  rw [hsend]
  simp only [heard, raisePair_keeps, enterMode_cpl]
  rfl

theorem takeAck_heard (w : Word) (x : Mod) : heard (takeAck w x) = heard x := by
  unfold takeAck
  split
  · split <;> rfl
  · rfl

theorem bothClaim_heard (p : Partner) (x : Mod) : heard (bothClaim p x) = heard x := by
  unfold bothClaim
  split
  · simp only [heard, raisePair_keeps]
    rfl
  · rfl

/-- A valid heartbeat: its path and the partner are as it says, whatever else follows from it. -/
theorem heartbeatTaken_heard (p : Path) (l : List Byte) (x : Mod) : heard (heartbeatTaken p l x) =
    (x.cpl.paths.upd p (fun s => { s with lastRx := some x.now, up := true, rxSeq := some (BitVec.ofNat 32 (leAt l 4 4)) }),
      some (partnerOf l), 0) := by
  have hcompare : ∀ (c : Prop) [Decidable c] q z, heard (if c then tryTake (compareKeys q (compareEdits q (compareTt q z))) else z) = heard z :=
    fun c _ q z => by
      split
      · rw [tryTake_heard, compareKeys_heard, compareEdits_heard]
        unfold compareTt
        split <;> rfl
      · rfl
  have hpaired : ∀ (c : Prop) [Decidable c] q z, heard (if c then enterPaired q z else z) = heard z := fun c _ q z => by
    split
    · exact enterPaired_heard q z
    · rfl
  have hclaim : ∀ q w z, heard (takeRenewal q (takeAck w (bothClaim q z))) = heard z := fun q w z =>
    Eq.trans (b := heard (takeAck w (bothClaim q z))) rfl ((takeAck_heard _ _).trans (bothClaim_heard _ _))
  exact (hcompare _ _ _).trans ((hpaired _ _ _).trans ((hclaim _ _ _).trans rfl))

/-- An invalid heartbeat is counted, and says nothing of the path or the partner. -/
theorem heartbeatRejected_effect (p : Path) (l : List Byte) (x : Mod) : (heartbeatRejected p l x).cpl.paths = x.cpl.paths ∧
    (heartbeatRejected p l x).cpl.partner = x.cpl.partner ∧ counted x (.cpl 2) 1 (heartbeatRejected p l x) := by
  unfold heartbeatRejected
  dsimp only
  generalize (if leAt l 1 1 ≠ 4 then 1 else if leAt l 2 1 / 16 % 2 = (pairOf_ x).role then 2 else x.cpl.refusal) = why
  split
  · exact ⟨rfl, rfl, tally_same _ _⟩
  · split
    all_goals
      simp only [counted, raisePair_keeps]
      exact ⟨rfl, rfl, tally_same _ _⟩

/-- The other heartbeat path. -/
def otherPath : Path → Path
  | .coupler => .mgmt
  | .mgmt => .coupler

/-- A path goes down. -/
def pathDown (p : Path) (x : Mod) : Mod := setCpl (fun c => { c with
  paths := c.paths.upd p (fun s => { s with up := false })
  consec := match p with
    | .coupler => 0
    | .mgmt => c.consec }) x

theorem pathDown_paths (p : Path) (x : Mod) : (pathDown p x).cpl.paths = x.cpl.paths.upd p (fun s => { s with up := false }) := rfl

theorem pathLoses_passed {p : Path} {t : Nat} {x : Mod} (hr : (x.cpl.paths.get p).lastRx = some t) (hup : (x.cpl.paths.get p).up = true)
    (hp : passed x.now t (ms 3) = true) : pathLoses p x = lossCheck (raisePair evPathLost (pathDown p x)) := by
  simp only [pathLoses, hr, hup, hp]
  rfl

/-- Whether the partner is lost with a path. -/
def partnerGoes (p : Path) (x : Mod) : Prop :=
  x.mode.mode = .paired ∧ ((x.cpl.paths.get (otherPath p)).up = false ∨ leaseEnded x = true)

theorem lossCheck_path (p : Path) (x : Mod) [Decidable (partnerGoes p x)] : lossCheck (raisePair evPathLost (pathDown p x)) =
    if partnerGoes p x then partnerLost (raisePair evPathLost (pathDown p x)) else raisePair evPathLost (pathDown p x) := by
  have hmode : (raisePair evPathLost (pathDown p x)).mode = x.mode := (raisePair_keeps _ _).2.2.1
  have hcpl : (raisePair evPathLost (pathDown p x)).cpl = (pathDown p x).cpl := (raisePair_keeps _ _).1
  have hlease : leaseEnded (raisePair evPathLost (pathDown p x)) = leaseEnded x := by
    simp only [leaseEnded, hcpl, (raisePair_keeps _ _).2.2.2.2.1]
    rfl
  have hlost : pathIsLost (raisePair evPathLost (pathDown p x)) p = true := by
    rw [pathIsLost, hcpl, pathDown_paths, Map.get_upd_same]
    rfl
  have hother : pathIsLost (raisePair evPathLost (pathDown p x)) (otherPath p) = !(x.cpl.paths.get (otherPath p)).up := by
    rw [pathIsLost, hcpl, pathDown_paths, Map.get_upd_other _ (by cases p <;> decide)]
  unfold lossCheck
  refine if_congr ?_ rfl rfl
  rw [hmode, hlease]
  cases p
  all_goals
    simp only [otherPath] at hother
    simp [hlost, hother, partnerGoes, otherPath]

theorem stageCheck_pwr (x : Mod) : stageCheck x = { x with pwr := (stageCheck x).pwr } := by
  unfold stageCheck
  dsimp only
  split
  · split <;> rfl
  · split <;> rfl

/-- Settles O40: what follows from a heartbeat or a lost path leaves the paths as they then are. -/
theorem heartbeatsAreExchanged : Obligations.HeartbeatsAreExchanged := by
  refine ⟨fun p s ha hdue => ?_, fun p l s ha hrun hpair hlink hv => ?_, fun p l s ha hrun hpair hlink hv => ?_,
    fun p t s ha hnone hr hup hp => ?_, fun p s ha hrun hlink => ?_⟩
  · refine answers_of (fun x => if heartbeatDue x p then sendHeartbeat p x else x) rfl ha ?_
    rw [if_pos hdue]
    exact ⟨congrArg PathSt.txSeq (Map.get_upd_same _ _ _), congrArg PathSt.txLast (Map.get_upd_same _ _ _), rfl, rfl⟩
  · refine answers_of (fun x => stageCheck (heartbeatArrives p l x)) rfl ha ?_
    rw [stageCheck_pwr]
    have hgo : heartbeatArrives p l s.mod = heartbeatTaken p l s.mod := by
      rw [heartbeatArrives, if_neg (by rw [hrun, hpair, hlink]; decide), if_pos hv]
    have hheard := heartbeatTaken_heard p l s.mod
    simp only [heard, Prod.mk.injEq] at hheard
    obtain ⟨hpaths, hpartner, hrefusal⟩ := hheard
    rw [hgo]
    simp only [hpaths, Map.get_upd_same]
    exact ⟨trivial, trivial, trivial, hpartner, hrefusal⟩
  · refine answers_of (fun x => stageCheck (heartbeatArrives p l x)) rfl ha ?_
    rw [stageCheck_pwr]
    have hgo : heartbeatArrives p l s.mod = heartbeatRejected p l s.mod := by
      rw [heartbeatArrives, if_neg (by rw [hrun, hpair, hlink]; decide), if_neg (by rw [hv]; decide)]
    rw [hgo]
    exact heartbeatRejected_effect p l s.mod
  · intro other lost
    have hlost : lost ↔ partnerGoes p s.mod := by cases p <;> exact Iff.rfl
    refine answers_of (fun x => if heartComes p x s.pending then x else pathLoses p x) rfl ha ?_
    have := Classical.propDecidable (partnerGoes p s.mod)
    rw [if_neg (by rw [hnone]; decide), pathLoses_passed hr hup hp]
    have hdown : ((raisePair evPathLost (pathDown p s.mod)).cpl.paths.get p).up = false := by
      rw [(raisePair_keeps _ _).1]
      exact congrArg PathSt.up (Map.get_upd_same _ _ _)
    refine ⟨?_, lossCheck_evtSet (raisePair_evtSet (by decide) _), fun h => ?_, fun h => ?_⟩
    · have hpaths : (lossCheck (raisePair evPathLost (pathDown p s.mod))).cpl.paths = (raisePair evPathLost (pathDown p s.mod)).cpl.paths :=
        (congrArg Cpl.paths (lossCheck_kept _) :)
      rw [hpaths]
      exact hdown
    · rw [lossCheck_path, if_pos (hlost.mp h)]
      refine ⟨partnerLost_evtSet _, fun hd => ?_⟩
      have hmode := (partnerLost_effect (raisePair evPathLost (pathDown p s.mod))).2
      have hdrain : ((raisePair evPathLost (pathDown p s.mod)).mode.drainEnd).isSome = false := by
        rw [(raisePair_keeps _ _).2.2.1]
        exact congrArg Option.isSome hd
      rw [hdrain, if_neg (by decide)] at hmode
      rw [hmode]
      exact ⟨enterMode_mode _ _ _, enterMode_cause _ _ _⟩
    · rw [lossCheck_path, if_neg (h ∘ hlost.mpr)]
      have hraised := raisePair_raised evPathLost (pathDown p s.mod)
      refine hraised.trans ?_
      rw [(raisePair_keeps evPathLost (pathDown p s.mod)).1]
      rfl
  · refine answers_of (gaspArrives p) rfl ha ?_
    have hgo : gaspArrives p s.mod = raisePair evPartnerDying (setCpl (fun c => { c with partnerDying := true }) s.mod) := by
      rw [gaspArrives, if_neg (by rw [hrun, hlink]; decide)]
    rw [hgo]
    refine ⟨raisePair_evtSet (by decide) _, (raisePair_keeps _ _).1, ?_⟩
    refine (raisePair_raised _ _).trans ?_
    rw [(raisePair_keeps _ _).1]
    rfl

/-! ### The lease -/

/-- What sending heartbeats leaves of the pairing state and the counters. -/
theorem sendHeartbeats_keeps (l : List Path) (x : Mod) :
    ({ (l.foldl (fun a p => if pathLinked a p then sendHeartbeat p a else a) x).cpl with paths := .const {} } : Cpl) =
      { x.cpl with paths := .const {} } ∧
    (l.foldl (fun a p => if pathLinked a p then sendHeartbeat p a else a) x).ctrs = x.ctrs :=
  Prod.mk.inj (foldl_keeps (fun a : Mod => (({ a.cpl with paths := .const {} } : Cpl), a.ctrs)) _ _ _ fun a p => by split <;> rfl)

theorem reinsHandoverCmd_answers {n : Nat} {b : Mailbox} {x : Mod} {l : List Host.Cell} :
    (b.len ≠ 0 → reinsHandoverCmd n b (x, l) = fail n stInvalid (x, l)) ∧
    (b.len = 0 → x.mode.mode ≠ .standalone → x.mode.mode ≠ .paired → reinsHandoverCmd n b (x, l) = fail n stWrongMode (x, l)) ∧
    (b.len = 0 → x.mode.mode = .standalone ∨ x.mode.mode = .paired → reinsHandoverCmd n b (x, l) =
      complete n stOk [BitVec.ofNat 8 (flag 0 x.cpl.holder)] (if x.cpl.holder then setCpl (fun c => { c with stopRenew := true }) x else x, l)) := by
  refine ⟨fun h => if_pos h, fun h hs hp => ?_, fun h hm => ?_⟩
  · rw [reinsHandoverCmd, if_neg (not_not.mpr h), if_pos (by simp [hs, hp])]
  · rw [reinsHandoverCmd, if_neg (not_not.mpr h), if_neg (by rcases hm with hm | hm <;> simp [hm])]

/-- Settles O41: sending heartbeats and a loss of partner leave the lease as renewal, end and taking made it. -/
theorem theLeaseIsKept : Obligations.TheLeaseIsKept := by
  refine ⟨fun s ha hh hup hstop hm hdue hend => ?_, fun s ha hh hend => ?_, fun t s ha hv ht hc hm hmay => ?_, fun n s ha hr => ⟨?_, ?_, ?_⟩⟩
  · refine answers_of (fun x => stageCheck (renewLease x)) rfl ha ?_
    rw [stageCheck_pwr]
    have hgo : renewLease s.mod = [Path.coupler, Path.mgmt].foldl (fun a p => if pathLinked a p then sendHeartbeat p a else a)
        (tally (.cpl 3) (setCpl (fun c => { c with
          renewSeq := c.renewSeq + 1
          sent := c.sent ++ [(c.renewSeq + 1, s.mod.now)]
          renewDue := c.renewDue + ms (pairOf_ s.mod).renewMs }) s.mod)) := by
      rw [renewLease, if_pos (by simp [hh, hup, hstop, hm, hdue, hend])]
    obtain ⟨hcpl, hctrs⟩ := sendHeartbeats_keeps [Path.coupler, Path.mgmt] (tally (.cpl 3) (setCpl (fun c => { c with
      renewSeq := c.renewSeq + 1
      sent := c.sent ++ [(c.renewSeq + 1, s.mod.now)]
      renewDue := c.renewDue + ms (pairOf_ s.mod).renewMs }) s.mod))
    rw [← hgo] at hcpl hctrs
    exact ⟨(congrArg Cpl.renewSeq hcpl :), (congrArg Cpl.sent hcpl :), (congrArg Cpl.holder hcpl :).trans hh,
      (congrArg Cpl.renewDue hcpl :), (congrArg Cpl.ownEnd hcpl :), (congrArg (Map.get · (.cpl 3)) hctrs).trans (tally_same _ _)⟩
  · refine answers_of leaseEnds rfl ha ?_
    have hgo : leaseEnds s.mod = lossCheck (raisePair evReinsLost (tally (.cpl 6) (setCpl (fun c => { c with
        holder := false
        stopRenew := false }) s.mod))) := if_pos (by simp [hh, hend])
    rw [hgo]
    refine ⟨(congrArg Cpl.holder (lossCheck_kept _) :).trans ?_, lossCheck_evtSet (raisePair_evtSet (by decide) _)⟩
    rw [(raisePair_keeps _ _).1]
    rfl
  · refine answers_of (fun x => stageCheck (leaseViewEnds x)) rfl ha ?_
    rw [stageCheck_pwr]
    have hloss : lossCheck s.mod = s.mod := if_neg (by simp [pathIsLost, hc, hm])
    have hgo : leaseViewEnds s.mod = raisePair evReinsTaken (tally (.cpl 5) (setCpl (fun c => { c with
        holder := true
        ownLease := true
        leaseNum := c.leaseNum + 1
        ownEnd := s.mod.now + leaseTime s.mod
        renewDue := s.mod.now
        viewEnd := none
        sent := [] }) s.mod)) := by
      simp only [leaseViewEnds, hv]
      rw [if_pos ht, hloss]
      exact if_pos hmay
    rw [hgo]
    refine ⟨?_, ?_, ?_, ?_, raisePair_evtSet (by decide) _⟩ <;> simp only [raisePair_keeps] <;> rfl
  · exact fun h => ends_of _ rfl ha hr (reinsHandoverCmd_answers.1 h)
  · exact fun h hs hp => ends_of _ rfl ha hr (reinsHandoverCmd_answers.2.1 h hs hp)
  · exact fun h hm => ends_of _ rfl ha hr (reinsHandoverCmd_answers.2.2 h hm)

/-! ### The coupler link -/

/-- What asking for the coupler's training leaves. -/
theorem askCoupler_effect (x : Mod) : ({ (askCoupler x).cpl with training := false } : Cpl) = { x.cpl with training := false } ∧
    (askCoupler x).line = x.line := by
  obtain ⟨hcpl, hline⟩ : (askLeave 9 0 none x).2.cpl = x.cpl ∧ (askLeave 9 0 none x).2.line = x.line :=
    ⟨(congrArg Mod.cpl (askLeave_offPower 9 0 none x) :), (congrArg Mod.line (askLeave_offPower 9 0 none x) :)⟩
  unfold askCoupler
  split
  · exact ⟨rfl, rfl⟩
  · split
    · rename_i he
      rw [he] at hcpl hline
      dsimp only at hcpl hline
      simp only [setCpl, hcpl, hline, and_self]
    · rename_i he
      rw [he] at hcpl hline
      dsimp only at hcpl hline
      simp only [hcpl, hline, and_self]

/-- The end of a PAIR_RESTART leaves the coupler and the line. -/
theorem endPairRestart_keeps (y : Mod × List Host.Cell) : (endPairRestart y).1.cpl = y.1.cpl ∧ (endPairRestart y).1.line = y.1.line := by
  unfold endPairRestart
  split
  · simp only [complete_keeps]
    exact ⟨rfl, rfl⟩
  · exact ⟨rfl, rfl⟩

theorem couplerDown_link (x : Mod) : (couplerDown x).cpl.link = false ∧ (x.cpl.link = true → (portSt (couplerDown x) 1036).up = false) := by
  unfold couplerDown
  split
  · rename_i h
    rw [Bool.not_eq_true'] at h
    exact ⟨h, fun k => absurd (h.symm.trans k) (by decide)⟩
  · refine ⟨rfl, fun _ => ?_⟩
    simp only [portSt, setCpl_keeps, setPort_same]

/-- A third failure in a row leaves the link down to stay; an earlier one is tried again. -/
theorem couplerFails_effect {x : Mod} (ht : x.cpl.training = true) (l : List Host.Cell) :
    (couplerFails (x, l)).1.cpl.fails = x.cpl.fails + 1 ∧ (couplerFails (x, l)).1.cpl.stayDown = decide (3 ≤ x.cpl.fails + 1) ∧
    (3 ≤ x.cpl.fails + 1 → (couplerFails (x, l)).1.cpl.training = false) ∧ (couplerFails (x, l)).1.cpl.link = x.cpl.link := by
  unfold couplerFails
  dsimp only
  rw [if_neg (by rw [ht]; decide)]
  generalize hfailed : setCpl (fun c => { c with
    training := false
    fails := x.cpl.fails + 1
    stayDown := decide (3 ≤ x.cpl.fails + 1) }) x = y
  have hy : y.cpl = { x.cpl with
      training := false
      fails := x.cpl.fails + 1
      stayDown := decide (3 ≤ x.cpl.fails + 1) } := by rw [← hfailed]; rfl
  split
  · rw [(endPairRestart_keeps _).1, show (releaseGrant 9 0 y).cpl = y.cpl from rfl, hy]
    exact ⟨rfl, rfl, fun _ => rfl, rfl⟩
  · rename_i h3
    split
    · rw [setCpl_same, hy]
      exact ⟨rfl, rfl, fun h => absurd h h3, rfl⟩
    · have hask := (askCoupler_effect (releaseGrant 9 0 y)).1
      rw [show (releaseGrant 9 0 y).cpl = y.cpl from rfl, hy] at hask
      exact ⟨(congrArg Cpl.fails hask :), (congrArg Cpl.stayDown hask :), fun h => absurd h h3, (congrArg Cpl.link hask :)⟩

theorem leaveAsked_cpl (n op : Nat) (units : List Nat) (x : Mod) : (leaveAsked n op units x).2.cpl = x.cpl := by
  have hu := (askLeaves_effect n op units (setBox n (fun b => { b with began := true, leave := [] }) x)).1
  have hcpl : ∀ z : Mod, (unasked n z).cpl = z.cpl := fun _ => rfl
  rw [← hcpl, hu, hcpl]
  rfl

theorem pairRestartCmd_form {n : Nat} {b : Mailbox} {x : Mod} {l : List Host.Cell} :
    (b.len ≠ 0 → pairRestartCmd n b (x, l) = fail n stInvalid (x, l)) ∧
    (b.len = 0 → x.mode.mode ≠ .standalone → x.mode.mode ≠ .paired → pairRestartCmd n b (x, l) = fail n stWrongMode (x, l)) ∧
    (b.len = 0 → x.mode.mode = .standalone ∨ x.mode.mode = .paired → pairRestartCmd n b (x, l) =
      underLeave n 9 [0] (fun z => (retrainCoupler z.1, z.2)) (x, l)) := by
  refine ⟨fun h => if_pos h, fun h hs hp => ?_, fun h hm => ?_⟩
  · rw [pairRestartCmd, if_neg (not_not.mpr h), if_pos (by simp [hs, hp])]
  · rw [pairRestartCmd, if_neg (not_not.mpr h), if_neg (by rcases hm with hm | hm <;> simp [hm])]

/-- Settles O42: asking for leave and ending a PAIR_RESTART leave the coupler and port 1036 as the training made them. -/
theorem theCouplerTrains : Obligations.TheCouplerTrains := by
  refine ⟨fun s ha ht => ?_, fun s ha ht => ?_, fun s ha hl => ?_, fun n s ha hr => ?_⟩
  · refine answersBuf_of couplerTrained rfl ha ?_
    have hgo : couplerTrained (s.mod, s.mem) = endPairRestart (releaseGrant 9 0 (setPort 1036 (fun k => { k with
        up := true
        idleAt := s.mod.now }) (setCpl (fun c => { c with link := true, training := false, fails := 0 }) s.mod)), s.mem) :=
      if_neg (by rw [ht]; decide)
    rw [hgo, portSt, (endPairRestart_keeps _).1, (endPairRestart_keeps _).2]
    exact ⟨rfl, rfl, rfl, congrArg PortSt.up (setPort_same 1036 _ _)⟩
  · refine answersBuf_of couplerFails rfl ha ?_
    obtain ⟨hfails, hstay, htraining, hlink⟩ := couplerFails_effect ht s.mem
    refine ⟨hfails, ?_, fun h => htraining (Nat.succ_le_succ h), hlink⟩
    rw [hstay, decide_eq_true_eq]
    exact Nat.succ_le_succ_iff
  · refine answers_of couplerLost rfl ha ?_
    obtain ⟨hlink, hport⟩ := couplerDown_link s.mod
    obtain ⟨hcpl, hline⟩ := askCoupler_effect (couplerDown s.mod)
    rw [couplerLost, if_pos hl, portSt, hline]
    exact ⟨(congrArg Cpl.link hcpl :).trans hlink, hport hl⟩
  · intro ask
    have hask : ask = leaveAsked n 9 [0] s.mod := rfl
    clear_value ask
    subst hask
    refine ⟨fun h => ends_of _ rfl ha hr (pairRestartCmd_form.1 h), fun h => ⟨fun hs hp => ends_of _ rfl ha hr (pairRestartCmd_form.2.1 h hs hp),
      fun hm => ⟨fun hno => ends_of _ rfl ha hr ((pairRestartCmd_form.2.2 h hm).trans (underLeave_refused hno)), fun hyes hw => ?_,
        fun hyes hw => ?_⟩⟩⟩
    · refine answersBuf_onCommand (pairRestartCmd n) rfl ha hr ((pairRestartCmd_form.2.2 h hm).trans (underLeave_goes hyes hw)) ?_
      exact ⟨rfl, rfl, rfl, (couplerDown_link _).1, rfl, rfl⟩
    · refine answersBuf_onCommand (pairRestartCmd n) rfl ha hr ((pairRestartCmd_form.2.2 h hm).trans (underLeave_waits hyes hw)) ?_
      exact ⟨rfl, rfl, leaveAsked_cpl n 9 [0] s.mod⟩

end Sys2Proof.Machine
end

section
/-! Proofs about sync records, the resync, the handover of generation and recovery (11 R363 to R369). -/

namespace Sys2Proof.Machine

-- One theorem at a time: each thread that elaborates another reserves a stack, and their sum has a limit.
set_option Elab.async false

/-- A learn request that is queued joins its home's queue. -/
theorem enqueueLearn_joins (h : Nat) (r : Learn) (x : Mod) : r ∈ (enqueueLearn h r x).tbl.learns.get h ∧
    ((enqueueLearn h r x).tbl.learns.get h).length = (x.tbl.learns.get h).length + 1 := by
  simp only [enqueueLearn, Map.get_set_same]
  generalize (if (x.tbl.learnPtr.get h).1 = r.came / 625 then (x.tbl.learnPtr.get h).2.1 else (x.tbl.learnPtr.get h).2.2) = ptr
  refine ⟨by simp, ?_⟩
  have hcyc := List.length_eq_length_filter_add (l := x.tbl.learns.get h) fun k => k.came / 625 == r.came / 625
  have hturn := List.length_eq_length_filter_add (l := (x.tbl.learns.get h).filter fun k => k.came / 625 == r.came / 625)
    fun k => decide ((k.src + 8 - ptr) % 8 ≤ (r.src + 8 - ptr) % 8)
  simp only [← decide_not, Nat.not_le] at hturn
  simp only [List.length_append, List.length_singleton, bne]
  omega

/-- The learn request of a sync record, as the module of the home takes it. -/
def syncLearn (l : List Byte) (x : Mod) : Learn :=
  { src := homeOf x (leAt l 6 2 % 2 ^ 14) (BitVec.ofNat 48 (beAt l 8 6))
    dest := mappedDest x (leAt l 0x10 4)
    fid := leAt l 6 2 % 2 ^ 14
    mac := BitVec.ofNat 48 (beAt l 8 6)
    time := x.now
    sync := true
    del := leAt l 4 1 == 2 }

/-- The module once a sync record has been acknowledged. -/
def syncNoted (l : List Byte) (x : Mod) : Mod := tally (.cpl 9) (setCpl (fun c => { c with
  syncAck := BitVec.ofNat 32 (leAt l 0 4)
  resyncSeen := if c.resyncIn then (syncLearn l x).key :: c.resyncSeen else c.resyncSeen }) x)

theorem releaseGrant_gone (op unit : Nat) (x : Mod) : hasGrant (releaseGrant op unit x) op unit = false := by
  rw [hasGrant, List.any_eq_false]
  intro g hg
  have h := (List.mem_filter.mp hg).2
  rw [Bool.not_eq_true'] at h
  exact Bool.eq_false_iff.mp h

section Sync
variable {l : List Byte} {x : Mod}

theorem syncArrives_inOrder (hm : x.mode.mode = .paired) (hlink : x.cpl.link = true) (hrun : couplerRuns x = true)
    (hseq : BitVec.ofNat 32 (leAt l 0 4) = x.cpl.syncAck + 1 ∨ x.cpl.resyncIn = true) : syncArrives l x =
    if 4096 ≤ (x.tbl.learns.get (syncLearn l x).src).length then raise (.shed (syncLearn l x).src) evLearnDrop
      (tally (.lkp (syncLearn l x).src 1) (syncNoted l x))
    else enqueueLearn (syncLearn l x).src { syncLearn l x with came := x.now } (syncNoted l x) := by
  unfold syncArrives
  rw [if_neg (by rw [hm, hlink, hrun]; decide)]
  dsimp only
  refine (if_neg ?_).trans rfl
  rcases hseq with h | h
  · simp [h]
  · simp [h]

theorem syncArrives_gap (hm : x.mode.mode = .paired) (hlink : x.cpl.link = true) (hrun : couplerRuns x = true)
    (hseq : BitVec.ofNat 32 (leAt l 0 4) ≠ x.cpl.syncAck + 1) (hr : x.cpl.resyncIn = false) : syncArrives l x =
    raisePair evSyncGap (setCpl (fun c => { c with resyncIn := true, resyncSeen := [], syncAck := BitVec.ofNat 32 (leAt l 0 4) }) x) := by
  unfold syncArrives
  rw [if_neg (by rw [hm, hlink, hrun]; decide)]
  exact if_pos (by rw [hr, bne_iff_ne.mpr hseq]; rfl)

end Sync

/-- Settles O43: in order a sync record joins its home's queue; each handover record and each end of a resync acts on its own handle
and on its own grant. -/
theorem syncAndHandover : Obligations.SyncAndHandover := by
  refine ⟨fun r t s ha hm hlink hrun hup hun hlen => ?_, fun l s ha hm hlink hrun => ?_, fun s ha hon hout => ?_, fun h q s ha hm hlink hmine => ?_,
    fun h s ha hm hk => ?_, fun h t s ha ht hk hm hlink hp => ?_, fun h t r s ha hnone hpass hr htake hp => ?_⟩
  · refine answers_of sendSync rfl ha ?_
    have hgo : sendSync s.mod = emit (.sync (leBytes 4 (s.mod.cpl.syncSeq + 1).toNat ++ r)) (tally (.cpl 8) (setCpl (fun c => { c with
        unsent := t
        syncSeq := s.mod.cpl.syncSeq + 1
        unacked := c.unacked ++ [(s.mod.cpl.syncSeq + 1, r)] }) s.mod)) := by
      unfold sendSync
      rw [if_neg (by rw [hm, hlink, hrun, hup]; decide)]
      simp only [hun]
      refine if_neg ?_
      simp only [emit_keeps, tally_keeps, setCpl_same, List.length_append, List.length_singleton]
      omega
    rw [hgo]
    exact ⟨rfl, rfl, rfl, rfl⟩
  · intro seq fid mac home
    refine ⟨fun hseq => ?_, fun hseq hr => ?_⟩
    · refine answers_of (syncArrives l) rfl ha ?_
      have hhome : home = (syncLearn l s.mod).src := rfl
      rw [syncArrives_inOrder hm hlink hrun hseq, hhome]
      by_cases hfull : 4096 ≤ (s.mod.tbl.learns.get (syncLearn l s.mod).src).length
      · rw [if_pos hfull, if_neg (Nat.not_lt.mpr hfull)]
        refine ⟨?_, ?_, raise_evtSet _ _ _ (by decide)⟩ <;> simp only [raise_keeps] <;> rfl
      · rw [if_neg hfull, if_pos (Nat.not_le.mp hfull)]
        obtain ⟨hmem, hlen⟩ := enqueueLearn_joins (syncLearn l s.mod).src { syncLearn l s.mod with came := s.mod.now } (syncNoted l s.mod)
        refine ⟨rfl, _, hmem, hlen, rfl, rfl, rfl, rfl, rfl, ?_⟩
        exact beq_iff_eq
    · refine answers_of (syncArrives l) rfl ha ?_
      rw [syncArrives_gap hm hlink hrun hseq hr]
      refine ⟨?_, ?_, ?_, raisePair_evtSet (by decide) _⟩ <;> simp only [raisePair_keeps] <;> rfl
  · refine answers_of resyncEnds rfl ha ?_
    have hok : (!s.mod.cpl.resyncOut || (hasGrant s.mod 10 0 && s.mod.cpl.unsent == [])) = true := by
      cases hro : s.mod.cpl.resyncOut with
      | false => rfl
      | true => simp [hout hro]
    have hgo : ¬ (!(s.mod.cpl.resyncOut || s.mod.cpl.resyncIn) || !(!s.mod.cpl.resyncOut || (hasGrant s.mod 10 0 && s.mod.cpl.unsent == []))) =
        true := by
      rw [hok]
      rcases hon with h | h <;> simp [h]
    unfold resyncEnds
    dsimp only
    rw [if_neg hgo]
    refine ⟨rfl, rfl, rfl, ?_⟩
    exact releaseGrant_gone 10 0 _
  · refine answers_of (handoverArrives h q) rfl ha ?_
    have hgo : handoverArrives h q s.mod = emit (.handoverAck h) (tally (.cpl 11) (setGen h (fun g => { g with
        next := (if serialNewer q g.next then q else g.next) + 32 }) s.mod)) := by
      unfold handoverArrives
      dsimp only
      rw [if_neg (by rw [hm, hlink, hmine]; decide)]
    rw [hgo]
    refine ⟨?_, rfl, tally_same _ _⟩
    simp
  · refine answers_of (handoverAcked h) rfl ha ?_
    rw [handoverAcked, if_pos (by rw [hm, hk]; rfl), setGen_same]
  · refine answers_of (handoverResent h) rfl ha ?_
    have hgo : handoverResent h s.mod = emit (.handover h (s.mod.cpl.gens.get h).next.toNat) (setGen h (fun g => { g with
        sentAt := some s.mod.now }) s.mod) := by
      simp only [handoverResent, ht]
      exact if_pos (by rw [hk, hm, hlink, hp]; rfl)
    rw [hgo]
    refine ⟨?_, rfl⟩
    simp
  · refine answers_of (fun x => if offerComes h x s.pending then x else recoveryResets h x) rfl ha ?_
    have hgo : recoveryResets h s.mod = tally (.cpl 15) (setCpl (fun k => { k with
        recs := k.recs.set h { s.mod.cpl.recs.get h with takeAny := true } }) s.mod) := by
      simp only [recoveryResets, hpass, hr]
      exact if_pos (by rw [htake, hp]; rfl)
    rw [if_neg (by rw [hnone]; decide), hgo]
    exact ⟨Map.get_set_same _ _ _, tally_same _ _⟩

end Sys2Proof.Machine
end

section
/-! Statements that a state refutes. In four of them a frame that is no longer held is read back all the same: the default of the frame
map is a frame, which no run brings about and which the statements allow. In the fifth an error stands in the relay word a cell is
written to (17 R518). -/

namespace Sys2Proof.Machine

-- One theorem at a time: each thread that elaborates another reserves a stack, and their sum has a limit.
set_option Elab.async false

namespace EveryFrame

/-- The module right after reset, with the same frame under every number. -/
def mod (fr : Frame) : Mod := { State.reset.mod with frames := .const (some fr) }

/-- A frame of the management port without a byte. -/
def empty : Frame := { port := 1037, bytes := [], arr := 0, epoch := 0, bank := none }

/-- A whole frame of the coupler port, admitted and ended, without a guard result. -/
def whole : Frame := { port := 1036, bytes := zeros 64, arr := 0, epoch := 0, bank := none, admitted := true, ended := true, good := true }

/-- A decided frame whose one copy is in transmission. -/
def sending : Frame := { whole with decided := true, copies := [{ kind := .unicast, port := 1036, queue := 0, cls := 0, st := .sending }] }

/-- The transmission of that copy, over since the beginning. -/
def lastByteOut : TxNow := { f := some 0, copy := some 0, start := 0, e := 64, bytes := zeros 64, end_ := 0 }

/-- The module that sends that copy, the next frame number being 1. -/
def sender : Mod := { mod sending with
  nextF := 1
  line := { (mod sending).line with ports := (Map.const {}).set 1036 { up := true, tx := some lastByteOut } } }

/-- The module in Standalone with the host link up and a descriptor waiting in inject ring 0. -/
def injector : Mod := { mod empty with
  mode := { (mod empty).mode with mode := .standalone }
  host := { (mod empty).host with
    up := true
    rings := (Map.const {}).set 0 { enable := true, sizeLog2 := 6, hostIdx := 1 } } }

/-- A valid descriptor of 60 bytes that names port 1037 and queue 0. -/
def descriptor : List Byte := zeros 8 ++ [60, 0, 0x0D, 4, 0, 1] ++ zeros 18

end EveryFrame

/-- Refutes O4: a frame shorter than 64 bytes is forgotten, and what stands under its number is then the map's default. -/
theorem not_framesArriveAndEnd : ¬ Obligations.FramesArriveAndEnd := by
  unfold Obligations.FramesArriveAndEnd
  rintro ⟨-, hend, -⟩
  obtain ⟨-, -, hshort⟩ := hend 0 EveryFrame.empty false { State.reset with mod := EveryFrame.mod EveryFrame.empty }
    (by decide +kernel) (by decide +kernel) (by decide +kernel) (by decide +kernel) (by decide +kernel) (by decide +kernel)
  obtain ⟨hgone, -⟩ := of_answers (fun x => takeStreams 0 (frameEnds 0 false x)) rfl (by decide +kernel) (hshort (by decide +kernel))
  exact absurd hgone (by decide +kernel)

/-- Refutes O10: the guard result leaves the frame no copy, so that it is no longer held, and the default stands under its number. -/
theorem not_guardAndOutriders : ¬ Obligations.GuardAndOutriders := by
  unfold Obligations.GuardAndOutriders
  rintro ⟨hguard, -⟩
  have h := hguard 0 EveryFrame.whole { State.reset with mod := { EveryFrame.mod EveryFrame.whole with now := 18000 } }
    (by decide +kernel) (by decide +kernel) (by decide +kernel) (by decide +kernel) (by decide +kernel) (by decide +kernel) (by decide +kernel)
  obtain ⟨-, hdecided⟩ := of_answers (fun x => takeStreams 0 (guardNow 0 x)) rfl (by decide +kernel) h
  have hframe : frame? (takeStreams 0 (guardNow 0 { EveryFrame.mod EveryFrame.whole with now := 18000 })) 0 = some EveryFrame.whole := by
    decide +kernel
  exact absurd (hdecided _ hframe).1 (by decide +kernel)

/-- Refutes O11: with its last copy sent the frame is no longer held, and the copy of the default has not been sent. -/
theorem not_copiesAreSent : ¬ Obligations.CopiesAreSent := by
  unfold Obligations.CopiesAreSent
  rintro ⟨-, -, -, -, -, hend, -, -⟩
  have h := hend 1036 EveryFrame.lastByteOut 0 0 EveryFrame.sending { kind := .unicast, port := 1036, queue := 0, cls := 0, st := .sending }
    { State.reset with mod := EveryFrame.sender } (by decide +kernel) (by decide +kernel) (by decide +kernel) (by decide +kernel)
    (by decide +kernel) (by decide +kernel) (by decide +kernel) (by decide +kernel) (by decide +kernel)
  obtain ⟨-, -, -, -, -, hdone⟩ := of_answers (txEnds (tsqReads (stallOf 1036) []) 1036) rfl (by decide +kernel) h
  have hframe : frame? (txEnds (tsqReads (stallOf 1036) []) 1036 EveryFrame.sender) 0 = some EveryFrame.sending := by decide +kernel
  exact absurd (hdone _ hframe) (by decide +kernel)

/-- Refutes O45: a direct frame that the Loft refuses is no longer held, and the default under its number was not admitted. -/
theorem not_descriptorsAreFetched : ¬ Obligations.DescriptorsAreFetched := by
  unfold Obligations.DescriptorsAreFetched
  rintro ⟨hfetch, -⟩
  obtain ⟨-, hdirect, -⟩ := hfetch 0 EveryFrame.descriptor [] { State.reset with mod := EveryFrame.injector }
    (by decide +kernel) (by decide +kernel) (by decide +kernel) (by decide +kernel) (by decide +kernel)
  obtain ⟨-, -, -, hframe⟩ := of_answers (fetchInject 0 EveryFrame.descriptor []) rfl (by decide +kernel)
    (hdirect (by decide +kernel) (by decide +kernel))
  have hread : frame? (fetchInject 0 EveryFrame.descriptor [] EveryFrame.injector) 0 = some EveryFrame.empty := by decide +kernel
  exact absurd (hframe _ hread).1 (by decide +kernel)

namespace RelayError

/-- The 500 bytes of a stage-one cell from shed 0 to shed 1, of sequence 39942: bytes 4 and 5 are such that the CRC-32's register is 0
after them, so that it stays 0 over the zeros that follow. -/
def bytes : List Byte := [0, 0x41, 6, 156, 253, 191] ++ List.replicate 490 0 ++ [255, 255, 255, 255]

/-- That cell. -/
def cell : YardCell :=
  { stage := 1, src := 0, dst := 1, int := 0, seq := 39942, parts := [], creditCells := 0, creditDst := 0 }

theorem crc_of_zeros (n : Nat) : (List.replicate n (0 : Byte)).foldl crcByte 0 = 0 := by
  induction n with
  | zero => rfl
  | succ n ih => exact (congrArg (List.foldl crcByte · _) (by decide : crcByte 0 0 = 0)).trans ih

theorem fcs_of_bytes : fcsOf (bytes.take 496) = [255, 255, 255, 255] := by
  have htake : bytes.take 496 = [0, 0x41, 6, 156, 253, 191] ++ List.replicate 490 0 := by decide +kernel
  have hhead : ([0, 0x41, 6, 156, 253, 191] : List Byte).foldl crcByte 0xFFFFFFFF#32 = 0 := by decide +kernel
  rw [htake, fcsOf, List.foldl_append, hhead, crc_of_zeros]
  decide

theorem cellOf_bytes : cellOf { bytes := bytes, parts := [] } = some cell := by
  have hlast : sliceOf bytes 496 4 = [255, 255, 255, 255] := by decide +kernel
  simp only [cellOf, fcs_of_bytes, hlast, if_true]
  decide +kernel

/-- The module right after reset, with half 0 of shed 0 carrying slots and an error standing in the relay word of that cell. -/
def mod : Mod := { State.reset.mod with
  mesh := { State.reset.mod.mesh with halves := (Map.const {}).set (0, 0) { st := .full } }
  ecc := [{ word := .relay 0 1 0 39942 }] }

theorem mod_ecc : mod.ecc ≠ [] := List.cons_ne_nil _ _

/-- The module once the cell has joined the stage-two queue for shed 1. -/
def joined : Mod := joinS2 0 { cell with stage := 2 } (takeCredit 0 (peerOf 0 0) cell mod)

theorem joined_ecc : joined.ecc = [] := by decide +kernel

theorem yardCell_joined : yardCell 0 0 { bytes := bytes, parts := [] } mod = joined := by
  simp only [yardCell, cellOf_bytes]
  exact if_neg (by decide +kernel)

end RelayError

/-- Refutes O13: the relayed cell is written into its word, so that an error that stood there is gone, and not the mesh alone has
changed. -/
theorem not_yardCellsMove : ¬ Obligations.YardCellsMove := by
  unfold Obligations.YardCellsMove
  rintro ⟨hreceive, -⟩
  obtain ⟨-, hrelay, -⟩ := hreceive 0 0 { bytes := RelayError.bytes, parts := [] } { State.reset with mod := RelayError.mod }
    (by decide +kernel) (by decide +kernel) (by decide +kernel)
  obtain ⟨-, hm, -⟩ := of_answers (yardCell 0 0 { bytes := RelayError.bytes, parts := [] }) rfl (by decide +kernel)
    (hrelay RelayError.cell RelayError.cellOf_bytes (by decide +kernel) (by decide +kernel))
  rw [RelayError.yardCell_joined] at hm
  have hecc : RelayError.joined.ecc = RelayError.mod.ecc := by rw [hm]
  exact RelayError.mod_ecc (hecc.symm.trans RelayError.joined_ecc)

end Sys2Proof.Machine
end

section
/-! Proofs about crossings that time out, and the host's link and resets (15 R470 to R476, 13 R408 to R428). -/

namespace Sys2Proof.Machine

-- One theorem at a time: each thread that elaborates another reserves a stack, and their sum has a limit.
set_option Elab.async false

theorem crossingError_evtSet (l : Level) (kind : Nat) (near far : BitVec 12) (x : Mod) :
    evtSet l evXerr (crossingError l kind near far x) = true := raise_evtSet _ _ _ (by decide)

theorem crossingError_xerr (l : Level) (kind : Nat) (near far : BitVec 12) (x : Mod) : (crossingError l kind near far x).isl.xerr.get l =
    { kind := kind, near := near, far := far, count := (x.isl.xerr.get l).count + 1 } := by
  simp [crossingError, Map.upd]

@[simp] theorem crossingError_keeps (l : Level) (kind : Nat) (near far : BitVec 12) (x : Mod) :
    (crossingError l kind near far x).now = x.now ∧ (crossingError l kind near far x).rdata = x.rdata ∧
      (crossingError l kind near far x).ctrs = x.ctrs ∧ (crossingError l kind near far x).tim = x.tim ∧
      (crossingError l kind near far x).host.access = x.host.access ∧
      (crossingError l kind near far x).isl.stale = x.isl.stale ∧ (crossingError l kind near far x).isl.blocked = x.isl.blocked := by
  simp [crossingError]

/-- What a crossing error changes. -/
theorem crossingError_frame (l : Level) (kind : Nat) (near far : BitVec 12) (x : Mod) : crossingError l kind near far x =
    { raised x (crossingError l kind near far x) with isl := (crossingError l kind near far x).isl } := by
  have h : crossingError l kind near far x = _ := raise_raised _ _ _
  exact h.trans (by rw [h]; rfl)

/-- The crossing error of a request that times out, with the answer to come stale. -/
def requestLost (near far : BitVec 12) (kind : Nat) (x : Mod) : Mod :=
  crossingError (islandLevel near.toNat) kind near far
    (tally (.isl (islandLevel near.toNat) 0) { x with isl := { x.isl with stale := (near, far) :: x.isl.stale } })

theorem handshakeTimesOut_read (near far : BitVec 12) (off : Nat) (x : Mod) :
    handshakeTimesOut near far 0 off x = logAccess 6 0xF 0 off { requestLost near far 0 x with rdata := 0 } := rfl

theorem handshakeTimesOut_posted (near far : BitVec 12) (off : Nat) (x : Mod) :
    handshakeTimesOut near far 1 off x = dropPosted off (requestLost near far 1 x) := rfl

theorem handshakeTimesOut_other {kind : Nat} (h0 : kind ≠ 0) (h1 : kind ≠ 1) (near far : BitVec 12) (off : Nat) (x : Mod) :
    handshakeTimesOut near far kind off x = requestLost near far kind x :=
  (if_neg h0).trans (if_neg h1)

/-- Dropping a posted write touches the time unit alone. -/
theorem dropPosted_frame (off : Nat) (x : Mod) : dropPosted off x = { x with tim := (dropPosted off x).tim } := by
  unfold dropPosted
  split
  · split <;> rfl
  · rfl

theorem dropPosted_gone {o : Nat} {a : Word} {b : Nat} {x : Mod} (h : x.tim.posted = some (o, a, b)) :
    (dropPosted (0x80000 + o) x).tim.posted = none := by
  simp [dropPosted, h]

/-- Everything a request that times out leaves but what a read or a posted write adds. -/
theorem requestLost_effect (near far : BitVec 12) (kind : Nat) (x : Mod) :
    let l := islandLevel near.toNat
    let m := requestLost near far kind x
    evtSet l evXerr m = true ∧
      m.isl.xerr.get l = { kind := kind, near := near, far := far, count := (x.isl.xerr.get l).count + 1 } ∧
      m.isl.stale = (near, far) :: x.isl.stale ∧ m.rdata = x.rdata ∧ m.host.access = x.host.access ∧ m.tim = x.tim ∧
      counted x (.isl l 0) 1 m := by
  intro l m
  refine ⟨crossingError_evtSet _ _ _ _ _, (crossingError_xerr _ _ _ _ _).trans (by simp [l]), ?_⟩
  obtain ⟨-, hrdata, hctrs, htim, haccess, hstale, -⟩ := crossingError_keeps l kind near far
    (tally (.isl l 0) { x with isl := { x.isl with stale := (near, far) :: x.isl.stale } })
  exact ⟨hstale.trans (by simp), hrdata.trans (by simp), haccess.trans (by simp), htim.trans (by simp),
    (congrArg (Map.get · _) hctrs).trans (tally_same _ _)⟩

/-- A request that times out, whatever its kind. -/
theorem handshakeTimesOut_effect (n f : BitVec 12) (k off : Nat) (x : Mod) (m : Mod) (hm : m = handshakeTimesOut n f k off x) :
    evtSet (islandLevel n.toNat) evXerr m = true ∧
      (m.isl.xerr.get (islandLevel n.toNat)).kind = k ∧ (m.isl.xerr.get (islandLevel n.toNat)).near = n ∧
      (m.isl.xerr.get (islandLevel n.toNat)).far = f ∧
      (m.isl.xerr.get (islandLevel n.toNat)).count = (x.isl.xerr.get (islandLevel n.toNat)).count + 1 ∧
      m.isl.stale = (n, f) :: x.isl.stale ∧ (k = 0 → m.rdata = 0 ∧ m.host.access.kind = 6) ∧
      (k ≠ 0 → m.rdata = x.rdata ∧ m.host.access = x.host.access) ∧
      (∀ o a b, k = 1 → x.tim.posted = some (o, a, b) → off = 0x80000 + o → m.tim.posted = none) ∧
      counted x (.isl (islandLevel n.toNat) 0) 1 m := by
  obtain ⟨hset, herr, hstale, hrdata, haccess, htim, hcount⟩ := requestLost_effect n f k x
  by_cases h0 : k = 0
  · subst h0
    rw [handshakeTimesOut_read] at hm
    have hisl : m.isl = (requestLost n f 0 x).isl := by rw [hm]; simp [logAccess]
    have hctrs : m.ctrs = (requestLost n f 0 x).ctrs := by rw [hm]; simp [logAccess]
    rw [hisl, herr, counted, hctrs]
    refine ⟨?_, rfl, rfl, rfl, rfl, hstale, fun _ => ⟨?_, ?_⟩, fun h => absurd rfl h, by simp, hcount⟩
    · rw [hm]
      exact logAccess_evtSet_mono _ _ _ _ _ _ _ hset
    · rw [hm]
      simp [logAccess]
    · rw [hm]
      exact logAccess_kind _ _ _ _ _
  · by_cases h1 : k = 1
    · subst h1
      rw [handshakeTimesOut_posted, dropPosted_frame] at hm
      subst hm
      dsimp only [counted, evtSet]
      rw [herr]
      refine ⟨hset, rfl, rfl, rfl, rfl, hstale, by simp, fun _ => ⟨hrdata, haccess⟩, fun o a b _ hp ho => ?_, hcount⟩
      rw [ho]
      exact dropPosted_gone (htim ▸ hp)
    · rw [handshakeTimesOut_other h0 h1] at hm
      subst hm
      rw [herr]
      exact ⟨hset, rfl, rfl, rfl, rfl, hstale, fun h => absurd h h0, fun _ => ⟨hrdata, haccess⟩, fun _ _ _ h => absurd h h1, hcount⟩

/-- The module with one more request lost and the writer of the FIFO blocked. -/
def writerBlocked (n f : BitVec 12) (y : Mod) : Mod :=
  tally (.isl (islandLevel n.toNat) 0) { y with isl := { y.isl with blocked := (n, f) :: y.isl.blocked } }

theorem fifoStalls_eq (n f : BitVec 12) (k : Nat) (y : Mod) : fifoStalls n f k y =
    if k = 0 then crossingError (islandLevel n.toNat) 3 n f (writerBlocked n f y)
    else raise (islandLevel n.toNat) evResyncDiscard
      (count (.isl (islandLevel n.toNat) 2) k (crossingError (islandLevel n.toNat) 3 n f (writerBlocked n f y))) := rfl

/-- A FIFO that stalls: the crossing error, the blocked writer and, with entries discarded, their count. -/
theorem fifoStalls_effect (n f : BitVec 12) (k : Nat) (y : Mod) (m : Mod) (hm : m = fifoStalls n f k y) :
    evtSet (islandLevel n.toNat) evXerr m = true ∧ (m.isl.xerr.get (islandLevel n.toNat)).kind = 3 ∧
      m.isl.blocked = (n, f) :: y.isl.blocked ∧
      (k ≠ 0 → evtSet (islandLevel n.toNat) evResyncDiscard m = true ∧ counted y (.isl (islandLevel n.toNat) 2) k m) ∧
      m = { raised y m with isl := m.isl, ctrs := m.ctrs } := by
  rw [fifoStalls_eq] at hm
  have hbase := crossingError_frame (islandLevel n.toNat) 3 n f (writerBlocked n f y)
  obtain ⟨-, -, hctrs, -, -, -, hblocked⟩ := crossingError_keeps (islandLevel n.toNat) 3 n f (writerBlocked n f y)
  have hset := crossingError_evtSet (islandLevel n.toNat) 3 n f (writerBlocked n f y)
  have hkind := congrArg XErr.kind (crossingError_xerr (islandLevel n.toNat) 3 n f (writerBlocked n f y))
  generalize crossingError (islandLevel n.toNat) 3 n f (writerBlocked n f y) = z at *
  have hother : z.ctrs.get (.isl (islandLevel n.toNat) 2) = y.ctrs.get (.isl (islandLevel n.toNat) 2) := by
    rw [hctrs]
    exact count_other (by simp) _ _
  have hframe : z = { raised y z with isl := z.isl, ctrs := z.ctrs } := hbase.trans (by rw [hctrs]; rfl)
  by_cases h : k = 0
  · rw [if_pos h] at hm
    subst hm
    exact ⟨hset, hkind, hblocked, fun h0 => absurd h h0, hframe⟩
  · rw [if_neg h] at hm
    have hraised := hm.trans (raise_raised _ _ _)
    rw [← hm] at hraised
    have hisl : m.isl = z.isl := (congrArg Mod.isl hraised :)
    have hm_ctrs : m.ctrs = (count (.isl (islandLevel n.toNat) 2) k z).ctrs := (congrArg Mod.ctrs hraised :)
    rw [hisl]
    refine ⟨?_, hkind, hblocked, fun _ => ⟨?_, ?_⟩, ?_⟩
    · rw [hm]
      exact raise_evtSet_mono _ _ _ _ _ hset
    · rw [hm]
      exact raise_evtSet _ _ _ (by decide)
    · have hcyc : z.cyc = y.cyc := (congrArg Mod.cyc hframe :)
      rw [counted, hm_ctrs, count_same, hother, hcyc]
    · rw [hm_ctrs]
      exact hraised.trans (by rw [hframe]; rfl)

/-- Settles O47: the crossing is logged by its kind and level, and what is to come of it is stale. -/
theorem crossingsTimeOut : Obligations.CrossingsTimeOut := by
  unfold Obligations.CrossingsTimeOut
  refine ⟨fun n f k off s ha hc => ?_, fun n s ha hs => ?_, fun n f k s ha => ?_, fun n f k off s ha hc => ?_⟩
  · exact answers_of (fun x => if answerComes s n then x else handshakeTimesOut n f k off x) rfl ha
      (handshakeTimesOut_effect n f k off s.mod _ (if_neg (by simp [hc])))
  · refine answers_of (staleAnswer n) rfl ha ?_
    rw [staleAnswer, if_pos hs]
    exact ⟨rfl, tally_same _ _, rfl⟩
  · exact answers_of (fifoTimesOut n f k) rfl ha (fifoStalls_effect n f k _ _ rfl)
  · exact answers_of (fun x => if answerComes s n then x else handshakeTimesOut n f k off x) rfl ha (if_pos hc)

/-! ### The host's link and resets (13 R408, R409, R428) -/

/-- The module with its link up at a speed and width, and stage 4 ended. -/
def linked (sp w : Nat) (x : Mod) : Mod :=
  { x with
    ext := { x.ext with perst := true }
    host := { x.host with up := true, speed := sp, width := w, degraded := decide (sp < 4) || decide (w < 8) }
    pwr := { x.pwr with stage := if x.pwr.stage = 4 then 5 else x.pwr.stage
                        stageAt := if x.pwr.stage = 4 then x.now else x.pwr.stageAt } }

theorem linkUp_eq {sp w : Nat} {x : Mod} (hup : x.host.up = false) (hdom : domRuns x 434 = true) (hs : x.ext.sampled = true)
    (hm : x.mode.mode ≠ .cold) (hg : x.ext.gen4 = true ∨ sp ≤ 4) :
    linkUp sp w x = if decide (sp < 4) || decide (w < 8) then raise .yard evLinkDegraded (linked sp w x) else linked sp w x := by
  have hspeed : (!x.ext.gen4 && decide (4 < sp)) = false := by
    rcases hg with h | h
    · simp [h]
    · simp [Nat.not_lt.mpr h]
  exact if_neg (by simp [hup, hdom, hs, hm, hspeed])

/-- A host link that comes up. -/
theorem linkUp_effect {sp w : Nat} {x : Mod} (hup : x.host.up = false) (hdom : domRuns x 434 = true) (hs : x.ext.sampled = true)
    (hm : x.mode.mode ≠ .cold) (hg : x.ext.gen4 = true ∨ sp ≤ 4) :
    let m := linkUp sp w x
    m.host.up = true ∧ m.host.speed = sp ∧ m.host.width = w ∧ m.host.degraded = (decide (sp < 4) || decide (w < 8)) ∧
      (m.host.degraded = true → evtSet .yard evLinkDegraded m = true) ∧
      m.pwr.stage = (if x.pwr.stage = 4 then 5 else x.pwr.stage) := by
  intro m
  have hm : m = _ := linkUp_eq hup hdom hs hm hg
  cases hd : decide (sp < 4) || decide (w < 8) with
  | true =>
    have hraised : m = raise .yard evLinkDegraded (linked sp w x) := hm.trans (if_pos hd)
    rw [hraised]
    have hevt := raise_evtSet .yard evLinkDegraded (linked sp w x) (by decide)
    exact ⟨by simp [linked], by simp [linked], by simp [linked], by simp only [raise_keeps, linked, hd], fun _ => hevt, by simp [linked]⟩
  | false =>
    have hlinked : m = linked sp w x := hm.trans (if_neg (by simp [hd]))
    rw [hlinked]
    exact ⟨rfl, rfl, rfl, hd, fun h => absurd (hd.symm.trans h) (by decide), rfl⟩

/-- What a listed key of a map reads as when the entries are changed. -/
theorem Map.get_mapEnts_of_look {κ ν : Type} [DecidableEq κ] {m : Map κ ν} {k : κ} {v : ν} (f : κ → ν → ν)
    (h : Map.look k m.ents = some v) : (m.mapEnts f).get k = f k v := by
  simp [Map.get, Map.mapEnts, Map.look_map, h]

/-- What the host's going leaves, of its rings, its session, what reads latched, and the commands that run on (13 R428). -/
theorem hostReset_effect (x : Mod) :
    let m := hostReset x
    (∀ n r, Map.look n x.host.rings.ents = some r → r.enable = true → m.host.rings.get n =
        { r with enable := false, idle := true, error := 4, stopping := none }) ∧
      m.dax.version = none ∧ m.dax.session = 0 ∧ m.dax.posted = false ∧ (∀ l, m.latch.get l = []) ∧
      (∀ n < 15, ∀ b, Map.look n x.dax.boxes.ents = some b → b.busy = true →
        (m.dax.boxes.get n).busy = true ∧ (m.dax.boxes.get n).quiet = true) ∧
      m.host.up = x.host.up ∧ m.host.downCount = x.host.downCount := by
  refine ⟨fun n r hr he => ?_, rfl, rfl, rfl, fun _ => rfl, fun n hn b hb hbusy => ?_, rfl, rfl⟩
  · exact (Map.get_mapEnts_of_look _ hr).trans (if_pos (by simp [he]))
  · have hget : (hostReset x).dax.boxes.get n = { b with quiet := true, stored := none, ring := false } :=
      (Map.get_mapEnts_of_look _ hb).trans (if_pos (by simp [hbusy, Nat.ne_of_lt hn]))
    rw [hget]
    exact ⟨hbusy, rfl⟩

/-- A link that goes down. -/
theorem linkDown_eq {x : Mod} (hup : x.host.up = true) : linkDown x = { hostReset x with
    host := { (hostReset x).host with up := false, speed := 0, width := 0, degraded := false
                                      downCount := (hostReset x).host.downCount + 1 } } := by
  simp [linkDown, hup]

/-- Settles O46: link down, PERST# and a Function Level Reset share one host reset, which stops the rings and ends the session. -/
theorem theHostLink : Obligations.TheHostLink := by
  unfold Obligations.TheHostLink
  refine ⟨fun sp w s ha hup hdom hs hm hg => ?_, fun s ha hup => ?_, fun s ha hup => ?_, fun s ha hup => ?_, fun s ha hst hup hp => ?_⟩
  · exact answers_of (linkUp sp w) rfl ha (linkUp_effect hup hdom hs hm hg)
  · refine answers_of linkDown rfl ha ?_
    obtain ⟨hrings, hver, hses, hpost, hlatch, hboxes, -, hcount⟩ := hostReset_effect s.mod
    rw [linkDown_eq hup]
    exact ⟨hrings, hver, hses, hpost, hlatch, hboxes, rfl, congrArg (· + 1) hcount⟩
  · refine answers_of perstFalls rfl ha ?_
    obtain ⟨hrings, hver, hses, hpost, hlatch, hboxes, -, hcount⟩ := hostReset_effect (setExt (fun e => { e with perst := false }) s.mod)
    rw [perstFalls, linkDown_eq (x := setExt (fun e => { e with perst := false }) s.mod) hup]
    exact ⟨hrings, hver, hses, hpost, hlatch, hboxes, rfl, congrArg (· + 1) hcount, rfl⟩
  · refine answers_of functionResets rfl ha ?_
    obtain ⟨hrings, hver, hses, hpost, hlatch, hboxes, hkept, -⟩ := hostReset_effect s.mod
    rw [functionResets, if_pos hup]
    exact ⟨hrings, hver, hses, hpost, hlatch, hboxes, hkept.trans hup⟩
  · refine answers_of linkWaitEnds rfl ha ?_
    rw [linkWaitEnds, if_pos (by simp [hst, hup, hp])]
    exact ⟨rfl, rfl, rfl⟩

/-! ### Straps, face sensors, the coupler cable and the management link (19 R564 to R577) -/

/-- What an event raised on top of changed pins and sensors leaves. -/
theorem raise_setExt (l : Level) (e : Evt) (f : Ext → Ext) (x : Mod) :
    (raise l e (setExt f x)).ext = f x.ext ∧ raise l e (setExt f x) =
      { raised x (raise l e (setExt f x)) with ext := (raise l e (setExt f x)).ext } := by
  have h := raise_raised l e (setExt f x)
  have hext : (raise l e (setExt f x)).ext = f x.ext := (congrArg Mod.ext h :)
  refine ⟨hext, ?_⟩
  rw [hext]
  exact h

theorem strapChanges_refclk (v : Bool) (x : Mod) : strapChanges .refclk v x =
    if x.ext.liveRefclk = v || !x.ext.sampled then setExt (fun e => { e with liveRefclk := v }) x
    else raise .yard evStrapChange (setExt (fun e => { e with liveRefclk := v }) x) := rfl

theorem strapChanges_gen4 (v : Bool) (x : Mod) : strapChanges .gen4 v x =
    if x.ext.liveGen4 = v || !x.ext.sampled then setExt (fun e => { e with liveGen4 := v }) x
    else raise .yard evStrapChange (setExt (fun e => { e with liveGen4 := v }) x) := rfl

/-- A change of pins or sensors with an event raised on top unless `quiet`: the pins, the event, and nothing else. -/
theorem raiseUnless_setExt {quiet : Bool} {e : Evt} {f : Ext → Ext} {x m : Mod} (he : e.blk ≠ 0)
    (hm : m = if quiet then setExt f x else raise .yard e (setExt f x)) :
    m.ext = f x.ext ∧ (quiet = false → evtSet .yard e m = true) ∧ m = { raised x m with ext := m.ext } := by
  cases quiet with
  | true =>
    subst hm
    exact ⟨rfl, by simp, rfl⟩
  | false =>
    subst hm
    obtain ⟨hext, hframe⟩ := raise_setExt .yard e f x
    exact ⟨hext, fun _ => raise_evtSet _ _ _ he, hframe⟩

/-- A strap's level changes. -/
theorem strapChanges_effect (k : Strap) (v : Bool) (x : Mod) :
    let m := strapChanges k v x
    m.ext.gen4 = x.ext.gen4 ∧ m.ext.refclk = x.ext.refclk ∧
      (k = .gen4 → m.ext.liveGen4 = v ∧ m.ext.liveRefclk = x.ext.liveRefclk) ∧
      (k = .refclk → m.ext.liveRefclk = v ∧ m.ext.liveGen4 = x.ext.liveGen4) ∧
      (x.ext.sampled = true → (k = .gen4 ∧ x.ext.liveGen4 ≠ v) ∨ (k = .refclk ∧ x.ext.liveRefclk ≠ v) →
        evtSet .yard evStrapChange m = true) ∧ m = { raised x m with ext := m.ext } := by
  intro m
  cases k with
  | refclk =>
    obtain ⟨hext, hevt, hframe⟩ := raiseUnless_setExt (by decide) (strapChanges_refclk v x)
    change m.ext = _ at hext
    refine ⟨by rw [hext], by rw [hext], fun h => (nomatch h), fun _ => ⟨by rw [hext], by rw [hext]⟩, fun hs h => ?_, hframe⟩
    rcases h with ⟨h, -⟩ | ⟨-, h⟩
    · nomatch h
    · exact hevt (by simp [h, hs])
  | gen4 =>
    obtain ⟨hext, hevt, hframe⟩ := raiseUnless_setExt (by decide) (strapChanges_gen4 v x)
    change m.ext = _ at hext
    refine ⟨by rw [hext], by rw [hext], fun _ => ⟨by rw [hext], by rw [hext]⟩, fun h => (nomatch h), fun hs h => ?_, hframe⟩
    rcases h with ⟨-, h⟩ | ⟨h, -⟩
    · exact hevt (by simp [h, hs])
    · nomatch h

/-- What a face's sensors say: its state and hottest reading, and the limit it passed. -/
theorem faceRead_effect (b : Bool) (l : List Int) (x : Mod) (hd : domRuns x 446 = true) :
    let r := l.foldl max (l.headD 0)
    let o := if b then x.ext.faceB else x.ext.faceT
    let n := faceNext (if b then 480 else 440) o.1 r
    let m := faceRead b l x
    (if b then m.ext.faceB else m.ext.faceT) = (n, min r.toNat 4095) ∧
      (if b then m.ext.faceT else m.ext.faceB) = (if b then x.ext.faceT else x.ext.faceB) ∧
      (n = 1 → o.1 ≠ 1 → evtSet .yard evFaceHot m = true) ∧ (n = 2 → o.1 ≠ 2 → evtSet .yard evFaceCold m = true) ∧
      m = { raised x m with ext := m.ext } := by
  intro r o n m
  have hm : m = if n = o.1 || n = 0 then setExt (fun e => if b then { e with faceB := (n, min r.toNat 4095) } else { e with faceT := (n, min r.toNat 4095) }) x
      else raise .yard (if n = 1 then evFaceHot else evFaceCold)
        (setExt (fun e => if b then { e with faceB := (n, min r.toNat 4095) } else { e with faceT := (n, min r.toNat 4095) }) x) :=
    if_neg (by simp [hd])
  clear_value m
  obtain ⟨hext, hevt, hframe⟩ := raiseUnless_setExt (by split <;> decide) hm
  refine ⟨by rw [hext]; cases b <;> rfl, by rw [hext]; cases b <;> rfl, fun hn ho => ?_, fun hn ho => ?_, hframe⟩
  · have h := hevt (by simp [hn, ho.symm])
    rwa [if_pos hn] at h
  · have h := hevt (by simp [hn, ho.symm])
    rwa [if_neg (by simp [hn])] at h

theorem mgmtDown_eq {x : Mod} (hup : x.ext.mgmtLink = true) : mgmtChanges false x = setExt (fun e => { e with mgmtLink := false })
    (setPort 1037 (fun _ => {}) (flushQueues 1037 1 7 (abortTx 1037 (endCut 1037 (cutReception 1037 x))))) :=
  (if_neg (by simp [hup])).trans (if_neg (by simp))

/-- Settles O55: each pin and face keeps what it reads, and its event is raised where the reading changes. -/
theorem pinsAndFaces : Obligations.PinsAndFaces := by
  unfold Obligations.PinsAndFaces
  refine ⟨fun k v s ha => ?_, fun b l s ha hd => ?_, fun v s ha => ⟨fun hv => ?_, fun hv => ?_⟩, fun s ha hup h440 h441 => ?_,
    fun s ha hup => ?_⟩
  · exact answers_of (strapChanges k v) rfl ha (strapChanges_effect k v s.mod)
  · exact answers_of (faceRead b l) rfl ha (faceRead_effect b l s.mod hd)
  · exact answers_of (cableChanges v) rfl ha (if_pos hv)
  · refine answers_of (cableChanges v) rfl ha ?_
    rw [cableChanges, if_neg hv]
    exact ⟨(raise_setExt _ _ _ _).1, raise_evtSet _ _ _ (by decide)⟩
  · refine answers_of (mgmtChanges true) rfl ha ?_
    rw [mgmtChanges, if_neg (by simp [hup, h440, h441]), if_pos rfl]
    exact ⟨rfl, by simp [portSt, setPort, Map.upd]⟩
  · refine answers_of (mgmtChanges false) rfl ha ?_
    rw [mgmtDown_eq hup]
    generalize flushQueues 1037 1 7 (abortTx 1037 (endCut 1037 (cutReception 1037 s.mod))) = y
    have hport : portSt (setPort 1037 (fun _ => {}) y) 1037 = {} := by simp [portSt, setPort, Map.upd]
    exact ⟨rfl, (congrArg PortSt.up hport :), (congrArg PortSt.tx hport :)⟩

end Sys2Proof.Machine
end

section
/-! Proofs about enrolment, quotes, authorised messages, and the MACsec keys of a port (18 R539 to R544, 12 R403). -/

namespace Sys2Proof.Machine

-- One theorem at a time: each thread that elaborates another reserves a stack, and their sum has a limit.
set_option Elab.async false

section
variable {n : Nat} {b : Mailbox} {x : Mod} {l : List Host.Cell}

/-! ### Owners -/

/-- What ENROL keeps, its own key pair drawn. -/
def enrolment (q : List Byte) (x : Mod) : Enrol :=
  { auth := sliceOf q 4 57
    ttKey := if leAt q 1 1 = 1 then some (sliceOf q 61 57) else none
    policy := leAt q 0 1
    pub := (drawBytes 57 x).1 }

theorem enrolCmd_wellFormed (hlen : b.len = 118) (hp : leAt b.body 0 1 ≤ 1) (hk : leAt b.body 1 1 ≤ 1) (h0 : leAt b.body 2 2 = 0) :
    enrolCmd n b (x, l) = if x.sec.enrol.isSome then complete n stDenied [9#8] (x, l)
      else secReply n secOk (drawBytes 57 x).1
        ({ (drawBytes 57 x).2 with sec := { (drawBytes 57 x).2.sec with enrol := some (enrolment b.body x) } }, l) := by
  simp only [enrolCmd]
  exact if_neg (by simp [hlen, hp, hk, h0])

theorem quoteCmd_none (hlen : b.len = 32) (he : x.sec.enrol = none) : quoteCmd n b (x, l) = complete n stDenied [8#8] (x, l) := by
  simp only [quoteCmd, hlen, he]
  rfl

theorem quoteCmd_some (hlen : b.len = 32) {e : Enrol} (he : x.sec.enrol = some e) :
    quoteCmd n b (x, l) = complete n stOk ([0, 0, 0, 0] ++ quoteReport x e b.body) (x, l) := by
  have hne : quoteReport x e b.body ≠ [] := by simp [quoteReport, zeros]
  simp only [quoteCmd, hlen, he, secReply, if_neg hne]
  rfl

theorem challengeCmd_keeps (hlen : b.len = 0) : challengeCmd n b (x, l) = secReply n secOk (drawBytes 32 x).1
    ({ (drawBytes 32 x).2 with sec := { (drawBytes 32 x).2.sec with challenge := some ((drawBytes 32 x).1, x.now) } }, l) :=
  if_neg (by simp [hlen])

theorem length_drawBytes (k : Nat) (x : Mod) : (drawBytes k x).1.length = k := length_sliceOf _ _ _

/-- An authorised message without a challenge in force is denied. -/
theorem authorise_lapsed (hc : currentChallenge x = none) (e : Enrol) (op : Nat) (body sig : List Byte) :
    authorise x e op body sig = some secChallenge := by
  simp only [authorise, hc]

/-- With a challenge in force an authorised message fails by its signature alone. -/
theorem authorise_current (hc : (currentChallenge x).isSome = true) (e : Enrol) (op : Nat) (body sig : List Byte) :
    authorise x e op body sig = none ∨ authorise x e op body sig = some secAuth := by
  obtain ⟨c, hc⟩ := Option.isSome_iff_exists.mp hc
  simp only [authorise, hc]
  split
  · exact .inl rfl
  · exact .inr rfl

/-- What DECOMMISSION leaves of the module when it is authorised. -/
def decommissioned (x : Mod) : Mod :=
  { useChallenge x with
    sec := { (useChallenge x).sec with enrol := none }
    tt := { x.tt with banks := .const {}, active := none, lastActive := none }
    mode := { x.mode with resetAt := some (x.now + ms 100), resetCause := 1 } }

theorem decommissionCmd_mode (hlen : b.len = 114) (hm : x.mode.mode ≠ .quiesced) :
    decommissionCmd n b (x, l) = complete n stWrongMode [] (x, l) :=
  (if_neg (by simp [hlen])).trans (if_pos (by simp [hm]))

theorem decommissionCmd_owned (hlen : b.len = 114) (hm : x.mode.mode = .quiesced) (hc : classCRuns x n = false) {e : Enrol}
    (he : x.sec.enrol = some e) :
    (∀ r, authorise x e 0x77 [] b.body = some r → decommissionCmd n b (x, l) = secReply n r [] (useChallenge x, l)) ∧
      (authorise x e 0x77 [] b.body = none →
        decommissionCmd n b (x, l) = secReply n secOk [] (decommissioned x, eraseBank 0 (eraseBank 1 l))) := by
  have hrun : decommissionCmd n b (x, l) = _ := (if_neg (by simp [hlen])).trans ((if_neg (by simp [hm])).trans (if_neg (by simp [hc])))
  rw [hrun]
  simp only [he]
  refine ⟨fun r hr => ?_, fun hr => ?_⟩
  · simp only [hr]
  · simp only [hr]
    rfl

theorem policySetCmd_none (hlen : b.len = 116) (hp : leAt b.body 0 1 ≤ 1) (h0 : leAt b.body 1 1 = 0) (he : x.sec.enrol = none) :
    policySetCmd n b (x, l) = complete n stDenied [8#8] (x, l) := by
  have hrun : policySetCmd n b (x, l) = _ := if_neg (by simp [hlen, hp, h0])
  rw [hrun]
  simp only [he]
  rfl

theorem policySetCmd_owned (hlen : b.len = 116) (hp : leAt b.body 0 1 ≤ 1) (h0 : leAt b.body 1 1 = 0) {e : Enrol}
    (he : x.sec.enrol = some e) :
    (∀ r, authorise x e 0x78 (sliceOf b.body 0 2) (sliceOf b.body 2 114) = some r →
        policySetCmd n b (x, l) = secReply n r [] (useChallenge x, l)) ∧
      (authorise x e 0x78 (sliceOf b.body 0 2) (sliceOf b.body 2 114) = none →
        policySetCmd n b (x, l) = secReply n secOk [] ({ useChallenge x with
          sec := { (useChallenge x).sec with enrol := some { e with policy := leAt b.body 0 1 } } }, l)) := by
  have hrun : policySetCmd n b (x, l) = _ := if_neg (by simp [hlen, hp, h0])
  rw [hrun]
  simp only [he]
  refine ⟨fun r hr => ?_, fun hr => ?_⟩
  · simp only [hr]
  · simp only [hr]

theorem challengeLapses_of {c : List Byte} {t : Nat} (h : x.sec.challenge = some (c, t)) :
    challengeLapses x = if passed x.now t (sec 60) then useChallenge x else x := by
  simp only [challengeLapses, h]

/-! ### The keys of a port -/

/-- A MACSEC_KEY message whose fields fail is answered by the row of its OP. -/
theorem macsecOp_invalid {o : Nat} {f : Nat → Nat → List Byte → Mod → Option Mod} (ho : leAt b.body 0 1 = o)
    (hb : macsecFields x b = false) : macsecOp n o b f (x, l) = complete n stInvalid [] (x, l) :=
  (if_neg (by simp [ho])).trans (if_pos (by simp [hb]))

theorem macsecOp_valid {o : Nat} {f : Nat → Nat → List Byte → Mod → Option Mod} (ho : leAt b.body 0 1 = o)
    (hb : macsecFields x b = true) :
    (f (leAt b.body 2 2) (leAt b.body 1 1) b.body x = none → macsecOp n o b f (x, l) = complete n stInvalid [] (x, l)) ∧
      (∀ y, f (leAt b.body 2 2) (leAt b.body 1 1) b.body x = some y → macsecOp n o b f (x, l) = complete n stOk [] (y, l)) := by
  have hrun : macsecOp n o b f (x, l) = _ := (if_neg (by simp [ho])).trans (if_neg (by simp [hb, ho]))
  rw [hrun]
  refine ⟨fun h => ?_, fun y h => ?_⟩
  · simp only [h]
    rfl
  · simp only [h]

end

/-- A message of a security command that is answered with a result. -/
theorem secReply_replied {n r : Nat} {rest : List Byte} {x : Mod} {l : List Host.Cell} (hq : (x.dax.boxes.get n).quiet = false) :
    replied (secReply n r rest (x, l)).1 n (secStatus r) := complete_replied hq _ _ _

/-- A valid MACSEC_KEY message whose OP is carried out. -/
theorem macsec_answers {c : Instr} {n o : Nat} {s : State} {f : Nat → Nat → List Byte → Mod → Option Mod} (P : Line → Prop)
    (hx : exec c s = cmdAll c (onCommand n 0x50 (fun b => macsecOp n o b f)) s) (ha : arrives c s.mod = true)
    (hr : running s.mod n 0x50) (ho : leAt (s.mod.dax.boxes.get n).body 0 1 = o) (hb : macsecFields s.mod (s.mod.dax.boxes.get n) = true)
    {y : Mod} (hf : f (leAt (s.mod.dax.boxes.get n).body 2 2) (leAt (s.mod.dax.boxes.get n).body 1 1) (s.mod.dax.boxes.get n).body s.mod = some y)
    (hd : y.dax.boxes = s.mod.dax.boxes) (h : P y.line) : AnswersBuf c s fun m _ => replied m n stOk ∧ P m.line := by
  obtain ⟨-, -, -, hq⟩ := id hr
  have hline : (complete n stOk [] (y, s.mem)).1.line = y.line := by simp
  exact answersBuf_onCommand _ hx ha hr ((macsecOp_valid ho hb).2 y hf) ⟨complete_replied (hd ▸ hq) _ _ _, hline ▸ h⟩

/-- A valid MACSEC_KEY message whose OP finds nothing to do it on. -/
theorem macsec_ends {c : Instr} {n o : Nat} {s : State} {f : Nat → Nat → List Byte → Mod → Option Mod}
    (hx : exec c s = cmdAll c (onCommand n 0x50 (fun b => macsecOp n o b f)) s) (ha : arrives c s.mod = true)
    (hr : running s.mod n 0x50) (ho : leAt (s.mod.dax.boxes.get n).body 0 1 = o) (hb : macsecFields s.mod (s.mod.dax.boxes.get n) = true)
    (hf : f (leAt (s.mod.dax.boxes.get n).body 2 2) (leAt (s.mod.dax.boxes.get n).body 1 1) (s.mod.dax.boxes.get n).body s.mod = none) :
    Ends c s n stInvalid [] s.mod := ends_of _ hx ha hr ((macsecOp_valid ho hb).1 hf)

/-- A new receive channel's SA, or an SA of a channel that is known. -/
theorem installRx_effect {p an : Nat} {q : List Byte} {x : Mod} {sa : RxSa}
    (hsa : sa = { ssci := sliceOf q 0x0C 4, salt := sliceOf q 0x10 12, key := sliceOf q 0x20 32, low := leAt q 0x40 8 }) :
    (x.line.rxSc.any (fun r => r.port == p && r.sci == sliceOf q 4 8) = false → 128 ≤ (stallChannels x (stallOf p)).length →
        installRx p an q x = none) ∧
      (¬ x.line.rxSc.any (fun r => r.port == p && r.sci == sliceOf q 4 8) = false ∨ (stallChannels x (stallOf p)).length < 128 →
        ∃ y, installRx p an q x = some y ∧ y.dax.boxes = x.dax.boxes ∧ y.line.txSa = x.line.txSa ∧
          ∃ r ∈ y.line.rxSc, r.port = p ∧ r.sci = sliceOf q 4 8 ∧ r.sas.get an = some sa) := by
  subst hsa
  refine ⟨fun hnew hfull => ?_, fun hroom => ?_⟩
  · exact (if_neg (by simp [hnew])).trans (if_neg (by omega))
  · cases hknown : x.line.rxSc.any (fun r => r.port == p && r.sci == sliceOf q 4 8) with
    | true =>
      refine ⟨_, if_pos hknown, rfl, rfl, ?_⟩
      obtain ⟨r, hr, hrk⟩ := List.any_eq_true.mp hknown
      obtain ⟨hport, hsci⟩ : r.port = p ∧ r.sci = sliceOf q 4 8 := by simpa using hrk
      refine ⟨_, List.mem_map_of_mem hr, ?_⟩
      rw [if_pos (by simp [hport, hsci])]
      exact ⟨hport, hsci, Map.get_set_same _ _ _⟩
    | false =>
      have hlt := hroom.resolve_left (fun h => h hknown)
      exact ⟨_, (if_neg (by simp [hknown])).trans (if_pos hlt), rfl, rfl, _, List.mem_append_right _ (List.mem_singleton.mpr rfl), rfl, rfl,
        Map.get_set_same _ _ _⟩

/-- Whether a receive channel is that of an SCI at a port, with the SA of an AN. -/
def holdsRx (p an : Nat) (sci : List Byte) (r : RxSc) : Bool := r.port == p && r.sci == sci && (r.sas.get an).isSome

/-- A receive channel with the SA of an AN erased where it is that of the SCI. -/
def eraseRx (p an : Nat) (sci : List Byte) (r : RxSc) : RxSc :=
  if holdsRx p an sci r then { r with sas := r.sas.set an none } else r

theorem deleteSa_eq (p an : Nat) (q : List Byte) (x : Mod) : deleteSa p an q x =
    if !allZero (sliceOf q 0x20 32) then none
    else if x.line.rxSc.any (holdsRx p an (sliceOf q 4 8)) then
      some { x with line := { x.line with
        rxSc := (x.line.rxSc.map (eraseRx p an (sliceOf q 4 8))).filter (fun c => (List.range 4).any (fun i => (c.sas.get i).isSome)) } }
    else if (x.line.txSa.get (p, an)).any (fun a => a.sci == sliceOf q 4 8) then
      some { x with line := { x.line with txSa := x.line.txSa.set (p, an) none } }
    else none := by
  simp only [deleteSa]
  refine if_congr Iff.rfl rfl (if_congr Iff.rfl rfl ?_)
  cases x.line.txSa.get (p, an) with
  | none => rfl
  | some sa => exact if_congr (by simp) rfl rfl

/-- No channel of an SCI at a port keeps the SA of an AN once it is deleted. -/
theorem eraseRx_gone {p an : Nat} {sci : List Byte} {c : RxSc} (hport : (eraseRx p an sci c).port = p)
    (hsci : (eraseRx p an sci c).sci = sci) : (eraseRx p an sci c).sas.get an = none := by
  unfold eraseRx at *
  split
  · exact Map.get_set_same _ _ _
  · next h =>
    rw [if_neg h] at hport hsci
    simpa [holdsRx, hport, hsci] using h

/-- A choice between two results that satisfy a property. -/
theorem exists_ite_some {α : Type} (c : Prop) [Decidable c] {a b : α} {P : α → Prop} (ha : P a) (hb : P b) :
    ∃ y, (if c then some a else some b) = some y ∧ P y := by
  split
  · exact ⟨a, rfl, ha⟩
  · exact ⟨b, rfl, hb⟩

/-- The transmit channel's switch to another SA. -/
theorem selectTx_some {p an : Nat} {q : List Byte} {x : Mod} (hz : allZero (sliceOf q 0x20 32) = true)
    (hs : (x.line.txSa.get (p, an)).isSome = true) : ∃ y, selectTx p an q x = some y ∧ y.dax.boxes = x.dax.boxes ∧
      y.line.txAn = x.line.txAn.set p an ∧ y.line.rxSc = x.line.rxSc := by
  obtain ⟨sa, hsa⟩ := Option.isSome_iff_exists.mp hs
  have hrun : selectTx p an q x = _ := if_neg (by simp [hz])
  rw [hrun]
  simp only [hsa]
  refine exists_ite_some _ (P := fun y : Mod => y.dax.boxes = x.dax.boxes ∧ y.line.txAn = x.line.txAn.set p an ∧ y.line.rxSc = x.line.rxSc)
    ?_ ⟨rfl, rfl, rfl⟩
  rw [portEvent_raised]
  exact ⟨rfl, rfl, rfl⟩

theorem selectTx_none {p an : Nat} {q : List Byte} {x : Mod}
    (h : allZero (sliceOf q 0x20 32) = false ∨ x.line.txSa.get (p, an) = none) : selectTx p an q x = none := by
  rcases h with h | h
  · exact if_pos (by simp [h])
  · exact ite_eq_left_iff.mpr fun _ => by simp only [h]

/-- ENROL of a module without an owner. -/
theorem enrol_answers {n : Nat} {s : State} (ha : arrives (.enrol n) s.mod = true) (hr : running s.mod n 0x74)
    (ht : secTurn s.mod n = true) (hlen : (s.mod.dax.boxes.get n).len = 118) (hp : leAt (s.mod.dax.boxes.get n).body 0 1 ≤ 1)
    (hk : leAt (s.mod.dax.boxes.get n).body 1 1 ≤ 1) (h0 : leAt (s.mod.dax.boxes.get n).body 2 2 = 0) (he : s.mod.sec.enrol = none) :
    AnswersBuf (.enrol n) s fun m _ => replied m n stOk ∧ m.sec.enrol = some (enrolment (s.mod.dax.boxes.get n).body s.mod) := by
  obtain ⟨-, -, -, hq⟩ := id hr
  have hsec := enrolCmd_wellFormed (n := n) (x := s.mod) (l := s.mem) hlen hp hk h0
  rw [he] at hsec
  exact answersBuf_onSecurity (enrolCmd n) rfl ha hr ht hsec ⟨secReply_replied hq, by simp [secReply]⟩

/-- CHALLENGE keeps what it answers. -/
theorem challenge_answers {n : Nat} {s : State} (ha : arrives (.challenge n) s.mod = true) (hr : running s.mod n 0x76)
    (ht : secTurn s.mod n = true) (hlen : (s.mod.dax.boxes.get n).len = 0) :
    AnswersBuf (.challenge n) s fun m _ => replied m n stOk ∧ m.sec.challenge = some ((drawBytes 32 s.mod).1, s.mod.now) := by
  obtain ⟨-, -, -, hq⟩ := id hr
  exact answersBuf_onSecurity (challengeCmd n) rfl ha hr ht (challengeCmd_keeps hlen) ⟨secReply_replied hq, by simp [secReply]⟩

/-- DECOMMISSION in Quiesced with an owner and a challenge in force. -/
theorem decommission_answers {n : Nat} {s : State} {e : Enrol} (ha : arrives (.decommission n) s.mod = true) (hr : running s.mod n 0x77)
    (ht : secTurn s.mod n = true) (hlen : (s.mod.dax.boxes.get n).len = 114) (hm : s.mod.mode.mode = .quiesced)
    (hc : classCRuns s.mod n = false) (he : s.mod.sec.enrol = some e) (hch : (currentChallenge s.mod).isSome = true) :
    AnswersBuf (.decommission n) s fun m _ => m.sec.challenge = none ∧
      (if authorise s.mod e 0x77 [] (s.mod.dax.boxes.get n).body = none then replied m n stOk ∧ m.sec.enrol = none ∧
          (∀ k, (m.tt.banks.get k).st = .empty) ∧ m.tt.active = none ∧
          m.mode.resetAt = some (s.mod.now + ms 100) ∧ m.mode.resetCause = 1
        else replied m n stDenied ∧ m.sec.enrol = some e ∧ m.tt = s.mod.tt ∧ m.mode = s.mod.mode) := by
  obtain ⟨-, -, -, hq⟩ := id hr
  obtain ⟨hfail, hdone⟩ := decommissionCmd_owned (n := n) (l := s.mem) hlen hm hc he
  rcases authorise_current hch e 0x77 [] (s.mod.dax.boxes.get n).body with h | h
  · refine answersBuf_onSecurity (decommissionCmd n) rfl ha hr ht (hdone h) ⟨by simp [secReply, decommissioned, useChallenge], ?_⟩
    rw [if_pos h]
    exact ⟨secReply_replied hq, by simp [secReply, decommissioned], fun k => by simp [secReply, decommissioned, Map.get, Map.const, Map.look],
      by simp [secReply, decommissioned], by simp [secReply, decommissioned], by simp [secReply, decommissioned]⟩
  · refine answersBuf_onSecurity (decommissionCmd n) rfl ha hr ht (hfail _ h) ⟨by simp [secReply, useChallenge], ?_⟩
    rw [if_neg (by simp [h])]
    exact ⟨secReply_replied hq, by simp [secReply, useChallenge, he], by simp [secReply, useChallenge], by simp [secReply, useChallenge]⟩

/-- POLICY_SET with an owner and a challenge in force. -/
theorem policySet_answers {n : Nat} {s : State} {e : Enrol} (ha : arrives (.policySet n) s.mod = true) (hr : running s.mod n 0x78)
    (ht : secTurn s.mod n = true) (hlen : (s.mod.dax.boxes.get n).len = 116) (hp : leAt (s.mod.dax.boxes.get n).body 0 1 ≤ 1)
    (h0 : leAt (s.mod.dax.boxes.get n).body 1 1 = 0) (he : s.mod.sec.enrol = some e) (hch : (currentChallenge s.mod).isSome = true) :
    AnswersBuf (.policySet n) s fun m _ => m.sec.challenge = none ∧
      (if authorise s.mod e 0x78 (sliceOf (s.mod.dax.boxes.get n).body 0 2) (sliceOf (s.mod.dax.boxes.get n).body 2 114) = none then
          replied m n stOk ∧ m.sec.enrol = some { e with policy := leAt (s.mod.dax.boxes.get n).body 0 1 }
        else replied m n stDenied ∧ m.sec.enrol = some e) := by
  obtain ⟨-, -, -, hq⟩ := id hr
  obtain ⟨hfail, hdone⟩ := policySetCmd_owned (n := n) (l := s.mem) hlen hp h0 he
  rcases authorise_current hch e 0x78 (sliceOf (s.mod.dax.boxes.get n).body 0 2) (sliceOf (s.mod.dax.boxes.get n).body 2 114) with h | h
  · refine answersBuf_onSecurity (policySetCmd n) rfl ha hr ht (hdone h) ⟨by simp [secReply, useChallenge], ?_⟩
    rw [if_pos h]
    exact ⟨secReply_replied hq, by simp [secReply, useChallenge]⟩
  · refine answersBuf_onSecurity (policySetCmd n) rfl ha hr ht (hfail _ h) ⟨by simp [secReply, useChallenge], ?_⟩
    rw [if_neg (by simp [h])]
    exact ⟨secReply_replied hq, by simp [secReply, useChallenge, he]⟩

/-- Settles O57: each security command is decided in its turn by enrolment, challenge and signature; the keys of a port change one by one. -/
theorem ownersAndKeys : Obligations.OwnersAndKeys := by
  unfold Obligations.OwnersAndKeys
  refine ⟨fun n s ha hr ht => ?_, fun n s ha hr ht hlen => ⟨fun he => ?_, fun e he => ?_⟩, fun n s ha ht => ?_, fun n s ha hr ht hlen => ?_,
    fun c t s ha hc => ⟨fun hp => ?_, fun hp => ?_⟩, fun n s ha hr ht hlen => ⟨fun hm => ?_, fun hm hc e he => ⟨fun hch => ?_, fun hch => ?_⟩⟩,
    fun n s ha hr ht => ?_, fun n c o s hmem ha hr ho hb => ?_, fun n s ha hr => ?_, fun n s ha hr => ?_, fun n s ha hr => ?_,
    fun n s ha hr => ?_⟩
  · intro q hlen hp hk h0
    refine ⟨fun he => ends_onSecurity (enrolCmd n) rfl ha hr ht ((enrolCmd_wellFormed hlen hp hk h0).trans (if_pos he)), fun he => ?_⟩
    obtain ⟨m, b, hm, hreply, henrol⟩ := enrol_answers ha hr ht hlen hp hk h0 he
    exact ⟨m, b, hm, hreply, _, henrol, rfl, rfl, rfl⟩
  · exact ends_onSecurity (quoteCmd n) rfl ha hr ht (quoteCmd_none hlen he)
  · exact ends_onSecurity (quoteCmd n) rfl ha hr ht (quoteCmd_some hlen he)
  · refine answersBuf_of (onSecurity n 0x75 (quoteCmd n)) rfl ha ?_
    rw [onSecurity, if_neg (by simp [ht])]
    exact ⟨rfl, rfl⟩
  · obtain ⟨m, b, hm, hreply, hch⟩ := challenge_answers ha hr ht hlen
    exact ⟨m, b, hm, hreply, _, hch, length_drawBytes _ _⟩
  · exact answers_of challengeLapses rfl ha ((challengeLapses_of hc).trans (if_pos hp))
  · exact answers_of challengeLapses rfl ha ((challengeLapses_of hc).trans (if_neg (by simp [hp])))
  · exact ends_onSecurity (decommissionCmd n) rfl ha hr ht (decommissionCmd_mode hlen hm)
  · exact ends_onSecurity (decommissionCmd n) rfl ha hr ht ((decommissionCmd_owned hlen hm hc he).1 _ (authorise_lapsed hch _ _ _ _))
  · exact decommission_answers ha hr ht hlen hm hc he hch
  · intro q hlen hp h0
    refine ⟨fun he => ends_onSecurity (policySetCmd n) rfl ha hr ht (policySetCmd_none hlen hp h0 he), fun e he => ⟨fun hch => ?_, fun hch => ?_⟩⟩
    · exact ends_onSecurity (policySetCmd n) rfl ha hr ht ((policySetCmd_owned hlen hp h0 he).1 _ (authorise_lapsed hch _ _ _ _))
    · exact policySet_answers ha hr ht hlen hp h0 he hch
  · simp only [List.mem_cons, Prod.mk.injEq, List.not_mem_nil, or_false] at hmem
    obtain ⟨rfl, rfl⟩ | ⟨rfl, rfl⟩ | ⟨rfl, rfl⟩ | ⟨rfl, rfl⟩ := hmem
    · exact ends_of _ rfl ha hr (macsecOp_invalid ho hb)
    · exact ends_of _ rfl ha hr (macsecOp_invalid ho hb)
    · exact ends_of _ rfl ha hr (macsecOp_invalid ho hb)
    · exact ends_of _ rfl ha hr (macsecOp_invalid ho hb)
  · intro q k ho hb
    exact macsec_answers (fun y => y.rxSc = s.mod.line.rxSc ∧ y.txSa.get k = some _ ∧ ∀ j, j ≠ k → y.txSa.get j = s.mod.line.txSa.get j)
      rfl ha hr ho hb rfl rfl ⟨rfl, Map.get_set_same _ _ _, fun j hj => Map.get_set_other _ hj _⟩
  · intro q p sci new ho hb
    obtain ⟨hfull, hroom⟩ := installRx_effect (p := leAt q 2 2) (an := leAt q 1 1) (q := q) (x := s.mod) rfl
    refine ⟨fun hnew h128 => macsec_ends rfl ha hr ho hb (hfull hnew h128), fun h => ?_⟩
    obtain ⟨y, hy, hboxes, htx, hrx⟩ := hroom h
    exact macsec_answers (fun y => y.txSa = s.mod.line.txSa ∧ ∃ r ∈ y.rxSc, r.port = p ∧ r.sci = sci ∧ r.sas.get (leAt q 1 1) = some _)
      rfl ha hr ho hb hy hboxes ⟨htx, hrx⟩
  · intro q k sci rx tx ho hb
    have heq := deleteSa_eq (leAt q 2 2) (leAt q 1 1) q s.mod
    refine ⟨fun h => macsec_ends rfl ha hr ho hb (heq.trans ?_), fun hz hrx => ?_, fun hz hrx htx => ?_⟩
    · rcases h with h | ⟨hrx, htx⟩
      · exact if_pos (by simp [h])
      · refine ite_eq_left_iff.mpr fun _ => (if_neg ?_).trans (if_neg ?_)
        · exact Bool.eq_false_iff.mp hrx
        · exact Bool.eq_false_iff.mp htx
    · refine macsec_answers (fun y => y.txSa = s.mod.line.txSa ∧ ∀ r ∈ y.rxSc, r.port = k.1 → r.sci = sci → r.sas.get k.2 = none)
        rfl ha hr ho hb (heq.trans ((if_neg (by simp [hz])).trans (if_pos hrx))) rfl ⟨rfl, fun r hmem hport hsci => ?_⟩
      obtain ⟨c, -, rfl⟩ := List.mem_map.mp (List.mem_filter.mp hmem).1
      exact eraseRx_gone hport hsci
    · exact macsec_answers (fun y => y.rxSc = s.mod.line.rxSc ∧ y.txSa.get k = none ∧ ∀ j, j ≠ k → y.txSa.get j = s.mod.line.txSa.get j)
        rfl ha hr ho hb (heq.trans ((if_neg (by simp [hz])).trans ((if_neg (Bool.eq_false_iff.mp hrx)).trans (if_pos htx)))) rfl
        ⟨rfl, Map.get_set_same _ _ _, fun j hj => Map.get_set_other _ hj _⟩
  · intro q k ho hb
    refine ⟨fun h => macsec_ends rfl ha hr ho hb ?_, fun hz hsa => ?_⟩
    · exact selectTx_none h
    · obtain ⟨y, hy, hboxes, htx, hrx⟩ := selectTx_some hz hsa
      exact macsec_answers (fun y => y.txAn = s.mod.line.txAn.set k.1 k.2 ∧ y.rxSc = s.mod.line.rxSc) rfl ha hr ho hb hy hboxes ⟨htx, hrx⟩

end Sys2Proof.Machine
end

section
/-! Proofs about leave: its decision, its queue and its grants (16 R492, R493, R497). -/

namespace Sys2Proof.Machine

-- One theorem at a time: each thread that elaborates another reserves a stack, and their sum has a limit.
set_option Elab.async false

section
variable {op u r id : Nat} {mbx : Option Nat} {x : Mod} {l : List Host.Cell}

theorem askLeave_refused (h : decideLeave x op u = .refused r) : askLeave op u mbx x = (.refused r, refuseLeave op u r mbx x) := by
  simp only [askLeave, h]

theorem askLeave_queued (h : decideLeave x op u = .queued id) : askLeave op u mbx x = (.queued id, tally (.pwr 5) { x with pwr := { x.pwr with
    nextId := x.pwr.nextId + 1
    queue := x.pwr.queue ++ [{ id := id, op := op, unit := u, at_ := x.now, mbx := mbx }] } }) := by
  simp only [askLeave, h]

theorem askLeave_granted (h : decideLeave x op u = .granted id) :
    askLeave op u mbx x = (.granted id, addGrant id op u mbx { x with pwr := { x.pwr with nextId := x.pwr.nextId + 1 } }) := by
  simp only [askLeave, h]

/-- A refusal of leave of no command: counted, logged with its reason, raised, and neither the queue nor the grants change. -/
theorem refuseLeave_effect (op u r : Nat) (x : Mod) :
    let m := refuseLeave op u r none x
    m.pwr.grants = x.pwr.grants ∧ m.pwr.queue = x.pwr.queue ∧ evtSet .yard evLeaveRefused m = true ∧
      (m.pwr.log.get m.pwr.logNewest).reason = r ∧ counted x (.pwr 6) 1 m := by
  intro m
  have hm : m = raise .yard evLeaveRefused (pwrLog (leaveDomain op u) r 2 0 op (tally (.pwr 6) x)) := rfl
  refine ⟨by simp [hm, pwrLog], by simp [hm, pwrLog], hm ▸ raise_evtSet _ _ _ (by decide), by simp [hm, pwrLog], ?_⟩
  rw [counted, hm]
  simp [pwrLog]

theorem addGrant_effect (id op u : Nat) (mbx : Option Nat) (x : Mod) :
    let m := addGrant id op u mbx x
    m.pwr.grants = x.pwr.grants ++ [{ id := id, op := op, unit := u, left := leaveEst op, mbx := mbx }] ∧
      m.pwr.queue = x.pwr.queue ∧ counted x (.pwr 4) 1 m :=
  ⟨rfl, rfl, tally_same _ _⟩

/-- Operations 5 to 7 begin nothing of their own. -/
theorem startOp_nothing (h : op = 5 ∨ op = 6 ∨ op = 7) (u : Nat) (x : Mod) : startOp op u x = x := by
  rcases h with rfl | rfl | rfl <;> rfl

/-- The refusal of these operations ends nothing. -/
theorem refusedOp_nothing (h : op ∈ [3, 4, 6, 7, 9]) (u : Nat) (y : Mod × List Host.Cell) : refusedOp op u none y = y := by
  simp only [List.mem_cons, List.not_mem_nil, or_false] at h
  rcases h with rfl | rfl | rfl | rfl | rfl <;> rfl

/-- An operation alone in its cycle that neither waits nor has its grant is decided. -/
theorem requestTurn_alone {s : State}
    (hg : x.pwr.grants.any (fun g => g.op == op && g.unit == u && g.mbx.isNone) = false)
    (hq : x.pwr.queue.any (fun q => q.op == op && q.unit == u && q.mbx.isNone) = false)
    (hturn : x.pwr.askedAt = x.cyc → x.pwr.asked.contains (op, u) = false) (hasks : asksWith s op u = [(op, u)]) :
    requestTurn s op u (x, l) = requestLeave op u (x, l) ∧
      (∀ r, decideLeave x op u = .refused r → requestLeave op u (x, l) = refusedOp op u none (refuseLeave op u r none x, l)) ∧
      (∀ id, decideLeave x op u = .queued id → requestLeave op u (x, l) = ((askLeave op u none x).2, l)) ∧
      (∀ id, decideLeave x op u = .granted id → requestLeave op u (x, l) = (startOp op u (askLeave op u none x).2, l)) := by
  have hfresh : (decide (x.pwr.askedAt = x.cyc) && x.pwr.asked.contains (op, u)) = false := by
    by_cases h : x.pwr.askedAt = x.cyc
    · simp only [hturn h, Bool.and_false]
    · simp only [h, decide_false, Bool.false_and]
  have hask : requestLeave op u (x, l) = _ := if_neg (by simp only [hg, hq, Bool.or_false, Bool.false_eq_true, not_false_eq_true])
  refine ⟨(if_neg (by rw [hfresh]; decide)).trans (by simp only [hasks]), fun r h => ?_, fun id h => ?_, fun id h => ?_⟩
  · rw [hask]
    simp only [askLeave_refused h]
  · rw [hask]
    simp only [askLeave_queued h]
  · rw [hask]
    simp only [askLeave_granted h]

/-- The decision of leave, in the order of its rule (16 R493). -/
theorem decideLeave_eq (op u : Nat) (x : Mod) : decideLeave x op u = (if x.pwr.holdup.isSome then .refused 0x12
    else if 32 ≤ x.pwr.queue.length then .refused 0x13
    else if op ≠ 1 ∧ ∃ sh ∈ leaveSheds op u, 2 ≤ (x.pwr.therm.get sh).state then .refused 0x15
    else if x.pwr.queue = [] ∧ committed x + leaveEst op ≤ budget x ∧ stepFits x (leaveStep op) = true then .granted x.pwr.nextId
    else if committedRun x + leaveEst op ≤ budget x then .queued x.pwr.nextId
    else if capped x = true then .refused 0x16 else .refused 0x10) := by
  unfold decideLeave
  refine if_congr Iff.rfl rfl (if_congr Iff.rfl rfl (if_congr ?_ rfl (if_congr ?_ rfl rfl)))
  · simp only [Bool.and_eq_true, decide_eq_true_eq, List.any_eq_true]
  · simp only [Bool.and_eq_true, decide_eq_true_eq, List.isEmpty_iff, and_assoc]

/-- The head of the queue is granted once it fits. -/
theorem grantHead_nothing {q : LeaveReq} {t : List LeaveReq} (hq : x.pwr.queue = q :: t) (hh : x.pwr.holdup = none)
    (hb : committed x + leaveEst q.op ≤ budget x) (hs : stepFits x (leaveStep q.op) = true) (hm : q.mbx = none)
    (hop : q.op = 5 ∨ q.op = 6 ∨ q.op = 7) :
    grantHead (x, l) = (addGrant q.id q.op q.unit none (setPwr (fun p => { p with queue := t }) x), l) := by
  simp only [grantHead, hq]
  refine (if_pos (by simp [hh, hb, hs])).trans ?_
  simp only [grantQueued, hm, startOp_nothing hop]

/-- The release of a grant whose operation has ended. -/
theorem releaseLeave_ended {g : Grant} (hg : x.pwr.grants.find? (fun k => k.id == id) = some g) (hr : opRuns x g = false) :
    releaseLeave id x = setPwr (fun p => { p with grants := p.grants.filter (fun k => k.id != id) })
      (if g.op = 8 then scrubEnds g.unit x else x) := by
  simp only [releaseLeave, hg, hr]
  rfl

/-- A scrub pass over a shed that holds no error. -/
theorem scrubEnds_clean {sh t : Nat} (ht : (x.trb.get sh).scrubRun = some t) (hecc : ∀ e ∈ x.ecc, e.word.inShed sh = false)
    (hacl : ∀ e ∈ x.tbl.aclBad, e.1 ≠ sh) : scrubEnds sh x = releaseGrant 8 sh (setTrb sh (fun o => { o with
      scrubRun := none, scrubLast := some x.now, scrubDue := t + sec 10, scrubLate := false }) x) := by
  have hecc0 : x.ecc.filter (fun e => e.word.inShed sh) = [] := List.filter_eq_nil_iff.mpr (fun e he => by simp [hecc e he])
  have hacl0 : x.tbl.aclBad.filter (fun e => e.1 == sh) = [] := List.filter_eq_nil_iff.mpr (fun e he => by simp [hacl e he])
  simp only [scrubEnds, ht, hecc0, hacl0, List.foldl_nil]

/-- The refusal of requests that end nothing: the queue stays, and the event stands once one is refused. -/
theorem refuseQueued_nothing {reason : Nat} {l : List LeaveReq} (hl : ∀ q ∈ l, q.op ∈ [3, 4, 6, 7, 9] ∧ q.mbx = none) (x : Mod)
    (b : List Host.Cell) : ∃ m, refuseQueued reason l (x, b) = (m, b) ∧ m.pwr.queue = x.pwr.queue ∧
      (evtSet .yard evLeaveRefused x = true ∨ l ≠ [] → evtSet .yard evLeaveRefused m = true) := by
  have hend : ∀ y : Mod × List Host.Cell, l.foldl (fun z q => refusedOp q.op q.unit q.mbx z) y = y := by
    intro y
    refine List.foldlRecOn (motive := fun z => z = y) l _ rfl fun z hz q hq => ?_
    rw [(hl q hq).2, refusedOp_nothing (hl q hq).1]
    exact hz
  refine ⟨l.foldl (fun (a : Mod) (q : LeaveReq) => refuseLeave q.op q.unit reason q.mbx a) x, hend (_, b), ?_⟩
  clear hend
  induction l generalizing x with
  | nil => exact ⟨rfl, fun h => h.resolve_right (fun h => h rfl)⟩
  | cons q l ih =>
    obtain ⟨-, hmbx⟩ := hl q List.mem_cons_self
    obtain ⟨-, hqueue, hevt, -⟩ := refuseLeave_effect q.op q.unit reason x
    rw [List.foldl_cons, hmbx]
    obtain ⟨hkept, hset⟩ := ih (fun k hk => hl k (List.mem_cons_of_mem _ hk)) (refuseLeave q.op q.unit reason none x)
    exact ⟨hkept.trans hqueue, fun _ => hset (.inl hevt)⟩

end

/-- Settles O52: the decision is taken once, and a grant, a place in the queue or a refusal follows from it alone. -/
theorem leaveIsGiven : Obligations.LeaveIsGiven := by
  unfold Obligations.LeaveIsGiven
  refine ⟨fun op u s ha hg hq hturn hasks => ?_, fun op u s ha hcyc hasked => ?_, fun op u s => decideLeave_eq op u s.mod,
    fun q t s ha hq hh hb hs hm hop => ?_, fun id g s ha hg hr hop => ?_, fun id g t s ha hg hop hr ht hecc hacl => ?_, fun s ha hall => ?_⟩
  · obtain ⟨hturn, href, hqueued, hgranted⟩ := requestTurn_alone (l := s.mem) hg hq hturn hasks
    refine ⟨fun r h hop => answersBuf_of (requestTurn s op u) rfl ha ?_, fun id h => answersBuf_of (requestTurn s op u) rfl ha ?_,
      fun id h hop => answersBuf_of (requestTurn s op u) rfl ha ?_⟩
    · rw [hturn, href r h, refusedOp_nothing (by rcases hop with rfl | rfl <;> decide)]
      obtain ⟨hgrants, hqueue, hevt, hreason, hcount⟩ := refuseLeave_effect op u r s.mod
      exact ⟨rfl, hgrants, hqueue, hevt, hreason, hcount⟩
    · rw [hturn, hqueued id h, askLeave_queued h]
      exact ⟨rfl, rfl, rfl, tally_same _ _⟩
    · rw [hturn, hgranted id h, askLeave_granted h, startOp_nothing hop]
      exact ⟨rfl, addGrant_effect id op u none { s.mod with pwr := { s.mod.pwr with nextId := s.mod.pwr.nextId + 1 } }⟩
  · exact answersBuf_of (P := fun m b => m = s.mod ∧ b = s.mem) (requestTurn s op u) rfl ha
      (by rw [requestTurn, if_pos (by rw [hcyc, hasked]; simp)]; exact ⟨rfl, rfl⟩)
  · refine answersBuf_of grantHead rfl ha ?_
    rw [grantHead_nothing hq hh hb hs hm hop]
    exact ⟨rfl, rfl, rfl⟩
  · refine answers_of (releaseLeave id) rfl ha ?_
    rw [releaseLeave_ended hg hr, if_neg hop]
    rfl
  · refine answers_of (releaseLeave id) rfl ha ?_
    rw [releaseLeave_ended hg hr, if_pos hop, scrubEnds_clean ht hecc hacl]
    have htrb : (s.mod.trb.upd g.unit (fun o => { o with scrubRun := none, scrubLast := some s.mod.now, scrubDue := t + sec 10, scrubLate := false })).get
        g.unit = { s.mod.trb.get g.unit with scrubRun := none, scrubLast := some s.mod.now, scrubDue := t + sec 10, scrubLate := false } :=
      Map.get_upd_same _ _ _
    refine ⟨(congrArg ShedTrb.scrubRun htrb :), (congrArg ShedTrb.scrubLast htrb :), (congrArg ShedTrb.scrubDue htrb :), fun k hk => ?_⟩
    simpa using (List.mem_filter.mp hk).2
  · have hnone : ∀ q ∈ s.mod.pwr.queue, q.op ∈ [3, 4, 6, 7, 9] ∧ q.mbx = none := fun q hq => by
      simpa using List.all_eq_true.mp hall q hq
    obtain ⟨m, hm, hqueue, hevt⟩ := refuseQueued_nothing (reason := 0x14)
      (l := s.mod.pwr.queue.filter (fun q => passed s.mod.now q.at_ (sec 60))) (fun q hq => hnone q (List.mem_filter.mp hq).1)
      (setPwr (fun p => { p with queue := p.queue.filter (fun q => !passed s.mod.now q.at_ (sec 60)) }) s.mod) s.mem
    refine answersBuf_of queueTimesOut rfl ha ?_
    have hrun : queueTimesOut (s.mod, s.mem) = (m, s.mem) := hm
    rw [hrun]
    refine ⟨rfl, hqueue.trans (List.filter_congr fun q _ => ?_), fun hany => hevt (.inr ?_)⟩
    · simp [passed, ← decide_not]
    · obtain ⟨q, hq, hold⟩ := List.any_eq_true.mp hany
      exact List.ne_nil_of_mem (List.mem_filter.mpr ⟨hq, hold⟩)

end Sys2Proof.Machine
end

section
/-! A pair's number beyond 27 names the sheds of pair 0 (00 R3). -/

namespace Sys2Proof.Machine

-- One theorem at a time: each thread that elaborates another reserves a stack, and their sum has a limit.
set_option Elab.async false

namespace StrayPair

/-- The module right after reset with an inlet good, pair 0 in training, and number 28, of no pair, among those that wait for a place. -/
def mod : Mod := { State.reset.mod with
  pwr := { State.reset.mod.pwr with a := { State.reset.mod.pwr.a with good := true } }
  mesh := { State.reset.mod.mesh with
    halves := ((Map.const {}).set (0, 0) { st := .training }).set (1, 0) { st := .training }
    retrain := [28] } }

theorem training_again : ((drawbarsGoOn (trainingDone 0 mod)).mesh.halves.get (0, 0)).st = .training := by decide +kernel

end StrayPair

/-- Refutes O53: the number that waits for a place is served once pair 0 has trained, and pair 0 trains again. -/
theorem not_shedsQuiesceAndReturn : ¬ Obligations.ShedsQuiesceAndReturn := by
  unfold Obligations.ShedsQuiesceAndReturn
  rintro ⟨-, hdone, -⟩
  obtain ⟨s, hs⟩ : ∃ s : State, s.mod = StrayPair.mod := ⟨{ State.reset with mod := StrayPair.mod }, rfl⟩
  have h := hdone 0 s (by rw [hs]; decide +kernel) (by rw [hs]; decide +kernel) (.inl (by rw [hs]; decide +kernel))
    (by rw [hs]; decide +kernel) (by rw [hs]; decide +kernel)
  obtain ⟨hhalves, -⟩ := of_answers (fun x => drawbarsGoOn (trainingDone 0 x)) rfl (by rw [hs]; decide +kernel) h
  have hfull := (hhalves (0, 0) (by decide)).1
  rw [hs, StrayPair.training_again] at hfull
  exact absurd hfull (by decide)

end Sys2Proof.Machine
end

section
/-! Proofs about learning, freezes and aging (04 R126 to R133). An edit leaves what the homes keep, the queues of learn requests and the
learning counters alone; `learnPart` holds these. -/

namespace Sys2Proof.Machine

-- One theorem at a time: each thread that elaborates another reserves a stack, and their sum has a limit.
set_option Elab.async false

/-- What the homes keep of their keys, the learn requests, and one of the lookup counters, with the cycle. -/
def learnPart (c : CtrId) (x : Mod) : Map (Nat × BitVec 48) L2Meta × Map Nat (List Learn) × Counter × Nat :=
  (x.tbl.meta_, x.tbl.learns, x.ctrs.get c, x.now)

/-- A lookup counter of a shed other than that of the relocation moves. -/
def learningCtr (c : CtrId) : Prop := ∃ s i, c = .lkp s i ∧ i ≠ 9

section
variable {c : CtrId}

theorem raise_learnPart (l : Level) (e : Evt) (x : Mod) : learnPart c (raise l e x) = learnPart c x := by simp [learnPart]

theorem cursorsCatch_learnPart (s tab : Nat) (f : Cursor → List (List Byte)) (x : Mod) :
    learnPart c (cursorsCatch s tab f x) = learnPart c x :=
  foldl_keeps (learnPart c) _ _ _ fun a _ => raise_learnPart _ _ a

theorem editMeter_learnPart (s i : Nat) (old : Option Ent) (e : Edit) (x : Mod) : learnPart c (editMeter s i old e x) = learnPart c x := by
  unfold editMeter
  repeat' split
  all_goals rfl

theorem clearEligible_learnPart (hc : learningCtr c) (s : Nat) (p : Tkt → Bool) (x : Mod) : learnPart c (clearEligible s p x) = learnPart c x := by
  obtain ⟨t, i, rfl, -⟩ := hc
  simp only [learnPart, clearEligible, count_keeps, setTkt]
  rw [count_other (by simp)]

theorem askGen_learnPart (s : Nat) (x : Mod) : learnPart c (askGen s x) = learnPart c x := rfl

theorem editTickets_learnPart (hc : learningCtr c) (s : Nat) (v : View) (e : Edit) (pos : Nat) (isNew : Bool) (x : Mod) :
    learnPart c (editTickets s v e pos isNew x) = learnPart c x := by
  unfold editTickets
  repeat' split
  all_goals simp only [clearEligible_learnPart hc, askGen_learnPart]

theorem zeroNamed_learnPart (hc : learningCtr c) (i : Nat) (x : Mod) : learnPart c (zeroNamed i x) = learnPart c x := by
  refine foldl_keeps (learnPart c) _ _ _ fun a s => ?_
  obtain ⟨t, i, rfl, -⟩ := hc
  simp only [learnPart]
  rw [Map.get_set_other _ (by simp), Map.get_set_other _ (by simp)]

theorem fullMeter_learnPart (i : Nat) (x : Mod) : learnPart c (fullMeter i x) = learnPart c x :=
  foldl_keeps (learnPart c) _ _ _ fun _ _ => rfl

theorem renewNames_learnPart (hc : learningCtr c) (v w : View) (tab : Nat) (old new : List Byte) (x : Mod) :
    learnPart c (renewNames v w tab old new x) = learnPart c x :=
  (foldl_keeps (learnPart c) _ _ _ fun a i => fullMeter_learnPart i a).trans
    (foldl_keeps (learnPart c) _ _ _ fun a i => zeroNamed_learnPart hc i a)

theorem applyTable_learnPart (hc : learningCtr c) (s : Nat) (e : Edit) (x : Mod) : learnPart c (applyTable s e x) = learnPart c x := by
  have hcount : ∀ (n : Nat) (y : Mod), learnPart c (count (.lkp s 9) n y) = learnPart c y := by
    intro n y
    obtain ⟨t, i, rfl, hi⟩ := hc
    simp only [learnPart, count_keeps]
    rw [count_other (by simp [hi])]
  unfold applyTable
  dsimp only
  rw [editTickets_learnPart hc]
  split
  · rw [editMeter_learnPart]
    exact (cursorsCatch_learnPart _ _ _ _).trans (hcount _ _)
  · exact (cursorsCatch_learnPart _ _ _ _).trans (hcount _ _)

/-- With no edit on its way, an edit of a table leaves what the homes keep, the learn requests and the learning counters. -/
theorem beginEdit_learnPart (hc : learningCtr c) {e : Edit} {x : Mod} (hx : x.tbl.edits = []) (hown : e.own) (htab : e.tab ≠ 0) :
    learnPart c (beginEdit e x) = learnPart c x := by
  unfold beginEdit
  dsimp only
  rw [renewNames_learnPart hc, catchUp_idle hx]
  simp only [writeNext, hx, List.nil_append, List.find?_cons, Edit.own_needs hown, markFirst, htab, if_true, if_false]
  rw [applyTable_learnPart hc]
  rfl

end

/-! ### The home's own edits -/

theorem l2Edit_own (s kind op : Nat) (key dat : List Byte) (mbx : Option Nat) : (l2Edit s kind op key dat mbx).own := .inl rfl

theorem l2Edit_tab (s kind op : Nat) (key dat : List Byte) (mbx : Option Nat) : (l2Edit s kind op key dat mbx).tab ≠ 0 := Nat.one_ne_zero

/-- With no edit on its way, what an edit of an L2 entry leaves of the tables and the order. -/
theorem l2Edit_begun {s kind op : Nat} {key dat : List Byte} {mbx : Option Nat} {x : Mod} (hx : x.tbl.edits = []) :
    (beginEdit (l2Edit s kind op key dat mbx) x).tbl.ents =
        x.tbl.ents.set (s, 1) ((l2Edit s kind op key dat mbx).written (x.tbl.ents.get (s, 1))) ∧
      (beginEdit (l2Edit s kind op key dat mbx) x).tbl.edits = [(l2Edit s kind op key dat mbx).begun x.now] := by
  have h := beginEdit_table (x := x) hx (l2Edit_own s kind op key dat mbx) (l2Edit_tab s kind op key dat mbx)
  exact ⟨congrArg Prod.fst h, congrArg (fun p => p.2.1) h⟩

/-- Its record stands in the home's table. -/
theorem l2Edit_stands {s kind op : Nat} {key dat : List Byte} {mbx : Option Nat} {x : Mod} (hx : x.tbl.edits = []) (hop : op ≠ 2)
    (hroom : fullFor 1 key dat (x.tbl.ents.get (s, 1)) = false) :
    ∃ e ∈ (beginEdit (l2Edit s kind op key dat mbx) x).tbl.ents.get (s, 1), e.key = key ∧ e.dat = dat := by
  rw [(l2Edit_begun hx).1, Map.get_set_same, Edit.written, if_neg (show ¬ (l2Edit s kind op key dat mbx).op = 2 from hop)]
  exact putRecord_stands hroom

/-- An edit of an L2 entry leaves what the homes keep, the learn requests and a learning counter. -/
theorem l2Edit_learnPart {c : CtrId} (hc : learningCtr c) {s kind op : Nat} {key dat : List Byte} {mbx : Option Nat} {x : Mod}
    (hx : x.tbl.edits = []) : (beginEdit (l2Edit s kind op key dat mbx) x).tbl.meta_ = x.tbl.meta_ ∧
      (beginEdit (l2Edit s kind op key dat mbx) x).tbl.learns = x.tbl.learns ∧
      (beginEdit (l2Edit s kind op key dat mbx) x).ctrs.get c = x.ctrs.get c ∧
      (beginEdit (l2Edit s kind op key dat mbx) x).cyc = x.cyc := by
  have h := beginEdit_learnPart hc (x := x) hx (l2Edit_own s kind op key dat mbx) (l2Edit_tab s kind op key dat mbx)
  simp only [learnPart, Prod.mk.injEq] at h
  obtain ⟨hmeta, hlearns, hctr, hnow⟩ := h
  exact ⟨hmeta, hlearns, hctr, by simp only [Mod.cyc, hnow]⟩

/-- A table that holds a key has room for it. -/
theorem fullFor_of_find {key dat : List Byte} {l : List Ent} {e : Ent} (h : l.find? (fun o => o.key == key) = some e) :
    fullFor 1 key dat l = false := by
  have hany : l.any (fun o => o.key == key) = true := List.any_eq_true.mpr ⟨e, List.mem_of_find?_eq_some h, (List.find?_some h :)⟩
  simp [fullFor, hany]

/-- The view on the ACTIVE bank is the shed's own tables. -/
theorem viewOf_active (x : Mod) (s t : Nat) : viewOf x s x.tt.active t = x.tbl.ents.get (s, t) := if_pos rfl

/-! ### Learning -/

/-- A learn request once it has left its queue. -/
def learnTaken (sh : Nat) (l : Learn) (t : List Learn) (x : Mod) : Mod :=
  { x with tbl := { x.tbl with learns := x.tbl.learns.set sh t, asked := x.tbl.asked.set (l.src, l.fid, l.mac) none } }

section
variable {sh : Nat} {l : Learn} {t : List Learn} {x : Mod}

theorem learnHandle_takes (hl : x.tbl.learns.get sh = l :: t) (hw : shedWorks x sh = true) :
    learnHandle sh x = handleLearn sh l (learnTaken sh l t x) := by
  simp only [learnHandle, hl, hw]
  rfl

theorem handleLearn_first (hx : x.tbl.edits = []) (hv : (viewOf x sh x.tt.active).find 1 l.key = none) (hd : l.del = false)
    (hroom : fullFor 1 l.key (learnedRec l) (x.tbl.ents.get (sh, 1)) = false) :
    handleLearn sh l x = setMeta l.key (fun _ => { portTime := l.time, hit := ageTick x, synced := l.sync })
      (tally (.lkp sh 0) (beginEdit (l2Edit sh 1 0 l.key (learnedRec l) none) x)) := by
  have hmake : makeRoom sh 1 l.key (learnedRec l) x = (true, x) := by simp only [makeRoom, hroom, Bool.not_false, if_true]
  simp only [handleLearn, catchUp_idle hx, hv, hd, firstLearn, hmake, Bool.false_eq_true, if_false]

variable {e : Ent}

theorem handleLearn_nothing (hx : x.tbl.edits = []) (hv : (viewOf x sh x.tt.active).find 1 l.key = some e)
    (h : isStatic e.dat = true ∨ (l.del = false ∧ leAt e.dat 8 4 = l.dest)) : handleLearn sh l x = x := by
  simp only [handleLearn, catchUp_idle hx, hv]
  rcases h with h | ⟨hd, hdest⟩
  · exact if_pos h
  · refine ite_eq_left_iff.mpr fun _ => ?_
    rw [hd]
    exact (if_neg (by decide)).trans (if_pos hdest)

/-- A request for another port, of an entry that is not static. -/
theorem handleLearn_moves (hx : x.tbl.edits = []) (hv : (viewOf x sh x.tt.active).find 1 l.key = some e) (hs : isStatic e.dat = false)
    (hd : l.del = false) (hdest : leAt e.dat 8 4 ≠ l.dest) :
    handleLearn sh l x = if (metaOf x l.key).frozenAt.isSome then tally (.lkp sh 4) x
      else if contested (actCfg x).holdUs (metaOf x l.key).portTime l.time then tally (.lkp sh 3) x else stationMove sh l e x := by
  simp only [handleLearn, catchUp_idle hx, hv, hs, hd, hdest, Bool.false_eq_true, if_false]

theorem stationMove_few (hm : (metaOf x e.key).moves.length < 8) :
    stationMove sh l e x = setMeta e.key (fun m => { m with
        portTime := l.time, hit := ageTick x, synced := l.sync, moves := (metaOf x e.key).moves ++ [l.time] })
      (tally (.lkp sh 2) (beginEdit (l2Edit sh 2 1 e.key (splice e.dat 8 (leBytes 4 l.dest)) none) x)) := by
  have hdrop : ((metaOf x e.key).moves ++ [l.time]).drop (((metaOf x e.key).moves ++ [l.time]).length - 8) = (metaOf x e.key).moves ++ [l.time] := by
    rw [List.length_append, List.length_singleton, Nat.sub_eq_zero_of_le (by omega), List.drop_zero]
  have hslow : ((metaOf x e.key).moves.length == 8) = false := by
    rw [beq_eq_false_iff_ne]
    omega
  simp only [stationMove, hdrop]
  generalize (metaOf x e.key).moves = moves at hslow
  cases moves with
  | nil => rfl
  | cons o k =>
    simp only [hslow]
    rfl

theorem metaOf_setMeta (key : List Byte) (f : L2Meta → L2Meta) (y : Mod) : metaOf (setMeta key f y) key = f (metaOf y key) := by
  simp [metaOf, setMeta, Map.upd]

/-- The first learn of a key. -/
theorem firstLearn_effect (hx : x.tbl.edits = []) (hl : x.tbl.learns.get sh = t) (f : L2Meta → L2Meta)
    (hroom : fullFor 1 l.key (learnedRec l) (x.tbl.ents.get (sh, 1)) = false) :
    let m := setMeta l.key f (tally (.lkp sh 0) (beginEdit (l2Edit sh 1 0 l.key (learnedRec l) none) x))
    (∃ e ∈ m.tbl.ents.get (sh, 1), e.key = l.key ∧ e.dat = learnedRec l) ∧ m.tbl.learns.get sh = t ∧ counted x (.lkp sh 0) 1 m := by
  obtain ⟨-, hlearns, hctr, hcyc⟩ := l2Edit_learnPart (c := .lkp sh 0) ⟨sh, 0, rfl, by decide⟩ (s := sh) (kind := 1) (op := 0) (key := l.key)
    (dat := learnedRec l) (mbx := none) hx
  have hstands := l2Edit_stands (s := sh) (kind := 1) (op := 0) (mbx := none) hx (by decide) hroom
  generalize beginEdit (l2Edit sh 1 0 l.key (learnedRec l) none) x = z at *
  exact ⟨hstands, (congrArg (Map.get · sh) hlearns).trans hl, (tally_same _ z).trans (by rw [hctr, hcyc])⟩

/-- A station move with few moves kept. -/
theorem stationMove_effect (hx : x.tbl.edits = []) (hv : (viewOf x sh x.tt.active).find 1 l.key = some e)
    (hm : (metaOf x l.key).moves.length < 8) :
    let m := stationMove sh l e x
    (∃ d ∈ m.tbl.ents.get (sh, 1), d.key = l.key ∧ d.dat = splice e.dat 8 (leBytes 4 l.dest)) ∧
      (metaOf m l.key).portTime = l.time ∧ (metaOf m l.key).moves = (metaOf x l.key).moves ++ [l.time] ∧ counted x (.lkp sh 2) 1 m := by
  have hkey : e.key = l.key := by simpa using List.find?_some hv
  have hfind : (x.tbl.ents.get (sh, 1)).find? (fun o => o.key == l.key) = some e := by
    rw [View.find, viewOf_active] at hv
    exact hv
  have hmove := stationMove_few (sh := sh) (l := l) (e := e) (x := x) (hkey ▸ hm)
  rw [hkey] at hmove
  obtain ⟨-, -, hctr, hcyc⟩ := l2Edit_learnPart (c := .lkp sh 2) ⟨sh, 2, rfl, by decide⟩ (s := sh) (kind := 2) (op := 1) (key := l.key)
    (dat := splice e.dat 8 (leBytes 4 l.dest)) (mbx := none) hx
  have hstands := l2Edit_stands (s := sh) (kind := 2) (op := 1) (mbx := none) hx (by decide)
    (fullFor_of_find (dat := splice e.dat 8 (leBytes 4 l.dest)) hfind)
  intro m
  have hm : m = _ := hmove
  generalize beginEdit (l2Edit sh 2 1 l.key (splice e.dat 8 (leBytes 4 l.dest)) none) x = z at *
  rw [hm, metaOf_setMeta]
  exact ⟨hstands, rfl, rfl, (tally_same _ z).trans (by rw [hctr, hcyc])⟩

end

/-! ### Freezes, hit times and aging -/

theorem freezeEnds_thaws {s fid t : Nat} {mac : BitVec 48} {e : Ent} {x : Mod} (hx : x.tbl.edits = [])
    (hf : (metaOf x (l2Key fid mac.toNat)).frozenAt = some t)
    (hv : (viewOf x s x.tt.active).find 1 (l2Key fid mac.toNat) = some e) (hh : homeOf x fid mac = s)
    (hp : passed x.now t (sec (actCfg x).flapS) = true) :
    freezeEnds s fid mac x = setMeta (l2Key fid mac.toNat) (fun m => { m with frozenAt := none, moves := [] })
      (beginEdit (l2Edit s 6 1 (l2Key fid mac.toNat) e.dat none) x) := by
  simp only [freezeEnds, hf, catchUp_idle hx, hv, hh, hp, decide_true, Bool.and_self, if_true]

/-- A thawed entry has no moves, and its edit is in the order. -/
theorem thaw_effect {s : Nat} {key dat : List Byte} {x : Mod} (hx : x.tbl.edits = []) :
    let m := setMeta key (fun m => { m with frozenAt := none, moves := [] }) (beginEdit (l2Edit s 6 1 key dat none) x)
    (metaOf m key).frozenAt = none ∧ (metaOf m key).moves = [] ∧ ∃ d ∈ m.tbl.edits, d.kind = 6 ∧ d.key = key := by
  have hedits := (l2Edit_begun (s := s) (kind := 6) (op := 1) (key := key) (dat := dat) (mbx := none) hx).2
  intro m
  have hm : (metaOf m key) = _ := metaOf_setMeta key _ _
  have hin : m.tbl.edits = _ := hedits
  rw [hm, hin]
  exact ⟨rfl, rfl, _, List.mem_singleton_self _, rfl, rfl⟩

theorem refreshLands_effect {s fid : Nat} {mac : BitVec 48} {tick : BitVec 20} {x : Mod} (hp : (s, fid, mac, tick) ∈ x.tbl.pend)
    (he : (x.tbl.ents.get (homeOf x fid mac, 1)).any (fun e => e.key == l2Key fid mac.toNat && !isStatic e.dat) = true) :
    let m := refreshLands s fid mac tick x
    (s, fid, mac, tick) ∉ m.tbl.pend ∧
      (metaOf m (l2Key fid mac.toNat)).hit = laterTick (ageTick x) (metaOf x (l2Key fid mac.toNat)).hit tick ∧
      m = { x with tbl := { x.tbl with pend := m.tbl.pend, meta_ := m.tbl.meta_ } } := by
  have hlands : refreshLands s fid mac tick x = setMeta (l2Key fid mac.toNat) (fun m => { m with hit := laterTick (ageTick x) m.hit tick })
      { x with tbl := { x.tbl with pend := x.tbl.pend.filter (· != (s, fid, mac, tick)) } } := by
    simp only [refreshLands, List.contains_iff_mem.mpr hp, he, Bool.not_true, Bool.false_eq_true, if_false, if_true]
  intro m
  have hm : m = _ := hlands
  rw [hm, metaOf_setMeta]
  exact ⟨by simp [setMeta], rfl, rfl⟩

/-- Where no refresh of the key waits, none lands. -/
theorem refreshesNow_none {fid : Nat} {mac : BitVec 48} {l : List Instr} (x : Mod)
    (h : ∀ s tick, Instr.hitRefresh s fid mac tick ∉ l) : refreshesNow fid mac l x = x := by
  unfold refreshesNow
  refine List.foldlRecOn l _ (motive := (· = x)) rfl fun a ha c hc => ?_
  split
  case h_1 s f m t =>
    refine (if_neg ?_).trans ha
    intro hkey
    obtain ⟨rfl, rfl⟩ : f = fid ∧ m = mac := by simpa using hkey
    exact h s t hc
  case h_2 => exact ha

theorem agingVisit_removes {s fid : Nat} {mac : BitVec 48} {e : Ent} {l : List Instr} {x : Mod} (hx : x.tbl.edits = [])
    (hh : homeOf x fid mac = s) (hw : shedWorks x s = true)
    (hv : (viewOf x s x.tt.active).find 1 (l2Key fid mac.toNat) = some e) (hs : isStatic e.dat = false)
    (hy : (metaOf x (l2Key fid mac.toNat)).synced = false)
    (hage : ((actCfg x).fid fid).ageTick < (ageTick x - (metaOf x (l2Key fid mac.toNat)).hit).toNat)
    (hl : ∀ s tick, Instr.hitRefresh s fid mac tick ∉ l) :
    agingVisitNow s fid mac l x = removeL2 s 3 e none (tally (.lkp s 6) x) := by
  simp only [agingVisitNow, refreshesNow_none x hl, catchUp_idle hx, hv, hh, hw, hs, hy, ne_eq, not_true_eq_false, decide_false, Bool.not_true,
    Bool.false_and, Bool.or_self, Bool.false_eq_true, if_false, decide_eq_true hage, Bool.true_or, if_true]

/-- A removed entry is gone from its home's table. -/
theorem removeL2_effect {s : Nat} {e : Ent} {x : Mod} (hx : x.tbl.edits = []) :
    ((removeL2 s 3 e none x).tbl.ents.get (s, 1)).all (fun d => d.key != e.key) = true ∧
      (removeL2 s 3 e none x).ctrs.get (.lkp s 6) = x.ctrs.get (.lkp s 6) := by
  obtain ⟨hents, -⟩ := l2Edit_begun (s := s) (kind := 3) (op := 2) (key := e.key) (dat := e.dat) (mbx := none) hx
  obtain ⟨-, -, hctr, -⟩ := l2Edit_learnPart (c := .lkp s 6) ⟨s, 6, rfl, by decide⟩ (s := s) (kind := 3) (op := 2) (key := e.key)
    (dat := e.dat) (mbx := none) hx
  unfold removeL2
  generalize beginEdit (l2Edit s 3 2 e.key e.dat none) x = z at *
  refine ⟨?_, hctr⟩
  simp only [dropMeta, hents, Map.get_set_same, Edit.written]
  rw [if_pos (by rfl)]
  simp [List.all_eq_true, l2Edit]

theorem tally_tbl (c : CtrId) (x : Mod) : (tally c x).tbl = x.tbl := rfl

/-- An aged entry is gone from its home's table, and counts. -/
theorem removeL2_aged {s : Nat} {e : Ent} {x : Mod} (hx : x.tbl.edits = []) :
    let m := removeL2 s 3 e none (tally (.lkp s 6) x)
    (m.tbl.ents.get (s, 1)).all (fun d => d.key != e.key) = true ∧ counted x (.lkp s 6) 1 m := by
  have htally := tally_same (.lkp s 6) x
  have hedits : (tally (.lkp s 6) x).tbl.edits = [] := by rw [tally_tbl, hx]
  generalize tally (.lkp s 6) x = y at *
  obtain ⟨hgone, hctr⟩ := removeL2_effect (s := s) (e := e) hedits
  exact ⟨hgone, hctr.trans htally⟩

/-- Settles O29: the home takes a request whose key's state decides it, and a home's own edit leaves the learning state alone. -/
theorem stationsAreLearned : Obligations.StationsAreLearned := by
  unfold Obligations.StationsAreLearned
  refine ⟨fun sh l t s ha hl hw hx => ?_, ?_, ?_, ?_⟩
  · intro v x0
    have htakes : learnHandle sh s.mod = handleLearn sh l x0 := learnHandle_takes hl hw
    have hanswers : ∀ {P : Mod → Prop}, P (handleLearn sh l x0) → Answers (.learnRequestHandle sh) s P :=
      fun h => answers_of _ rfl ha (htakes ▸ h)
    have hx0 : x0.tbl.edits = [] := hx
    refine ⟨fun hv hd hroom => hanswers ?_, fun e hv h => hanswers (handleLearn_nothing hx0 hv h), fun e hv hs hd hdest => ?_⟩
    · rw [handleLearn_first hx0 hv hd hroom]
      exact firstLearn_effect hx0 (Map.get_set_same _ _ _) _ hroom
    have hmoves := handleLearn_moves hx0 hv hs hd hdest
    refine ⟨fun hf => hanswers ?_, fun hf hc => hanswers ?_, fun hf hc hm => hanswers ?_⟩
    · exact hmoves.trans (if_pos hf)
    · exact hmoves.trans ((if_neg (by rw [show metaOf x0 l.key = metaOf s.mod l.key from rfl, hf]; decide)).trans (if_pos hc))
    · rw [hmoves, if_neg (by rw [show metaOf x0 l.key = metaOf s.mod l.key from rfl, hf]; decide), if_neg (by rw [show contested (actCfg x0).holdUs (metaOf x0 l.key).portTime l.time = false from hc]; decide)]
      exact stationMove_effect hx0 hv hm
  · intro sh fid mac t e s ha hx hf hv hh hp
    refine answers_of _ rfl ha ?_
    rw [freezeEnds_thaws hx hf hv hh hp]
    exact thaw_effect hx
  · exact fun sh fid mac tick s ha hp he => answers_of _ rfl ha (refreshLands_effect hp he)
  · intro sh fid mac e s ha hx hh hw hv hs hy hage hl
    refine answers_of _ rfl ha ?_
    rw [agingVisit_removes hx hh hw hv hs hy hage hl]
    exact removeL2_aged hx

end Sys2Proof.Machine
end

section
/-! Proofs about the replicas (04 R113, R116, R125, R138, R141; 03 R98): an edit is written and committed, replicas are compared, and
what is kept for a time ends. -/

namespace Sys2Proof.Machine

-- One theorem at a time: each thread that elaborates another reserves a stack, and their sum has a limit.
set_option Elab.async false

/-! ### A replica writes, all commit -/

theorem replicaWrite_effect {sh : Nat} {e : Edit} {x : Mod} (hw : shedWorks x sh = true) (hf : x.tbl.edits.find? (·.needs sh) = some e)
    (ht : e.tab ≠ 0) : (replicaWrite sh x).tbl.edits = markFirst sh x.tbl.edits ∧
      (replicaWrite sh x).tbl.ents = x.tbl.ents.set (sh, e.tab) (e.written (x.tbl.ents.get (sh, e.tab))) := by
  have hwrite : replicaWrite sh x = applyTable sh e { x with tbl := { x.tbl with edits := markFirst sh x.tbl.edits } } := by
    simp only [replicaWrite, hw, if_true, writeNext, hf, ht, if_false]
  have hpart := applyTable_editPart sh e { x with tbl := { x.tbl with edits := markFirst sh x.tbl.edits } }
  rw [hwrite]
  exact ⟨congrArg (fun p => p.2.1) hpart, congrArg Prod.fst hpart⟩

/-- What committing keeps: the edits on their way, the tables and the mailboxes, beside the next journal index. -/
def commitPart (x : Mod) : List Edit × Map (Nat × Nat) (List Ent) × Map Nat Mailbox × Nat :=
  (x.tbl.edits, x.tbl.ents, x.dax.boxes, x.tbl.jNext)

theorem journalPush_commitPart (s : Nat) (r : List Byte) (x : Mod) :
    commitPart (journalPush s r x) = (x.tbl.edits, x.tbl.ents, x.dax.boxes, x.tbl.jNext + 1) := by
  unfold journalPush
  dsimp only
  split
  · simp [commitPart]
  · rfl

/-- Each part of an edit's record takes the next index of the journal. -/
theorem journalEdit_commitPart (e : Edit) (x : Mod) :
    commitPart (journalEdit e x) = (x.tbl.edits, x.tbl.ents, x.dax.boxes, x.tbl.jNext + max 1 ((e.dat.length + 223) / 224)) := by
  have hparts : ∀ (l : List Nat) (n : Nat) (y : Mod),
      commitPart (l.foldl (fun a i => journalPush e.begin_ (journalPart a e a.tbl.jNext n i) a) y) =
        (y.tbl.edits, y.tbl.ents, y.dax.boxes, y.tbl.jNext + l.length) := by
    intro l n
    induction l with
    | nil => exact fun y => rfl
    | cons i l ih =>
      intro y
      have hpush := journalPush_commitPart e.begin_ (journalPart y e y.tbl.jNext n i) y
      rw [List.foldl_cons, ih]
      simp only [commitPart, Prod.mk.injEq] at hpush
      obtain ⟨hedits, hents, hboxes, hnext⟩ := hpush
      rw [hedits, hents, hboxes, hnext, List.length_cons, Nat.add_right_comm, Nat.add_assoc]
  have hall := hparts (List.range (max 1 ((e.dat.length + 223) / 224))) (max 1 ((e.dat.length + 223) / 224)) x
  rw [List.length_range] at hall
  unfold journalEdit
  dsimp only
  split
  · exact hall
  · exact hall

/-- The module once the oldest edit has left the order, is journalled and synced to the partner. -/
def journalledMod (e : Edit) (t : List Edit) (x : Mod) : Mod :=
  let x1 := { x with tbl := { x.tbl with
    edits := t
    quar := x.tbl.quar.map (fun q => if q.at_ = e.at_ then { q with at_ := x.now } else q) } }
  let x2 := journalEdit e x1
  match syncOf x e with
  | some r => { x2 with cpl := { x2.cpl with unsent := x2.cpl.unsent ++ [r], lastL2 := some x.now } }
  | none => x2

theorem journalledMod_commitPart (e : Edit) (t : List Edit) (x : Mod) :
    commitPart (journalledMod e t x) = (t, x.tbl.ents, x.dax.boxes, x.tbl.jNext + max 1 ((e.dat.length + 223) / 224)) := by
  have h := journalEdit_commitPart e { x with tbl := { x.tbl with
    edits := t
    quar := x.tbl.quar.map (fun q => if q.at_ = e.at_ then { q with at_ := x.now } else q) } }
  unfold journalledMod
  dsimp only
  split
  · exact h
  · exact h

/-- An edit of no command. -/
theorem editCommitted_own {e : Edit} {t : List Edit} {y : Mod × List Host.Cell} (he : y.1.tbl.edits = e :: t) (hd : editDone y.1 e = true)
    (hm : e.mbx = none) : editCommitted y = (journalledMod e t y.1, y.2) := by
  simp only [editCommitted, he, hd, hm]
  rfl

theorem editCommitted_cmd {e : Edit} {t : List Edit} {n : Nat} {y : Mod × List Host.Cell} (he : y.1.tbl.edits = e :: t)
    (hd : editDone y.1 e = true) (hm : e.mbx = some n) :
    editCommitted y = if ((journalledMod e t y.1).dax.boxes.get n).opcode = 0x0013 then (journalledMod e t y.1, y.2)
      else finishEdits n (journalledMod e t y.1, y.2) := by
  simp only [editCommitted, he, hd, hm]
  rfl

/-- The end of a message of edits leaves the tables alone. -/
theorem finishEdits_tbl (n : Nat) (y : Mod × List Host.Cell) : (finishEdits n y).1.tbl = y.1.tbl := by
  unfold finishEdits
  dsimp only
  split
  · rfl
  · simp

theorem finishFlush_tbl (n : Nat) (y : Mod × List Host.Cell) : (finishFlush n y).1.tbl = y.1.tbl := by
  unfold finishFlush
  dsimp only
  split
  · rfl
  · simp [dropLeaves]

theorem editCommitted_tbl {e : Edit} {t : List Edit} {y : Mod × List Host.Cell} (he : y.1.tbl.edits = e :: t) (hd : editDone y.1 e = true) :
    (editCommitted y).1.tbl = (journalledMod e t y.1).tbl := by
  cases hm : e.mbx with
  | none => rw [editCommitted_own he hd hm]
  | some n =>
    rw [editCommitted_cmd he hd hm]
    split
    · rfl
    · exact finishEdits_tbl _ _

theorem replicasCommitted_tbl {e : Edit} {t : List Edit} {y : Mod × List Host.Cell} (he : y.1.tbl.edits = e :: t)
    (hd : editDone y.1 e = true) : (replicasCommitted y).1.tbl = (journalledMod e t y.1).tbl := by
  rw [← editCommitted_tbl he hd]
  unfold replicasCommitted
  dsimp only
  split
  · split
    · exact finishFlush_tbl _ _
    · rfl
  · rfl

theorem replicasCommitted_own {e : Edit} {t : List Edit} {y : Mod × List Host.Cell} (he : y.1.tbl.edits = e :: t)
    (hd : editDone y.1 e = true) (hm : e.mbx = none) : replicasCommitted y = (journalledMod e t y.1, y.2) := by
  simp only [replicasCommitted, he, List.head?_cons, Option.bind_some, hm, editCommitted_own he hd hm]

/-- The last edit of a TABLE_EDIT or QUEUE_CONFIG. -/
theorem replicasCommitted_last {e : Edit} {t : List Edit} {n : Nat} {x : Mod} {b : List Host.Cell} (he : x.tbl.edits = e :: t)
    (hd : editDone x e = true) (hm : e.mbx = some n) (hop : (x.dax.boxes.get n).opcode = 0x10 ∨ (x.dax.boxes.get n).opcode = 0x17)
    (hq : (x.dax.boxes.get n).quiet = false) (hp : (x.dax.boxes.get n).phase = 0) (ht : ∀ k ∈ t, k.mbx ≠ some n) :
    replied (replicasCommitted (x, b)).1 n stOk := by
  have hpart := journalledMod_commitPart e t x
  simp only [commitPart, Prod.mk.injEq] at hpart
  obtain ⟨hedits, -, hboxes, -⟩ := hpart
  have hcmd := editCommitted_cmd (y := (x, b)) he hd hm
  generalize journalledMod e t x = z at *
  have hend : editCommitted (x, b) = complete n stOk (editReply (z.dax.boxes.get n)) (z, b) := by
    have hnot : ¬ (z.dax.boxes.get n).opcode = 0x0013 := by rcases hop with h | h <;> rw [hboxes, h] <;> decide
    have hnone : t.any (fun e => e.mbx == some n) = false := List.any_eq_false.mpr fun k hk => by simpa using ht k hk
    rw [hcmd, if_neg hnot]
    simp only [finishEdits, hboxes, hp, hedits, hnone]
    rfl
  have hreplied : replied (editCommitted (x, b)).1 n stOk := hend ▸ complete_replied (by rw [hboxes, hq]) _ _ _
  have hidle : ((editCommitted (x, b)).1.dax.boxes.get n).busy = false := by rw [Mailbox.busy, hreplied.1]
  have hsame : replicasCommitted (x, b) = editCommitted (x, b) := by
    simp only [replicasCommitted, he, List.head?_cons, Option.bind_some, hm, hidle, Bool.false_and, Bool.false_eq_true, if_false]
  rw [hsame]
  exact hreplied

/-- The oldest edit commits. -/
theorem replicasCommitted_effect {e : Edit} {t : List Edit} {x : Mod} {b : List Host.Cell} (he : x.tbl.edits = e :: t)
    (hd : editDone x e = true) :
    ((replicasCommitted (x, b)).1.tbl.edits = t ∧ (replicasCommitted (x, b)).1.tbl.ents = x.tbl.ents ∧
        (replicasCommitted (x, b)).1.tbl.jNext = x.tbl.jNext + max 1 ((e.dat.length + 223) / 224)) ∧
      (e.mbx = none → (replicasCommitted (x, b)).2 = b ∧ (replicasCommitted (x, b)).1.dax.boxes = x.dax.boxes) ∧
      (∀ n, e.mbx = some n → ((x.dax.boxes.get n).opcode = 0x10 ∨ (x.dax.boxes.get n).opcode = 0x17) →
        (x.dax.boxes.get n).quiet = false → (x.dax.boxes.get n).phase = 0 → (∀ k ∈ t, k.mbx ≠ some n) →
        replied (replicasCommitted (x, b)).1 n stOk) := by
  have hpart := journalledMod_commitPart e t x
  simp only [commitPart, Prod.mk.injEq] at hpart
  obtain ⟨hedits, hents, hboxes, hnext⟩ := hpart
  refine ⟨?_, fun hm => ?_, fun n hm hop hq hp ht => replicasCommitted_last he hd hm hop hq hp ht⟩
  · rw [replicasCommitted_tbl (y := (x, b)) he hd]
    exact ⟨hedits, hents, hnext⟩
  · rw [replicasCommitted_own (y := (x, b)) he hd hm]
    exact ⟨rfl, hboxes⟩

/-! ### What is kept for a time ends -/

/-- With one dissenting replica of three or more. -/
theorem compareReplicas_one {t sh : Nat} {x : Mod} (ht : t ≠ 13) (hx : x.tbl.edits = [])
    (hbad : (workingSheds x).filter (fun k => x.tbl.ents.get (k, t) != x.tbl.ents.get (majorityShed x t, t)) = [sh])
    (h3 : 3 ≤ (workingSheds x).length) :
    compareReplicas t x = raise (.shed sh) evReplicaDiverge
      { x with tbl := { x.tbl with ents := x.tbl.ents.set (sh, t) (x.tbl.ents.get (majorityShed x t, t)) } } := by
  simp only [compareReplicas, ht, hx, hbad, h3, List.any_nil, decide_false, Bool.or_self, Bool.false_eq_true, if_false, if_true]

/-- With no message held for an index. -/
theorem quarantineEnds_unheld {meter : Bool} {i : Nat} {q : Quar} {x : Mod} {b : List Host.Cell}
    (hf : x.tbl.quar.find? (fun k => k.meter == meter && k.idx == i) = some q) (he : x.tbl.edits.any (fun e => e.at_ ≤ q.at_) = false)
    (hh : (heldFrames x).any (fun f => f.2.admAt.any (· < q.at_) || (f.2.admAt.isSome && f.2.bank != x.tt.active)) = false)
    (hp : ∀ n < 15, (x.dax.boxes.get n).phase ≠ 0x200) :
    quarantineEnds meter i (x, b) =
      ({ x with tbl := { x.tbl with quar := x.tbl.quar.filter (fun k => !(k.meter == meter && k.idx == i)) } }, b) := by
  have hnone : (List.range 15).filter (fun m => (x.dax.boxes.get m).busy && (x.dax.boxes.get m).phase == 0x200) = [] := by
    rw [List.filter_eq_nil_iff]
    intro n hn
    simp [hp n (List.mem_range.mp hn)]
  simp only [quarantineEnds, hf, he, hh, Bool.or_self, Bool.false_eq_true, if_false, hnone, List.foldl_nil]

theorem cursorExpires_mem (sh h : Nat) (c : Cursor) (x : Mod) : c ∈ (cursorExpires sh h x).tbl.cursors.get sh ↔
    c ∈ x.tbl.cursors.get sh ∧ (c.handle ≠ h ∨ x.now ≤ c.lastAt + sec 10) := by
  simp only [cursorExpires, Map.get_upd_same, List.mem_filter, Bool.not_eq_true', Bool.and_eq_false_iff, beq_eq_false_iff_ne, ne_eq,
    decide_eq_false_iff_not, Nat.not_lt]

/-! ### ACL entries -/

/-- `y` is `x` after reads that met errors of the memories: events were raised and the list of errors changed. -/
def Met (x y : Mod) : Prop := y = { raised x y with ecc := y.ecc }

theorem Met.refl (x : Mod) : Met x x := rfl

theorem Met.raiseWith {x y : Mod} (h : Met x y) (l : Level) (e : Evt) (w : Option Word) (a : Nat) (k : List EccErr) :
    Met x (raiseWith l e w a { y with ecc := k }) := by
  have hraise := raiseWith_raised l e w a { y with ecc := k }
  have hecc := raiseWith_ecc l e w a { y with ecc := k }
  generalize Machine.raiseWith l e w a { y with ecc := k } = z at *
  calc z = raised { y with ecc := k } z := hraise
    _ = raised { ({ raised x y with ecc := y.ecc } : Mod) with ecc := k } z := by rw [← show y = _ from h]
    _ = { raised x z with ecc := z.ecc } := by rw [hecc]; rfl

theorem Met.eccMeet {x y : Mod} (h : Met x y) (e : EccErr) : Met x (eccMeet e y) := by
  unfold Machine.eccMeet
  split
  · exact h.raiseWith _ _ _ _ _
  · split
    · exact h
    · exact h.raiseWith _ _ _ _ _

theorem Met.eccRead (w : EccWord → Bool) (x : Mod) : Met x (eccRead w x).2 :=
  List.foldlRecOn _ _ (Met.refl x) fun _ h _ _ => h.eccMeet _

theorem Met.eccRepair (w : EccWord → Bool) (x : Mod) : Met x (eccRepair w id x) := by
  have h := Met.eccRead w x
  unfold Machine.eccRepair
  dsimp only
  split
  · generalize (Machine.eccRead w x).2 = z at *
    exact (congrArg (fun m : Mod => { m with ecc := m.ecc.filter (fun e => !w e.word) }) h).trans rfl
  · exact h

theorem Met.setTbl {x z : Mod} (h : Met x z) (t : Tbl) :
    ({ z with tbl := t } : Mod) = { raised x { z with tbl := t } with ecc := z.ecc, tbl := t } :=
  (congrArg (fun y : Mod => { y with tbl := t }) h).trans rfl

/-- The parity log of a shed names an entry. -/
theorem aclRepaired_effect {sh sl i : Nat} {x : Mod} (h : (sh, sl, i) ∈ x.tbl.aclBad) :
    let m := aclRepaired sh sl i x
    (sh, sl, i) ∉ m.tbl.aclBad ∧
      (let w := x.tbl.aclLog.get sh
       m.tbl.aclLog.get sh = if fieldOf w 31 28 = sl ∧ fieldOf w 27 16 = i then w ||| 1#32 else w) ∧
      m = { raised x m with
        ecc := m.ecc, tbl := { x.tbl with aclBad := m.tbl.aclBad, aclHit := m.tbl.aclHit, aclLog := m.tbl.aclLog } } := by
  have hmet : Met x _ := Met.eccRepair (fun w => decide (w = .shadow sh sl i)) x
  unfold aclRepaired
  rw [if_neg (by simpa using h)]
  generalize Machine.eccRepair (fun w => decide (w = .shadow sh sl i)) id x = z at *
  have htbl : z.tbl = x.tbl := (congrArg Mod.tbl hmet).trans rfl
  dsimp only
  refine ⟨by simp, ?_, ?_⟩
  · rw [htbl]
    by_cases hthis : fieldOf (x.tbl.aclLog.get sh) 31 28 = sl ∧ fieldOf (x.tbl.aclLog.get sh) 27 16 = i
    · simp [hthis]
    · rw [if_neg hthis, if_neg (by simpa using hthis)]
  · rw [htbl]
    exact hmet.setTbl _

/-- Settles O28: a replica writes the first edit it needs, and what commits, ends or is repaired touches what it names. -/
theorem replicasCommit : Obligations.ReplicasCommit := by
  unfold Obligations.ReplicasCommit
  refine ⟨fun sh e s ha hw hf ht => answers_of _ rfl ha (replicaWrite_effect hw hf ht), ?_, ?_, ?_, ?_, ?_⟩
  · intro e t s ha he hd
    refine answersBuf_of replicasCommitted rfl ha ?_
    obtain ⟨htbl, hown, hlast⟩ := replicasCommitted_effect (b := s.mem) he hd
    generalize replicasCommitted (s.mod, s.mem) = y at *
    obtain ⟨hedits, hents, hnext⟩ := htbl
    exact ⟨hedits, hents, hnext, hown, hlast⟩
  · intro t sh s ha ht hx hbad h3
    refine answers_of _ rfl ha ?_
    rw [compareReplicas_one ht hx hbad h3]
    have hraise := raise_raised (.shed sh) evReplicaDiverge
      { s.mod with tbl := { s.mod.tbl with ents := s.mod.tbl.ents.set (sh, t) (s.mod.tbl.ents.get (majorityShed s.mod t, t)) } }
    refine ⟨by simp, raise_evtSet _ _ _ (by decide), ?_⟩
    rw [hraise]
    rfl
  · intro meter i q s ha hf he hh hp
    refine answersBuf_of _ rfl ha ?_
    rw [quarantineEnds_unheld hf he hh hp]
    exact ⟨rfl, rfl⟩
  · exact fun sh h s ha => answers_of _ rfl ha ⟨rfl, fun c => cursorExpires_mem sh h c s.mod⟩
  · exact fun sh sl i s ha h => answers_of _ rfl ha (aclRepaired_effect h)

end Sys2Proof.Machine
end

section
/-! Proofs about the power domains (16 R483 to R489, R497, R513; 06 R197, R216). Each decision on a stop or a wake is one of a few
operations, whose effect is said once: a refusal, an abort, the begin of a stop, the begin of a wake, and the wait for the step limit. -/

namespace Sys2Proof.Machine

-- One theorem at a time: each thread that elaborates another reserves a stack, and their sum has a limit.
set_option Elab.async false

section
variable {d r f k : Nat} {by_ : StopBy} {x : Mod}

theorem domSt_eq (h : d < 448) : domSt x d = (x.pwr.doms.get d).st := if_neg (by omega)

theorem domRuns_eq (h : d < 448) : domRuns x d = ((x.pwr.doms.get d).st == .run) := congrArg (· == DomSt.run) (domSt_eq h)

/-! ### Refusals and aborts (16 R497) -/

/-- The newest entry of the power log. -/
def newestLog (x : Mod) : PwrLogEnt := x.pwr.log.get x.pwr.logNewest

theorem newestLog_pwrLog (kind op : Nat) : newestLog (pwrLog d r kind f op x) =
    { domain := d, reason := r, kind := kind, refuser := f, op := op, timeMs := nowMs x % 65536 } := Map.get_set_same _ _ _

/-- A refused stop leaves every domain, is logged with its reason and counts. -/
theorem refuseStop_effect (d r f : Nat) (x : Mod) :
    let m := refuseStop d r f x
    m.pwr.doms = x.pwr.doms ∧ evtSet .yard evStopRefused m = true ∧ counted x (.pwr 1) 1 m ∧
      (m.pwr.log.get m.pwr.logNewest).reason = r ∧ (m.pwr.log.get m.pwr.logNewest).domain = d ∧
      m.pwr.logCount = x.pwr.logCount + 1 := by
  simp only [refuseStop, raise_keeps, counted]
  exact ⟨rfl, raise_evtSet _ _ _ (by decide), tally_same _ x, congrArg PwrLogEnt.reason (newestLog_pwrLog 0 0xFF),
    congrArg PwrLogEnt.domain (newestLog_pwrLog 0 0xFF), rfl⟩

/-- A stopping domain whose stop is aborted. -/
def backToRun (d : Nat) (x : Mod) : Mod := setDom d (fun o => { o with st := .run, since := x.now, by_ := none, wakeAft := none }) x

theorem abort_effect (hd : d < 448) (r f : Nat) (x : Mod) :
    let m := logAbort d r f (backToRun d x)
    domSt m d = .run ∧ evtSet .yard evStopRefused m = true ∧ counted x (.pwr 2) 1 m ∧
      (m.pwr.log.get m.pwr.logNewest).reason = r ∧ (m.pwr.log.get m.pwr.logNewest).refuser = f := by
  simp only [domSt_eq hd, logAbort, raise_keeps, counted]
  exact ⟨congrArg Dom.st (Map.get_upd_same _ _ _), raise_evtSet _ _ _ (by decide), tally_same _ (backToRun d x),
    congrArg PwrLogEnt.reason (newestLog_pwrLog 1 0xFF), congrArg PwrLogEnt.refuser (newestLog_pwrLog 1 0xFF)⟩

/-! ### Stops and wakes that begin or wait (16 R487) -/

theorem beginStop_effect (hd : d < 448) (by_ : StopBy) (x : Mod) :
    let m := beginStop by_ d x
    domSt m d = .stopping ∧ (m.pwr.doms.get d).by_ = some by_ ∧ (m.pwr.doms.get d).since = x.now ∧
      (∀ k, k ≠ d → m.pwr.doms.get k = x.pwr.doms.get k) ∧ m = { x with pwr := m.pwr } := by
  intro m
  have hsame : m.pwr.doms.get d = _ := Map.get_upd_same x.pwr.doms d _
  refine ⟨?_, ?_, ?_, fun k hk => Map.get_upd_other _ hk _, rfl⟩
  · rw [domSt_eq hd, hsame]
  · rw [hsame]
  · rw [hsame]

theorem beginWake_effect (hd : d < 448) (x : Mod) :
    let m := beginWake d x
    domSt m d = .waking ∧ (m.pwr.doms.get d).since = x.now ∧ (∀ k, k ≠ d → m.pwr.doms.get k = x.pwr.doms.get k) ∧
      m = { x with pwr := m.pwr } := by
  intro m
  have hsame : m.pwr.doms.get d = _ := Map.get_upd_same x.pwr.doms d _
  refine ⟨?_, ?_, fun k hk => Map.get_upd_other _ hk _, rfl⟩
  · rw [domSt_eq hd, hsame]
  · rw [hsame]

theorem stopOrWait_fits (h : stepFits x (fullLoad d) = true) : stopOrWait by_ d x = beginStop by_ d x := if_pos h

theorem wakeOrWait_fits (h : stepFits x (fullLoad d) = true) : wakeOrWait f d x = beginWake d x := if_pos h

/-! ### The decision on a stop (16 R484) -/

/-- The reason with which a stop is refused, none when it is accepted; `fires` tells whether a wake source fires in the same cycle. -/
def stopRefusal (x : Mod) (by_ : StopBy) (d : Nat) (fires : Prop) [Decidable fires] : Option Nat :=
  if x.pwr.holdup.isSome then some 0x12
  else if domSt x d = .waking then some 0x06
  else if stopExempt x by_ = false ∧ modeRequires x d (some by_) = true then some 0x01
  else if (domChildren d).any (fun k => domSt x k != .stop) = true then some 0x03
  else if ownRuleHolds x by_ d = false then some 0x05
  else if fires then some 0x02 else none

/-- Where `E` gives a reason, `F` is the refusal with it, and where it gives none `F` is `G`. -/
def Refuses (d : Nat) (x : Mod) (E : Option Nat) (F G : Mod) : Prop :=
  (∀ r, E = some r → ∃ src, F = refuseStop d r src x) ∧ (E = none → F = G)

theorem Refuses.of (d r src : Nat) (x G : Mod) : Refuses d x (some r) (refuseStop d r src x) G :=
  ⟨fun _ h => ⟨src, by rw [Option.some.inj h]⟩, nofun⟩

theorem Refuses.done (d : Nat) (x G : Mod) : Refuses d x none G G := ⟨nofun, fun _ => rfl⟩

theorem Refuses.ite {c : Prop} [Decidable c] {E : Option Nat} {F G : Mod} (h : Refuses d x E F G) :
    Refuses d x (if c then some r else E) (if c then refuseStop d r 0 x else F) G := by
  split
  · exact .of d r 0 x G
  · exact h

theorem stopUnless_waking {wake : Option Nat} (hm : mayAsk x by_ d = true) (hd : d < 448) (hst : domSt x d = .waking)
    (fires : Prop) [Decidable fires] : Refuses d x (stopRefusal x by_ d fires) (stopUnless wake by_ d x) (stopOrWait by_ d x) := by
  have hd' : ¬ 447 < d := by omega
  simp only [stopUnless, stopRefusal, hm, hd', hst, Bool.not_true, decide_false, Bool.or_self, Bool.false_eq_true, if_false, if_true]
  exact .ite (.of d 6 0 x _)

/-- A running domain: the refusal with its reason, or the stop. -/
theorem stopUnless_run {wake : Option Nat} {fires : Prop} [Decidable fires] (hm : mayAsk x by_ d = true) (hd : d < 448)
    (hst : domSt x d = .run) (hf : fires ↔ by_ ≠ .yardmaster ∧ (wake.isSome = true ∨ (firedNow x d).isSome = true)) :
    Refuses d x (stopRefusal x by_ d fires) (stopUnless wake by_ d x) (stopOrWait by_ d x) := by
  have hd' : ¬ 447 < d := by omega
  simp only [stopUnless, stopRefusal, hm, hd', hst, Bool.not_true, decide_false, Bool.or_self, Bool.false_eq_true, if_false,
    reduceCtorEq, Bool.and_eq_true, Bool.not_eq_true']
  refine .ite (.ite (.ite (.ite ?_)))
  cases hw : wake.orElse (fun _ => firedNow x d) with
  | none =>
    have hnone : ¬ fires := by
      cases wake with
      | none => simp [hf, show firedNow x d = none from hw]
      | some src => exact absurd hw (by simp)
    rw [if_neg hnone]
    exact .done d x _
  | some src =>
    have hsome : wake.isSome = true ∨ (firedNow x d).isSome = true := by
      cases wake with
      | none => exact .inr (by rw [show firedNow x d = some src from hw]; rfl)
      | some src => exact .inl rfl
    cases hy : by_ == StopBy.yardmaster with
    | true =>
      rw [if_neg (by simp [hf, beq_iff_eq.mp hy])]
      exact .done d x _
    | false =>
      rw [if_pos (hf.mpr ⟨by simpa using hy, hsome⟩)]
      exact .of d 2 src x _

/-- A request of one that may ask, of a domain in RUN or WAKING. -/
theorem stopUnless_answers {c : Instr} {s : State} {wake : Option Nat} {fires : Prop} [Decidable fires]
    (he : exec c s = cmd c (stopUnless wake by_ d) s) (ha : arrives c s.mod = true) (hm : mayAsk s.mod by_ d = true) (hd : d < 448)
    (hf : fires ↔ by_ ≠ .yardmaster ∧ (wake.isSome = true ∨ (firedNow s.mod d).isSome = true)) :
    (∀ r, domSt s.mod d = .run ∨ domSt s.mod d = .waking → stopRefusal s.mod by_ d fires = some r → Answers c s fun m =>
        m.pwr.doms = s.mod.pwr.doms ∧ evtSet .yard evStopRefused m = true ∧
          counted s.mod (.pwr 1) 1 m ∧ (m.pwr.log.get m.pwr.logNewest).reason = r ∧
          (m.pwr.log.get m.pwr.logNewest).domain = d ∧ m.pwr.logCount = s.mod.pwr.logCount + 1) ∧
      (domSt s.mod d = .run → stopRefusal s.mod by_ d fires = none → stepFits s.mod (fullLoad (d)) = true → Answers c s fun m =>
        domSt m d = .stopping ∧ (m.pwr.doms.get d).by_ = some by_ ∧ (m.pwr.doms.get d).since = s.mod.now ∧
        (∀ k, k ≠ d → m.pwr.doms.get k = s.mod.pwr.doms.get k) ∧ m = { s.mod with pwr := m.pwr }) ∧
      (domSt s.mod d = .run → stopRefusal s.mod by_ d fires = none → stepFits s.mod (fullLoad (d)) = false → Answers c s fun m =>
        m.pwr.doms = s.mod.pwr.doms ∧ m.pwr.waits = s.mod.pwr.waits ++ [{ d := d, wake := false, src := 0, by_ := some by_ }]) := by
  refine ⟨fun r hst hr => ?_, fun hst hnone hfit => ?_, fun hst hnone hfit => ?_⟩
  · have hrefuses : Refuses d s.mod (stopRefusal s.mod by_ d fires) (stopUnless wake by_ d s.mod) (stopOrWait by_ d s.mod) :=
      hst.elim (fun h => stopUnless_run hm hd h hf) (fun h => stopUnless_waking hm hd h fires)
    obtain ⟨src, hsrc⟩ := hrefuses.1 r hr
    refine answers_of _ he ha ?_
    rw [hsrc]
    exact refuseStop_effect d r src s.mod
  · refine answers_of _ he ha ?_
    rw [(stopUnless_run hm hd hst hf).2 hnone, stopOrWait_fits hfit]
    exact beginStop_effect hd by_ s.mod
  · refine answers_of _ he ha ?_
    rw [(stopUnless_run hm hd hst hf).2 hnone, stopOrWait, if_neg (by rw [hfit]; decide)]
    exact ⟨rfl, rfl⟩

end

end Sys2Proof.Machine
end

section
/-! Proofs about the wakes of the power domains (16 R483, R486 to R489, R513; 06 R197, R216). -/

namespace Sys2Proof.Machine

-- One theorem at a time: each thread that elaborates another reserves a stack, and their sum has a limit.
set_option Elab.async false

/-! ### A wake is asked for -/

section
variable {d src : Nat} {x : Mod}

theorem askWake_awake (h : domSt x d = .waking ∨ domSt x d = .run) : askWake src d x = x := by
  rcases h with h | h <;> simp only [askWake, askWakeUp, h]

theorem askWake_stopping (h : domSt x d = .stopping) (hb : (x.pwr.doms.get d).by_ ≠ some .yardmaster) :
    askWake src d x = logAbort d 0x02 src (backToRun d x) := by
  simp only [askWake, askWakeUp, h, wakeAborts, hb, if_false]
  rfl

theorem askWake_stopped (h : domSt x d = .stop) (hp : ∀ p, domParent d = some p → domRuns x p = true) :
    askWake src d x = wakeOrWait src d x := by
  simp only [askWake, askWakeUp, h]
  cases hparent : domParent d with
  | none => rfl
  | some p => exact if_pos (hp p hparent)

/-- No stop of the domain waits. -/
theorem abortWaiting_idle (h : ∀ e ∈ x.pwr.waits, e.d ≠ d) : abortWaiting src d x = x := by
  have hnone : x.pwr.waits.any (fun w => w.d == d && !w.wake && w.by_ != some .yardmaster) = false :=
    List.any_eq_false.mpr fun e he => by simp [h e he]
  simp only [abortWaiting, hnone, Bool.false_eq_true, if_false]

/-- A domain's record of the wake source that fires now. -/
def withFired (src d : Nat) (x : Mod) : Mod := setDom d (fun o => { o with fired := some (src, x.cyc) }) x

theorem withFired_domSt (src d k : Nat) (x : Mod) : domSt (withFired src d x) k = domSt x k := by
  by_cases hk : k = d
  · subst hk
    simp [withFired, domSt, setDom]
  · simp [withFired, domSt, setDom, Map.get_upd_other _ hk]

/-- With no stop of the domain waiting, and no held shed's core asked for. -/
theorem domainWake_asks (hw : ∀ e ∈ x.pwr.waits, e.d ≠ d)
    (ht : 408 ≤ d → d < 416 → (x.trb.get (d - 408)).st ≠ .held) :
    domainWake src d x = wakeSource src d (withFired src d x) := by
  have hidle : abortWaiting src d (withFired src d x) = withFired src d x := abortWaiting_idle hw
  have hnot : ¬ ((decide (src = 6) && decide (408 ≤ d) && decide (d < 416) && ((withFired src d x).trb.get (d - 408)).st == .held) = true) := by
    simp only [Bool.and_eq_true, decide_eq_true_eq, beq_iff_eq]
    exact fun ⟨⟨⟨_, hlo⟩, hhi⟩, hst⟩ => ht hlo hhi hst
  unfold domainWake
  dsimp only
  rw [show setDom d (fun o => { o with fired := some (src, x.cyc) }) x = withFired src d x from rfl, hidle]
  exact if_neg hnot

/-- A wake source other than for a stopped drawbar half asks for the wake. -/
theorem wakeSource_asks (hd : d < 448) (h : 352 ≤ d → d < 408 → domSt x d ≠ .stop ∨ hasGrant x 4 (d - 352) = true) :
    wakeSource src d x = askWake src d x := by
  have hd' : ¬ 447 < d := by omega
  have hnot : ¬ ((decide (src = 2) && decide (352 ≤ d) && decide (d < 408) && domSt x d == .stop && !hasGrant x 4 (d - 352)) = true) := by
    simp only [Bool.and_eq_true, decide_eq_true_eq, beq_iff_eq, Bool.not_eq_true']
    rintro ⟨⟨⟨⟨-, hlo⟩, hhi⟩, hst⟩, hgrant⟩
    rcases h hlo hhi with h | h
    · exact h hst
    · rw [hgrant] at h
      exact Bool.false_ne_true h
  simp only [wakeSource, hd', if_false, hnot, Bool.false_eq_true]

end

/-! ### What keeps a running domain awake -/

/-- No chain of parents leads down to a lane group or a pipeline. -/
theorem domParent_high {k p : Nat} (hk : 256 ≤ k) (hp : domParent k = some p) : 256 ≤ p := by
  unfold domParent at hp
  split_ifs at hp <;> simp only [Option.some.injEq] at hp <;> omega

/-- The counters of stops and of settled wakes. -/
def stopCounters (x : Mod) : Counter × Counter := (x.ctrs.get (.pwr 0), x.ctrs.get (.pwr 3))

/-- Domain `d` stands as `o`, the counters of stops and of settled wakes as `c`, and the sheds as `t`. -/
structure Awake (d : Nat) (o : Dom) (c : Counter × Counter) (t : Map Nat ShedTrb) (x : Mod) : Prop where
  dom : x.pwr.doms.get d = o
  ctr : stopCounters x = c
  trb : x.trb = t

namespace Awake

section
variable {d : Nat} {o : Dom} {c : Counter × Counter} {t : Map Nat ShedTrb} {x y : Mod}

theorem same (h : Awake d o c t x) (hp : y.pwr.doms = x.pwr.doms := by rfl) (hc : stopCounters y = stopCounters x := by rfl)
    (ht : y.trb = x.trb := by rfl) : Awake d o c t y :=
  ⟨hp ▸ h.dom, hc.trans h.ctr, ht ▸ h.trb⟩

theorem raise (h : Awake d o c t x) (l : Level) (e : Evt) : Awake d o c t (raise l e x) := h.same (by simp) (by simp [stopCounters]) (by simp)

theorem raiseIf (h : Awake d o c t x) (b : Bool) (l : Level) (e : Evt) : Awake d o c t (if b then Machine.raise l e x else x) := by
  split
  · exact h.raise l e
  · exact h

theorem tally (h : Awake d o c t x) {k : CtrId} (hk : .pwr 0 ≠ k ∧ .pwr 3 ≠ k) : Awake d o c t (tally k x) :=
  ⟨h.dom, (congrArg₂ Prod.mk (count_other hk.1 1 x) (count_other hk.2 1 x)).trans h.ctr, h.trb⟩

theorem setDom (h : Awake d o c t x) {k : Nat} (hk : k ≠ d) (f : Dom → Dom) : Awake d o c t (setDom k f x) :=
  ⟨(Map.get_upd_other _ hk.symm _).trans h.dom, h.ctr, h.trb⟩

theorem foldl {α : Type} {f : Mod → α → Mod} {l : List α} (step : ∀ a e, Awake d o c t a → Awake d o c t (f a e)) (h : Awake d o c t x) :
    Awake d o c t (l.foldl f x) :=
  List.foldlRecOn l f h fun a ha e _ => step a e ha

theorem logAbort (h : Awake d o c t x) (k r f : Nat) : Awake d o c t (logAbort k r f x) :=
  (Awake.same (h.tally (k := .pwr 2) (by decide))).raise _ _

theorem wakeAborts (h : Awake d o c t x) (src : Nat) {k : Nat} (hk : k ≠ d) : Awake d o c t (wakeAborts src k x) := by
  unfold Machine.wakeAborts
  split
  · exact h.setDom hk _
  · exact (h.setDom hk _).logAbort _ _ _

theorem beginWake (h : Awake d o c t x) {k : Nat} (hk : k ≠ d) : Awake d o c t (beginWake k x) := Awake.same
  (x := Machine.setDom k (fun o => { o with st := .waking, since := x.now, by_ := none, wakeAft := none }) x) (h.setDom hk _)

theorem wakeOrWait (h : Awake d o c t x) (src : Nat) {k : Nat} (hk : k ≠ d) : Awake d o c t (wakeOrWait src k x) := by
  unfold Machine.wakeOrWait
  split
  · exact h.beginWake hk
  · exact h.same

theorem askWakeUp (hd : d < 448) (ho : o.st = .run) (src n : Nat) (k : Nat) (h : Awake d o c t x) : Awake d o c t (askWakeUp n src k x) := by
  induction n generalizing k x with
  | zero => exact h
  | succ n ih =>
    have hruns : domSt x d = .run := by rw [domSt_eq hd, h.dom, ho]
    have hne : domSt x k ≠ .run → k ≠ d := fun hst hk => hst (hk ▸ hruns)
    unfold Machine.askWakeUp
    split
    case h_1 => exact h
    case h_2 => exact h
    case h_3 hst => exact h.wakeAborts src (hne (by simp [hst]))
    case h_4 hst =>
      have hk : k ≠ d := hne (by simp [hst])
      split
      · exact h.wakeOrWait src hk
      · split
        · exact h.wakeOrWait src hk
        · have hup : ∀ p f, Awake d o c t (Machine.askWakeUp n src p (Machine.setDom k f x)) := fun p f => ih p (h.setDom hk f)
          dsimp only
          split
          · exact (hup _ _).wakeOrWait src hk
          · exact hup _ _

theorem askWakeUp_low (hd : d < 256) (src n : Nat) {k : Nat} (hk : 256 ≤ k) (h : Awake d o c t x) : Awake d o c t (Machine.askWakeUp n src k x) := by
  induction n generalizing k x with
  | zero => exact h
  | succ n ih =>
    have hne : k ≠ d := by omega
    unfold Machine.askWakeUp
    split
    case h_1 => exact h
    case h_2 => exact h
    case h_3 => exact h.wakeAborts src hne
    case h_4 =>
      split
      case h_1 => exact h.wakeOrWait src hne
      case h_2 p hp =>
        have hparent : 256 ≤ p := domParent_high hk hp
        have hup : ∀ f, Awake d o c t (Machine.askWakeUp n src p (Machine.setDom k f x)) := fun f => ih hparent (h.setDom hne f)
        split
        · exact h.wakeOrWait src hne
        · dsimp only
          split
          · exact (hup _).wakeOrWait src hne
          · exact hup _

theorem askWake (h : Awake d o c t x) (hd : d < 448) (ho : o.st = .run) (src k : Nat) : Awake d o c t (askWake src k x) :=
  askWakeUp hd ho src 5 k h

theorem notify (h : Awake d o c t x) (n : Notif) : Awake d o c t (notify n x) := h.same (by simp) (by simp [stopCounters]) (by simp)

theorem refuseLeave (h : Awake d o c t x) (op u r : Nat) (m : Option Nat) : Awake d o c t (refuseLeave op u r m x) := by
  have hraise : Awake d o c t (Machine.raise .yard evLeaveRefused (pwrLog (leaveDomain op u) r 2 0 op (Machine.tally (.pwr 6) x))) :=
    (Awake.same (x := Machine.tally (.pwr 6) x) (h.tally (by decide))).raise _ _
  unfold Machine.refuseLeave
  split
  · exact hraise.notify _
  · exact hraise

theorem askLeave (h : Awake d o c t x) (op u : Nat) (m : Option Nat) : Awake d o c t (askLeave op u m x).2 := by
  unfold Machine.askLeave
  split
  · exact Awake.same (x := Machine.tally (.pwr 4) x) (h.tally (by decide))
  · exact Awake.same (x := Machine.tally (.pwr 5) x) (h.tally (by decide))
  · exact h.refuseLeave _ _ _ _

theorem setHalf (h : Awake d o c t x) (s k : Nat) (f : Half → Half) : Awake d o c t (setHalf s k f x) := h.same

theorem beginDrawbarTraining (h : Awake d o c t x) (k : Nat) : Awake d o c t (beginDrawbarTraining k x) :=
  .foldl (fun _ _ ha => .setHalf (.same ha) _ _ _) h.same

theorem askPair (h : Awake d o c t x) (k : Nat) : Awake d o c t (askPair k x) := by
  have hask := h.askLeave 3 k none
  unfold Machine.askPair
  split
  · exact h
  · split
    · exact h.same
    · split <;> rename_i he <;> rw [he] at hask
      · exact hask.beginDrawbarTraining k
      · exact hask

theorem startRound (h : Awake d o c t x) (s : Option Nat) (r : Nat) : Awake d o c t (startRound s r x) := .foldl (fun _ _ ha => ha.askPair _) h

theorem halfWakes (h : Awake d o c t x) (s k : Nat) : Awake d o c t (halfWakes s k x) := by
  unfold Machine.halfWakes
  dsimp only
  split
  · exact h.setHalf _ _ _
  · split
    · exact ((h.setHalf _ _ _).setHalf _ _ _).setHalf _ _ _
    · exact (h.setHalf _ _ _).askPair _

theorem clearFails (h : Awake d o c t x) (s : Nat) : Awake d o c t (clearFails s x) :=
  .foldl (fun _ _ ha => (ha.setHalf _ _ _).setHalf _ _ _) h

theorem loftBankWake (h : Awake d o c t x) (hd : d < 448) (ho : o.st = .run) (s : Nat) : Awake d o c t (loftBankWake s x) := by
  have htally : ∀ f, Awake d o c t (Machine.tally (.lft s 6) (setLoft s f x)) := fun f =>
    Awake.tally (x := setLoft s f x) h.same (by simp)
  unfold Machine.loftBankWake
  dsimp only
  split
  · split
    · exact h.same
    · split
      · exact (htally _).askWake hd ho _ _
      · exact h.same
  · exact h

theorem loftWatch (h : Awake d o c t x) (hd : d < 448) (ho : o.st = .run) (s : Nat) : Awake d o c t (loftWatch s x) := by
  have hset : ∀ f, Awake d o c t (setLoft s f x) := fun _ => h.same
  exact (raiseIf (raiseIf (hset _) _ _ _) _ _ _).loftBankWake hd ho s

theorem setEng (h : Awake d o c t x) (s e : Nat) (f : Engine → Engine) : Awake d o c t (setEng s e f x) := h.same

theorem ost (h : Awake d o c t x) {p : Map Nat Ost} : Awake d o c t { x with ost := p } := h.same

theorem startRun (h : Awake d o c t x) (s e : Nat) (r : OstRun) (fresh : Bool) : Awake d o c t (startRun s e r fresh x) := by
  unfold Machine.startRun
  dsimp only
  split
  · exact (Awake.tally h.ost (by simp)).raise _ _
  · exact h.ost

theorem drawBytes (h : Awake d o c t x) (n : Nat) : Awake d o c t (drawBytes n x).2 := h.same

theorem newRun (h : Awake d o c t x) (s e : Nat) (k : OstCmd) : Awake d o c t (newRun s e k x) := by
  unfold Machine.newRun
  exact Awake.startRun ((h.drawBytes 64).setEng s e _) _ _ _ _

theorem dispatch (h : Awake d o c t x) (s e : Nat) : Awake d o c t (dispatch s e x) := by
  unfold Machine.dispatch
  dsimp only
  split
  · exact h.ost.startRun _ _ _ _
  · split
    · exact h.newRun _ _ _
    · exact h.ost

theorem faultRun (h : Awake d o c t x) (s e : Nat) : Awake d o c t (faultRun s e x) := by
  unfold Machine.faultRun
  split
  · exact h
  · split
    · exact Awake.tally h.ost (by simp)
    · exact (Awake.tally h.ost (by simp)).startRun _ _ _ _

theorem resumeEngine (h : Awake d o c t x) (s e : Nat) : Awake d o c t (resumeEngine s e x) := by
  unfold Machine.resumeEngine
  dsimp only
  split
  · exact h.ost.faultRun s e
  · exact h.ost.dispatch s e

theorem loadStores (h : Awake d o c t x) (s : Nat) : Awake d o c t (loadStores s x) := .foldl (fun _ _ ha => ha.resumeEngine _ _) h.ost

theorem resyncDomain (h : Awake d o c t x) (k : Nat) : Awake d o c t (resyncDomain k x) :=
  .foldl (fun _ _ ha => ha.tally (by simp)) h.same

/-- What the settling of a domain brings with it. -/
theorem settleEffects (h : Awake d o c t x) (hd : d < 448) (ho : o.st = .run) (k : Nat) : Awake d o c t (settleEffects k x) := by
  unfold Machine.settleEffects
  split
  · exact h.loadStores _
  split
  · exact h.loftWatch hd ho _
  split
  · split
    · exact (h.halfWakes _ _).same
    · exact h
  split
  · exact h.clearFails _
  split
  · exact h.same
  split
  · split
    · exact h
    · exact h.same
  split
  · exact h.same
  · exact h

theorem wakeChildren (h : Awake d o c t x) (ho : o.st = .run) (k : Nat) : Awake d o c t (wakeChildren k x) := by
  refine .foldl (fun a e ha => ?_) h
  split
  case h_1 hst _ =>
    refine ha.wakeOrWait _ fun he => ?_
    rw [he, ha.dom, ho] at hst
    exact absurd hst (by decide)
  case h_2 => exact ha

theorem wakeStageEnds (h : Awake d o c t x) : Awake d o c t (wakeStageEnds x) := by
  unfold Machine.wakeStageEnds
  split
  · exact Awake.startRound h.same _ _
  · exact h

theorem startRounds (h : Awake d o c t x) : Awake d o c t (startRounds x) := by
  unfold Machine.startRounds
  split
  · exact h
  · split
    · exact Awake.startRound h.same _ _
    · exact h.same

theorem enterMode (h : Awake d o c t x) (m : Mode) (k : Nat) : Awake d o c t (enterMode m k x) := by
  unfold Machine.enterMode
  dsimp only
  split
  · exact Awake.notify h.same _
  · exact h.same

theorem tryHarness (h : Awake d o c t x) : Awake d o c t (tryHarness x) := by
  unfold Machine.tryHarness
  split
  · exact Awake.enterMode h.same _ _
  · exact h

end

end Awake

/-! ### A domain settles -/

/-- No shed returns. -/
theorem returnsGoOn_idle {x : Mod} (h : ∀ sh < 8, (x.trb.get sh).st ≠ .returning) : returnsGoOn x = x := by
  have hstep : ∀ sh ∈ List.range 8, ∀ a, a = x → (List.range 4).foldl (fun b _ => returnStep sh b) a = x := by
    rintro sh hsh a rfl
    refine List.foldlRecOn (List.range 4) _ (motive := (· = a)) rfl fun b hb _ _ => ?_
    subst hb
    exact if_pos (by simpa using h sh (List.mem_range.mp hsh))
  exact List.foldlRecOn (List.range 8) _ (motive := (· = x)) rfl fun a ha sh hsh => hstep sh hsh a ha

/-- A waking domain that settles, but for what this brings with it. -/
def settledDom (d : Nat) (x : Mod) : Mod :=
  tally (.pwr 3) (setDom d (fun o => { o with
    st := .run, since := x.now, wakeAft := none, stopped := true,
    stops := match o.stops with
      | e :: t => (e.1, x.now) :: t
      | [] => [] }) x)

theorem wakeSettled_waking {d : Nat} {x : Mod} (h : domSt x d = .waking) :
    wakeSettled d x = wakeChildren d (settleEffects d (resyncDomain d (settledDom d x))) := by
  simp only [wakeSettled, h]
  rfl

/-- A domain settles while no shed returns: it runs, and counts. -/
theorem settledNow_effect {d : Nat} {x : Mod} (hd : d < 448) (h : domSt x d = .waking) (hr : ∀ sh < 8, (x.trb.get sh).st ≠ .returning) :
    domSt (settledNow d x) d = .run ∧ ((settledNow d x).pwr.doms.get d).since = x.now ∧ counted x (.pwr 3) 1 (settledNow d x) := by
  have hbegin : Awake d ((settledDom d x).pwr.doms.get d) (stopCounters (settledDom d x)) x.trb (settledDom d x) := ⟨rfl, rfl, rfl⟩
  have hdom : (settledDom d x).pwr.doms.get d = _ := Map.get_upd_same x.pwr.doms d _
  have hst : ((settledDom d x).pwr.doms.get d).st = .run := by rw [hdom]
  have hsettled : Awake d ((settledDom d x).pwr.doms.get d) (stopCounters (settledDom d x)) x.trb (wakeSettled d x) := by
    rw [wakeSettled_waking h]
    exact ((hbegin.resyncDomain d).settleEffects hd hst d).wakeChildren hst d
  have hidle : returnsGoOn (wakeSettled d x) = wakeSettled d x := returnsGoOn_idle (hsettled.trb ▸ hr)
  have hend := hsettled.wakeStageEnds.startRounds.tryHarness
  have hnow : settledNow d x = tryHarness (startRounds (wakeStageEnds (wakeSettled d x))) := by rw [settledNow, domainSettled, hidle]
  rw [hnow, domSt_eq hd, counted, hend.dom, show (tryHarness _).ctrs.get (.pwr 3) = _ from (Prod.mk.inj hend.ctr).2]
  exact ⟨hst, by rw [hdom], tally_same _ _⟩

/-! ### The register of the diagnosis (16 R513) -/

theorem fieldOf_low (v : Word) : fieldOf v 15 0 = (v.setWidth 16).toNat := by simp [fieldOf, bitsOf]

/-- WAKE set and STOP clear. -/
theorem wakeWord_fields (v : Word) : fieldOf ((v ||| 0x40000000#32) &&& ~~~0x20000000#32) 15 0 = fieldOf v 15 0 ∧
    ((v ||| 0x40000000#32) &&& ~~~0x20000000#32).getLsbD 30 = true ∧ ((v ||| 0x40000000#32) &&& ~~~0x20000000#32).getLsbD 29 = false := by
  refine ⟨?_, by simp, by simp⟩
  rw [fieldOf_low, fieldOf_low, BitVec.setWidth_and, BitVec.setWidth_or, show BitVec.setWidth 16 0x40000000#32 = 0#16 by decide,
    show BitVec.setWidth 16 (~~~0x20000000#32) = BitVec.allOnes 16 by decide, BitVec.or_zero, BitVec.and_allOnes]

/-- STOP set and WAKE clear. -/
theorem stopWord_fields (v : Word) : fieldOf ((v ||| 0x20000000#32) &&& ~~~0x40000000#32) 15 0 = fieldOf v 15 0 ∧
    ((v ||| 0x20000000#32) &&& ~~~0x40000000#32).getLsbD 30 = false ∧ ((v ||| 0x20000000#32) &&& ~~~0x40000000#32).getLsbD 29 = true := by
  refine ⟨?_, by simp, by simp⟩
  rw [fieldOf_low, fieldOf_low, BitVec.setWidth_and, BitVec.setWidth_or, show BitVec.setWidth 16 0x20000000#32 = 0#16 by decide,
    show BitVec.setWidth 16 (~~~0x40000000#32) = BitVec.allOnes 16 by decide, BitVec.or_zero, BitVec.and_allOnes]

/-- The module with a request in the register. -/
def diagAsked (d : Nat) (x : Mod) : Mod := { x with pwr := { x.pwr with diagDom := d, diagBusy := true } }

/-- Outside Diagnostic, and while a request is under way, a write is logged and dropped. -/
theorem diagCtl_dropped (v : Word) (x : Mod) :
    (x.mode.mode ≠ .diagnostic → (diagCtl v x).pwr = x.pwr ∧ (diagCtl v x).host.access.kind = 5) ∧
      (x.mode.mode = .diagnostic → diagBusy x = true → (diagCtl v x).pwr = x.pwr ∧ (diagCtl v x).host.access.kind = 3) := by
  refine ⟨fun hm => ?_, fun hm hb => ?_⟩
  · have h : diagCtl v x = logAccess 5 0xF 0 pwrDiagOff x := if_pos (by simpa using hm)
    rw [h]
    exact ⟨by simp [logAccess], logAccess_kind _ _ _ _ _⟩
  · have h : diagCtl v x = logAccess 3 0xF 0 pwrDiagOff x := (if_neg (by simpa using hm)).trans (if_pos hb)
    rw [h]
    exact ⟨by simp [logAccess], logAccess_kind _ _ _ _ _⟩

theorem diagWake_asks {v : Word} {x : Mod} (hm : x.mode.mode = .diagnostic) (hb : diagBusy x = false) :
    diagWake v x = wakeSource 4 (fieldOf v 15 0) (diagAsked (fieldOf v 15 0) x) := by
  obtain ⟨hfield, hwake, hstop⟩ := wakeWord_fields v
  simp only [diagWake, diagCtl, hm, hb, hfield, hwake, hstop, diagAsked]
  rfl

theorem diagStop_asks {v : Word} {x : Mod} (hm : x.mode.mode = .diagnostic) (hb : diagBusy x = false) :
    diagStop v x = askStop .host (fieldOf v 15 0) (diagAsked (fieldOf v 15 0) x) := by
  obtain ⟨hfield, hwake, hstop⟩ := stopWord_fields v
  simp only [diagStop, diagCtl, hm, hb, hfield, hwake, hstop, diagAsked]
  rfl

/-- A stop that nothing speaks against begins. -/
theorem askStop_begins {by_ : StopBy} {d : Nat} {x : Mod} (hd : d < 448) (hm : mayAsk x by_ d = true) (hst : domSt x d = .run)
    (hh : x.pwr.holdup = none) (hq : modeRequires x d (some by_) = false) (hc : (domChildren d).any (fun k => domSt x k != .stop) = false)
    (ho : ownRuleHolds x by_ d = true) (hf : firedNow x d = none) (hfit : stepFits x (fullLoad d) = true) :
    askStop by_ d x = beginStop by_ d x := by
  have hnone : stopRefusal x by_ d False = none := by
    simp only [stopRefusal, hh, hst, hq, hc, ho, Option.isSome_none, Bool.false_eq_true, and_false, if_false, reduceCtorEq]
  rw [askStop, (stopUnless_run (fires := False) hm hd hst (by simp [hf])).2 hnone, stopOrWait_fits hfit]

theorem diagStop_effect {v : Word} {x : Mod} (hm : x.mode.mode = .diagnostic) (hb : diagBusy x = false)
    (hst : domSt x (fieldOf v 15 0) = .run) (hd : fieldOf v 15 0 < 448) (hh : x.pwr.holdup = none)
    (hq : modeRequires x (fieldOf v 15 0) (some .host) = false)
    (hc : (domChildren (fieldOf v 15 0)).all (fun k => domSt x k == .stop) = true) (hf : firedNow x (fieldOf v 15 0) = none)
    (hfit : stepFits x (fullLoad (fieldOf v 15 0)) = true) :
    domSt (diagStop v x) (fieldOf v 15 0) = .stopping ∧ (diagStop v x).pwr.diagDom = fieldOf v 15 0 := by
  have hbelow : (domChildren (fieldOf v 15 0)).any (fun k => domSt x k != .stop) = false :=
    List.any_eq_false.mpr fun k hk => by simpa using List.all_eq_true.mp hc k hk
  rw [diagStop_asks hm hb]
  generalize fieldOf v 15 0 = d at *
  have hbegins : askStop .host d (diagAsked d x) = beginStop .host d (diagAsked d x) :=
    askStop_begins hd (beq_iff_eq.mpr hm) hst hh hq hbelow rfl hf hfit
  rw [hbegins]
  exact ⟨(beginStop_effect hd _ _).1, rfl⟩

theorem diagWake_effect {v : Word} {p : Nat} {x : Mod} (hm : x.mode.mode = .diagnostic) (hb : diagBusy x = false)
    (hst : domSt x (fieldOf v 15 0) = .stop) (hd : fieldOf v 15 0 < 352) (hp : domParent (fieldOf v 15 0) = some p)
    (hr : domRuns x p = true) (hfit : stepFits x (fullLoad (fieldOf v 15 0)) = true) :
    domSt (diagWake v x) (fieldOf v 15 0) = .waking ∧ (diagWake v x).pwr.diagDom = fieldOf v 15 0 := by
  rw [diagWake_asks hm hb]
  generalize fieldOf v 15 0 = d at *
  have hbegins : wakeSource 4 d (diagAsked d x) = beginWake d (diagAsked d x) := by
    rw [wakeSource_asks (by omega) (by omega), askWake_stopped (x := diagAsked d x) hst,
      wakeOrWait_fits (x := diagAsked d x) hfit]
    exact fun q hq => Option.some.inj (hp.symm.trans hq) ▸ hr
  rw [hbegins]
  exact ⟨(beginWake_effect (by omega) _).1, rfl⟩

/-! ### The wake table, drawbar halves and Loft banks -/

theorem wakeStep_due {d : Nat} {x : Mod} (h : wakeStepDue x d = true) (hg : 408 ≤ d → d < 416 → hasGrant x 1 (d - 408) = true) :
    wakeStep d x = wakeOrWait 0 d x := by
  have hnot : ¬ ((decide (408 ≤ d) && decide (d < 416) && !hasGrant x 1 (d - 408)) = true) := by
    simp only [Bool.and_eq_true, decide_eq_true_eq, Bool.not_eq_true']
    rintro ⟨⟨hlo, hhi⟩, hgrant⟩
    exact Bool.false_ne_true (hgrant.symm.trans (hg hlo hhi))
  simp only [wakeStep, h, Bool.not_true, Bool.false_eq_true, if_false, hnot]

/-- A shed core with its shed-wake leave to ask for, granted at once. -/
theorem wakeStep_granted {d id : Nat} {x : Mod} (h : wakeStepDue x d = true) (hlo : 408 ≤ d) (hhi : d < 416)
    (hg : hasGrant x 1 (d - 408) = false) (hl : decideLeave x 1 (d - 408) = .granted id) :
    wakeStep d x = beginWake d (addGrant id 1 (d - 408) none { x with pwr := { x.pwr with nextId := x.pwr.nextId + 1 } }) := by
  have hqueue : x.pwr.queue = [] := by
    by_contra hne
    have hfull : x.pwr.queue.isEmpty = false := by simpa using hne
    simp only [decideLeave, hfull, Bool.false_and, Bool.false_eq_true, if_false] at hl
    split_ifs at hl
  simp only [wakeStep, h, hg, hqueue, askLeave_granted hl, decide_eq_true hlo, decide_eq_true hhi, Bool.not_true, Bool.not_false,
    Bool.and_self, Bool.false_eq_true, if_false, if_true, List.any_nil]

/-- A wake that realises a grant keeps it. -/
theorem realise_any (d op u : Nat) (l : List Grant) :
    (realise d l).any (fun g => g.op == op && g.unit == u) = l.any (fun g => g.op == op && g.unit == u) := by
  induction l with
  | nil => rfl
  | cons g t ih =>
    unfold realise
    split
    · rfl
    · rw [List.any_cons, List.any_cons, ih]

/-- The core's wake begins, its leave is granted and counted. -/
theorem wakeStep_granted_effect {d id : Nat} {x : Mod} (hlo : 408 ≤ d) (hhi : d < 416) :
    let m := beginWake d (addGrant id 1 (d - 408) none { x with pwr := { x.pwr with nextId := x.pwr.nextId + 1 } })
    domSt m d = .waking ∧ (m.pwr.doms.get d).since = x.now ∧ hasGrant m 1 (d - 408) = true ∧ counted x (.pwr 4) 1 m := by
  obtain ⟨hgrants, -, hctr⟩ := addGrant_effect id 1 (d - 408) none { x with pwr := { x.pwr with nextId := x.pwr.nextId + 1 } }
  have hnow : (addGrant id 1 (d - 408) none { x with pwr := { x.pwr with nextId := x.pwr.nextId + 1 } }).now = x.now := rfl
  generalize addGrant id 1 (d - 408) none { x with pwr := { x.pwr with nextId := x.pwr.nextId + 1 } } = y at *
  obtain ⟨hst, hsince, -, -⟩ := beginWake_effect (d := d) (by omega) y
  refine ⟨hst, hsince.trans hnow, ?_, hctr⟩
  refine (realise_any d 1 (d - 408) y.pwr.grants).trans ?_
  simp [hgrants]

theorem domParent_half {sh h : Nat} (hs : sh < 8) (hh : h < 7) : domParent (352 + 7 * sh + h) = some (408 + sh) := by
  have hdiv : (352 + 7 * sh + h - 352) / 7 = sh := by omega
  unfold domParent
  rw [if_neg (by omega), if_neg (by omega), if_neg (by omega), if_pos (by omega), hdiv]

/-- A stopped half with its grant, whose shed's core runs. -/
theorem wakeSource_half {sh h : Nat} {x : Mod} (hs : sh < 8) (hh : h < 7) (hst : domSt x (352 + 7 * sh + h) = .stop)
    (hg : hasGrant x 4 (7 * sh + h) = true) (hr : domRuns x (408 + sh) = true)
    (hfit : stepFits x (fullLoad (352 + 7 * sh + h)) = true) :
    domSt (wakeSource 2 (352 + 7 * sh + h) x) (352 + 7 * sh + h) = .waking := by
  have hd : 352 + 7 * sh + h < 448 := by omega
  have hunit : 7 * sh + h = 352 + 7 * sh + h - 352 := by omega
  have hparent := domParent_half hs hh
  rw [hunit] at hg
  generalize 352 + 7 * sh + h = d at *
  rw [wakeSource_asks hd (fun _ _ => .inr hg), askWake_stopped hst, wakeOrWait_fits hfit]
  · exact (beginWake_effect hd x).1
  · exact fun p hp => Option.some.inj (hparent.symm.trans hp) ▸ hr

/-- No domain lies below a Loft bank. -/
theorem domChildren_bank {d : Nat} (hlo : 256 ≤ d) (hhi : d < 352) : domChildren d = [] := by
  refine List.filter_eq_nil_iff.mpr fun k hk => ?_
  have hlt : k < 448 := List.mem_range.mp hk
  simp only [beq_iff_eq, domParent]
  split_ifs <;> simp only [Option.some.injEq, not_false_eq_true] <;> omega

theorem bankIdles_low {sh t b : Nat} {x : Mod} (hl : (x.loft.get sh).lowAt = some t) (hb : (runningBanks x sh).getLast? = some b)
    (hp : passed x.now t (ms 10) = true) (hn : (x.loft.get sh).noAlloc = none) (hlow : loftLow x sh = true) (hs : bankSpare x sh = true) :
    bankIdles sh x = setLoft sh (fun l => { l with noAlloc := some b }) x := by
  simp only [bankIdles, hl, hb, hp, hn, hlow, hs, Option.isNone_none, Bool.and_self, if_true]

/-- A bank set aside and empty stops. -/
theorem bankStops_effect {sh b : Nat} {x : Mod} (hsh : sh < 8) (hb : b < 12) (hn : (x.loft.get sh).noAlloc = some b)
    (he : loftBankEmpty x sh b = true) (hs : bankSpare x sh = true) (hm : x.mode.mode = .standalone ∨ x.mode.mode = .paired)
    (hst : domSt x (bankDom sh b) = .run) (hf : firedNow x (bankDom sh b) = none) (hh : x.pwr.holdup = none)
    (hfit : stepFits x (fullLoad (bankDom sh b)) = true) :
    let m := bankStops sh b x
    domSt m (bankDom sh b) = .stopping ∧ (m.loft.get sh).noAlloc = none ∧ counted x (.lft sh 5) 1 m := by
  have hlo : 256 ≤ bankDom sh b := by unfold bankDom; omega
  have hhi : bankDom sh b < 352 := by unfold bankDom; omega
  have hdiv : (bankDom sh b - 256) / 12 = sh := by unfold bankDom; omega
  have hmod : (bankDom sh b - 256) % 12 = b := by unfold bankDom; omega
  have hforward : (x.mode.mode == .standalone || x.mode.mode == .paired) = true := by rcases hm with h | h <;> rw [h] <;> rfl
  have hmay : mayAsk x .loft (bankDom sh b) = true := by simp [mayAsk, hlo, hhi]
  have hreq : modeRequires x (bankDom sh b) (some .loft) = false := by
    have h128 : ¬ bankDom sh b < 128 := by omega
    have h256 : ¬ bankDom sh b < 256 := by omega
    rcases hm with h | h <;> simp [modeRequires, h, h128, h256, hhi]
  have hrule : ownRuleHolds x .loft (bankDom sh b) = true := by
    rw [ownRuleHolds, hdiv, hmod, he]
  have hasked : askStop .loft (bankDom sh b) x = beginStop .loft (bankDom sh b) x :=
    askStop_begins (by omega) hmay hst hh hreq (by rw [domChildren_bank hlo hhi]; rfl) hrule hf hfit
  obtain ⟨hstopping, -, -, -, hframe⟩ := beginStop_effect (d := bankDom sh b) (by omega) .loft x
  have hstops : bankStops sh b x = tally (.lft sh 5) (setLoft sh (fun l => { l with
      noAlloc := none, lowAt := lowSince (beginStop .loft (bankDom sh b) x) sh none }) (beginStop .loft (bankDom sh b) x)) := by
    simp only [bankStops, hn, he, hs, hforward, hasked, hstopping, bne_self_eq_false, beq_self_eq_true, Bool.not_true, Bool.or_self,
      Bool.false_eq_true, if_false, if_true]
  have hnow : (beginStop .loft (bankDom sh b) x).cyc = x.cyc := rfl
  have hctrs : (beginStop .loft (bankDom sh b) x).ctrs = x.ctrs := rfl
  intro m
  have hm : m = _ := hstops
  generalize beginStop .loft (bankDom sh b) x = z at *
  rw [hm]
  refine ⟨hstopping, congrArg Loft.noAlloc (Map.get_upd_same z.loft sh _), ?_⟩
  have hcount : counted z (.lft sh 5) 1 (tally (.lft sh 5) (setLoft sh (fun l => { l with noAlloc := none, lowAt := lowSince z sh none }) z)) :=
    tally_same _ _
  rwa [counted, hnow, hctrs] at hcount

/-- Settles O50: each wake and stop begins, waits or aborts as its request's conditions decide; what the settling of a domain
brings with it leaves a running domain alone. -/
theorem domainsWake : Obligations.DomainsWake := by
  unfold Obligations.DomainsWake
  refine ⟨?_, ?_, ?_, ?_, ?_, ?_, ?_, ?_, ?_, ?_, ?_, ?_, ?_⟩
  · intro w d s ha hst hw ht
    have hd : d < 448 := (show wfWake w = true ∧ d < 448 by simpa [Instr.wf] using arrives_wf ha).2
    refine answers_of _ rfl ha ?_
    have hfired := withFired_domSt w d d s.mod
    rw [domainWake_asks hw ht, wakeSource_asks hd, askWake_awake]
    · rfl
    · exact (hst.imp hfired.trans hfired.trans)
    · exact fun _ _ => .inl (by rw [hfired]; rcases hst with h | h <;> rw [h] <;> decide)
  · intro w d s ha hst hb hw hc
    have hd : d < 448 := (show wfWake w = true ∧ d < 448 by simpa [Instr.wf] using arrives_wf ha).2
    refine answers_of _ rfl ha ?_
    have hfired := withFired_domSt w d d s.mod
    have hby : ((withFired w d s.mod).pwr.doms.get d).by_ = (s.mod.pwr.doms.get d).by_ := by simp [withFired, setDom]
    rw [domainWake_asks hw (fun h k => absurd ⟨h, k⟩ hc), wakeSource_asks hd (fun _ _ => .inl (by rw [hfired, hst]; decide)),
      askWake_stopping (hfired.trans hst) (hby ▸ hb)]
    exact abort_effect hd 2 w (withFired w d s.mod)
  · intro w d s ha hst hp hc hw ht
    have hd : d < 448 := (show wfWake w = true ∧ d < 448 by simpa [Instr.wf] using arrives_wf ha).2
    have hfired := withFired_domSt w d d s.mod
    have hasks : domainWake w d s.mod = wakeOrWait w d (withFired w d s.mod) := by
      rw [domainWake_asks hw ht, wakeSource_asks hd (fun h k => absurd ⟨h, k⟩ hc), askWake_stopped (hfired.trans hst)]
      exact fun p hpar => (congrArg (· == DomSt.run) (withFired_domSt w d p s.mod)).trans (hp p hpar)
    refine ⟨fun hfit => answers_of _ rfl ha ?_, fun hfit => answers_of _ rfl ha ?_⟩
    · rw [hasks, wakeOrWait_fits (x := withFired w d s.mod) hfit]
      obtain ⟨hwaking, hsince, hothers, hframe⟩ := beginWake_effect hd (withFired w d s.mod)
      exact ⟨hwaking, hsince, fun k hk => (hothers k hk).trans (Map.get_upd_other _ hk _), rfl⟩
    · rw [hasks, wakeOrWait, if_neg (by rw [show stepFits (withFired w d s.mod) (fullLoad d) = false from hfit]; decide)]
      exact ⟨rfl, rfl⟩
  · intro d s ha hst hr
    have hd : d < 448 := by simpa [Instr.wf] using arrives_wf ha
    exact answers_of _ rfl ha (settledNow_effect hd hst hr)
  · intro d s ha hdue hc hfit
    have hd : d < 448 := by simpa [Instr.wf] using arrives_wf ha
    refine answers_of _ rfl ha ?_
    rw [wakeStep_due hdue (fun h k => absurd ⟨h, k⟩ hc), wakeOrWait_fits hfit]
    obtain ⟨hwaking, hsince, -, -⟩ := beginWake_effect hd s.mod
    exact ⟨hwaking, hsince⟩
  · intro d s ha hdue hlo hhi
    refine ⟨fun hg hfit => answers_of _ rfl ha ?_, fun id hg hl => answers_of _ rfl ha ?_⟩
    · rw [wakeStep_due hdue (fun _ _ => hg), wakeOrWait_fits hfit]
      obtain ⟨hwaking, hsince, -, -⟩ := beginWake_effect (d := d) (by omega) s.mod
      exact ⟨hwaking, hsince⟩
    · rw [wakeStep_granted hdue hlo hhi hg hl]
      exact wakeStep_granted_effect hlo hhi
  · intro sh h s ha hmust hst hg hr hfit
    obtain ⟨hs, hh⟩ : sh < 8 ∧ h < 7 := by simpa [Instr.wf, wfHalf, wfShed] using arrives_wf ha
    refine answers_of (fun x => if halfMustWake x sh h then wakeSource 2 (352 + 7 * sh + h) x else x) rfl ha ?_
    rw [if_pos hmust]
    exact wakeSource_half hs hh hst hg hr hfit
  · intro v s ha
    obtain ⟨hother, hbusy⟩ := diagCtl_dropped ((v ||| 0x40000000#32) &&& ~~~0x20000000#32) s.mod
    exact ⟨fun hm => answers_of _ rfl ha (hother hm), fun hm hb => answers_of _ rfl ha (hbusy hm hb)⟩
  · intro v s ha
    obtain ⟨hother, hbusy⟩ := diagCtl_dropped ((v ||| 0x20000000#32) &&& ~~~0x40000000#32) s.mod
    exact ⟨fun hm => answers_of _ rfl ha (hother hm), fun hm hb => answers_of _ rfl ha (hbusy hm hb)⟩
  · exact fun v p s ha hm hb hst hd hp hr hfit => answers_of _ rfl ha (diagWake_effect hm hb hst hd hp hr hfit)
  · exact fun v s ha hm hb hst hd hh hq hc hf hfit => answers_of _ rfl ha (diagStop_effect hm hb hst hd hh hq hc hf hfit)
  · exact fun sh t b s ha hl hb hp hn hlow hs => answers_of _ rfl ha (bankIdles_low hl hb hp hn hlow hs)
  · intro sh b s ha hn he hs hm hst hf hh hfit
    obtain ⟨hsh, hb⟩ : sh < 8 ∧ b < 12 := by simpa [Instr.wf, wfShed] using arrives_wf ha
    exact answers_of _ rfl ha (bankStops_effect hsh hb hn he hs hm hst hf hh hfit)

end Sys2Proof.Machine
end

section
/-! What the handling of frames keeps, for any property that it does not touch. Ports going down, lanes falling idle and sheds quiesced
drop frames, and so run through the Loft, the queues, the capture rings and the events. `Handles R` says that the property `R` of a
module is kept by the few operations all this is made of; each operation has its lemma `Handles.<operation>`. -/

namespace Sys2Proof.Machine

-- One theorem at a time: each thread that elaborates another reserves a stack, and their sum has a limit.
set_option Elab.async false

/-- The part of the module that a property kept by the handling of frames may speak of. -/
def handledPart (x : Mod) : Nat × ModeSt × Map (Level × Nat) EvtReg × Map Level TLog × Map Nat ShedTrb × Pwr × Map CtrId Counter :=
  (x.now, x.mode, x.evts, x.logs, x.trb, x.pwr, x.ctrs)

/-- A property of the module that the handling of frames keeps: it does not speak of frames, and holds on over counts other than the
Yardmaster's, events, notifications, and the wake of a Loft bank. -/
structure Handles (R : Mod → Prop) : Prop where
  same {x y : Mod} : R x → handledPart y = handledPart x → R y
  count {c : CtrId} {n : Nat} {x : Mod} : (∀ i, c ≠ .pwr i) → R x → R (count c n x)
  raise {l : Level} {e : Evt} {x : Mod} : R x → R (raise l e x)
  notify {n : Notif} {x : Mod} : R x → R (notify n x)
  bankWake {s b : Nat} {x : Mod} : R x → R (askWake 1 (bankDom s b) x)

/-- A property of both branches. -/
theorem of_ite {α : Type} {R : α → Prop} {c : Prop} [Decidable c] {x y : α} (h : R x) (k : R y) : R (if c then x else y) := by
  split
  · exact h
  · exact k

/-- A property kept by every step of a fold. -/
theorem of_foldl {α β : Type} {R : α → Prop} {f : α → β → α} {l : List β} {x : α} (step : ∀ a e, R a → R (f a e)) (h : R x) : R (l.foldl f x) :=
  List.foldlRecOn l f h fun a ha e _ => step a e ha

namespace Handles

variable {R : Mod → Prop} {x y : Mod}

section
variable (hR : Handles R)
include hR

theorem as (h : R x) (e : handledPart y = handledPart x := by rfl) : R y := hR.same h e

theorem setPort {p : Nat} {f : PortSt → PortSt} (h : R x) : R (setPort p f x) := hR.as h

theorem setFrame {f : Nat} {g : Frame → Frame} (h : R x) : R (setFrame f g x) := hR.as h

theorem setHalf {s k : Nat} {f : Half → Half} (h : R x) : R (setHalf s k f x) := hR.as h

theorem setCapRing {r : Nat} {f : CapRing → CapRing} (h : R x) : R (setCapRing r f x) := hR.as h

theorem buffer {r : Nat} {l : List Byte} (h : R x) : R (buffer r l x) := hR.as h

theorem withLine {l : Line} (h : R x) : R { x with line := l } := hR.as h

theorem tally {c : CtrId} (hc : ∀ i, c ≠ .pwr i) (h : R x) : R (tally c x) := hR.count hc h

theorem countPort {c : Nat → Nat → CtrId} {p i n : Nat} (hc : ∀ p i j, c p i ≠ .pwr j) (h : R x) : R (countPort c p i n x) :=
  of_ite (hR.count (hc p i) h) h

theorem portEvent {p : Nat} {e : Evt} (h : R x) : R (portEvent p e x) := hR.notify (hR.raise h)

/-! ### The Loft and the end of copies -/

theorem loftBankWake {s : Nat} (h : R x) : R (loftBankWake s x) := by
  have hset : ∀ f, R (setLoft s f x) := fun _ => hR.as h
  unfold Machine.loftBankWake
  dsimp only
  split
  · split
    · exact hset _
    · split
      · exact hR.bankWake (hR.tally (by simp) (hset _))
      · exact hset _
  · exact h

theorem loftWatch {s : Nat} (h : R x) : R (loftWatch s x) := by
  have hset : ∀ g, R (setLoft s g x) := fun _ => hR.as h
  have hlow : ∀ (c : Bool) g, R (if c then Machine.raise (.shed s) evWarnLow (setLoft s g x) else setLoft s g x) :=
    fun c g => of_ite (hR.raise (hset g)) (hset g)
  exact hR.loftBankWake (of_ite (hR.raise (hlow _ _)) (hlow _ _))

theorem dropHeld {s f : Nat} (h : R x) : R (dropHeld s f x) := by
  unfold Machine.dropHeld
  split
  · exact of_ite (hR.as h) h
  · exact h

theorem dropHead {s f c : Nat} (h : R x) : R (dropHead s f c x) := by
  unfold Machine.dropHead
  split
  · exact h
  · exact hR.loftWatch (hR.dropHeld (hR.as h))

theorem rejectFree {s kind req cell : Nat} (h : R x) : R (rejectFree s kind req cell x) :=
  hR.raise (hR.tally (by simp) (hR.as h))

theorem decCell {s cell req : Nat} (h : R x) : R (decCell s cell req x) := of_ite (hR.rejectFree h) (of_ite (hR.rejectFree h) (hR.as h))

theorem tidyFrame {f : Nat} (h : R x) : R (tidyFrame f x) := by
  unfold Machine.tidyFrame
  split
  · exact h
  · exact of_ite (hR.as h) h

theorem settleDesc {s f : Nat} (h : R x) : R (settleDesc s f x) := by
  unfold Machine.settleDesc
  split
  · exact h
  · exact of_ite (hR.as h) h

theorem finishCopy {f c req : Nat} (h : R x) : R (finishCopy f c req x) := by
  unfold Machine.finishCopy
  split
  · rename_i k fr _ _
    have hhead : R (Machine.dropHead (shedOfPort fr.port) f c (setCopy f c (fun k => { k with st := .done }) x)) := hR.dropHead (hR.as h)
    refine of_ite h (hR.tidyFrame (hR.settleDesc ?_))
    split
    · exact of_foldl (fun _ _ ha => hR.decCell ha) hhead
    · exact hhead
  · exact h

theorem abandonFrame {f : Nat} (h : R x) : R (abandonFrame f x) := by
  unfold Machine.abandonFrame
  split
  · exact h
  · refine hR.tidyFrame (of_foldl (fun _ _ ha => hR.settleDesc ha) (hR.as (of_foldl (fun a e ha => ?_) h)))
    exact of_ite ha (hR.finishCopy (hR.as ha))

/-! ### Capture records and dropped copies -/

theorem writeMarker {r : Nat} (h : R x) : R (writeMarker r x) := of_ite h (hR.as h)

theorem offerRecord {r : Nat} {hdr data : List Byte} (h : R x) : R (offerRecord r hdr data x) := by
  have hseq : ∀ f, R (Machine.setCapRing r f (Machine.writeMarker r x)) := fun _ => hR.setCapRing (hR.writeMarker h)
  exact of_ite h (of_ite (hR.buffer (hseq _)) (hR.raise (hR.setCapRing (hseq _))))

theorem mirrorsReady {f c dropped : Nat} {txLast : Option Nat} (h : R x) : R (mirrorsReady f c dropped txLast x) := by
  unfold Machine.mirrorsReady
  split
  · exact h
  · refine of_foldl (fun a i ha => ?_) h
    split
    · exact ha
    · refine of_ite ha (of_ite (of_ite (hR.finishCopy ha) ha) ?_)
      split
      · exact hR.finishCopy (hR.offerRecord ha)
      · exact hR.finishCopy (hR.offerRecord ha)
      · exact hR.as ha

theorem preciseRecord {f : Nat} {fr : Frame} {c : Option Copy} {cause n : Nat} {txLast : Option Nat} (h : R x) :
    R (preciseRecord f fr c cause n txLast x) := by
  have hoffer : ∀ r hdr data, R (if ringIsV1 x r then x else Machine.offerRecord r hdr data x) := fun _ _ _ => of_ite h (hR.offerRecord h)
  exact of_ite h (hR.as (hoffer _ _ _))

theorem dropCopy {f c cause ctr : Nat} (h : R x) : R (dropCopy f c cause ctr x) := by
  unfold Machine.dropCopy
  split
  · rename_i k fr _ _
    have hcount : R (Machine.count (queCtr k.port k.queue ctr) 1 x) := hR.count (by simp [queCtr]) h
    have hmirrors : ∀ z, R z → R (if othersLeft fr c then Machine.mirrorsReady f c cause none z
        else Machine.preciseRecord f fr (some k) cause fr.bytes.length none (Machine.mirrorsReady f c cause none z)) :=
      fun z hz => of_ite (hR.mirrorsReady hz) (hR.preciseRecord (hR.mirrorsReady hz))
    refine hR.finishCopy (hmirrors _ ?_)
    split
    · exact hR.tally (by simp) hcount
    · exact hR.tally (by simp) hcount
    · exact hcount
  · exact h

theorem clearDeficits {p : Nat} (h : R x) : R (clearDeficits p x) :=
  of_foldl (fun _ _ ha => of_ite ha (hR.as ha)) (of_foldl (fun _ _ ha => of_ite ha (hR.as ha)) h)

theorem pruneQueue {p q : Nat} {keep : List QEnt → List QEnt} (h : R x) : R (pruneQueue p q keep x) := hR.clearDeficits (hR.as h)

theorem flushQueues {p cause ctr : Nat} (h : R x) : R (flushQueues p cause ctr x) :=
  of_foldl (fun _ _ ha => of_foldl (fun _ _ hb => hR.dropCopy (hR.pruneQueue hb)) ha) h

/-! ### Ports going down and lanes falling idle -/

theorem cutReception {p : Nat} (h : R x) : R (cutReception p x) := of_foldl (fun _ _ ha => of_ite (hR.as ha) ha) h

theorem laneLoses {lane : Nat} (h : R x) : R (laneLoses lane x) := by
  have hset : ∀ f, R (setLane lane f x) := fun _ => hR.as h
  refine of_ite h ?_
  dsimp only
  split
  · exact hR.cutReception (hR.countPort (by simp [lneCtr]) (hset _))
  · exact hset _

theorem abortTx {p : Nat} (h : R x) : R (abortTx p x) := by
  unfold Machine.abortTx
  split
  · exact h
  · have hset : ∀ f, R (Machine.setPort p f x) := fun _ => hR.as h
    dsimp only
    split
    · split
      · exact hset _
      · split
        · exact hset _
        · refine of_ite (hR.dropCopy (hR.countPort (by simp [otrCtr]) (hR.setFrame ?_))) (hR.setFrame ?_)
          all_goals
            split
            · exact hR.setHalf (hset _)
            · exact hset _
    · exact hR.dropCopy (hR.as h)
    · exact hset _

theorem correctMeters {f : Nat} {fr : Frame} {len : Nat} (h : R x) : R (correctMeters f fr len x) := by
  refine of_foldl (fun a e ha => ?_) (hR.as h)
  unfold correctMeter
  split
  · exact ha
  · exact hR.as ha

theorem withdrawCopy {f : Nat} {e : Nat × Copy} (h : R x) : R (withdrawCopy f x e) := hR.finishCopy (of_ite (hR.pruneQueue h) h)

theorem discardCopies {f : Nat} (h : R x) : R (discardCopies f x) := by
  unfold Machine.discardCopies
  split
  · exact h
  · exact hR.tidyFrame (hR.settleDesc (of_foldl (fun _ _ ha => of_ite ha (hR.withdrawCopy ha)) h))

theorem pauseUpdate {s p cls before : Nat} (h : R x) : R (pauseUpdate s p cls before x) := by
  have hset : ∀ f, R (setLoft s f x) := fun _ => hR.as h
  have hask : ∀ f, R (Machine.tally (.lft s 3) (setLoft s f x)) := fun f => hR.tally (by simp) (hset f)
  exact of_ite h (of_ite (hR.as (hask _)) (of_ite (of_ite (hR.as h) (of_ite (hR.as h) (hset _))) h))

theorem setUse {s p cls pool : Nat} {f : Nat → Nat} (h : R x) : R (setUse s p cls pool f x) := of_ite (hR.pauseUpdate (hR.as h)) (hR.as h)

theorem releaseUnwritten {s f : Nat} (h : R x) : R (releaseUnwritten s f x) := by
  unfold Machine.releaseUnwritten
  split
  · exact h
  · exact of_ite h (hR.loftWatch (hR.setUse (hR.as h)))

theorem writeCells {s f n : Nat} (h : R x) : R (writeCells s f n x) := by
  unfold Machine.writeCells
  split
  · exact h
  · exact of_ite h (hR.loftWatch (hR.setUse (hR.as h)))

theorem settleCells {s f n : Nat} (h : R x) : R (settleCells s f n x) := hR.releaseUnwritten (hR.writeCells h)

theorem stompTx {p cap at_ : Nat} (h : R x) : R (stompTx p cap at_ x) := by
  unfold Machine.stompTx
  split
  · exact h
  · exact hR.as h

theorem stompSending {f : Nat} (h : R x) : R (stompSending f x) := by
  unfold Machine.stompSending
  refine of_foldl (fun a p ha => ?_) h
  split
  · exact of_ite (hR.stompTx ha) ha
  · exact ha

theorem endBad {f : Nat} {fr : Frame} {len : Nat} (h : R x) : R (endBad f fr len x) := by
  unfold Machine.endBad
  exact hR.discardCopies (hR.settleCells (hR.stompSending (hR.setFrame (hR.correctMeters h))))

theorem endCut {p : Nat} (h : R x) : R (endCut p x) := by
  refine of_foldl (fun a e ha => of_ite ?_ ha) h
  have hcount : ∀ {i n b}, R b → R (Machine.countPort lneCtr p i n b) := fun hb => hR.countPort (by simp [lneCtr]) hb
  have htwo : ∀ n, R (Machine.countPort lneCtr p 22 1 (Machine.countPort lneCtr p 28 n a)) := fun _ => hcount (hcount ha)
  exact of_ite (hR.as (of_ite (hcount (htwo _)) (htwo _))) (hR.endBad (of_ite (hcount (htwo _)) (htwo _)))

theorem lagsFollow {p : Nat} (h : R x) : R (lagsFollow p x) :=
  of_ite (of_foldl (fun _ _ ha => of_ite (hR.as ha) (hR.as ha)) h) h

theorem portGoesDown {p cause ctr : Nat} (h : R x) : R (portGoesDown p cause ctr x) :=
  of_ite h (hR.lagsFollow (hR.portEvent (hR.setPort (hR.flushQueues (hR.abortTx (hR.endCut (hR.cutReception h)))))))

theorem lanesIdle {g : Nat} (h : R x) : R (lanesIdle g x) :=
  hR.withLine (of_foldl (fun _ _ ha => hR.portGoesDown ha) (of_foldl (fun _ _ ha => hR.laneLoses ha) h))

end

end Handles

end Sys2Proof.Machine
end

section
/-! Proofs about the stops of the power domains (16 R484 to R487, R497; 06 R216). What a stop loses leaves the stopped domain and the
count of stops alone; for the lanes of a group that is a property that the handling of frames keeps. -/

namespace Sys2Proof.Machine

-- One theorem at a time: each thread that elaborates another reserves a stack, and their sum has a limit.
set_option Elab.async false

/-- The handling of frames leaves a lane group's domain, the sheds and the counters alone. -/
theorem awake_handled {d : Nat} (hd : d < 256) (o : Dom) (c : Counter × Counter) (t : Map Nat ShedTrb) : Handles (Awake d o c t) where
  same {x y} h e := by
    simp only [handledPart, Prod.mk.injEq] at e
    obtain ⟨-, -, -, -, htrb, hpwr, hctrs⟩ := e
    exact h.same (congrArg Pwr.doms hpwr) (by rw [stopCounters, hctrs, stopCounters]) htrb
  count hc h := ⟨h.dom, (congrArg₂ Prod.mk (count_other (hc 0).symm _ _) (count_other (hc 3).symm _ _)).trans h.ctr, h.trb⟩
  raise h := h.raise _ _
  notify h := h.notify _
  bankWake {s b x} h := h.askWakeUp_low hd 1 5 (k := bankDom s b) (by unfold bankDom; omega)

/-- What a stop loses leaves the stopped domain, the sheds and the counters alone. -/
theorem stopEffects_keeps (d : Nat) (x : Mod) : Awake d (x.pwr.doms.get d) (stopCounters x) x.trb (stopEffects d x) := by
  have h : Awake d (x.pwr.doms.get d) (stopCounters x) x.trb x := ⟨rfl, rfl, rfl⟩
  unfold stopEffects
  split
  · exact (awake_handled (by omega) _ _ _).lanesIdle h
  split
  · exact h.same
  split
  · exact h.same
  split
  · exact .foldl (fun _ _ ha => ha.setHalf _ _ _) h
  · exact h

/-- The stores of a stopped Ostler group are lost. -/
theorem stopEffects_stores {d : Nat} (hlo : 416 ≤ d) (hhi : d < 424) (x : Mod) :
    ((stopEffects d x).ost.get (d - 416)).loaded = false := by
  have hstores : stopEffects d x = loseStores (d - 416) x := by
    rw [stopEffects, if_neg (by omega), if_pos (by simp [hlo, hhi])]
  rw [hstores]
  exact congrArg Ost.loaded (Map.get_upd_same _ _ _)

/-- A drained domain with the domains below it stopped. -/
theorem stopDrained_stops {d : Nat} {x : Mod} (h : domSt x d = .stopping) (hw : (x.pwr.doms.get d).wakeAft = none)
    (hc : (domChildren d).all (fun k => domSt x k == .stop) = true) :
    stopDrained d x = setDom d (fun o => { o with wakeAft := none }) (stopEffects d (enterStop d x)) := by
  have hbelow : (domChildren d).any (fun k => domSt x k != .stop) = false :=
    List.any_eq_false.mpr fun k hk => by simpa using List.all_eq_true.mp hc k hk
  simp only [stopDrained, h, hw, hbelow, bne_self_eq_false, Bool.or_self, Bool.false_eq_true, if_false]

/-- DOMAIN_STOP_DRAINED while no shed returns. -/
theorem domainDrained_effect {d : Nat} {x : Mod} (hd : d < 448) (h : domSt x d = .stopping) (hw : (x.pwr.doms.get d).wakeAft = none)
    (hc : (domChildren d).all (fun k => domSt x k == .stop) = true) (hr : ∀ sh < 8, (x.trb.get sh).st ≠ .returning) :
    domSt (domainDrained d x) d = .stop ∧ counted x (.pwr 0) 1 (domainDrained d x) ∧
      (416 ≤ d → d < 424 → ((domainDrained d x).ost.get (d - 416)).loaded = false) := by
  have hkeeps := stopEffects_keeps d (enterStop d x)
  have hstores := fun hlo hhi => stopEffects_stores (d := d) hlo hhi (enterStop d x)
  have hdom : (enterStop d x).pwr.doms.get d = _ := Map.get_upd_same x.pwr.doms d _
  have hctr : (enterStop d x).ctrs.get (.pwr 0) = _ := tally_same (.pwr 0) x
  have hstops := stopDrained_stops h hw hc
  generalize stopEffects d (enterStop d x) = z at *
  have hidle : domainDrained d x = setDom d (fun o => { o with wakeAft := none }) z := by
    rw [domainDrained, hstops]
    exact returnsGoOn_idle (hkeeps.trb ▸ hr)
  rw [hidle, domSt_eq hd]
  refine ⟨?_, ((Prod.mk.inj hkeeps.ctr).1).trans hctr, hstores⟩
  rw [show (setDom d (fun o => { o with wakeAft := none }) z).pwr.doms.get d = _ from Map.get_upd_same z.pwr.doms d _, hkeeps.dom, hdom]

theorem stopAborts_late {d : Nat} {x : Mod} (hd : d < 448) (h : domSt x d = .stopping)
    (hp : passed x.now (x.pwr.doms.get d).since (us 20) = true) : stopAborts d none x = logAbort d 0x04 0 (backToRun d x) := by
  have hst : (x.pwr.doms.get d).st = .stopping := domSt_eq hd ▸ h
  simp only [stopAborts, hst, hp, bne_self_eq_false, Bool.false_eq_true, if_false, if_true]
  rfl

theorem stopAborts_woken {d w : Nat} {x : Mod} (hd : d < 448) (h : domSt x d = .stopping) (hb : (x.pwr.doms.get d).by_ ≠ some .yardmaster) :
    stopAborts d (some w) x = logAbort d 0x02 w (backToRun d x) := by
  have hst : (x.pwr.doms.get d).st = .stopping := domSt_eq hd ▸ h
  simp only [stopAborts, wakeAborts, hst, hb, bne_self_eq_false, Bool.false_eq_true, if_false]
  rfl

/-- Settles O49: a request is refused with the first reason that holds, or begins its stop; what a stop loses leaves the stopped
domain alone. -/
theorem domainsStop : Obligations.DomainsStop := by
  unfold Obligations.DomainsStop
  refine ⟨?_, ?_, ?_, ?_, ?_⟩
  · intro by_ d s ha hm
    have hd : d < 448 := by simpa [Instr.wf] using arrives_wf ha
    exact stopUnless_answers (wake := wakeComes s d) rfl ha hm hd Iff.rfl
  · intro sh h s ha
    obtain ⟨hs, hh⟩ : sh < 8 ∧ h < 7 := by simpa [Instr.wf, wfHalf, wfShed] using arrives_wf ha
    have hmay : mayAsk s.mod .drawbar (352 + 7 * sh + h) = true := by
      simp only [mayAsk, Bool.and_eq_true, decide_eq_true_eq]
      omega
    exact stopUnless_answers (wake := wakeComes s (352 + 7 * sh + h)) rfl ha hmay (by omega) (by simp)
  · intro d s ha hst hw hc hr
    have hd : d < 448 := by simpa [Instr.wf] using arrives_wf ha
    exact answers_of _ rfl ha (domainDrained_effect hd hst hw hc hr)
  · intro d s ha hst hp
    have hd : d < 448 := by simpa [Instr.wf] using arrives_wf ha
    refine answers_of _ rfl ha ?_
    rw [stopAborts_late hd hst hp]
    obtain ⟨hrun, hev, hctr, -⟩ := abort_effect hd 4 0 s.mod
    exact ⟨hrun, hev, hctr⟩
  · intro d w s ha hst hb
    have hd : d < 448 := (show d < 448 ∧ _ by simpa [Instr.wf] using arrives_wf ha).1
    refine answers_of _ rfl ha ?_
    rw [stopAborts_woken hd hst hb]
    obtain ⟨hrun, hev, hctr, -⟩ := abort_effect hd 2 w s.mod
    exact ⟨hrun, hev, hctr⟩

end Sys2Proof.Machine
end

section
/-! What is kept by everything but the operations that own it: `Robust R` says that the property `R` of a module speaks of time, of
the events, their logs and the inlets alone, and holds on over events. Quiesced sheds, refused leave, waves and activations that fail
keep such a property; each operation has its lemma `Robust.<operation>`. -/

namespace Sys2Proof.Machine

-- One theorem at a time: each thread that elaborates another reserves a stack, and their sum has a limit.
set_option Elab.async false

/-! ### Frames of a shed that falls are dropped (17 R526) -/

namespace Handles

variable {R : Mod → Prop} {x : Mod}

section
variable (hR : Handles R)
include hR

theorem loseCopy {f c : Nat} {k : Copy} {trace : Bool} (h : R x) : R (loseCopy f c k trace x) := by
  have hout : R (unqueue f c k x) := hR.as h
  unfold Machine.loseCopy
  dsimp only
  refine hR.finishCopy ?_
  split
  · exact of_ite (hR.mirrorsReady hout) (hR.preciseRecord (hR.mirrorsReady hout))
  · exact hout

theorem endCopies {s f got : Nat} {trace : Bool} (h : R x) : R (endCopies s f got trace x) := by
  unfold Machine.endCopies
  split
  · exact h
  · exact of_foldl (fun _ _ ha => of_ite ha (of_ite (of_ite (hR.stompTx ha) ha) (hR.loseCopy ha))) h

theorem dropShedFrames {s : Nat} (h : R x) : R (dropShedFrames s x) := by
  refine of_foldl (fun a e ha => ?_) h
  have hend : ∀ n, R (Machine.endCopies s e.1 n false a) := fun _ => hR.endCopies ha
  exact of_ite (hR.abandonFrame (of_ite (hend _) (hR.stompSending (hend _)))) (hR.tidyFrame (hend _))

end

end Handles

/-- The part of the module that a robust property may speak of. -/
def robustPart (x : Mod) : Nat × Map (Level × Nat) EvtReg × Map Level TLog × InletSt × InletSt :=
  (x.now, x.evts, x.logs, x.pwr.a, x.pwr.b)

/-- A property of time, the events, their logs and the inlets that holds on over events. -/
structure Robust (R : Mod → Prop) : Prop where
  same {x y : Mod} : R x → robustPart y = robustPart x → R y
  quiet {l : Level} {e : Evt} {w : Option Word} {a : Nat} {x : Mod} : R x → R (raiseQuiet l e w a x)

namespace Robust

variable {R : Mod → Prop} {x y : Mod}

section
variable (hR : Robust R)
include hR

theorem as (h : R x) (e : robustPart y = robustPart x := by rfl) : R y := hR.same h e

theorem setPwr {f : Pwr → Pwr} (h : R x) (e : ∀ p, (f p).a = p.a ∧ (f p).b = p.b := by exact fun _ => ⟨rfl, rfl⟩) : R (setPwr f x) :=
  hR.as h (by simp only [robustPart, Machine.setPwr, (e x.pwr).1, (e x.pwr).2])

theorem setTrb {s : Nat} {f : ShedTrb → ShedTrb} (h : R x) : R (setTrb s f x) := hR.as h

theorem setTt {f : TtSt → TtSt} (h : R x) : R (setTt f x) := hR.as h

theorem setCpl {f : Cpl → Cpl} (h : R x) : R (setCpl f x) := hR.as h

theorem setStage {n : Nat} (h : R x) : R (setStage n x) := hR.setPwr h

theorem lanesTrain {g : Nat} (h : R x) : R (lanesTrain g x) := hR.as h

theorem dropLeaves {m : Nat} (h : R x) : R (dropLeaves m x) := hR.as h

/-! ### Events -/

theorem notify {n : Notif} (h : R x) : R (notify n x) := of_ite (hR.as h) (hR.quiet (hR.as h))

theorem raiseWith {l : Level} {e : Evt} {w : Option Word} {a : Nat} (h : R x) : R (raiseWith l e w a x) :=
  of_ite (hR.notify (hR.quiet h)) (hR.quiet h)

theorem raise {l : Level} {e : Evt} (h : R x) : R (raise l e x) := hR.raiseWith h

theorem signal {n : Nat} (h : R x) : R (signal n x) := of_ite h (of_ite (hR.as h) (hR.as h))

theorem complete {m st : Nat} {body : List Byte} {q : Mod × List Host.Cell} (h : R q.1) : R (complete m st body q).1 := by
  unfold Machine.complete
  dsimp only
  split
  · exact hR.as h
  · exact hR.signal (hR.as h)

/-! ### Power -/

theorem setDom {d : Nat} {f : Dom → Dom} (h : R x) : R (setDom d f x) := hR.as h

theorem wakeAborts {src d : Nat} (h : R x) : R (wakeAborts src d x) := of_ite (hR.as h) (hR.raise (hR.as h))

theorem wakeOrWait {src d : Nat} (h : R x) : R (wakeOrWait src d x) := of_ite (hR.as h) (hR.as h)

theorem stopOrWait {by_ : StopBy} {d : Nat} (h : R x) : R (stopOrWait by_ d x) := of_ite (hR.as h) (hR.as h)

theorem askWake {src d : Nat} (h : R x) : R (askWake src d x) := by
  have hup : ∀ n d x, R x → R (askWakeUp n src d x) := by
    intro n
    induction n with
    | zero => exact fun _ _ h => h
    | succ n ih =>
      intro d x h
      unfold askWakeUp
      split
      · exact h
      · exact h
      · exact hR.wakeAborts h
      · split
        · exact hR.wakeOrWait h
        · have hparent : ∀ p f, R (askWakeUp n src p (Machine.setDom d f x)) := fun p f => ih p _ (hR.setDom h)
          exact of_ite (hR.wakeOrWait h) (of_ite (hR.wakeOrWait (hparent _ _)) (hparent _ _))
  exact hup 5 d x h

/-- The handling of frames keeps a robust property. -/
theorem handles : Handles R where
  same h e := by
    simp only [handledPart, Prod.mk.injEq] at e
    obtain ⟨hnow, -, hevts, hlogs, -, hpwr, -⟩ := e
    exact hR.same h (by simp only [robustPart, hnow, hevts, hlogs, hpwr])
  count _ h := hR.as h
  raise h := hR.raise h
  notify h := hR.notify h
  bankWake h := hR.askWake h

theorem refuseLeave {op u r : Nat} {m : Option Nat} (h : R x) : R (refuseLeave op u r m x) := by
  have hraise : R (Machine.raise .yard evLeaveRefused (pwrLog (leaveDomain op u) r 2 0 op (tally (.pwr 6) x))) := hR.raise (hR.as h)
  unfold Machine.refuseLeave
  split
  · exact hR.notify hraise
  · exact hraise

theorem askLeave {op u : Nat} {m : Option Nat} (h : R x) : R (askLeave op u m x).2 := by
  unfold Machine.askLeave
  split
  · exact hR.as h
  · exact hR.as h
  · exact hR.refuseLeave h

/-! ### A shed falls (17 R526) -/

theorem dropShedFrames {s : Nat} (h : R x) : R (dropShedFrames s x) := hR.handles.dropShedFrames h

theorem clearShed {s : Nat} (h : R x) : R (clearShed s x) := hR.as h

theorem dropShedLeave {s : Nat} (h : R x) : R (dropShedLeave s x) := hR.as h

theorem adoptEntries {s : Nat} (h : R x) : R (adoptEntries s x) := hR.as h

theorem quiesceData {s : Nat} (h : R x) : R (quiesceData s x) :=
  hR.adoptEntries (hR.dropShedLeave (hR.clearShed (of_foldl (fun _ _ ha => hR.handles.lanesIdle ha) (hR.dropShedFrames h))))

theorem quiesceShed {s : Nat} {thermal : Bool} (h : R x) : R (quiesceShed s thermal x) := by
  have hdata : ∀ (c : Bool) f, R (Machine.setTrb s f (if c then x else Machine.quiesceData s x)) :=
    fun _ _ => hR.setTrb (of_ite h (hR.quiesceData h))
  have hquiet : ∀ (c : Bool) f, R (if c then Machine.setTrb s f (if c then x else Machine.quiesceData s x)
      else Machine.raise (.shed s) evQuiesced (Machine.setTrb s f (if c then x else Machine.quiesceData s x))) :=
    fun c f => of_ite (hdata c f) (hR.raise (hdata c f))
  exact of_ite (hR.raise (hquiet _ _)) (hquiet _ _)

theorem fatal {s : Nat} {e : Evt} (h : R x) : R (fatal s e x) := hR.quiesceShed (hR.raise h)

theorem announceFlip (h : R x) : R (announceFlip x) := by
  unfold Machine.announceFlip
  split
  · exact of_ite (hR.as h) h
  · exact h

theorem shedFalls {s : Nat} {e : Evt} (h : R x) : R (shedFalls s e x) := hR.announceFlip (hR.fatal h)

/-! ### Waves (16 R502) -/

theorem returned (h : R x) : R (returned x) := of_foldl (fun _ _ ha => of_ite (hR.raise (hR.as ha)) ha) h

theorem askCoupler (h : R x) : R (askCoupler x) := by
  have hask := hR.askLeave (op := 9) (u := 0) (m := none) h
  refine of_ite h ?_
  split <;> rename_i he <;> rw [he] at hask
  · exact hR.as hask
  · exact hask

theorem wavesDone (h : R x) : R (wavesDone x) := by
  have hback : R (Machine.returned (Machine.setPwr (fun p => { p with waves := [] }) x)) := hR.returned (hR.setPwr h)
  unfold Machine.wavesDone
  dsimp only
  generalize Machine.returned (Machine.setPwr (fun p => { p with waves := [] }) x) = z at hback ⊢
  split
  · exact hback
  · split
    · exact hR.askCoupler (hR.setStage hback)
    · exact hR.setStage hback

theorem beginWave {w : Nat} (h : R x) : R (beginWave w x) := of_foldl (fun _ _ ha => hR.askWake (hR.lanesTrain ha)) (hR.setPwr h)

theorem askWave (h : R x) : R (askWave x) := by
  refine of_ite h ?_
  split
  · exact hR.wavesDone h
  · rename_i w _ _
    have hask := hR.askLeave (op := 2) (u := w) (m := none) h
    split <;> rename_i he <;> rw [he] at hask
    · exact hR.beginWave hask
    · exact hask
    · exact hR.wavesDone hask

/-! ### Refused leave (16 R492) -/

theorem fail {m st : Nat} {q : Mod × List Host.Cell} (h : R q.1) : R (fail m st q).1 := hR.complete h

theorem dropActLeave {a : Activation} (h : R x) : R (dropActLeave a x) := by
  unfold Machine.dropActLeave
  split
  · exact hR.as h
  · exact hR.as h

theorem enterMode {m : Mode} {cause : Nat} (h : R x) : R (enterMode m cause x) := of_ite (hR.notify (hR.as h)) (hR.as h)

theorem activationFails {a : Activation} {st r : Nat} {q : Mod × List Host.Cell} (h : R q.1) : R (activationFails a st r q).1 := by
  have hfails : R (Machine.raise .yard evActivateFail (Machine.dropActLeave a (Machine.setTt (fun t => { t with act := none }) q.1))) :=
    hR.raise (hR.dropActLeave (hR.setTt h))
  unfold Machine.activationFails
  dsimp only
  split
  · exact hR.complete (hR.notify hfails)
  · exact hR.as (hR.enterMode (hR.notify hfails))

theorem refusedOp {op u : Nat} {m : Option Nat} {q : Mod × List Host.Cell} (h : R q.1) : R (refusedOp op u m q).1 := by
  have hfails : ∀ (a : Activation) st, R (Machine.activationFails a st 0 q).1 := fun _ _ => hR.activationFails h
  have hback : R (Machine.announceFlip (returnFails u q.1)) := hR.announceFlip (hR.fatal h)
  have hwaves : R (Machine.wavesDone q.1) := hR.wavesDone h
  unfold Machine.refusedOp
  dsimp only
  split
  · split
    · exact h
    · split
      · split
        · exact hfails _ _
        · exact hR.fail (hR.dropLeaves h)
      · exact hR.fail (hR.dropLeaves h)
  · split
    · rw [apply_ite Prod.fst]
      dsimp only
      exact of_ite hback h
    · rw [apply_ite Prod.fst]
      dsimp only
      exact of_ite hwaves h
    · rw [apply_ite Prod.fst]
      dsimp only
      refine of_ite hback ?_
      split
      · rw [apply_ite Prod.fst]
        exact of_ite (hfails _ _) h
      · exact h
    · exact hR.as h
    · exact hR.as h
    · exact h

theorem refuseQueued {r : Nat} {l : List LeaveReq} {q : Mod × List Host.Cell} (h : R q.1) : R (refuseQueued r l q).1 := by
  have hrefused : R (l.foldl (fun a q => Machine.refuseLeave q.op q.unit r q.mbx a) q.1) := of_foldl (fun _ _ ha => hR.refuseLeave ha) h
  exact of_foldl (R := fun z : Mod × List Host.Cell => R z.1) (fun _ _ ha => hR.refusedOp ha) hrefused

/-! ### Shedding (16 R495) -/

theorem shedGroups {l : List Nat} {c b : Nat} (h : R x) : R (shedGroups l c b x) := by
  induction l generalizing c x with
  | nil => exact h
  | cons d t ih => exact of_ite h (of_ite (ih (hR.stopOrWait (hR.as h))) (ih h))

theorem shedLoad (h : R x) : R (shedLoad x) := of_ite h (hR.shedGroups (hR.raise (hR.as h)))

end

end Robust

end Sys2Proof.Machine
end

section
/-! Proofs about the inlets, hold-up and power (16 R490, R494 to R496, R505; 19 R556, R557). -/

namespace Sys2Proof.Machine

-- One theorem at a time: each thread that elaborates another reserves a stack, and their sum has a limit.
set_option Elab.async false

theorem Quiet.abortAll {x y : Mod} (h : Quiet x y) : Quiet x (abortAll y) := .foldl (fun _ _ ha => .ite ha.abortTx ha) h

theorem Quiet.sec {x y : Mod} (h : Quiet x y) : y.sec = x.sec := (congrArg Mod.sec h.part :)

/-! ### Robust properties of events and inlets -/

theorem evtSet_robust (l : Level) (e : Evt) : Robust (fun x => evtSet l e x = true) where
  same h k := by
    simp only [robustPart, Prod.mk.injEq] at k
    exact (congrArg (fun v => ((v.get (l, e.blk)).bits.get e.bit).isSome) k.2.1).trans h
  quiet h := by simp [raiseQuiet_evtSet, h]

theorem inlet_robust (i : Inlet) (v : InletSt) : Robust (fun x => inletOf x i = v) where
  same h k := by
    simp only [robustPart, Prod.mk.injEq] at k
    obtain ⟨-, -, -, ha, hb⟩ := k
    cases i
    · exact ha.trans h
    · exact hb.trans h
  quiet h := by
    cases i <;> simpa [inletOf] using h

theorem Robust.and {R S : Mod → Prop} (hR : Robust R) (hS : Robust S) : Robust (fun x => R x ∧ S x) where
  same h k := ⟨hR.same h.1 k, hS.same h.2 k⟩
  quiet h := ⟨hR.quiet h.1, hS.quiet h.2⟩

/-- An inlet reads `v`, and INLET_CHANGE is set. -/
def InletSays (i : Inlet) (v : InletSt) (x : Mod) : Prop := inletOf x i = v ∧ evtSet .yard evInletChange x = true

theorem inletSays_robust (i : Inlet) (v : InletSt) : Robust (InletSays i v) := (inlet_robust i v).and (evtSet_robust _ _)

theorem inletOf_setInlet (i : Inlet) (f : InletSt → InletSt) (x : Mod) : inletOf (setInlet i f x) i = f (inletOf x i) := by
  cases i
  · rfl
  · rfl

/-- A changed inlet reads as it was changed, and is reported. -/
theorem inletChanges (i : Inlet) (f : InletSt → InletSt) (x : Mod) :
    InletSays i (f (inletOf x i)) (raise .yard evInletChange (setInlet i f x)) :=
  ⟨(inlet_robust i _).raise (inletOf_setInlet i f x), raise_evtSet _ _ _ (by decide)⟩

theorem now_robust (n : Nat) : Robust (fun x => x.now = n) where
  same h k := (congrArg Prod.fst k).trans h
  quiet h := by simpa using h

theorem Robust.budgetRises {R : Mod → Prop} {x : Mod} (hR : Robust R) (h : R x) : R (budgetRises x) := hR.as h

theorem Robust.afterRise {R : Mod → Prop} {x : Mod} {was : Nat} (hR : Robust R) (h : R x) : R (afterRise was x) :=
  of_ite (hR.askWave (hR.budgetRises h)) h

/-- The dying gasp on a path that is linked. -/
def gaspOn (p : Path) (x : Mod) : Mod := if couplerRuns x && pathLinked x p then emit (.gasp p 0) x else x

theorem Robust.gaspOn {R : Mod → Prop} {p : Path} {x : Mod} (hR : Robust R) (h : R x) : R (gaspOn p x) := of_ite (hR.as h) h

theorem gaspOn_same (p : Path) (x : Mod) : (gaspOn p x).pwr = x.pwr ∧ (gaspOn p x).evts = x.evts := by
  unfold gaspOn
  split
  · exact ⟨rfl, rfl⟩
  · exact ⟨rfl, rfl⟩

/-- What hold-up begins with: what is refused of the queue comes after it. -/
def heldUp (x : Mod) : Mod :=
  setCpl (fun c => { c with stopRenew := true })
    (gaspOn .mgmt (gaspOn .coupler (raise .yard evHoldup (setPwr (fun p => { p with holdup := some x.now, queue := [] }) x))))

theorem beginHoldup_eq (q : Mod × List Host.Cell) : beginHoldup q = refuseQueued 0x12 q.1.pwr.queue (heldUp q.1, q.2) := rfl

theorem heldUp_effect (x : Mod) : (heldUp x).pwr = { x.pwr with holdup := some x.now, queue := [] } ∧ evtSet .yard evHoldup (heldUp x) = true := by
  unfold heldUp
  generalize hz : raise .yard evHoldup (setPwr (fun p => { p with holdup := some x.now, queue := [] }) x) = z
  obtain ⟨hpwr, hevts⟩ := gaspOn_same .mgmt (gaspOn .coupler z)
  obtain ⟨hpwr', hevts'⟩ := gaspOn_same .coupler z
  have hz' : z.pwr = { x.pwr with holdup := some x.now, queue := [] } := by
    rw [← hz, raise_raised]
    rfl
  refine ⟨hpwr.trans (hpwr'.trans hz'), (congrArg (fun v => ((v.get (Level.yard, evHoldup.blk)).bits.get evHoldup.bit).isSome)
    (hevts.trans hevts')).trans ?_⟩
  rw [← hz]
  exact raise_evtSet _ _ _ (by decide)

theorem Robust.beginHoldup {R : Mod → Prop} {q : Mod × List Host.Cell} (hR : Robust R) (h : R q.1) : R (beginHoldup q).1 := by
  have hheld : R (heldUp q.1) := hR.setCpl (hR.gaspOn (hR.gaspOn (hR.raise (hR.setPwr h))))
  rw [beginHoldup_eq]
  exact hR.refuseQueued hheld

theorem telemetry_effect (i : Inlet) (p : Bool) (v h w : Nat) (x : Mod) :
    (fun m => (inletOf m i).present = p ∧ (inletOf m i).dV = v ∧ (inletOf m i).dHz = h ∧
        (inletOf m i).dW = w ∧ (inletOf m i).good = (inletOf x i).good ∧ m.pwr.draw = m.pwr.a.dW + m.pwr.b.dW ∧
        ((p && inRange v h) = true → (inletOf m i).outSince = none) ∧
        m = { x with pwr := { x.pwr with a := m.pwr.a, b := m.pwr.b, draw := m.pwr.draw } }) (telemetry i p v h w x) := by
  cases i
  · exact ⟨rfl, rfl, rfl, rfl, rfl, rfl, fun hp => by simp [telemetry, setInlet, inletOf, keepSince, hp], rfl⟩
  · exact ⟨rfl, rfl, rfl, rfl, rfl, rfl, fun hp => by simp [telemetry, setInlet, inletOf, keepSince, hp], rfl⟩

theorem inletLow_due {i : Inlet} {t : Nat} {x : Mod} (ht : (inletOf x i).below180 = some t) (hg : (inletOf x i).good = true)
    (hl : (inletOf x i).lowLine = false) (hp : passed x.now t (ms 20) = true) :
    inletLow i x = if budget (raise .yard evInletChange (setInlet i (fun o => { o with lowLine := true }) x)) <
        committed (raise .yard evInletChange (setInlet i (fun o => { o with lowLine := true }) x)) then
      shedLoad (raise .yard evInletChange (setInlet i (fun o => { o with lowLine := true }) x))
      else raise .yard evInletChange (setInlet i (fun o => { o with lowLine := true }) x) := by
  unfold inletLow
  simp only [ht]
  exact if_pos (by rw [hg, hl, hp]; rfl)

theorem inletLow_effect {i : Inlet} {t : Nat} {x : Mod} (ht : (inletOf x i).below180 = some t) (hg : (inletOf x i).good = true)
    (hl : (inletOf x i).lowLine = false) (hp : passed x.now t (ms 20) = true) :
    InletSays i { inletOf x i with lowLine := true } (inletLow i x) := by
  have hsays := inletChanges i (fun o => { o with lowLine := true }) x
  rw [inletLow_due ht hg hl hp]
  exact of_ite ((inletSays_robust _ _).shedLoad hsays) hsays

theorem inletHigh_due {i : Inlet} {t : Nat} {x : Mod} (ht : (inletOf x i).above185 = some t) (hg : (inletOf x i).good = true)
    (hl : (inletOf x i).lowLine = true) (hp : passed x.now t (sec 1) = true) :
    inletHigh i x = raise .yard evInletChange (if budget x < budget (setInlet i (fun o => { o with lowLine := false }) x) then
        budgetRises (setInlet i (fun o => { o with lowLine := false }) x)
      else setInlet i (fun o => { o with lowLine := false }) x) := by
  unfold inletHigh
  simp only [ht]
  exact if_pos (by rw [hg, hl, hp]; rfl)

theorem inletHigh_effect {i : Inlet} {t : Nat} {x : Mod} (ht : (inletOf x i).above185 = some t) (hg : (inletOf x i).good = true)
    (hl : (inletOf x i).lowLine = true) (hp : passed x.now t (sec 1) = true) :
    InletSays i { inletOf x i with lowLine := false } (inletHighLine i x) := by
  have hR := inlet_robust i { inletOf x i with lowLine := false }
  have hset : inletOf (setInlet i (fun o => { o with lowLine := false }) x) i = { inletOf x i with lowLine := false } :=
    inletOf_setInlet _ _ _
  have hsays : InletSays i { inletOf x i with lowLine := false } (inletHigh i x) := by
    rw [inletHigh_due ht hg hl hp]
    refine ⟨hR.raise ?_, raise_evtSet _ _ _ (by decide)⟩
    split
    · exact hR.budgetRises hset
    · exact hset
  exact of_ite ((inletSays_robust _ _).askWave hsays) hsays

theorem psuIsGood_effect {i : Inlet} {x : Mod} (hp : x.mode.powered = true) (hg : (inletOf x i).good = false)
    (hf : inletFed (inletOf x i) = true) :
    InletSays i { inletOf x i with good := true, goodAt := x.now, lowLine := decide ((inletOf x i).dV < 1800) } (psuIsGood i x) := by
  unfold psuIsGood
  dsimp only
  rw [if_neg (by rw [hp, hg, hf]; decide)]
  exact (inletSays_robust _ _).afterRise (inletChanges i _ x)

theorem inletLoses_due {i : Inlet} {t : Nat} {x : Mod} (b : List Host.Cell) (ht : (inletOf x i).outSince = some t)
    (hg : (inletOf x i).good = true) (hp : passed x.now t (ms 2) = true) :
    inletLoses i (x, b) = (fun z => if z.pwr.a.good || z.pwr.b.good then (shedLoad z, b)
      else if z.pwr.holdup.isNone then beginHoldup (z, b) else (z, b))
      (raise .yard evInletChange (setInlet i (fun o => { o with good := false, lowLine := false }) x)) := by
  unfold inletLoses
  simp only [ht]
  exact if_neg (by rw [hg, hp]; decide)

theorem inletLoses_effect {i : Inlet} {t : Nat} {x : Mod} (b : List Host.Cell) (ht : (inletOf x i).outSince = some t)
    (hg : (inletOf x i).good = true) (hp : passed x.now t (ms 2) = true) :
    InletSays i { inletOf x i with good := false, lowLine := false } (inletLoses i (x, b)).1 ∧
      ((inletLoses i (x, b)).1.pwr.a.good = false → (inletLoses i (x, b)).1.pwr.b.good = false → x.pwr.holdup = none → x.pwr.queue = [] →
        (inletLoses i (x, b)).1.pwr.holdup = some x.now ∧ evtSet .yard evHoldup (inletLoses i (x, b)).1 = true) := by
  have hsays := inletChanges i (fun o => { o with good := false, lowLine := false }) x
  have hpwr : (raise .yard evInletChange (setInlet i (fun o => { o with good := false, lowLine := false }) x)).pwr.holdup = x.pwr.holdup ∧
      (raise .yard evInletChange (setInlet i (fun o => { o with good := false, lowLine := false }) x)).pwr.queue = x.pwr.queue ∧
      (raise .yard evInletChange (setInlet i (fun o => { o with good := false, lowLine := false }) x)).now = x.now := by
    rw [raise_raised]
    cases i
    · exact ⟨rfl, rfl, rfl⟩
    · exact ⟨rfl, rfl, rfl⟩
  rw [inletLoses_due b ht hg hp]
  generalize raise .yard evInletChange (setInlet i (fun o => { o with good := false, lowLine := false }) x) = z at hsays hpwr ⊢
  dsimp only at hsays ⊢
  obtain ⟨hhold, hqueue, hnow⟩ := hpwr
  have hR := inletSays_robust i { inletOf x i with good := false, lowLine := false }
  split
  next hgood =>
    have hab : ∀ k, inletOf (shedLoad z) k = inletOf z k := fun k => (inlet_robust k _).shedLoad rfl
    refine ⟨hR.shedLoad hsays, fun ha hb => ?_⟩
    have ha' : z.pwr.a.good = false := (congrArg InletSt.good (hab .a)).symm.trans ha
    have hb' : z.pwr.b.good = false := (congrArg InletSt.good (hab .b)).symm.trans hb
    rw [ha', hb'] at hgood
    exact absurd hgood (by decide)
  next =>
    split
    next =>
      refine ⟨hR.beginHoldup hsays, fun _ _ _ hq => ?_⟩
      obtain ⟨hpwr, hevt⟩ := heldUp_effect z
      have hbegin : beginHoldup (z, b) = (heldUp z, b) := by
        rw [beginHoldup_eq]
        dsimp only
        rw [hqueue, hq]
        rfl
      rw [hbegin]
      exact ⟨(congrArg Pwr.holdup hpwr).trans (congrArg some hnow), hevt⟩
    next hsome =>
      refine ⟨hsays, fun _ _ hnone _ => ?_⟩
      rw [hhold, hnone] at hsome
      exact absurd rfl hsome

theorem holdupEnds_effect {t : Nat} {x : Mod} (b : List Host.Cell) (h : x.pwr.holdup = some t) (hp : passed x.now t (ms 16) = true) :
    holdupEnds (x, b) = (unpowered (abortAll x), Memory.erase b 0 0x10000) := by
  unfold holdupEnds
  simp only [h]
  exact if_pos hp

/-- What a module without power keeps, said of the moment when its transmissions have been aborted. -/
theorem unpowered_effect {x z : Mod} (h : Quiet x z) : (unpowered z).mode.powered = false ∧ (unpowered z).mode.mode = .cold ∧
    (unpowered z).pwr.holdup = none ∧ (unpowered z).pwr.outsOff = some (x.now + ms 100) ∧ (unpowered z).pwr.a.good = false ∧
    (unpowered z).pwr.b.good = false ∧ (unpowered z).sec.enrol = x.sec.enrol :=
  ⟨rfl, rfl, rfl, by rw [← h.now]; rfl, rfl, rfl, by rw [← h.sec]; rfl⟩

/-- Erasing the mailboxes' buffers. -/
theorem erased_effect (l : List Host.Cell) : (∀ a, a < 0x10000 → Memory.read (Memory.erase l 0 0x10000) a = 0#8) ∧
    ∀ a, 0x10000 ≤ a → Memory.read (Memory.erase l 0 0x10000) a = Memory.read l a :=
  ⟨fun a h => Memory.read_erased l (Nat.zero_le a) h, fun a h => Memory.read_erase l 0 0x10000 a (.inr h)⟩

theorem holdupEnds_exec {t : Nat} {s : State} (ha : arrives .holdupEnd s.mod = true) (h : s.mod.pwr.holdup = some t)
    (hp : passed s.mod.now t (ms 16) = true) :
    exec .holdupEnd s = .next { s with mod := unpowered (abortAll s.mod), mem := Memory.erase s.mem 0 0x10000 } :=
  (cmdAll_arrives .holdupEnd holdupEnds s ha).trans (by rw [holdupEnds_effect s.mem h hp])

theorem powerRestarts_due {t : Nat} {x : Mod} (h : x.pwr.outsOff = some t) (ht : t ≤ x.now) :
    powerRestarts x = if inletFed x.pwr.a || inletFed x.pwr.b then powerUp x else setPwr (fun p => { p with outsOff := none }) x := by
  unfold powerRestarts
  simp only [h]
  exact if_neg (Nat.not_lt.mpr ht)

/-- Settles O51: what shedding, hold-up and returning waves do leaves the inlets and their event as the change of inlet made them. -/
theorem inletsAndHoldup : Obligations.InletsAndHoldup := by
  unfold Obligations.InletsAndHoldup
  refine ⟨fun i p v h w s ha => ?_, fun i s ha hp hg hf => ?_, fun i t s ha ht hg hl hp => ?_, fun i t s ha ht hg hl hp => ?_,
    fun i t s ha ht hg hp => ?_, fun t s ha ht hp hs => ?_, fun t s ha ht hn => ⟨fun hfed => ?_, fun h1 h2 => ?_⟩, fun i s ha hp ho => ?_⟩
  · exact answers_of _ rfl ha (telemetry_effect i p v h w s.mod)
  · obtain ⟨hin, hevt⟩ := psuIsGood_effect hp hg hf
    exact answers_of (psuIsGood i) rfl ha ⟨by rw [hin], by rw [hin], by rw [hin], hevt⟩
  · obtain ⟨hin, hevt⟩ := inletLow_effect ht hg hl hp
    exact answers_of (inletLow i) rfl ha ⟨by rw [hin], by rw [hin]; exact hg, hevt⟩
  · obtain ⟨hin, hevt⟩ := inletHigh_effect ht hg hl hp
    exact answers_of (inletHighLine i) rfl ha ⟨by rw [hin], hevt⟩
  · obtain ⟨⟨hin, hevt⟩, hhold⟩ := inletLoses_effect s.mem ht hg hp
    exact answersBuf_of (inletLoses i) rfl ha ⟨by rw [hin], hevt, hhold⟩
  · obtain ⟨h1, h2, h3, h4, h5, h6, h7⟩ := unpowered_effect (.abortAll (.refl s.mod))
    obtain ⟨hin, hout⟩ := erased_effect s.mem
    exact ⟨_, _, holdupEnds_exec ha ht hp, h1, h2, h3, h4, h5, h6, h7, hin, hout⟩
  · refine answers_of powerRestarts rfl ha ?_
    rw [powerRestarts_due ht hn, if_pos (by simpa using hfed)]
    exact ⟨rfl, rfl, rfl, rfl, rfl⟩
  · refine answers_of powerRestarts rfl ha ?_
    rw [powerRestarts_due ht hn, if_neg (by simp [h1, h2])]
    rfl
  · refine answers_of (mainsApplies i) rfl ha ?_
    have heq : mainsApplies i s.mod = powerUp (setInlet i (fun o => { o with present := true }) s.mod) := by
      unfold mainsApplies
      simp [hp, ho]
    rw [heq]
    cases i
    · exact ⟨rfl, rfl, rfl, rfl, rfl⟩
    · exact ⟨rfl, rfl, rfl, rfl, rfl⟩

end Sys2Proof.Machine
end

section
/-! Proofs about the Ostler engines: commands, waits, ends, machine checks, restarts and the march test (14). -/

namespace Sys2Proof.Machine

-- One theorem at a time: each thread that elaborates another reserves a stack, and their sum has a limit.
set_option Elab.async false

/-! ### An event stays recorded in its cycle -/

/-- The log has taken an event of the code in the cycle, and its sticky bit stands. -/
def TLog.Marks (l : TLog) (c code : Nat) : Prop := l.cyc = c ∧ (∃ e ∈ l.came, e.code = code) ∧ (l.sticky.get code).isSome = true

theorem sticky_enters {es : List TEvt} {l : TLog} {code : Nat} (h : (l.sticky.get code).isSome = true ∨ ∃ e ∈ es, e.code = code) :
    ((es.foldl (fun a e => a.enter e.time e.code e.sev e.addr e.detail) l).sticky.get code).isSome = true := by
  induction es generalizing l with
  | nil => simpa using h
  | cons e t ih =>
    refine ih ?_
    rw [(TLog.enter_marks l e.time e.code e.sev e.addr e.detail).2.1]
    by_cases hc : code = e.code
    · left
      rw [hc, Map.get_set_same]
      rfl
    · rw [Map.get_set_other _ hc]
      rcases h with h | ⟨k, hk, hkc⟩
      · exact .inl h
      · rcases List.mem_cons.mp hk with rfl | hk
        · exact absurd hkc.symm hc
        · exact .inr ⟨k, hk, hkc⟩

/-- What a cycle's events have marked stays marked by the next, and the next is. -/
theorem TLog.Marks.take {l : TLog} {c code : Nat} {e : TEvt} (h : l.Marks c code ∨ e.code = code) : (l.take c e).Marks c code := by
  cases hb : l.busyIn c with
  | false =>
    have hc : e.code = code := h.resolve_left fun ⟨hcyc, ⟨k, hk, _⟩, _⟩ => by
      simp [TLog.busyIn, hcyc, List.ne_nil_of_mem hk] at hb
    obtain ⟨-, hcame, hcyc⟩ := TLog.take_first hb e
    refine ⟨hcyc, ⟨e, by rw [hcame]; exact List.mem_singleton_self e, hc⟩, ?_⟩
    simp only [TLog.take, hb, Bool.false_eq_true, if_false]
    rw [(TLog.enter_marks _ _ _ _ _ _).2.1, ← hc, Map.get_set_same]
    rfl
  | true =>
    have hmem : ∀ p : TEvt → Bool, ∃ k ∈ l.came.takeWhile p ++ e :: l.came.dropWhile p, k.code = code := by
      intro p
      rcases h with ⟨-, ⟨k, hk, hkc⟩, -⟩ | hc
      · refine ⟨k, ?_, hkc⟩
        rw [← List.takeWhile_append_dropWhile (p := p) (l := l.came), List.mem_append] at hk
        simp only [List.mem_append, List.mem_cons]
        exact hk.imp_right .inr
      · exact ⟨e, by simp, hc⟩
    have hcyc : l.cyc = c := by
      simp only [TLog.busyIn, Bool.and_eq_true, beq_iff_eq] at hb
      exact hb.1
    simp only [TLog.take, hb, if_true]
    refine ⟨?_, ?_, sticky_enters (.inr (hmem _))⟩
    · rw [(TLog.replay_sameTurn _).2.2.1]
      exact hcyc
    · rw [(TLog.replay_sameTurn _).2.1]
      exact hmem _

theorem logEvent_logs (l : Level) (code sev addr : Nat) (w : Word) (x : Mod) : (logEvent l code sev addr w x).logs =
    x.logs.set l ((x.logs.get l).take x.cyc { code := code, sev := sev, addr := addr, detail := w, time := x.now }) := by
  unfold logEvent
  dsimp only
  split
  · simp only [signal_keeps]
  · rfl

theorem logEvent_marks {l k : Level} {c v a code : Nat} {w : Word} {x : Mod} (h : (x.logs.get l).Marks x.cyc code ∨ (k = l ∧ c = code)) :
    ((logEvent k c v a w x).logs.get l).Marks x.cyc code := by
  rw [logEvent_logs]
  by_cases hk : l = k
  · subst hk
    rw [Map.get_set_same]
    exact .take (h.imp_right fun h => h.2)
  · rw [Map.get_set_other _ hk]
    exact h.resolve_right fun h => hk h.1.symm

/-- An event that enters its log is marked there, and leaves what is marked in its cycle. -/
theorem raiseQuiet_marks {l k : Level} {e : Evt} {w : Option Word} {a code : Nat} {x : Mod}
    (h : (x.logs.get l).Marks x.cyc code ∨ (k = l ∧ e.blk ≠ 31 ∧ 16 * e.blk + e.bit = code)) :
    ((raiseQuiet k e w a x).logs.get l).Marks x.cyc code := by
  unfold raiseQuiet
  dsimp only
  generalize hz : (if e.blk = 0 then x else _) = z
  have hlogs : z.logs = x.logs ∧ z.cyc = x.cyc := by
    rw [← hz]
    split
    · exact ⟨rfl, rfl⟩
    · exact ⟨rfl, rfl⟩
  rw [← hlogs.1, ← hlogs.2] at h
  rw [← hlogs.2]
  split
  next h31 => exact h.resolve_right fun h => h.2.1 h31
  next => exact logEvent_marks (h.imp_right fun h => ⟨h.1, h.2.2⟩)

theorem marks_robust (l : Level) (code : Nat) : Robust (fun x => (x.logs.get l).Marks x.cyc code) where
  same h k := by
    simp only [robustPart, Prod.mk.injEq] at k
    obtain ⟨hnow, -, hlogs, -⟩ := k
    unfold Mod.cyc at h ⊢
    rw [hnow, hlogs]
    exact h
  quiet {k e w a x} h := by
    have hcyc : (raiseQuiet k e w a x).cyc = x.cyc := by
      unfold Mod.cyc
      simp only [raiseQuiet_keeps]
    rw [hcyc]
    exact raiseQuiet_marks (.inl h)

theorem raise_marks (l : Level) {e : Evt} (x : Mod) (he : e.blk ≠ 31) :
    ((raise l e x).logs.get l).Marks (raise l e x).cyc (16 * e.blk + e.bit) := by
  have hquiet : ((raiseQuiet l e none 0 x).logs.get l).Marks (raiseQuiet l e none 0 x).cyc (16 * e.blk + e.bit) := by
    have hcyc : (raiseQuiet l e none 0 x).cyc = x.cyc := by
      unfold Mod.cyc
      simp only [raiseQuiet_keeps]
    rw [hcyc]
    exact raiseQuiet_marks (.inr ⟨rfl, he, rfl⟩)
  exact of_ite (R := fun y : Mod => (y.logs.get l).Marks y.cyc (16 * e.blk + e.bit)) ((marks_robust _ _).notify hquiet) hquiet

/-- A shed that falls leaves the event it falls for recorded, and what was set before set. -/
theorem shedFalls_effect (s : Nat) {e d : Evt} {x : Mod} (he : e.blk ≠ 31) (h : evtSet (.shed s) d x = true) :
    evtSet (.shed s) d (shedFalls s e x) = true ∧ recorded (.shed s) e (shedFalls s e x) = true := by
  have hmarks : ((shedFalls s e x).logs.get (.shed s)).Marks (shedFalls s e x).cyc (16 * e.blk + e.bit) :=
    (marks_robust _ _).announceFlip ((marks_robust _ _).quiesceShed (raise_marks (.shed s) x he))
  exact ⟨(evtSet_robust _ _).shedFalls h, hmarks.2.2⟩

/-! ### One engine -/

theorem setEng_get (s e : Nat) (f : Engine → Engine) (x : Mod) :
    (setEng s e f x).ost.get s = { x.ost.get s with engines := (x.ost.get s).engines.upd e f } := by
  unfold setEng setOst
  rw [Map.get_upd_same]

@[simp] theorem engine_setEng (s e : Nat) (f : Engine → Engine) (x : Mod) : engine (setEng s e f x) s e = f (engine x s e) := by
  unfold engine
  rw [setEng_get, Map.get_upd_same]

theorem engine_setEng_other {s e k : Nat} (h : k ≠ e) (f : Engine → Engine) (x : Mod) : engine (setEng s e f x) s k = engine x s k := by
  unfold engine
  rw [setEng_get, Map.get_upd_other _ h]

@[simp] theorem engine_tally (c : CtrId) (x : Mod) (s e : Nat) : engine (tally c x) s e = engine x s e := rfl

@[simp] theorem engine_raise (l : Level) (d : Evt) (x : Mod) (s e : Nat) : engine (raise l d x) s e = engine x s e := by
  unfold engine
  simp only [raise_keeps]

/-- An engine's run as it begins. -/
def Engine.started (entry : BitVec 14) (r : OstRun) (fresh : Bool) (g : Engine) : Engine := { g with
  st := if fresh then .issuing else .restarting
  run := some { r with roll := none, held := decide (16 ≤ r.abandons) }
  uaddr := entry
  regs := (List.range 8).foldl (fun m i => m.set i (r.args.getD i 0)) g.regs
  atomic := decide (16 ≤ r.abandons)
  cond := 0
  hold := 0
  met := false }

/-- The stores of a shed that say where a command enters are those of `x`, its engines but `e` are as in `x`, and counters but those of
abandoned and held runs are as in `x`, and no event is cleared. -/
structure OneEngine (s e : Nat) (x y : Mod) : Prop where
  stores : { y.ost.get s with engines := .const {} } = { x.ost.get s with engines := .const {} }
  others : ∀ k, k ≠ e → engine y s k = engine x s k
  halted : (engine y s e).halted = (engine x s e).halted
  results : (engine y s e).results = (engine x s e).results
  ctrs : ∀ c, (∀ i, 1 ≤ i → i ≤ 3 → c ≠ .ost s e i) → y.ctrs.get c = x.ctrs.get c
  evts : ∀ l d, evtSet l d x = true → evtSet l d y = true

namespace OneEngine

variable {s e : Nat} {x y z : Mod}

theorem refl (x : Mod) : OneEngine s e x x := ⟨rfl, fun _ _ => rfl, rfl, rfl, fun _ _ => rfl, fun _ _ h => h⟩

theorem trans (h : OneEngine s e x y) (k : OneEngine s e y z) : OneEngine s e x z :=
  ⟨k.stores.trans h.stores, fun i hi => (k.others i hi).trans (h.others i hi), k.halted.trans h.halted, k.results.trans h.results,
    fun c hc => (k.ctrs c hc).trans (h.ctrs c hc), fun l d hd => k.evts l d (h.evts l d hd)⟩

theorem setEng {f : Engine → Engine} (h : OneEngine s e x y) (hf : ∀ g, (f g).halted = g.halted ∧ (f g).results = g.results) :
    OneEngine s e x (setEng s e f y) :=
  h.trans ⟨by rw [setEng_get], fun _ hk => engine_setEng_other hk f y, by rw [engine_setEng, (hf _).1],
    by rw [engine_setEng, (hf _).2], fun _ _ => rfl, fun _ _ h => h⟩

theorem tally {i : Nat} (h : OneEngine s e x y) (h1 : 1 ≤ i) (h3 : i ≤ 3) : OneEngine s e x (tally (.ost s e i) y) :=
  h.trans ⟨rfl, fun _ _ => rfl, rfl, rfl, fun _ hc => count_other (hc i h1 h3) 1 y, fun _ _ h => h⟩

theorem raise {l : Level} {d : Evt} (h : OneEngine s e x y) : OneEngine s e x (raise l d y) :=
  h.trans ⟨by simp only [raise_keeps], fun _ _ => engine_raise _ _ _ _ _, by rw [engine_raise], by rw [engine_raise],
    fun _ _ => by simp only [raise_keeps], fun _ _ h => raise_evtSet_mono _ _ _ _ _ h⟩

theorem free {n : Nat} (h : OneEngine s e x y) : OneEngine s e x { y with free := n } :=
  h.trans ⟨rfl, fun _ _ => rfl, rfl, rfl, fun _ _ => rfl, fun _ _ h => h⟩

theorem entryAt (h : OneEngine s e x y) (code : Nat) : entryAt (y.ost.get s) code = entryAt (x.ost.get s) code := by
  have hentry := congrArg Ost.entry h.stores
  unfold Machine.entryAt
  rw [show (y.ost.get s).entry = (x.ost.get s).entry from hentry]

end OneEngine

theorem startRun_engine (s e : Nat) (r : OstRun) (fresh : Bool) (x : Mod) :
    engine (startRun s e r fresh x) s e = (engine x s e).started (entryAt (x.ost.get s) r.cmd.code) r fresh := by
  unfold startRun
  dsimp only
  split
  · rw [engine_raise, engine_tally, engine_setEng]
    rfl
  · rw [engine_setEng]
    rfl

theorem OneEngine.startRun {s e : Nat} {x y : Mod} {r : OstRun} {fresh : Bool} (h : OneEngine s e x y) :
    OneEngine s e x (startRun s e r fresh y) := by
  have hset := h.setEng (f := fun g => g.started (Machine.entryAt (y.ost.get s) r.cmd.code) r fresh) fun _ => ⟨rfl, rfl⟩
  unfold Machine.startRun
  dsimp only
  split
  · exact .raise (.tally hset (by decide) (by decide))
  · exact hset

/-- The run of a new command. -/
def firstRun (c : OstCmd) (x : Mod) : OstRun :=
  { cmd := c, args := (List.range 8).map (fun i => BitVec.ofNat 64 (leAt (drawBytes 64 x).1 (8 * i) 8)) }

theorem newRun_eq (s e : Nat) (c : OstCmd) (x : Mod) :
    newRun s e c x = startRun s e (firstRun c x) true (setEng s e (·.take c) { x with free := x.free + 1 }) := rfl

theorem newRun_engine (s e : Nat) (c : OstCmd) (x : Mod) : engine (newRun s e c x) s e =
    ((engine x s e).take c).started (entryAt (x.ost.get s) c.code) (firstRun c x) true := by
  have hone : OneEngine s e x (setEng s e (·.take c) { x with free := x.free + 1 }) := (OneEngine.free (.refl x)).setEng fun _ => ⟨rfl, rfl⟩
  rw [newRun_eq, startRun_engine, engine_setEng, hone.entryAt]
  rfl

theorem OneEngine.newRun {s e : Nat} {x y : Mod} {c : OstCmd} (h : OneEngine s e x y) : OneEngine s e x (newRun s e c y) := by
  rw [newRun_eq]
  exact .startRun (h.free.setEng fun _ => ⟨rfl, rfl⟩)

/-- A run that begins counts only where it is held. -/
theorem startRun_ctrs {s e : Nat} {r : OstRun} {fresh : Bool} {x : Mod} {c : CtrId} (h : c ≠ .ost s e 3) :
    (startRun s e r fresh x).ctrs.get c = x.ctrs.get c := by
  unfold startRun
  dsimp only
  split
  · simp only [raise_keeps]
    exact count_other h 1 _
  · rfl

theorem newRun_ctrs {s e : Nat} {d : OstCmd} {x : Mod} {c : CtrId} (h : c ≠ .ost s e 3) : (newRun s e d x).ctrs.get c = x.ctrs.get c := by
  rw [newRun_eq]
  exact startRun_ctrs h

theorem OneEngine.dispatch {s e : Nat} {x y : Mod} (h : OneEngine s e x y) : OneEngine s e x (dispatch s e y) := by
  unfold Machine.dispatch
  dsimp only
  split
  · exact .startRun (h.setEng fun _ => ⟨rfl, rfl⟩)
  · split
    · exact h.newRun
    · exact h.setEng fun _ => ⟨rfl, rfl⟩

theorem OneEngine.faultRun {s e : Nat} {x y : Mod} (h : OneEngine s e x y) : OneEngine s e x (faultRun s e y) := by
  unfold Machine.faultRun
  split
  · exact h
  · split
    · exact .tally (h.setEng fun _ => ⟨rfl, rfl⟩) (by decide) (by decide)
    · exact .startRun (.tally (h.setEng fun _ => ⟨rfl, rfl⟩) (by decide) (by decide))

theorem OneEngine.resumeEngine {s e : Nat} {x : Mod} : OneEngine s e (Machine.setEng s e (fun g => { g with halted := false }) x) (resumeEngine s e x) :=
  of_ite (R := OneEngine s e (Machine.setEng s e (fun g => { g with halted := false }) x)) (.faultRun (.refl _)) (.dispatch (.refl _))

theorem resumeEngine_runs (s e : Nat) (x : Mod) : (engine (resumeEngine s e x) s e).halted = false := by
  have hone : OneEngine s e (setEng s e (fun g => { g with halted := false }) x) (resumeEngine s e x) := .resumeEngine
  rw [hone.halted, engine_setEng]

theorem resumeEngine_others (s e : Nat) (x : Mod) : (∀ k, k ≠ e → engine (resumeEngine s e x) s k = engine x s k) ∧
    { (resumeEngine s e x).ost.get s with engines := .const {} } = { x.ost.get s with engines := .const {} } := by
  have hone : OneEngine s e (setEng s e (fun g => { g with halted := false }) x) (resumeEngine s e x) := .resumeEngine
  refine ⟨fun k hk => (hone.others k hk).trans (engine_setEng_other hk _ _), hone.stores.trans ?_⟩
  rw [setEng_get]

/-! ### The command taken next -/

theorem nextCmd_mem {l : List OstCmd} {c : OstCmd} (h : nextCmd l = some c) : c ∈ l := by
  have hfold : ∀ (l : List OstCmd) (a : Option OstCmd) (c : OstCmd), l.foldl (fun a c =>
      match a with
      | none => some c
      | some b => if c.kind < b.kind then some c else some b) a = some c → a = some c ∨ c ∈ l := by
    intro l
    induction l with
    | nil => exact fun a c h => .inl h
    | cons d t ih =>
      intro a c h
      rcases ih _ _ h with h | h
      · cases a with
        | none => exact .inr (by cases h; exact List.mem_cons_self)
        | some b =>
          dsimp only at h
          split at h
          · exact .inr (by cases h; exact List.mem_cons_self)
          · exact .inl h
      · exact .inr (List.mem_cons_of_mem _ h)
  exact (hfold l none c h).resolve_left (by simp)

theorem interruptWaits_none {e : Nat} {g : Engine} {r : OstRun} (hr : g.run = some r)
    (h : (e ≠ 0 ∧ e ≠ 3) ∨ ∀ c ∈ g.queue, r.cmd.kind ≤ c.kind) : interruptWaits e g = false := by
  unfold interruptWaits
  rcases h with ⟨h0, h3⟩ | h
  · simp [h0, h3]
  · rw [hr]
    split
    next r' c hr' hc =>
      obtain rfl : r = r' := Option.some.inj hr'
      have hle := h c (nextCmd_mem hc)
      simp [Nat.not_lt.mpr hle]
    next => simp

/-! ### Commands -/

section
variable {s e : Nat} {c : OstCmd} {x : Mod}

theorem acceptCmd_outside (hk : c.kind < engineKinds e) (hq : 255 ≤ (engine x s e).queue.length) :
    acceptCmd s e c x = setEng s e (fun g => { g with outside := g.outside ++ [c] }) x := by
  unfold acceptCmd
  exact (if_neg (Nat.not_le.mpr hk)).trans (if_pos hq)

/-- The command with the others that wait. -/
def queuedCmd (s e : Nat) (c : OstCmd) (x : Mod) : Mod := setEng s e (fun g => { g with queue := g.queue ++ [c] }) x

theorem engine_queuedCmd : engine (queuedCmd s e c x) s e = { engine x s e with queue := (engine x s e).queue ++ [c] } := engine_setEng ..

theorem acceptCmd_room (hk : c.kind < engineKinds e) (hq : (engine x s e).queue.length < 255) :
    acceptCmd s e c x = if (engine x s e).halted || !(x.ost.get s).loaded then queuedCmd s e c x
      else if (engine x s e).run.isNone then dispatch s e (queuedCmd s e c x)
      else if (engine x s e).open_ && interruptWaits e (engine (queuedCmd s e c x) s e) then interruptRun s e (queuedCmd s e c x)
      else queuedCmd s e c x := by
  unfold acceptCmd
  refine ((if_neg (Nat.not_le.mpr hk)).trans (if_neg (Nat.not_le.mpr hq))).trans ?_
  dsimp only
  rw [show setEng s e (fun g => { g with queue := g.queue ++ [c] }) x = queuedCmd s e c x from rfl, engine_queuedCmd]

theorem acceptCmd_waits (hk : c.kind < engineKinds e) (hq : (engine x s e).queue.length < 255)
    (h : (engine x s e).halted = true ∨ (x.ost.get s).loaded = false ∨ ∃ r, (engine x s e).run = some r ∧
      ((engine x s e).open_ = false ∨ (e ≠ 0 ∧ e ≠ 3) ∨ ∀ d ∈ (engine x s e).queue ++ [c], r.cmd.kind ≤ d.kind)) :
    acceptCmd s e c x = queuedCmd s e c x := by
  rw [acceptCmd_room hk hq]
  split
  · rfl
  next hn =>
    simp only [Bool.or_eq_true, Bool.not_eq_true', not_or, Bool.not_eq_true, Bool.not_eq_false] at hn
    rcases h with h | h | ⟨r, hr, h⟩
    · exact absurd h (by simp [hn.1])
    · exact absurd h (by simp [hn.2])
    · rw [if_neg (by simp [hr]), if_neg]
      rcases h with h | h
      · simp [h]
      · rw [interruptWaits_none (r := r) (by rw [engine_queuedCmd]; exact hr) (by rw [engine_queuedCmd]; exact h)]
        simp

/-- An engine with nothing else waiting takes the command it is given. -/
theorem taken_queuedCmd (hq : (engine x s e).queue = []) (ho : (engine x s e).outside = []) :
    ((engine (queuedCmd s e c x) s e).take c).queue = [] := by
  rw [engine_queuedCmd, hq]
  simp [Engine.take, dropCmd, ho]

theorem nextCmd_queuedCmd (hq : (engine x s e).queue = []) : nextCmd (engine (queuedCmd s e c x) s e).queue = some c := by
  rw [engine_queuedCmd, hq]
  rfl

theorem queuedCmd_entry (code : Nat) : entryAt ((queuedCmd s e c x).ost.get s) code = entryAt (x.ost.get s) code := by
  rw [queuedCmd, setEng_get]
  rfl

theorem acceptCmd_begins (hk : c.kind < engineKinds e) (hh : (engine x s e).halted = false) (hl : (x.ost.get s).loaded = true)
    (hr : (engine x s e).run = none) (hq : (engine x s e).queue = []) (ho : (engine x s e).outside = [])
    (hs : (engine x s e).suspended = []) :
    (engine (acceptCmd s e c x) s e).run.map (·.cmd) = some c ∧ (engine (acceptCmd s e c x) s e).queue = [] ∧
      (engine (acceptCmd s e c x) s e).uaddr = entryAt (x.ost.get s) c.code := by
  have heq : acceptCmd s e c x = newRun s e c (queuedCmd s e c x) := by
    rw [acceptCmd_room hk (by simp [hq]), if_neg (by simp [hh, hl]), if_pos (by simp [hr])]
    unfold dispatch
    dsimp only
    rw [show (engine (queuedCmd s e c x) s e).suspended = [] by rw [engine_queuedCmd]; exact hs, nextCmd_queuedCmd hq]
  rw [heq, newRun_engine, queuedCmd_entry]
  exact ⟨rfl, taken_queuedCmd hq ho, rfl⟩

theorem acceptCmd_interrupts {r : OstRun} (hk : c.kind < engineKinds e) (hh : (engine x s e).halted = false)
    (hl : (x.ost.get s).loaded = true) (hr : (engine x s e).run = some r) (hopen : (engine x s e).open_ = true) (he : e = 0 ∨ e = 3)
    (hlow : c.kind < r.cmd.kind) (hq : (engine x s e).queue = []) (ho : (engine x s e).outside = []) :
    (engine (acceptCmd s e c x) s e).run.map (·.cmd) = some c ∧ (engine (acceptCmd s e c x) s e).queue = [] ∧
      (engine (acceptCmd s e c x) s e).suspended = { r with abandons := r.abandons + 1, args := (engine x s e).args } :: (engine x s e).suspended ∧
      counted x (.ost s e 1) 1 (acceptCmd s e c x) := by
  have hnext := nextCmd_queuedCmd (c := c) hq
  have hrun : (engine (queuedCmd s e c x) s e).run = some r := by rw [engine_queuedCmd]; exact hr
  have hwaits : interruptWaits e (engine (queuedCmd s e c x) s e) = true := by
    unfold interruptWaits
    rw [hrun, hnext]
    simp [he, hlow]
  have heq : acceptCmd s e c x = newRun s e c (tally (.ost s e 1) (setEng s e (fun g =>
      { g.scrub with suspended := { r with abandons := r.abandons + 1, args := g.args } :: g.suspended })
      (queuedCmd s e c x))) := by
    rw [acceptCmd_room hk (by simp [hq]), if_neg (by simp [hh, hl]), if_neg (by simp [hr]), if_pos (by simp [hopen, hwaits])]
    unfold interruptRun
    simp only [hrun, hnext]
  rw [heq, newRun_engine, engine_tally, engine_setEng]
  refine ⟨rfl, taken_queuedCmd hq ho, ?_, ?_⟩
  · rw [engine_queuedCmd]
    rfl
  · exact (newRun_ctrs (by simp)).trans (tally_same _ _)

end

/-! ### The end of a routine -/

/-- The engine once its routine has ended, before it takes the next command. -/
def endedRun (s e : Nat) (failed : Bool) (r : OstRun) (x : Mod) : Mod :=
  setEng s e (fun g => { g with results := (r.cmd.tag, failed) :: g.results, run := none, atomic := false }) x

theorem endRun_eq {s e : Nat} {r : OstRun} {x : Mod} (hr : (engine x s e).run = some r) (failed : Bool) :
    endRun s e failed x = dispatch s e (if failed then endedRun s e failed r x else tally (.ost s e 0) (endedRun s e failed r x)) := by
  unfold endRun
  rw [hr]
  rfl

theorem endRun_effect {s e : Nat} {failed : Bool} {r : OstRun} {x : Mod} (hr : (engine x s e).run = some r) :
    (engine (endRun s e failed x) s e).results = (r.cmd.tag, failed) :: (engine x s e).results ∧
      ∀ l d, evtSet l d x = true → evtSet l d (endRun s e failed x) = true := by
  have hended : (engine (endedRun s e failed r x) s e).results = (r.cmd.tag, failed) :: (engine x s e).results := by
    rw [endedRun, engine_setEng]
  have hone : ∀ y, OneEngine s e y (dispatch s e y) := fun y => .dispatch (.refl y)
  rw [endRun_eq hr]
  refine ⟨(hone _).results.trans ?_, fun l d h => (hone _).evts l d ?_⟩
  · cases failed
    · exact hended
    · exact hended
  · cases failed
    · exact h
    · exact h

theorem dispatch_ctrs {s e : Nat} {x : Mod} {c : CtrId} (h : c ≠ .ost s e 3) : (dispatch s e x).ctrs.get c = x.ctrs.get c := by
  unfold dispatch
  dsimp only
  split
  · exact startRun_ctrs h
  · split
    · exact newRun_ctrs h
    · rfl

theorem endRun_counts {s e : Nat} {r : OstRun} {x : Mod} (hr : (engine x s e).run = some r) :
    counted x (.ost s e 0) 1 (endRun s e false x) := by
  rw [endRun_eq hr]
  exact (dispatch_ctrs (by simp)).trans (tally_same _ _)

theorem endRun_failed_ctrs {s e : Nat} {r : OstRun} {x : Mod} {c : CtrId} (hr : (engine x s e).run = some r) (h : c ≠ .ost s e 3) :
    (endRun s e true x).ctrs.get c = x.ctrs.get c := by
  rw [endRun_eq hr]
  exact dispatch_ctrs h

/-! ### Waits -/

theorem faultRun_ctrs {s e : Nat} {x : Mod} {c : CtrId} (h : ∀ i, 1 ≤ i → i ≤ 3 → c ≠ .ost s e i) :
    (faultRun s e x).ctrs.get c = x.ctrs.get c := (OneEngine.faultRun (.refl x)).ctrs c h

theorem faultRun_run {s e : Nat} {x : Mod} {r : OstRun} (h : (engine x s e).run = some r) :
    ∃ q, (engine (faultRun s e x) s e).run = some q ∧ q.cmd = r.cmd ∧ q.timeouts = r.timeouts := by
  unfold faultRun
  rw [h]
  dsimp only
  split
  · rw [engine_tally, engine_setEng]
    exact ⟨r, h, rfl, rfl⟩
  · rw [startRun_engine]
    exact ⟨_, rfl, rfl, rfl⟩

/-- What a wait that has lasted too long counts and raises, before the routine ends or restarts. -/
def waitTimedOut (s e : Nat) (r : OstRun) (x : Mod) : Mod :=
  raise (.shed s) evWaitTimeout (tally (.ost s e 4) (setEng s e (fun g => { g with run := some { r with timeouts := r.timeouts + 1 } }) x))

theorem waitTimedOut_effect (s e : Nat) (r : OstRun) (x : Mod) : evtSet (.shed s) evWaitTimeout (waitTimedOut s e r x) = true ∧
    counted x (.ost s e 4) 1 (waitTimedOut s e r x) ∧
    engine (waitTimedOut s e r x) s e = { engine x s e with run := some { r with timeouts := r.timeouts + 1 } } := by
  unfold waitTimedOut
  refine ⟨raise_evtSet _ _ _ (by decide), ?_, ?_⟩
  · rw [raise_raised]
    exact tally_same _ _
  · rw [engine_raise, engine_tally, engine_setEng]

theorem waitExpires_eq {s e : Nat} {r : OstRun} {x : Mod} (hr : (engine x s e).run = some r) :
    waitExpires s e x = if 4 ≤ r.timeouts + 1 then
        endRun s e true (if r.roll.isNone then tally (.ost s e 1) (setEng s e Engine.scrub (waitTimedOut s e r x)) else waitTimedOut s e r x)
      else faultRun s e (waitTimedOut s e r x) := by
  unfold waitExpires
  rw [hr]
  rfl

theorem waitExpires_effect {s e : Nat} {r : OstRun} {x : Mod} (hr : (engine x s e).run = some r) :
    evtSet (.shed s) evWaitTimeout (waitExpires s e x) = true ∧ counted x (.ost s e 4) 1 (waitExpires s e x) ∧
      (3 ≤ r.timeouts → (r.cmd.tag, true) ∈ (engine (waitExpires s e x) s e).results) ∧
      (r.timeouts < 3 → ∃ q, (engine (waitExpires s e x) s e).run = some q ∧ q.cmd = r.cmd ∧ q.timeouts = r.timeouts + 1) := by
  obtain ⟨hevt, hcount, hengine⟩ := waitTimedOut_effect s e r x
  rw [waitExpires_eq hr]
  generalize waitTimedOut s e r x = y at hevt hcount hengine ⊢
  have hrun : (engine y s e).run = some { r with timeouts := r.timeouts + 1 } := by rw [hengine]
  split
  next h4 =>
    have hend : ∀ z, (engine z s e).run = some { r with timeouts := r.timeouts + 1 } → evtSet (.shed s) evWaitTimeout z = true →
        counted x (.ost s e 4) 1 z → evtSet (.shed s) evWaitTimeout (endRun s e true z) = true ∧
          counted x (.ost s e 4) 1 (endRun s e true z) ∧ (r.cmd.tag, true) ∈ (engine (endRun s e true z) s e).results := by
      intro z hz hevt hcount
      obtain ⟨hres, hevts⟩ := endRun_effect (failed := true) hz
      exact ⟨hevts _ _ hevt, (endRun_failed_ctrs hz (by simp)).trans hcount, by rw [hres]; exact List.mem_cons_self⟩
    obtain ⟨h1, h2, h3⟩ := hend (if r.roll.isNone then tally (.ost s e 1) (setEng s e Engine.scrub y) else y) (by
      split
      · rw [engine_tally, engine_setEng]
        exact hrun
      · exact hrun) (by
      split
      · exact hevt
      · exact hevt) (by
      split
      · exact (count_other (by simp) 1 _).trans hcount
      · exact hcount)
    exact ⟨h1, h2, fun _ => h3, fun h => absurd h (by omega)⟩
  next h4 =>
    have hone : OneEngine s e y (faultRun s e y) := .faultRun (.refl y)
    exact ⟨hone.evts _ _ hevt, (hone.ctrs _ fun i _ h3 => by simp; omega).trans hcount, fun h => absurd h (by omega), fun _ => faultRun_run hrun⟩

/-! ### Machine checks -/

/-- What a machine check makes of its Ostler group. -/
def checkedOst (e kind now : Nat) (o : Ost) : Ost :=
  let g := o.engines.get e
  let n := naddrOf (microAt o g.uaddr)
  { o with
    mlog := { engine := e, kind := kind, rewritten := false, count := o.mlog.count + 1, uaddr := g.uaddr
              naddr := BitVec.ofNat 11 n
              entry := match g.run with
                | some r => entryAt o r.cmd.code
                | none => 0 }
    bad := if kind = 0 then (false, g.uaddr.toNat) :: o.bad else if kind = 1 then (true, n) :: o.bad else o.bad
    mchecks := (now :: o.mchecks).filter (fun t => now < t + sec 1)
    engines := o.engines.upd e (fun g => { g with halted := true }) }

theorem machineCheck_eq (s e kind : Nat) (x : Mod) :
    machineCheck s e kind x = raise (.shed s) evMcheck (tally (.ost s e 5) (setOst s (fun _ => checkedOst e kind x.now (x.ost.get s)) x)) := rfl

theorem machineCheck_get (s e kind : Nat) (x : Mod) : (machineCheck s e kind x).ost.get s = checkedOst e kind x.now (x.ost.get s) := by
  rw [machineCheck_eq, raise_raised]
  exact Map.get_upd_same _ _ _

theorem machineCheck_effect (s e kind : Nat) (x : Mod) : evtSet (.shed s) evMcheck (machineCheck s e kind x) = true ∧
    counted x (.ost s e 5) 1 (machineCheck s e kind x) ∧ (machineCheck s e kind x).trb = x.trb ∧ (machineCheck s e kind x).now = x.now := by
  refine ⟨raise_evtSet _ _ _ (by decide), ?_, ?_, ?_⟩
  · rw [machineCheck_eq, raise_raised]
    exact tally_same _ _
  · rw [machineCheck_eq, raise_raised]
    rfl
  · rw [machineCheck_eq, raise_raised]
    rfl

/-- A check is the third within 1 s where two stood before it. -/
theorem mcheckRepeats_check (s e kind : Nat) (x : Mod) : mcheckRepeats (machineCheck s e kind x) s = true ↔
    2 ≤ ((x.ost.get s).mchecks.filter (fun t => x.now < t + sec 1)).length := by
  have hchecks : ((machineCheck s e kind x).ost.get s).mchecks = (x.now :: (x.ost.get s).mchecks).filter (fun t => x.now < t + sec 1) :=
    congrArg Ost.mchecks (machineCheck_get s e kind x)
  unfold mcheckRepeats
  rw [decide_eq_true_iff, hchecks, (machineCheck_effect s e kind x).2.2.2, List.filter_filter]
  simp only [Bool.and_self]
  rw [List.filter_cons_of_pos (by simp [sec])]
  simp

theorem checkEngine_eq {s e : Nat} {x : Mod} (hh : (engine x s e).halted = false) (hr : (engine x s e).run.isSome = true) (kind : Nat) :
    checkEngine s e kind x = if mcheckRepeats (machineCheck s e kind x) s then shedFalls s evMcheckRepeat (machineCheck s e kind x)
      else machineCheck s e kind x := by
  unfold checkEngine
  exact if_neg (by rw [hh, Option.isNone_eq_false_iff.mpr hr]; decide)

/-! ### Restarts and the march test -/

theorem restartEngine_effect {s e : Nat} {x : Mod} (hh : (engine x s e).halted = true) (hb : (x.ost.get s).bistFrom = none) :
    (engine (restartEngine s e x) s e).halted = false := by
  unfold restartEngine
  rw [if_neg (by simp [hh, hb])]
  exact resumeEngine_runs s e x

/-- Resuming engines leaves the stores of their shed, and none of them halted. -/
theorem resumeAll_effect (s : Nat) (l : List Nat) (x : Mod) :
    { (l.foldl (fun a e => resumeEngine s e a) x).ost.get s with engines := .const {} } = { x.ost.get s with engines := .const {} } ∧
      ∀ e, e ∈ l ∨ (engine x s e).halted = false → (engine (l.foldl (fun a e => resumeEngine s e a) x) s e).halted = false := by
  induction l generalizing x with
  | nil => exact ⟨rfl, fun e h => h.resolve_left (by simp)⟩
  | cons d t ih =>
    obtain ⟨hothers, hstores⟩ := resumeEngine_others s d x
    obtain ⟨ihs, ihh⟩ := ih (resumeEngine s d x)
    refine ⟨ihs.trans hstores, fun e he => ihh e ?_⟩
    by_cases hd : e = d
    · subst hd
      exact .inr (resumeEngine_runs s e x)
    · rw [hothers e hd]
      exact he.imp_left fun h => (List.mem_cons.mp h).resolve_left hd

theorem loadStores_effect (s : Nat) (x : Mod) : ((loadStores s x).ost.get s).loaded = true ∧
    ((loadStores s x).ost.get s).bistFrom = (x.ost.get s).bistFrom ∧ ((loadStores s x).ost.get s).bistRes = (x.ost.get s).bistRes ∧
    ∀ e < 4, (engine (loadStores s x) s e).halted = false := by
  unfold loadStores
  dsimp only
  generalize hz : setOst s _ x = z
  have hget : (z.ost.get s).loaded = true ∧ (z.ost.get s).bistFrom = (x.ost.get s).bistFrom ∧
      (z.ost.get s).bistRes = (x.ost.get s).bistRes := by
    rw [← hz, setOst, Map.get_upd_same]
    exact ⟨rfl, rfl, rfl⟩
  obtain ⟨hstores, hrun⟩ := resumeAll_effect s (List.range 4) z
  obtain ⟨hloaded, hfrom, hres⟩ := hget
  generalize (List.range 4).foldl (fun a e => resumeEngine s e a) z = y at hstores hrun ⊢
  exact ⟨(congrArg Ost.loaded hstores :).trans hloaded, (congrArg Ost.bistFrom hstores :).trans hfrom,
    (congrArg Ost.bistRes hstores :).trans hres, fun e he => hrun e (.inl (List.mem_range.mpr he))⟩

theorem endBist_effect {s t : Nat} {x : Mod} (pass : Bool) (h : (x.ost.get s).bistFrom = some t) :
    ((endBist s pass x).ost.get s).bistFrom = none ∧ ((endBist s pass x).ost.get s).bistRes = (if pass then 1 else 2) ∧
      ((endBist s pass x).ost.get s).loaded = true ∧ ∀ e < 4, (engine (endBist s pass x) s e).halted = false := by
  unfold endBist
  rw [h]
  dsimp only
  generalize hz : setOst s (fun o => { o with bistFrom := none, bistRes := if pass then 1 else 2 }) x = z
  have hget : (z.ost.get s).bistFrom = none ∧ (z.ost.get s).bistRes = if pass then 1 else 2 := by
    rw [← hz, setOst, Map.get_upd_same]
    exact ⟨rfl, rfl⟩
  obtain ⟨hloaded, hfrom, hres, hrun⟩ := loadStores_effect s z
  exact ⟨hfrom.trans hget.1, hres.trans hget.2, hloaded, hrun⟩

/-- The march test halts the engines of its shed. -/
theorem startBist_begins {s : Nat} {v : Word} {x : Mod} (hm : x.mode.mode = .diagnostic) (hv : v.getLsbD 0 = true)
    (hb : (x.ost.get s).bistFrom = none) : ((startBist s v x).ost.get s).bistFrom = some x.now ∧
      (∀ e < 4, (engine (startBist s v x) s e).halted = true) ∧ startBist s v x = { x with ost := (startBist s v x).ost } := by
  have heq : startBist s v x = setOst s (fun o => { o with
      bistFrom := some x.now
      engines := (List.range 4).foldl (fun m e => m.upd e (fun g => { g with halted := true })) o.engines }) x := by
    unfold startBist
    rw [if_neg (by simp [hm]), if_neg (by simp [hv, hb])]
  have hhalt : ∀ (l : List Nat) (m : Map Nat Engine) e, e ∈ l ∨ (m.get e).halted = true →
      ((l.foldl (fun m e => m.upd e (fun g => { g with halted := true })) m).get e).halted = true := by
    intro l
    induction l with
    | nil => exact fun m e h => h.resolve_left (by simp)
    | cons d t ih =>
      intro m e he
      refine ih _ e ?_
      by_cases hd : e = d
      · subst hd
        rw [Map.get_upd_same]
        exact .inr rfl
      · rw [Map.get_upd_other _ hd]
        exact he.imp_left fun h => (List.mem_cons.mp h).resolve_left hd
  rw [heq]
  refine ⟨?_, fun e he => ?_, rfl⟩
  · rw [setOst, Map.get_upd_same]
  · unfold engine
    rw [setOst, Map.get_upd_same]
    exact hhalt (List.range 4) _ e (.inl (List.mem_range.mpr he))

theorem startBist_drops {s : Nat} {v : Word} {x : Mod} (hm : x.mode.mode ≠ .diagnostic) :
    startBist s v x = logAccess 5 0xF 0 (ostDiagOff s) x := by
  unfold startBist
  exact if_pos (by simpa using hm)

/-- Settles O48: a run, a fault and a dispatch change one engine alone; an event stays recorded in its cycle while its shed falls. -/
theorem enginesRunRoutines : Obligations.EnginesRunRoutines := by
  unfold Obligations.EnginesRunRoutines
  refine ⟨fun sh e k code tag s ha hq hk => ?_, fun sh e k code tag s ha hq hk => ?_, fun sh e s ha hw => ?_,
    fun sh e r s ha hd hm hr => ?_, fun sh e r s ha hh hr => ?_, fun sh e k s ha hh hr => ?_, fun sh s ha hb => ?_,
    fun sh e s ha hh hb => ?_, fun sh v s ha hreach => ⟨fun hm => ?_, fun hm hv hb => ?_⟩, fun sh pass t s ha hb => ?_⟩
  · exact answers_of _ rfl ha (acceptCmd_outside (c := { kind := k, code := code, tag := tag }) hk hq)
  · dsimp only
    refine ⟨fun h => ?_, fun hh hl hr hq ho hs => ?_, fun r hh hl hr hopen he hlow hq ho => ?_⟩
    · exact answers_of _ rfl ha (acceptCmd_waits (c := { kind := k, code := code, tag := tag }) hk hq h)
    · exact answers_of _ rfl ha (acceptCmd_begins (c := { kind := k, code := code, tag := tag }) hk hh hl hr hq ho hs)
    · exact answers_of _ rfl ha (acceptCmd_interrupts (c := { kind := k, code := code, tag := tag }) hk hh hl hr hopen he hlow hq ho)
  · exact answers_of (condMet sh e) rfl ha (if_pos hw)
  · refine answers_of (fun x => if waitDue x sh e && !metComes sh e s.pending then waitExpires sh e x else x) rfl ha ?_
    rw [if_pos (by simp [hd, metComes, hm])]
    exact waitExpires_effect hr
  · refine answers_of (fun x => if (engine x sh e).halted then x else endRun sh e false x) rfl ha ?_
    rw [if_neg (by simp [hh])]
    exact ⟨(endRun_effect hr).1, endRun_counts hr⟩
  · dsimp only
    obtain ⟨hevt, hcount, htrb, -⟩ := machineCheck_effect sh e k s.mod
    refine ⟨fun h => ?_, fun h => ?_⟩
    · refine answers_of (checkEngine sh e k) rfl ha ?_
      rw [checkEngine_eq hh hr, if_pos ((mcheckRepeats_check sh e k s.mod).mpr h)]
      exact shedFalls_effect sh (by decide) hevt
    · refine answers_of (checkEngine sh e k) rfl ha ?_
      rw [checkEngine_eq hh hr, if_neg fun hn => h ((mcheckRepeats_check sh e k s.mod).mp hn)]
      unfold engine
      rw [machineCheck_get]
      exact ⟨by simp [checkedOst], hevt, rfl, rfl, rfl, hcount, htrb⟩
  · refine answers_of (rewriteWord sh) rfl ha (if_neg hb)
  · exact answers_of (restartEngine sh e) rfl ha (restartEngine_effect hh hb)
  · refine answers_of (reach (ostDiagOff sh) 1 (startBist sh v)) rfl ha ?_
    rw [reach_reachable _ _ _ _ hreach, startBist_drops hm]
    exact ⟨by rw [logAccess_frame]; rfl, logAccess_kind .., logAccess_evtSet ..⟩
  · refine answers_of (reach (ostDiagOff sh) 1 (startBist sh v)) rfl ha ?_
    rw [reach_reachable _ _ _ _ hreach]
    exact startBist_begins hm hv hb
  · exact answers_of (endBist sh pass) rfl ha (endBist_effect pass hb)

end Sys2Proof.Machine
end

section
/-! Proofs about one step and the passing of time (log 1): what a cycle of the module does keeps every property of time, events and inlets
alone. -/

namespace Sys2Proof.Machine

-- One theorem at a time: each thread that elaborates another reserves a stack, and their sum has a limit.
set_option Elab.async false

namespace Robust

variable {R : Mod → Prop} {x : Mod}

section
variable (hR : Robust R)
include hR

theorem tally {c : CtrId} (h : R x) : R (tally c x) := hR.as h

/-! ### Errors of words and units (17 R516 to R518) -/

theorem eccMeet {e : EccErr} (h : R x) : R (eccMeet e x) := of_ite (hR.raiseWith (hR.as h)) (of_ite h (hR.raiseWith (hR.as h)))

theorem eccRead {w : EccWord → Bool} (h : R x) : R (eccRead w x).2 := of_foldl (fun _ _ ha => hR.eccMeet ha) h

theorem eccRepair {w : EccWord → Bool} {f : Mod → Mod} (hf : ∀ y, R y → R (f y)) (h : R x) : R (eccRepair w f x) :=
  of_ite (hR.as (hf _ (hR.eccRead h))) (hR.eccRead h)

theorem residueFault {k i j : Nat} {o : ResObj} (h : R x) : R (residueFault k i j o x) :=
  of_ite (hR.raise (hR.as h)) (of_ite (hR.raise (hR.as h)) (hR.as h))

theorem checkObj {k i j : Nat} {o : ResObj} {f : Mod → Mod} (hf : ∀ y, R y → R (f y)) (h : R x) : R (checkObj k i j o f x) := by
  have hfault : R (if x.que.resBad.contains o then Machine.residueFault k i j o (f x) else x) := of_ite (hR.residueFault (hf x h)) h
  exact hR.eccRepair hf hfault

theorem residue {u : ResUnit} {p : Nat} (h : R x) : R (residue u p x).2 := by
  unfold Machine.residue
  split
  · exact h
  · exact hR.raiseWith (hR.as h)

/-! ### Engines -/

theorem setEng {s e : Nat} {f : Engine → Engine} (h : R x) : R (setEng s e f x) := hR.as h

theorem startRun {s e : Nat} {r : OstRun} {fresh : Bool} (h : R x) : R (startRun s e r fresh x) :=
  of_ite (hR.raise (hR.tally (hR.setEng h))) (hR.setEng h)

theorem newRun {s e : Nat} {c : OstCmd} (h : R x) : R (newRun s e c x) := by
  rw [newRun_eq]
  exact hR.startRun (hR.setEng (hR.as h))

theorem dispatch {s e : Nat} (h : R x) : R (dispatch s e x) := by
  unfold Machine.dispatch
  dsimp only
  split
  · exact hR.startRun (hR.setEng h)
  · split
    · exact hR.newRun h
    · exact hR.setEng h

theorem interruptRun {s e : Nat} (h : R x) : R (interruptRun s e x) := by
  unfold Machine.interruptRun
  dsimp only
  split
  · exact hR.newRun (hR.tally (hR.setEng h))
  · exact h

theorem faultRun {s e : Nat} (h : R x) : R (faultRun s e x) := by
  unfold Machine.faultRun
  split
  · exact h
  · split
    · exact hR.tally (hR.setEng h)
    · exact hR.startRun (hR.tally (hR.setEng h))

theorem endRun {s e : Nat} {failed : Bool} (h : R x) : R (endRun s e failed x) := by
  unfold Machine.endRun
  split
  · exact h
  · exact hR.dispatch (of_ite (hR.setEng h) (hR.tally (hR.setEng h)))

theorem machineCheck {s e k : Nat} (h : R x) : R (machineCheck s e k x) := by
  rw [machineCheck_eq]
  exact hR.raise (hR.tally (hR.as h))

theorem operate {s e : Nat} {w : BitVec 24} (h : R x) : R (operate s e w x) := by
  unfold Machine.operate
  dsimp only
  split
  · exact hR.setEng h
  · split
    · exact hR.machineCheck h
    · have hres := hR.residue (u := .alu s e) (p := 0) h
      have hcheck : ∀ c : Prop, [Decidable c] → R (if c then (false, x) else Machine.residue (.alu s e) 0 x).2 := fun c _ => by
        split
        · exact h
        · exact hres
      exact of_ite (hR.faultRun (hcheck _)) (hR.setEng (hcheck _))

theorem branch {s e : Nat} {w : BitVec 24} {t : Bool} (h : R x) : R (branch s e w t x) := by
  have hjump : ∀ f, R (Machine.setEng s e f x) := fun _ => hR.setEng h
  have hcheck : ∀ k, R (Machine.machineCheck s e k x) := fun _ => hR.machineCheck h
  unfold Machine.branch
  dsimp only
  refine of_ite (hjump _) (of_ite (of_ite (hcheck _) (hjump _)) (of_ite ?_ (hjump _)))
  split
  · exact hcheck _
  · exact hjump _

theorem control {s e : Nat} {w : BitVec 24} (h : R x) : R (control s e w x) := by
  have hset : ∀ f, R (Machine.setEng s e f x) := fun _ => hR.setEng h
  have hcheck : ∀ k, R (Machine.machineCheck s e k x) := fun _ => hR.machineCheck h
  unfold Machine.control
  dsimp only
  exact of_ite (of_ite (hcheck _) (hset _)) (of_ite (hcheck _) (of_ite (hset _) (of_ite (hset _) (of_ite (hR.endRun h) (hR.dispatch h)))))

theorem issueWord {s e : Nat} (h : R x) : R (issueWord s e x) := by
  have hset : ∀ f, R (Machine.setEng s e f x) := fun _ => hR.setEng h
  have hcheck : ∀ k, R (Machine.machineCheck s e k x) := fun _ => hR.machineCheck h
  have hbranch : ∀ w t, R (Machine.branch s e w t x) := fun _ _ => hR.branch h
  unfold Machine.issueWord
  dsimp only
  refine of_ite (hcheck _) (of_ite (of_ite (hcheck _) (of_ite (hcheck _) (of_ite (hset _) (hR.operate h)))) (of_ite ?_ (of_ite
    (of_ite (hcheck _) (hR.control h)) (hcheck _))))
  exact of_ite (hcheck _) (of_ite (hbranch _ _) (of_ite (hbranch _ _) (of_ite (hbranch _ _) (of_ite (hbranch _ _) (hR.branch (hR.as h))))))

theorem engineCycle {s e : Nat} (h : R x) : R (engineCycle s e x) :=
  of_ite h (of_ite (hR.interruptRun h) (of_ite (hR.setEng h) (of_ite (hR.issueWord (hR.setEng h)) h)))

/-! ### Cycles -/

theorem xbarCycle {s : Nat} (h : R x) : R (xbarCycle s x) := of_ite h (hR.as h)

theorem setPc {s n : Nat} {f : PerfCtr → PerfCtr} (h : R x) : R (setPc s n f x) := hR.as h

theorem pcAdd {s n k : Nat} (h : R x) : R (pcAdd s n k x) := of_ite (hR.raise (hR.setPc h)) (hR.setPc h)

theorem pcCycle {s n : Nat} (h : R x) : R (pcCycle s x n) := of_ite (hR.pcAdd (hR.setPc h)) (hR.setPc h)

theorem checksRepeat {s : Nat} {y : Mod} (h : R x) : R (checksRepeat s y x) := of_ite (hR.shedFalls h) h

theorem takeStep {w : Nat} (h : R x) : R (takeStep w x) := hR.as h

theorem beginWake {d : Nat} (h : R x) : R (beginWake d x) := hR.as h

theorem beginStop {b : StopBy} {d : Nat} (h : R x) : R (beginStop b d x) := hR.as h

theorem serveWaits (h : R x) : R (serveWaits x) := by
  refine of_foldl (fun a w ha => ?_) h
  have hrest : ∀ f : Pwr → Pwr, (∀ p, (f p).a = p.a ∧ (f p).b = p.b) → R (Machine.setPwr f a) := fun f hf => hR.setPwr ha hf
  refine of_ite (hrest _ fun _ => ⟨rfl, rfl⟩) (of_ite ha (of_ite (hR.beginWake (hrest _ fun _ => ⟨rfl, rfl⟩)) ?_))
  split
  · exact hR.beginStop (hrest _ fun _ => ⟨rfl, rfl⟩)
  · exact hrest _ fun _ => ⟨rfl, rfl⟩

theorem beginDrawbarTraining {k : Nat} (h : R x) : R (beginDrawbarTraining k x) := of_foldl (fun _ _ ha => hR.as ha) (hR.as h)

theorem askPair {k : Nat} (h : R x) : R (askPair k x) := by
  have hask := hR.askLeave (op := 3) (u := k) (m := none) h
  refine of_ite h (of_ite (hR.as h) ?_)
  split <;> rename_i he <;> rw [he] at hask
  · exact hR.beginDrawbarTraining hask
  · exact hask

theorem startRound {s : Option Nat} {r : Nat} (h : R x) : R (startRound s r x) := of_foldl (fun _ _ ha => hR.askPair ha) h

theorem wakeStageEnds (h : R x) : R (wakeStageEnds x) := of_ite (hR.startRound (hR.setPwr (hR.setStage h))) h

theorem markLock (h : R x) : R (markLock x) := of_ite (hR.as h) h

theorem openLock (h : R x) : R (openLock x) := of_ite (hR.as h) h

theorem enterServo {n : Nat} (h : R x) : R (enterServo n x) := hR.openLock (hR.as (hR.markLock h))

theorem moveFreq {f : BitVec 32} (h : R x) : R (moveFreq f x) := hR.openLock (hR.as (hR.markLock h))

theorem holdNow (h : R x) : R (holdNow x) := of_ite (hR.raise (hR.moveFreq (hR.enterServo h))) h

theorem heldFollows (h : R x) : R (heldFollows x) := of_ite (hR.holdNow h) h

end

end Robust

/-! ### Time -/

theorem checkObj_now {n k i j : Nat} {o : ResObj} {f : Mod → Mod} {x : Mod} (hf : ∀ y, (f y).now = y.now) (h : x.now = n) :
    (checkObj k i j o f x).now = n := (now_robust n).checkObj (fun y hy => (hf y).trans hy) h

theorem scrubWord_now {n : Nat} {x : Mod} {e : EccErr} (h : x.now = n) : (scrubWord x e).now = n := by
  have hR := now_robust n
  have hqueue : ∀ p q, (checkQueue p q x).now = n := fun p q => checkObj_now (fun _ => rfl) (checkObj_now (fun _ => rfl) h)
  have hshaper : ∀ p l i, (checkShaper p l i x).now = n := fun p l i => checkObj_now (fun _ => rfl) (checkObj_now (fun _ => rfl) h)
  unfold scrubWord
  dsimp only
  split
  · exact hR.eccRepair (fun _ hy => hR.as hy) h
  · exact checkObj_now (fun _ => rfl) h
  · exact hshaper _ _ _
  · exact hshaper _ _ _
  · exact hqueue _ _
  · exact hqueue _ _
  · exact hR.eccRepair (fun _ hy => hy) h
  · exact hR.eccRepair (fun _ hy => hy) h
  · exact hR.eccRepair (fun _ hy => hy) h
  · exact hR.eccRead h
  · exact hR.eccRead h
  · exact h
  · exact h
  · exact hR.eccRead h

theorem scrubAcl_now {n s : Nat} {x : Mod} {e : Nat × Nat × Nat} (h : x.now = n) : (scrubAcl s x e).now = n := by
  have hR := now_robust n
  have hrep : (aclRepaired e.1 e.2.1 e.2.2 x).now = n :=
    of_ite (R := fun y : Mod => y.now = n) h (hR.as (hR.eccRepair (fun _ hy => hy) h))
  exact of_ite (R := fun y : Mod => y.now = n) hrep (hR.raiseWith hrep)

theorem scrubEnds_now {n s : Nat} {x : Mod} (h : x.now = n) : (scrubEnds s x).now = n := by
  unfold scrubEnds
  split
  · exact of_foldl (R := fun y : Mod => y.now = n) (fun _ _ ha => scrubAcl_now ha)
      (of_foldl (R := fun y : Mod => y.now = n) (fun _ _ ha => scrubWord_now ha) h)
  · exact h

theorem scrubMax_now {n s : Nat} {x : Mod} (h : x.now = n) : (scrubMax s x).now = n := by
  unfold scrubMax
  split
  · exact of_ite (R := fun y : Mod => y.now = n) (scrubEnds_now h) h
  · exact h

theorem shedCycle_now {n s : Nat} {x : Mod} (h : x.now = n) : (shedCycle x s).now = n := by
  have hR := now_robust n
  have hcount : ((List.range 16).foldl (pcCycle s) (setCap s (fun c => { c with cycles := c.cycles + 1 }) (xbarCycle s x))).now = n :=
    of_foldl (R := fun y : Mod => y.now = n) (fun _ _ ha => hR.pcCycle ha) (hR.as (hR.xbarCycle h))
  exact of_ite (R := fun y : Mod => y.now = n) h
    (scrubMax_now (hR.checksRepeat (of_foldl (R := fun y : Mod => y.now = n) (fun _ _ ha => hR.engineCycle ha) hcount)))

theorem cycle_now (x : Mod) : (cycle x).now = x.now := by
  have hR := now_robust x.now
  exact hR.heldFollows (hR.wakeStageEnds (hR.serveWaits
    (of_foldl (R := fun y : Mod => y.now = x.now) (fun _ _ ha => shedCycle_now ha) rfl)))

theorem endPulse_same (o : Nat) (x : Mod) : (fun y : Mod => (y.now, y.cap, y.ost)) (endPulse o x) = (fun y : Mod => (y.now, y.cap, y.ost)) x := by
  unfold endPulse
  dsimp only
  split
  · split
    · rfl
    · rfl
  · rfl

/-- Pulses that end touch neither captures nor engines. -/
theorem pulsesEnd_same (x : Mod) : (pulsesEnd x).now = x.now ∧ (pulsesEnd x).cap = x.cap ∧ (pulsesEnd x).ost = x.ost := by
  have hfold := foldl_keeps (fun y : Mod => (y.now, y.cap, y.ost)) (fun a o => endPulse o a) (List.range 8) x fun a o => endPulse_same o a
  unfold pulsesEnd ppsFalls
  generalize (List.range 8).foldl (fun a o => endPulse o a) x = y at hfold ⊢
  simp only [Prod.mk.injEq] at hfold
  split
  · split
    · exact hfold
    · exact hfold
  · exact hfold

/-- Settles O1: pulses that end touch neither captures nor engines, and a cycle keeps the time it falls in. -/
theorem stepRunsFront : Obligations.StepRunsFront := by
  unfold Obligations.StepRunsFront
  refine ⟨fun c rest s => rfl, fun s hs => ⟨tick s.mod, ?_, ?_, fun hn => ?_⟩⟩
  · unfold step
    rw [hs]
  · obtain ⟨hnow, -, -⟩ := pulsesEnd_same { s.mod with now := s.mod.now + 5 }
    unfold tick
    dsimp only
    split
    · exact (cycle_now _).trans hnow
    · exact hnow
  · obtain ⟨hnow, hcap, host⟩ := pulsesEnd_same { s.mod with now := s.mod.now + 5 }
    have htick : tick s.mod = pulsesEnd { s.mod with now := s.mod.now + 5 } := by
      unfold tick
      dsimp only
      rw [hnow, if_neg hn]
    rw [htick]
    exact ⟨hcap, host⟩

end Sys2Proof.Machine
end

section
/-! Proofs about the modes of the module, its resets and the stages of its start-up (01 R26 to R32; 12 R379, R400; 16 R499; 18 R534 to
R538; 19 R569). -/

namespace Sys2Proof.Machine

-- One theorem at a time: each thread that elaborates another reserves a stack, and their sum has a limit.
set_option Elab.async false

/-! ### What waves leave of the mode and of the mailboxes -/

/-- The mode and the mailboxes. -/
def modeAndBoxes (x : Mod) : ModeSt × Map Nat Mailbox := (x.mode, x.dax.boxes)

theorem modeAndBoxes_offPower {x y : Mod} (h : offPower y = offPower x) : modeAndBoxes y = modeAndBoxes x := (congrArg modeAndBoxes h :)

theorem modeAndBoxes_raise (l : Level) (e : Evt) (x : Mod) : modeAndBoxes (raise l e x) = modeAndBoxes x := by
  rw [raise_raised]
  rfl

theorem modeAndBoxes_askLeave (op u : Nat) (m : Option Nat) (x : Mod) : modeAndBoxes (askLeave op u m x).2 = modeAndBoxes x :=
  modeAndBoxes_offPower (askLeave_offPower op u m x)

theorem modeAndBoxes_askCoupler (x : Mod) : modeAndBoxes (askCoupler x) = modeAndBoxes x := by
  have hask := modeAndBoxes_askLeave 9 0 none x
  unfold askCoupler
  split
  · rfl
  · split <;> rename_i he <;> rw [he] at hask
    · exact hask
    · exact hask

theorem modeAndBoxes_returned (x : Mod) : modeAndBoxes (returned x) = modeAndBoxes x :=
  foldl_keeps modeAndBoxes _ _ _ fun a s => by
    split
    · exact modeAndBoxes_raise _ _ _
    · rfl

theorem modeAndBoxes_wavesDone (x : Mod) : modeAndBoxes (wavesDone x) = modeAndBoxes x := by
  have hback : modeAndBoxes (returned (setPwr (fun p => { p with waves := [] }) x)) = modeAndBoxes x := modeAndBoxes_returned _
  unfold wavesDone
  dsimp only
  generalize returned (setPwr (fun p => { p with waves := [] }) x) = z at hback ⊢
  split
  · exact hback
  · split
    · exact (modeAndBoxes_askCoupler _).trans hback
    · exact hback

theorem modeAndBoxes_beginWave (w : Nat) (x : Mod) : modeAndBoxes (beginWave w x) = modeAndBoxes x :=
  foldl_keeps modeAndBoxes _ _ _ fun _ _ => (modeAndBoxes_offPower (askWake_offPower _ _ _)).trans rfl

theorem modeAndBoxes_askWave (x : Mod) : modeAndBoxes (askWave x) = modeAndBoxes x := by
  unfold askWave
  split
  · rfl
  · split
    · exact modeAndBoxes_wavesDone x
    next w _ _ =>
      have hask := modeAndBoxes_askLeave 2 w none x
      split <;> rename_i he <;> rw [he] at hask
      · exact (modeAndBoxes_beginWave w _).trans hask
      · exact hask
      · exact (modeAndBoxes_wavesDone _).trans hask

theorem modeAndBoxes_allWaves (x : Mod) : modeAndBoxes (allWaves x) = modeAndBoxes x := modeAndBoxes_askWave _

/-- Entering a mode changes the mode and tells of it. -/
theorem enterMode_frame (m : Mode) (c : Nat) (x : Mod) :
    enterMode m c x = { raised x (enterMode m c x) with mode := { x.mode with mode := m, target := m, cause := c } } := by
  unfold enterMode
  dsimp only
  split
  · rw [notify_raised]
    rfl
  · rfl

/-! ### MODE_CHANGE (12 R400) -/

section ModeChange
variable {n : Nat} {b : Mailbox} {x : Mod} {l : List Host.Cell}

theorem modeChange_invalid (h : b.len ≠ 4 ∨ 5 < leAt b.body 0 1 ∨ leAt b.body 1 3 ≠ 0) :
    modeChangeCmd n b (x, l) = complete n stInvalid [] (x, l) := by
  unfold modeChangeCmd
  exact if_pos (by simpa [or_assoc] using h)

theorem modeChange_valid (h : ¬ (b.len ≠ 4 ∨ 5 < leAt b.body 0 1 ∨ leAt b.body 1 3 ≠ 0)) :
    ¬ (b.len ≠ 4 || 5 < leAt b.body 0 1 || leAt b.body 1 3 ≠ 0) = true := by
  simpa [or_assoc] using h

theorem modeChange_busy (h : ¬ (b.len ≠ 4 ∨ 5 < leAt b.body 0 1 ∨ leAt b.body 1 3 ≠ 0))
    (hb : inTransition x = true ∨ activationOn x = true) : modeChangeCmd n b (x, l) = complete n stBusy [] (x, l) := by
  unfold modeChangeCmd
  refine (if_neg (modeChange_valid h)).trans (if_pos ?_)
  rcases hb with hb | hb
  · simp [hb]
  · simp [hb]

variable (h : ¬ (b.len ≠ 4 ∨ 5 < leAt b.body 0 1 ∨ leAt b.body 1 3 ≠ 0)) (hi : inTransition x = false) (ha : activationOn x = false)
include h hi ha

theorem modeChange_drains (hm : x.mode.mode = .standalone ∨ x.mode.mode = .paired) (hw : leAt b.body 0 1 = 4) :
    modeChangeCmd n b (x, l) = (setBox n (fun b => { b with began := true }) (setCpl (fun c => { c with stopRenew := true, stewardFrom := none })
      (setMode (fun k => { k with target := .quiesced, drainEnd := some (x.now + ms 5), modeMbx := some n }) x)), l) := by
  unfold modeChangeCmd
  refine (if_neg (modeChange_valid h)).trans ((if_neg (by simp [hi, ha])).trans ?_)
  rcases hm with hm | hm
  · simp only [hm, hw]
  · simp only [hm, hw]

theorem modeChange_standalone (hm : x.mode.mode = .quiesced) (hw : leAt b.body 0 1 = 2) (ht : x.tt.active.isSome = true) :
    modeChangeCmd n b (x, l) =
      (let y1 := changeMode n .standalone (x, l)
       (if (pairOf_ (allWaves y1.1)).enabled then askCoupler (allWaves y1.1) else allWaves y1.1, y1.2)) := by
  unfold modeChangeCmd
  refine (if_neg (modeChange_valid h)).trans ((if_neg (by simp [hi, ha])).trans ?_)
  simp only [hm, hw]
  exact if_neg (by rw [Option.isNone_eq_false_iff.mpr ht]; decide)

theorem modeChange_diagnostic (hm : x.mode.mode = .quiesced) (hw : leAt b.body 0 1 = 5) :
    modeChangeCmd n b (x, l) = changeMode n .diagnostic (x, l) := by
  unfold modeChangeCmd
  refine (if_neg (modeChange_valid h)).trans ((if_neg (by simp [hi, ha])).trans ?_)
  simp only [hm, hw]

theorem modeChange_back (hm : x.mode.mode = .diagnostic) (hw : leAt b.body 0 1 = 4) :
    modeChangeCmd n b (x, l) = changeMode n .quiesced (x, l) := by
  unfold modeChangeCmd
  refine (if_neg (modeChange_valid h)).trans ((if_neg (by simp [hi, ha])).trans ?_)
  simp only [hm, hw]

theorem modeChange_wrong (hm : ((x.mode.mode = .standalone ∨ x.mode.mode = .paired ∨ x.mode.mode = .diagnostic) ∧ leAt b.body 0 1 ≠ 4) ∨
      x.mode.mode = .cold ∨ x.mode.mode = .harnessing ∨
      (x.mode.mode = .quiesced ∧ leAt b.body 0 1 ≠ 5 ∧ (leAt b.body 0 1 ≠ 2 ∨ x.tt.active = none))) :
    modeChangeCmd n b (x, l) = complete n stWrongMode [] (x, l) := by
  unfold modeChangeCmd
  refine (if_neg (modeChange_valid h)).trans ((if_neg (by simp [hi, ha])).trans ?_)
  dsimp only
  split
  case h_1 hmode hwish => simp [hmode, hwish] at hm
  case h_2 hmode hwish => simp [hmode, hwish] at hm
  case h_3 hmode hwish =>
    have hnone : x.tt.active = none := by simpa [hmode, hwish] using hm
    rw [hnone]
    rfl
  case h_4 hmode hwish => simp [hmode, hwish] at hm
  case h_5 hmode hwish => simp [hmode, hwish] at hm
  case h_6 => rfl

end ModeChange

/-- A mode entered at once is answered. -/
theorem changeMode_effect {n : Nat} {x : Mod} (hq : (x.dax.boxes.get n).quiet = false) (m : Mode) (l : List Host.Cell) :
    replied (changeMode n m (x, l)).1 n stOk ∧ (changeMode n m (x, l)).1.mode = { x.mode with mode := m, target := m, cause := 6 } := by
  have hquiet : ((enterMode m 6 x).dax.boxes.get n).quiet = false := by
    rw [enterMode_frame]
    exact hq
  unfold changeMode
  refine ⟨complete_replied hquiet _ _ _, ?_⟩
  simp only [complete_keeps]
  rw [enterMode_frame]

/-- The waves and the coupler that a mode change brings leave its mode and its reply. -/
theorem wavesAndCoupler_effect (x : Mod) :
    modeAndBoxes (if (pairOf_ (allWaves x)).enabled then askCoupler (allWaves x) else allWaves x) = modeAndBoxes x := by
  split
  · exact (modeAndBoxes_askCoupler _).trans (modeAndBoxes_allWaves x)
  · exact modeAndBoxes_allWaves x

theorem standalone_effect {n : Nat} {x : Mod} (hq : (x.dax.boxes.get n).quiet = false) (l : List Host.Cell) :
    (fun m : Mod => replied m n stOk ∧ m.mode.mode = .standalone ∧ m.mode.target = .standalone ∧ m.mode.cause = 6)
      (if (pairOf_ (allWaves (changeMode n .standalone (x, l)).1)).enabled then askCoupler (allWaves (changeMode n .standalone (x, l)).1)
        else allWaves (changeMode n .standalone (x, l)).1) := by
  obtain ⟨hrep, hmode⟩ := changeMode_effect hq .standalone l
  generalize (changeMode n .standalone (x, l)).1 = y at hrep hmode ⊢
  have hkeeps := wavesAndCoupler_effect y
  generalize (if (pairOf_ (allWaves y)).enabled then askCoupler (allWaves y) else allWaves y) = z at hkeeps ⊢
  obtain ⟨hm, hb⟩ := Prod.mk.inj hkeeps
  refine ⟨?_, by rw [hm, hmode], by rw [hm, hmode], by rw [hm, hmode]⟩
  unfold replied
  rw [hb]
  exact hrep

/-! ### The end of a drain (01 R29) -/

/-- The mode is kept by the handling of frames. -/
theorem mode_handles (m : ModeSt) : Handles (fun x => x.mode = m) where
  same h e := by
    simp only [handledPart, Prod.mk.injEq] at e
    exact e.2.1.trans h
  count _ h := h
  raise h := by rwa [raise_raised]
  notify h := by rwa [notify_raised]
  bankWake h := (congrArg Mod.mode (askWake_offPower _ _ _) :).trans h

/-- Dropping what is inside counts it, and nothing else of the mode changes. -/
theorem dropAll_mode (x : Mod) : (dropAll x).mode =
    { x.mode with discard := x.mode.discard + ((heldFrames x).filter (fun e => stillHeld e.2)).length } := by
  have hR := mode_handles { x.mode with discard := x.mode.discard + ((heldFrames x).filter (fun e => stillHeld e.2)).length }
  have hdrop := of_foldl (R := fun y : Mod => y.mode = _) (l := List.range 8) (f := fun a s => dropShedFrames s a)
    (x := setMode (fun m => { m with discard := m.discard + ((heldFrames x).filter (fun e => stillHeld e.2)).length }) x)
    (fun _ _ ha => hR.dropShedFrames ha) rfl
  have hidle := of_foldl (R := fun y : Mod => y.mode = _) (l := List.range 128) (f := fun a g => lanesIdle g a)
    (fun _ _ ha => hR.lanesIdle ha) hdrop
  have habort : ∀ {y : Mod}, y.mode = _ → (abortAll y).mode = _ := fun h =>
    of_foldl (R := fun y : Mod => y.mode = _) (fun _ _ ha => of_ite (R := fun y : Mod => y.mode = _) (hR.abortTx ha) ha) h
  exact habort hidle

theorem drainOver_waits {t : Nat} {x : Mod} (l : List Host.Cell) (ht : x.mode.drainEnd = some t)
    (h : x.dax.up = false ∨ (x.now < t ∧ (heldFrames x).filter (fun e => stillHeld e.2) ≠ [])) : drainOver (x, l) = (x, l) := by
  unfold drainOver
  simp only [ht]
  refine if_pos ?_
  rcases h with h | ⟨hn, hf⟩
  · simp [h]
  · have hany : (heldFrames x).any (fun e => stillHeld e.2) = true := by
      rw [List.any_eq_true]
      simpa [List.filter_eq_nil_iff] using hf
    simp [hn, hany]

theorem drainOver_ends {t : Nat} {x : Mod} (l : List Host.Cell) (ht : x.mode.drainEnd = some t) (hup : x.dax.up = true)
    (h : t ≤ x.now ∨ (heldFrames x).filter (fun e => stillHeld e.2) = []) :
    (drainOver (x, l)).1.mode = { x.mode with
      mode := .quiesced
      target := .quiesced
      cause := 6
      drainEnd := none
      modeMbx := none
      discard := x.mode.discard + ((heldFrames x).filter (fun e => stillHeld e.2)).length } := by
  have hmode : (enterMode .quiesced 6 (setMode (fun m => { m with drainEnd := none, modeMbx := none }) (dropAll x))).mode = { x.mode with
      mode := .quiesced
      target := .quiesced
      cause := 6
      drainEnd := none
      modeMbx := none
      discard := x.mode.discard + ((heldFrames x).filter (fun e => stillHeld e.2)).length } := by
    rw [enterMode_frame]
    simp only [setMode, dropAll_mode]
  unfold drainOver
  simp only [ht]
  rw [if_neg]
  · generalize enterMode .quiesced 6 (setMode (fun m => { m with drainEnd := none, modeMbx := none }) (dropAll x)) = z at hmode ⊢
    split
    · simp only [complete_keeps]
      exact hmode
    · exact hmode
  · rcases h with h | h
    · simp [hup, Nat.not_lt.mpr h]
    · have hany : (heldFrames x).any (fun e => stillHeld e.2) = false := by
        rw [List.any_eq_false]
        simpa [List.filter_eq_nil_iff] using h
      simp [hup, hany]

/-! ### The session of a diagnosis -/

theorem sessionEnds_mode {x : Mod} (hm : x.mode.mode = .diagnostic) (ht : x.mode.target = .diagnostic) :
    (sessionEnds x).mode = { x.mode with mode := .quiesced, target := .quiesced, cause := 6 } := by
  unfold sessionEnds
  rw [if_pos (by simp [hm, ht, inTransition]), enterMode_frame]

theorem sessionEnds_other {x : Mod} (hm : x.mode.mode ≠ .diagnostic) : sessionEnds x = x := by
  unfold sessionEnds
  exact if_neg (by simp [hm])

/-! ### The end of discovery (01 R27) -/

theorem discoveryEnds_early {x : Mod} (h : x.mode.mode ≠ .harnessing ∨ x.pwr.stage ≠ 8 ∨ (∃ k < 28, pairSettled x k = false) ∨
    (∃ sh < 8, shedWorks x sh = true ∧ shedWakeOver x sh = false)) : discoveryEnds x = x := by
  unfold discoveryEnds
  refine if_pos ?_
  rcases h with h | h | ⟨k, hk, h⟩ | ⟨sh, hsh, hw, h⟩
  · simp [h]
  · simp [h]
  · have hall : (List.range 28).all (pairSettled x) = false := List.all_eq_false.mpr ⟨k, List.mem_range.mpr hk, by simp [h]⟩
    simp [hall]
  · have hall : (workingSheds x).all (fun s => shedWakeOver x s) = false :=
      List.all_eq_false.mpr ⟨sh, List.mem_filter.mpr ⟨List.mem_range.mpr hsh, hw⟩, by simp [h]⟩
    simp [hall]

/-- The slot epoch changes the mesh alone. -/
theorem slotEpoch_frame (x : Mod) : slotEpoch x = { x with mesh := (slotEpoch x).mesh } := by
  have hset : ∀ (s i : Nat) f (a : Mod), { setS1 s i f a with mesh := x.mesh } = { a with mesh := x.mesh } := fun _ _ _ _ => rfl
  have hspread : ∀ s (a : Mod), { respread s a with mesh := x.mesh } = { a with mesh := x.mesh } := by
    intro s a
    unfold respread
    refine (foldl_keeps (fun y : Mod => ({ y with mesh := x.mesh } : Mod)) _ _ _ fun b c => ?_).trans
      (foldl_keeps (fun y : Mod => ({ y with mesh := x.mesh } : Mod)) _ _ _ fun b i => hset s i _ b)
    split
    · exact hset _ _ _ _
    · exact hset _ _ _ _
  have hall : { slotEpoch x with mesh := x.mesh } = x := by
    unfold slotEpoch
    dsimp only
    split
    · rfl
    · exact foldl_keeps (fun y : Mod => ({ y with mesh := x.mesh } : Mod)) _ _ _ fun a s => hspread s a
  exact (congrArg (fun y : Mod => ({ y with mesh := (slotEpoch x).mesh } : Mod)) hall :)

theorem reportBank_keeps (b r s i : Nat) (x : Mod) : (reportBank b r s i x).mode = x.mode ∧ (reportBank b r s i x).pwr = x.pwr ∧
    (reportBank b r s i x).tt.active = x.tt.active ∧ (reportBank b r s i x).tt.act = x.tt.act ∧ (reportBank b r s i x).now = x.now ∧
    (reportBank b r s i x).dax.restarts = x.dax.restarts := by
  simp [reportBank]

theorem reportAborted_effect (l : List Nat) (x : Mod) : (reportAborted l x).mode = x.mode ∧ (reportAborted l x).pwr = x.pwr ∧
    (reportAborted l x).tt.active = x.tt.active := by
  induction l generalizing x with
  | nil => exact ⟨rfl, rfl, rfl⟩
  | cons b t ih =>
    unfold reportAborted
    split
    · obtain ⟨hmode, hpwr, hactive⟩ := ih (reportBank b ttAborted 0 0 x)
      obtain ⟨kmode, kpwr, kactive, -⟩ := reportBank_keeps b ttAborted 0 0 x
      exact ⟨hmode.trans kmode, hpwr.trans kpwr, hactive.trans kactive⟩
    · exact ⟨rfl, rfl, rfl⟩

theorem shedsOfPair_lt : ∀ k < 28, (shedsOfPair k).1 < 8 := by decide

theorem lastDirection_idle {k : Nat} {x : Mod} (hk : k < 28) (h : ∀ s < 8, shedWorks x s = false) : lastDirection k x = x := by
  unfold lastDirection
  exact if_neg (by simp [h _ (shedsOfPair_lt k hk)])

/-- Where every working shed's last pipeline runs and no pair is dead, or no shed works, discovery quiesces none. -/
theorem discoveryFatals_none {x : Mod} (hw : ∀ s ∈ workingSheds x, wakeFailed x s = false)
    (hd : deadPairs x = [] ∨ ∀ s < 8, shedWorks x s = false) : discoveryFatals x = x := by
  have hsheds : (workingSheds x).foldl (fun a s => if wakeFailed x s then fatal s evReturnFail a else a) x = x :=
    List.foldlRecOn (motive := (· = x)) (workingSheds x) _ rfl fun a ha s hs => by
      rw [hw s hs, ha]
      rfl
  unfold discoveryFatals
  rw [hsheds]
  dsimp only
  rcases hd with hd | hd
  · rw [hd]
    rfl
  · exact List.foldlRecOn (motive := (· = x)) (deadPairs x) _ rfl fun a ha k hk => by
      rw [ha, lastDirection_idle (List.mem_range.mp (List.mem_filter.mp hk).1) hd]

theorem discoveryEnds_due {x : Mod} (hm : x.mode.mode = .harnessing) (hs : x.pwr.stage = 8) (hp : ∀ k < 28, pairSettled x k = true)
    (hw : ∀ s ∈ workingSheds x, shedWakeOver x s = true) (hf : discoveryFatals x = x) :
    discoveryEnds x = if (workingSheds (slotEpoch x)).isEmpty then setStage 14 (enterMode .quiesced 3 (slotEpoch x))
      else beginStartVerify (setStage 9 (slotEpoch x)) := by
  have hpairs : (List.range 28).all (pairSettled x) = true := List.all_eq_true.mpr fun k hk => hp k (List.mem_range.mp hk)
  have hsheds : (workingSheds x).all (fun s => shedWakeOver x s) = true := List.all_eq_true.mpr hw
  unfold discoveryEnds
  rw [if_neg (by simp [hm, hs, hpairs, hsheds]), hf]

theorem workingSheds_slotEpoch (x : Mod) : workingSheds (slotEpoch x) = workingSheds x := by
  rw [slotEpoch_frame]
  rfl

/-- With every drawbar up and every working shed's wake over, discovery ends in the verification of the banks. -/
theorem discoveryEnds_verifies {x : Mod} (hm : x.mode.mode = .harnessing) (hs : x.pwr.stage = 8) (hw : workingSheds x ≠ [])
    (hrun : ∀ sh < 8, shedWorks x sh = true → domRuns x (128 + 16 * sh + 15) = true)
    (hhalf : ∀ k < 28, ∀ h ∈ pairHalves k, halfRuns (x.mesh.halves.get h) = true) :
    (discoveryEnds x).mode = x.mode ∧ (discoveryEnds x).pwr.stage = 9 ∧ (discoveryEnds x).tt.active = none := by
  have hover : ∀ s ∈ workingSheds x, domRuns x (128 + 16 * s + 15) = true := fun s h => by
    obtain ⟨hlt, hworks⟩ := List.mem_filter.mp h
    exact hrun s (List.mem_range.mp hlt) hworks
  have hdead : deadPairs x = [] := by
    refine List.filter_eq_nil_iff.mpr fun k hk => ?_
    have hall := hhalf k (List.mem_range.mp hk)
    simp only [pairHalves, List.mem_cons, List.not_mem_nil, or_false, forall_eq_or_imp, forall_eq] at hall
    simp [hall.1, hall.2]
  have hfatals : discoveryFatals x = x := discoveryFatals_none (fun s h => by simp [wakeFailed, hover s h]) (.inl hdead)
  have hsettled : ∀ k < 28, pairSettled x k = true := fun k hk => by
    have hall : ((pairHalves k).map (x.mesh.halves.get ·)).all halfRuns = true := by
      rw [List.all_map]
      exact List.all_eq_true.mpr (hhalf k hk)
    simp [pairSettled, hall]
  rw [discoveryEnds_due hm hs hsettled (fun s h => by simp [shedWakeOver, hover s h]) hfatals, workingSheds_slotEpoch,
    if_neg (by simpa using hw)]
  unfold beginStartVerify
  dsimp only
  obtain ⟨hmode, hpwr, hactive⟩ := reportAborted_effect (startList (setStage 9 (slotEpoch x))) { setStage 9 (slotEpoch x) with
    tt := { (setStage 9 (slotEpoch x)).tt with
      banks := ((setStage 9 (slotEpoch x)).tt.banks.set 0 (settleBank ((setStage 9 (slotEpoch x)).tt.banks.get 0))).set 1
        (settleBank ((setStage 9 (slotEpoch x)).tt.banks.get 1))
      active := none
      act := none
      retireT := none
      startDone := false } }
  refine ⟨hmode.trans ?_, (congrArg Pwr.stage hpwr).trans rfl, hactive⟩
  rw [slotEpoch_frame]
  rfl

/-- With no working shed discovery ends in Quiesced. -/
theorem discoveryEnds_quiesced {x : Mod} (hm : x.mode.mode = .harnessing) (hs : x.pwr.stage = 8) (hw : workingSheds x = []) :
    (discoveryEnds x).mode.mode = .quiesced ∧ (discoveryEnds x).mode.cause = 3 ∧ (discoveryEnds x).pwr.stage = 14 := by
  have hnone : ∀ s < 8, shedWorks x s = false := fun s h => by
    simpa using List.filter_eq_nil_iff.mp hw s (List.mem_range.mpr h)
  have hmem : ∀ {P : Nat → Prop}, ∀ s ∈ workingSheds x, P s := by
    rw [hw]
    exact fun s h => absurd h (by simp)
  have hfatals : discoveryFatals x = x := discoveryFatals_none hmem (.inr hnone)
  have hsettled : ∀ k < 28, pairSettled x k = true := fun k hk => by
    unfold pairSettled
    simp [hnone _ (shedsOfPair_lt k hk)]
  rw [discoveryEnds_due hm hs hsettled hmem hfatals, workingSheds_slotEpoch, hw]
  simp only [List.isEmpty_nil, if_true]
  exact ⟨enterMode_mode .quiesced 3 _, enterMode_cause .quiesced 3 _, rfl⟩

/-! ### The firmware stops (12 R379) -/

/-- Time and the firmware's restarts. -/
def timeAndRestarts (x : Mod) : Nat × BitVec 8 := (x.now, x.dax.restarts)

theorem timeAndRestarts_raiseWith (l : Level) (e : Evt) (w : Option Word) (a : Nat) (x : Mod) :
    timeAndRestarts (raiseWith l e w a x) = timeAndRestarts x := by
  rw [raiseWith_raised]
  rfl

theorem timeAndRestarts_eccMeet (e : EccErr) (x : Mod) : timeAndRestarts (eccMeet e x) = timeAndRestarts x := by
  unfold eccMeet
  split
  · exact timeAndRestarts_raiseWith _ _ _ _ _
  · split
    · rfl
    · exact timeAndRestarts_raiseWith _ _ _ _ _

theorem timeAndRestarts_eccRepair (w : EccWord → Bool) (x : Mod) : timeAndRestarts (eccRepair w id x) = timeAndRestarts x := by
  have hread : timeAndRestarts (eccRead w x).2 = timeAndRestarts x := foldl_keeps timeAndRestarts _ _ _ fun a e => timeAndRestarts_eccMeet e a
  unfold eccRepair
  dsimp only
  split
  · exact hread
  · exact hread

theorem timeAndRestarts_complete (m st : Nat) (body : List Byte) (y : Mod × List Host.Cell) :
    timeAndRestarts (complete m st body y).1 = timeAndRestarts y.1 := by
  unfold complete
  dsimp only
  split
  · rfl
  · rw [signal_raised]
    rfl

theorem timeAndRestarts_abandonAll (y : Mod × List Host.Cell) : timeAndRestarts (abandonAll y).1 = timeAndRestarts y.1 :=
  foldl_keeps (fun z : Mod × List Host.Cell => timeAndRestarts z.1) _ _ _ fun z m => by
    split
    · exact timeAndRestarts_complete _ _ _ _
    · rfl

theorem timeAndRestarts_dropActLeave (a : Activation) (x : Mod) : timeAndRestarts (dropActLeave a x) = timeAndRestarts x ∧
    (dropActLeave a x).tt = x.tt := by
  unfold dropActLeave
  split
  · exact ⟨rfl, rfl⟩
  · exact ⟨rfl, rfl⟩

theorem dropActivation_effect (x : Mod) : timeAndRestarts (dropActivation x) = timeAndRestarts x ∧ (dropActivation x).tt.act = none := by
  unfold dropActivation
  split
  next h => exact ⟨rfl, h⟩
  next a _ =>
    obtain ⟨hkeeps, htt⟩ := timeAndRestarts_dropActLeave a (setTt (fun t => { t with act := none }) x)
    dsimp only
    split
    · exact ⟨hkeeps, congrArg TtSt.act htt⟩
    · exact ⟨hkeeps, congrArg TtSt.act htt⟩

/-- What the stopping firmware keeps of time, its restarts and the activation. -/
def stopPart (x : Mod) : (Nat × BitVec 8) × Option Activation := (timeAndRestarts x, x.tt.act)

theorem stopPart_abortBank (b : Nat) (x : Mod) : stopPart (abortBank b x) = stopPart x := by
  have hreport : stopPart (reportBank b ttAborted 0 0 (setBank b (fun k => { k with st := .invalid, content := none }) x)) = stopPart x := by
    obtain ⟨-, -, -, hact, hnow, hrestarts⟩ := reportBank_keeps b ttAborted 0 0 (setBank b (fun k => { k with st := .invalid, content := none }) x)
    simp only [stopPart, timeAndRestarts, hact, hnow, hrestarts]
    rfl
  unfold abortBank
  split
  · exact hreport
  · exact hreport
  · rfl

theorem stopPart_holdNow (x : Mod) : stopPart (holdNow x) = stopPart x := by
  have htim : ∀ y : Mod, stopPart (markLock y) = stopPart y ∧ stopPart (openLock y) = stopPart y := by
    intro y
    unfold markLock openLock
    constructor <;> split <;> rfl
  unfold holdNow due
  split
  · dsimp only
    rw [raise_raised]
    exact (htim _).2.trans ((htim _).1.trans ((htim _).2.trans (htim x).1))
  · rfl

/-- A bank that was being written or verified is given up. -/
def abortPending (x : Mod) (b : Nat) : Mod :=
  match (x.tt.banks.get b).st with
  | .writing | .verifying => abortBank b x
  | _ => x

theorem stopPart_abortPending (x : Mod) (b : Nat) : stopPart (abortPending x b) = stopPart x := by
  unfold abortPending
  split
  · exact stopPart_abortBank _ _
  · exact stopPart_abortBank _ _
  · rfl

/-- What the stop has ended when the restart begins. -/
def endedFw (x : Mod) : Mod := holdoverEnters (clearStored ([0, 1].foldl abortPending (dropActivation x)))

theorem endedFw_effect (x : Mod) : stopPart (endedFw x) = (timeAndRestarts x, none) := by
  obtain ⟨hkeeps, hact⟩ := dropActivation_effect x
  have hdrop : stopPart (dropActivation x) = (timeAndRestarts x, none) := by rw [stopPart, hkeeps, hact]
  have hbanks := foldl_keeps stopPart abortPending [0, 1] (dropActivation x) stopPart_abortPending
  unfold endedFw
  generalize [0, 1].foldl abortPending (dropActivation x) = z at hbanks ⊢
  have hstored : stopPart (clearStored z) = (timeAndRestarts x, none) := hbanks.trans hdrop
  unfold holdoverEnters due
  split
  · exact (stopPart_holdNow _).trans hstored
  · exact hstored

/-- The firmware stands still. -/
def stoppedFw (x : Mod) : Mod :=
  let x3 := setMode (fun m => { m with modeMbx := none }) (setCpl (fun c => { c with stopRenew := true }) x)
  { x3 with
    tbl := { x3.tbl with edits := x3.tbl.edits.map (fun e => { e with mbx := none }) }
    dax := { x3.dax with up := false, restartAt := some x3.now, restarts := x3.dax.restarts + 1, version := none, session := 0 } }

theorem stoppedFw_effect (x : Mod) : (stoppedFw x).dax.up = false ∧ (stoppedFw x).dax.restartAt = some x.now ∧
    (stoppedFw x).dax.restarts = x.dax.restarts + 1 ∧ (stoppedFw x).dax.version = none ∧ (stoppedFw x).dax.session = 0 ∧
    (stoppedFw x).tt = x.tt ∧ (stoppedFw x).cpl.stopRenew = true := ⟨rfl, rfl, rfl, rfl, rfl, rfl, rfl⟩

theorem firmwareFails_up {x : Mod} (l : List Host.Cell) (hup : x.dax.up = true) : ∃ k b, firmwareFails (x, l) =
    (notify k (raise .yard evFoltinRestart (stoppedFw (endedFw (abandonAll (eccRepair (fun w => decide (w = .sram)) id x, l)).1))), b) := by
  unfold firmwareFails
  rw [if_neg (by simp [hup])]
  unfold stoppedFw endedFw
  dsimp only
  generalize abandonAll (eccRepair (fun w => decide (w = .sram)) id x, l) = y
  generalize dropActivation y.1 = z
  exact ⟨_, _, rfl⟩

theorem firmwareFails_effect {x : Mod} (l : List Host.Cell) (hup : x.dax.up = true) :
    (fun m : Mod => m.dax.up = false ∧ m.dax.restartAt = some x.now ∧ m.dax.restarts = x.dax.restarts + 1 ∧ m.dax.version = none ∧
      m.dax.session = 0 ∧ m.tt.act = none ∧ evtSet .yard evFoltinRestart m = true ∧ m.cpl.stopRenew = true) (firmwareFails (x, l)).1 := by
  obtain ⟨k, b, heq⟩ := firmwareFails_up l hup
  have hended := endedFw_effect (abandonAll (eccRepair (fun w => decide (w = .sram)) id x, l)).1
  rw [timeAndRestarts_abandonAll, timeAndRestarts_eccRepair] at hended
  rw [heq]
  generalize endedFw (abandonAll (eccRepair (fun w => decide (w = .sram)) id x, l)).1 = z at hended ⊢
  simp only [stopPart, timeAndRestarts, Prod.mk.injEq] at hended
  obtain ⟨⟨hnow, hrestarts⟩, hact⟩ := hended
  obtain ⟨h1, h2, h3, h4, h5, h6, h7⟩ := stoppedFw_effect z
  generalize stoppedFw z = y at h1 h2 h3 h4 h5 h6 h7 ⊢
  simp only [notify_keeps, raise_keeps]
  refine ⟨h1, by rw [h2, hnow], by rw [h3, hrestarts], h4, h5, by rw [h6, hact], ?_, h7⟩
  exact notify_evtSet_mono _ _ _ _ (raise_evtSet _ _ _ (by decide))

theorem firmwareServes_effect {t : Nat} {x : Mod} (l : List Host.Cell) (hr : x.dax.restartAt = some t) (hd : x.mode.drainEnd = none) :
    firmwareServes (x, l) = ({ x with dax := { x.dax with up := true, restartAt := none } }, l) := by
  unfold firmwareServes
  simp only [hr]
  unfold drainOver
  simp only [hd]

/-! ### Resets (01 R26, R33; 19 R569) -/

theorem coldMod_effect (c : Nat) (x : Mod) : (coldMod c x).mode = { cause := c } ∧ (coldMod c x).host.up = false ∧
    (coldMod c x).tt.active = none ∧ (coldMod c x).ext.inReset = x.ext.inReset ∧ (coldMod c x).now = x.now ∧
    (coldMod c x).sec.slots = x.sec.slots ∧ (coldMod c x).sec.enrol = x.sec.enrol := ⟨rfl, rfl, rfl, rfl, rfl, rfl, rfl⟩

theorem abortAll_idle {x : Mod} (h : ∀ p, (x.line.ports.get p).tx = none) : abortAll x = x :=
  List.foldlRecOn (motive := (· = x)) (List.range 1038) _ rfl fun a ha p _ => by
    rw [ha, h p]
    rfl

/-- The pin holds the module in reset. -/
def heldInReset (x : Mod) : Mod := setExt (fun e => { e with resetPin := false, inReset := true }) x

theorem resetAsserted_due {x : Mod} (l : List Host.Cell) (hp : x.mode.powered = true) (hr : x.ext.inReset = false) :
    resetAsserted (x, l) = (coldMod 1 (abortAll (heldInReset x)), Memory.erase l 0 0x10000) := by
  unfold resetAsserted
  rw [if_neg (by simp [hp, hr])]
  rfl

theorem resetReleased_due {x : Mod} (hp : x.mode.powered = true) (hr : x.ext.inReset = true) :
    resetReleased x = { x with ext := { x.ext with resetPin := true, inReset := false } } := by
  unfold resetReleased
  rw [if_neg (by simp [hp, hr])]
  rfl

theorem resetGlitches_effect {x : Mod} (hp : x.mode.powered = true) (hr : x.ext.inReset = false) :
    (resetGlitches x).ext = { x.ext with glitches := x.ext.glitches + 1 } ∧ evtSet .yard evResetGlitch (resetGlitches x) = true := by
  unfold resetGlitches
  rw [if_neg (by simp [hp, hr])]
  refine ⟨?_, raise_evtSet _ _ _ (by decide)⟩
  rw [raise_raised]
  rfl

theorem scheduledResets_due {t : Nat} {x : Mod} (l : List Host.Cell) (hr : x.mode.resetAt = some t) (ht : t ≤ x.now) :
    scheduledResets (x, l) = (coldMod x.mode.resetCause (abortAll x), Memory.erase l 0 0x10000) := by
  unfold scheduledResets
  simp only [hr]
  exact if_pos ht

/-! ### The boot domain has settled (01 R26, R33) -/

/-- What decides on Harnessing and what it starts from. -/
def bootPart (x : Mod) : ModeSt × Sec × Ext × Nat × InletSt × InletSt × Option Nat :=
  (x.mode, x.sec, x.ext, x.pwr.stage, x.pwr.a, x.pwr.b, x.pwr.holdup)

theorem bootPart_wakeOrWait (src d : Nat) (x : Mod) : bootPart (wakeOrWait src d x) = bootPart x := by
  unfold wakeOrWait
  split
  · rfl
  · rfl

theorem bootPart_wakeChildren (d : Nat) (x : Mod) : bootPart (wakeChildren d x) = bootPart x :=
  foldl_keeps bootPart _ _ _ fun a k => by
    split
    · exact bootPart_wakeOrWait _ _ _
    · rfl

theorem bootPart_resyncDomain (d : Nat) (x : Mod) : bootPart (resyncDomain d x) = bootPart x :=
  foldl_keeps bootPart _ _ _ fun _ _ => rfl

/-- The boot domain settles while no shed returns and start-up has not passed its first stages. -/
theorem domainSettled_boot {x : Mod} (h : domSt x 424 = .waking) (hs : x.pwr.stage ≤ 5) (hr : ∀ sh < 8, (x.trb.get sh).st ≠ .returning) :
    bootPart (domainSettled 424 x) = bootPart x ∧ domSt (domainSettled 424 x) 424 = .run := by
  have hbegin : Awake 424 ((settledDom 424 x).pwr.doms.get 424) (stopCounters (settledDom 424 x)) x.trb (settledDom 424 x) := ⟨rfl, rfl, rfl⟩
  have hst : ((settledDom 424 x).pwr.doms.get 424).st = .run := by
    rw [show (settledDom 424 x).pwr.doms.get 424 = _ from Map.get_upd_same x.pwr.doms 424 _]
  have hsettled : Awake 424 ((settledDom 424 x).pwr.doms.get 424) (stopCounters (settledDom 424 x)) x.trb (wakeSettled 424 x) := by
    rw [wakeSettled_waking h]
    exact ((hbegin.resyncDomain 424).settleEffects (by decide) hst 424).wakeChildren hst 424
  have hpart : bootPart (wakeSettled 424 x) = bootPart x := by
    rw [wakeSettled_waking h]
    exact (bootPart_wakeChildren _ _).trans (bootPart_resyncDomain 424 (settledDom 424 x))
  have hstage : (wakeSettled 424 x).pwr.stage ≤ 5 := by
    simp only [bootPart, Prod.mk.injEq] at hpart
    rw [hpart.2.2.2.1]
    exact hs
  have heq : domainSettled 424 x = wakeSettled 424 x := by
    unfold domainSettled
    rw [returnsGoOn_idle (hsettled.trb ▸ hr)]
    generalize wakeSettled 424 x = z at hstage ⊢
    have hwake : wakeStageEnds z = z := if_neg (by simp; omega)
    rw [hwake]
    exact if_pos (by simp; omega)
  rw [heq]
  exact ⟨hpart, by rw [domSt_eq (by decide), hsettled.dom, hst]⟩

theorem tryHarness_effect {x : Mod} (hp : x.mode.powered = true) (hm : x.mode.mode = .cold) (hd : domSt x 424 = .run)
    (hi : x.ext.inReset = false) (hb : x.mode.bootFailed = false) (hg : mainsGood x = true) (hh : x.pwr.holdup = none) :
    (tryHarness x).mode.mode = .harnessing ∧ (tryHarness x).mode.cause = x.mode.cause ∧ (tryHarness x).pwr.stage = 2 ∧
      (tryHarness x).sec.toTry = bootOrder x ∧ (tryHarness x).sec.boots = x.sec.boots + 1 := by
  unfold tryHarness
  rw [if_pos (by simp [hp, hm, domRuns, hd, hi, hb, hg, hh])]
  dsimp only
  rw [enterMode_frame]
  exact ⟨rfl, rfl, rfl, rfl, rfl⟩

theorem settledNow_boots {x : Mod} (h : domSt x 424 = .waking) (hm : x.mode.mode = .cold) (hp : x.mode.powered = true)
    (hi : x.ext.inReset = false) (hb : x.mode.bootFailed = false) (hg : mainsGood x = true) (hh : x.pwr.holdup = none)
    (hs : x.pwr.stage ≤ 5) (hr : ∀ sh < 8, (x.trb.get sh).st ≠ .returning) :
    (settledNow 424 x).mode.mode = .harnessing ∧ (settledNow 424 x).mode.cause = x.mode.cause ∧ (settledNow 424 x).pwr.stage = 2 ∧
      (settledNow 424 x).sec.toTry = bootOrder x ∧ (settledNow 424 x).sec.boots = x.sec.boots + 1 := by
  obtain ⟨hpart, hdom⟩ := domainSettled_boot h hs hr
  unfold settledNow
  generalize domainSettled 424 x = z at hpart hdom ⊢
  simp only [bootPart, Prod.mk.injEq] at hpart
  obtain ⟨hmode, hsec, hext, -, ha, hb', hhold⟩ := hpart
  have hmains : mainsGood z = true := by
    unfold mainsGood
    rw [ha, hb']
    exact hg
  obtain ⟨h1, h2, h3, h4, h5⟩ := tryHarness_effect (x := z) (by rw [hmode, hp]) (by rw [hmode, hm]) hdom (by rw [hext, hi])
    (by rw [hmode, hb]) hmains (by rw [hhold, hh])
  refine ⟨h1, h2.trans (by rw [hmode]), h3, h4.trans ?_, h5.trans (by rw [hsec])⟩
  unfold bootOrder
  rw [hsec]

/-! ### The boot ROM checks an image (18 R534, R535) -/

/-- The check of an image reads its slot's state and length, the fuses and MIN_SVN. -/
theorem fwCheck_eq {x y : Mod} (l : List Host.Cell) (k : Nat) (hst : (y.sec.slots.get k).st = (x.sec.slots.get k).st)
    (hn : (y.sec.slots.get k).next = (x.sec.slots.get k).next) (hf : y.sec.fuses = x.sec.fuses) (hm : y.sec.minSvn = x.sec.minSvn) :
    fwCheck y l k = fwCheck x l k := by
  unfold fwCheck
  simp only [hst, hn, hf, hm]

/-- The module as the check of the image of slot `k` finds it, its result kept, the slots after it still to try. -/
def imageChecked (l : List Host.Cell) (k : Nat) (rest : List Nat) (x : Mod) : Mod :=
  let x1 := setSlot k (fun o => { o with tried := if o.st == .trial then true else o.tried }) x
  { x1 with sec := { x1.sec with result := x1.sec.result.set k (fwCheck x l k), toTry := rest } }

/-- What the failed check of an image leaves. -/
def imageFailed (l : List Host.Cell) (k : Nat) (rest : List Nat) (x : Mod) : Mod :=
  let x2 := imageChecked l k rest x
  setSlot k (fun o => { o with st := if o.st == .committed then .committed else .invalid }) { x2 with sec := { x2.sec with fallback := true } }

theorem checkImage_eq {k : Nat} {t : List Nat} {x : Mod} (l : List Host.Cell) (hm : x.mode.mode = .harnessing) (hr : x.sec.running = false)
    (hd : domRuns x 424 = true) (ht : x.sec.toTry = k :: t) : checkImage (x, l) =
      if fwCheck x l k = secOk then
        (setStage 3 (setPwr (fun p => { p with fwAt := x.now }) (repeatCommit l (runImage l k (imageChecked l k t x)))), l)
      else if t = [] then bootFails (imageFailed l k t x, l) else (imageFailed l k t x, l) := by
  have hcheck : fwCheck (setSlot k (fun o => { o with tried := if o.st == .trial then true else o.tried }) x) l k = fwCheck x l k :=
    fwCheck_eq l k (by rw [setSlot, Map.get_upd_same]) (by rw [setSlot, Map.get_upd_same]) rfl rfl
  unfold checkImage
  dsimp only
  rw [if_neg (by simp [hm, hr, hd])]
  simp only [ht, hcheck]
  rfl

theorem imageChecked_slot (l : List Host.Cell) (k : Nat) (t : List Nat) (x : Mod) : (imageChecked l k t x).sec.slots.get k =
    { x.sec.slots.get k with tried := if (x.sec.slots.get k).st == .trial then true else (x.sec.slots.get k).tried } :=
  Map.get_upd_same _ _ _

/-- The module without what a commit changes. -/
def uncommitted (x : Mod) : Mod := { x with sec := { x.sec with minSvn := 0, fuses := 0 } }

theorem uncommitted_commitActions (l : List Host.Cell) (k : Nat) (x : Mod) : uncommitted (commitActions l k x) = uncommitted x := by
  unfold uncommitted commitActions
  dsimp only

/-- The commit of slots that are committed raises MIN_SVN and blows fuses, and nothing else. -/
theorem repeatCommit_effect (l : List Host.Cell) (x : Mod) :
    uncommitted (repeatCommit l x) = uncommitted x ∧ x.sec.minSvn.toNat ≤ (repeatCommit l x).sec.minSvn.toNat := by
  refine ⟨foldl_keeps uncommitted _ _ _ fun a k => ?_,
    List.foldlRecOn (motive := fun a : Mod => x.sec.minSvn.toNat ≤ a.sec.minSvn.toNat) [0, 1] _ le_rfl fun a ha k _ => ?_⟩
  · split
    · exact uncommitted_commitActions l k a
    · rfl
  · split
    · exact ha.trans (commitActions_minSvn l k a)
    · exact ha

/-- An image that passes runs. -/
theorem checkImage_passes {k : Nat} {t : List Nat} {x : Mod} (l : List Host.Cell) (hm : x.mode.mode = .harnessing) (hr : x.sec.running = false)
    (hd : domRuns x 424 = true) (ht : x.sec.toTry = k :: t) (hok : fwCheck x l k = secOk) :
    (fun (m : Mod) (b : List Host.Cell) => b = l ∧ m.sec.running = true ∧ m.sec.runSlot = k ∧ m.dax.up = true ∧ m.pwr.stage = 3 ∧
      m.sec.svn = BitVec.ofNat 32 (fwSvn (fwHeader l k)) ∧ m.sec.trial = ((x.sec.slots.get k).st == .trial) ∧
      (m.sec.trial = true → (m.sec.slots.get k).tried = true) ∧ x.sec.minSvn.toNat ≤ m.sec.minSvn.toNat)
      (checkImage (x, l)).1 (checkImage (x, l)).2 := by
  have hslot := imageChecked_slot l k t x
  have hmin : (imageChecked l k t x).sec.minSvn = x.sec.minSvn := rfl
  rw [checkImage_eq l hm hr hd ht, if_pos hok]
  generalize imageChecked l k t x = y at hslot hmin ⊢
  obtain ⟨hcommit, hle⟩ := repeatCommit_effect l (runImage l k y)
  generalize repeatCommit l (runImage l k y) = z at hcommit hle ⊢
  have hsec := congrArg Mod.sec hcommit
  have hdax : z.dax = (runImage l k y).dax := (congrArg Mod.dax hcommit :)
  have hrun : z.sec.trial = (runImage l k y).sec.trial := (congrArg Sec.trial hsec :)
  have htrial : z.sec.trial = ((x.sec.slots.get k).st == .trial) := by
    rw [hrun]
    dsimp only [runImage]
    rw [hslot]
  have htried : z.sec.slots.get k = y.sec.slots.get k := (congrArg (fun o : Sec => o.slots.get k) hsec :)
  refine ⟨rfl, (congrArg Sec.running hsec :), (congrArg Sec.runSlot hsec :), (congrArg Dax.up hdax :), rfl, (congrArg Sec.svn hsec :), htrial,
    fun h => ?_, hmin ▸ hle⟩
  have h' : ((x.sec.slots.get k).st == .trial) = true := htrial.symm.trans h
  have hgoal : (z.sec.slots.get k).tried = true := by rw [htried, hslot, h']; rfl
  exact hgoal

/-- An image that fails leaves its slot invalid unless it is committed, and the next slot is tried. -/
theorem checkImage_fails {k : Nat} {t : List Nat} {x : Mod} (l : List Host.Cell) (hm : x.mode.mode = .harnessing) (hr : x.sec.running = false)
    (hd : domRuns x 424 = true) (ht : x.sec.toTry = k :: t) (hbad : fwCheck x l k ≠ secOk) (hrest : t ≠ []) :
    (fun (m : Mod) (b : List Host.Cell) => b = l ∧ m.sec.running = false ∧ m.sec.toTry = t ∧ m.sec.fallback = true ∧
      m.sec.result.get k = fwCheck x l k ∧ m.mode = x.mode ∧
      (m.sec.slots.get k).st = (if (x.sec.slots.get k).st = .committed then .committed else .invalid)) (checkImage (x, l)).1
      (checkImage (x, l)).2 := by
  rw [checkImage_eq l hm hr hd ht, if_neg hbad, if_neg hrest]
  have hst : ((imageFailed l k t x).sec.slots.get k).st = (if (x.sec.slots.get k).st = .committed then .committed else .invalid) := by
    unfold imageFailed
    dsimp only [setSlot]
    rw [Map.get_upd_same, imageChecked_slot]
    cases (x.sec.slots.get k).st <;> rfl
  exact ⟨rfl, hr, rfl, rfl, Map.get_set_same _ _ _, rfl, hst⟩

theorem checkImage_last {k : Nat} {x : Mod} (l : List Host.Cell) (hm : x.mode.mode = .harnessing) (hr : x.sec.running = false)
    (hd : domRuns x 424 = true) (ht : x.sec.toTry = [k]) (hbad : fwCheck x l k ≠ secOk) :
    checkImage (x, l) = (setMode (fun m => { m with bootFailed := true }) (coldMod 9 (abortAll (imageFailed l k [] x))),
      Memory.erase l 0 0x10000) := by
  rw [checkImage_eq l hm hr hd ht, if_neg hbad, if_pos rfl]
  unfold bootFails enterCold
  dsimp only

/-! ### The patch is verified (14 R454) -/

theorem patchFail_raised (l : List Nat) {s : Nat} {x : Mod} (h : s ∈ l ∨ evtSet (.shed s) evPatchFail x = true) :
    evtSet (.shed s) evPatchFail (l.foldl (fun a s => raise (.shed s) evPatchFail a) x) = true := by
  induction l generalizing x with
  | nil => exact h.resolve_left (by simp)
  | cons k t ih =>
    refine ih ?_
    by_cases hk : s = k
    · subst hk
      exact .inr (raise_evtSet _ _ _ (by decide))
    · exact h.imp (fun h => (List.mem_cons.mp h).resolve_left hk) fun h => raise_evtSet_mono _ _ _ _ _ h

theorem patchVerify_effect {x : Mod} (l : List Host.Cell) (hm : x.mode.mode = .harnessing) (hup : x.dax.up = true) (hs : x.pwr.stage = 5) :
    (patchVerifyNow l x).pwr.stage = 6 ∧ (patchVerifyNow l x).patch.result = (patchCheck x (patchImage x l)).1 ∧
      ((patchVerifyNow l x).patch.verified = true ↔ (patchCheck x (patchImage x l)).1 = 0) ∧
      ((patchCheck x (patchImage x l)).1 ≠ 0 → (patchCheck x (patchImage x l)).1 ≠ 8 →
        ∀ sh < 8, evtSet (.shed sh) evPatchFail (patchVerifyNow l x) = true) := by
  have hdue : ¬ (!(x.mode.mode == .harnessing && x.dax.up && x.pwr.stage == 5)) = true := by simp [hm, hup, hs]
  unfold patchVerifyNow
  rw [if_neg hdue]
  dsimp only
  generalize patchCheck x (patchImage x l) = c
  generalize hz : ({ x with
    patch := { result := c.1, verified := c.1 == 0, revision := c.2.1, recs := c.2.2.2 }
    sec := { x.sec with
      patchRev := if c.1 = 0 then some c.2.1 else none
      patchDig := if c.1 = 0 then c.2.2.1 else 0 }
    ost := (List.range 8).foldl (fun o s => o.upd s (fun e => { e with result := c.1 })) x.ost
    pwr := { x.pwr with stage := 6, stageAt := x.now, wAt := x.now } } : Mod) = z
  have hstage : z.pwr.stage = 6 := by rw [← hz]
  have hpatch : z.patch.result = c.1 ∧ (z.patch.verified = true ↔ c.1 = 0) := by
    rw [← hz]
    exact ⟨rfl, by simp⟩
  obtain ⟨hkeeps, hkeeps'⟩ : ((List.range 8).foldl (fun a s => raise (.shed s) evPatchFail a) z).pwr = z.pwr ∧
      ((List.range 8).foldl (fun a s => raise (.shed s) evPatchFail a) z).patch = z.patch :=
    Prod.mk.inj (foldl_keeps (fun a : Mod => (a.pwr, a.patch)) _ _ _ fun a s => by rw [raise_raised]; rfl)
  split
  next h =>
    refine ⟨hstage, hpatch.1, hpatch.2, fun h0 h8 => absurd h ?_⟩
    simp [h0, h8]
  next =>
    rw [hkeeps, hkeeps']
    refine ⟨hstage, hpatch.1, hpatch.2, fun _ _ sh hsh => ?_⟩
    exact patchFail_raised (List.range 8) (.inl (List.mem_range.mpr hsh))

/-! ### Commands that end in Cold -/

theorem resetAsserted_exec {s : State} (ha : arrives .modResetAssert s.mod = true) (hp : s.mod.mode.powered = true)
    (hr : s.mod.ext.inReset = false) : exec .modResetAssert s =
      .next { s with mod := coldMod 1 (abortAll (heldInReset s.mod)), mem := Memory.erase s.mem 0 0x10000 } :=
  (cmdAll_arrives .modResetAssert resetAsserted s ha).trans (by rw [resetAsserted_due s.mem hp hr])

theorem scheduledResets_exec {t : Nat} {s : State} (ha : arrives .scheduledReset s.mod = true) (hr : s.mod.mode.resetAt = some t)
    (ht : t ≤ s.mod.now) : exec .scheduledReset s =
      .next { s with mod := coldMod s.mod.mode.resetCause (abortAll s.mod), mem := Memory.erase s.mem 0 0x10000 } :=
  (cmdAll_arrives .scheduledReset scheduledResets s ha).trans (by rw [scheduledResets_due s.mem hr ht])

theorem lastImage_exec {k : Nat} {s : State} (ha : arrives .firmwareImageCheck s.mod = true) (hm : s.mod.mode.mode = .harnessing)
    (hr : s.mod.sec.running = false) (hd : domRuns s.mod 424 = true) (ht : s.mod.sec.toTry = [k]) (hbad : fwCheck s.mod s.mem k ≠ secOk) :
    exec .firmwareImageCheck s =
      .next { s with mod := setMode (fun m => { m with bootFailed := true }) (coldMod 9 (abortAll (imageFailed s.mem k [] s.mod)))
                     mem := Memory.erase s.mem 0 0x10000 } :=
  (cmdAll_arrives .firmwareImageCheck checkImage s ha).trans (by rw [checkImage_last s.mem hm hr hd ht hbad])

theorem failedBoot_effect (x : Mod) : (setMode (fun m => { m with bootFailed := true }) (coldMod 9 x)).mode.mode = .cold ∧
    (setMode (fun m => { m with bootFailed := true }) (coldMod 9 x)).mode.cause = 9 ∧
    (setMode (fun m => { m with bootFailed := true }) (coldMod 9 x)).mode.bootFailed = true := ⟨rfl, rfl, rfl⟩

theorem resetAsserted_clause {s : State} (ha : arrives .modResetAssert s.mod = true) (hp : s.mod.mode.powered = true)
    (hr : s.mod.ext.inReset = false) :
    AnswersBuf .modResetAssert s fun m _ => m.mode.mode = .cold ∧ m.mode.cause = 1 ∧ m.host.up = false ∧ m.tt.active = none ∧
      ((∀ p, (s.mod.line.ports.get p).tx = none) → m.ext.inReset = true ∧ m.now = s.mod.now ∧
        m.sec.slots = s.mod.sec.slots ∧ m.sec.enrol = s.mod.sec.enrol) := by
  obtain ⟨hmode, hup, hact, hin, hnow, hslots, henrol⟩ :=
    coldMod_effect 1 (abortAll (heldInReset s.mod))
  refine ⟨_, _, resetAsserted_exec ha hp hr, by rw [hmode], by rw [hmode], hup, hact, fun htx => ?_⟩
  rw [hin, hnow, hslots, henrol, abortAll_idle (x := heldInReset s.mod) htx]
  exact ⟨rfl, rfl, rfl, rfl⟩

/-- Settles O54: dropping what is inside leaves the mode but for its count, waves leave mode and reply, and a reset keeps what its pin keeps. -/
theorem modesAndResets : Obligations.ModesAndResets := by
  unfold Obligations.ModesAndResets
  refine ⟨fun n s ha hr => ?_, fun t s ha ht => ?_, fun s ha => ⟨fun hm ht => ?_, fun hm => ?_⟩, fun s ha => ⟨fun h => ?_, fun hm hs hw hrun hh => ?_,
    fun hm hs hw => ?_⟩, fun s ha hup => ?_, fun t s ha hr hd => ?_, fun s ha hp hr => ?_, fun s ha hp hr => ?_,
    fun s ha h hm hp hi hb hg hh hs hr => ?_, fun t s ha hr ht => ?_, fun s ha hp hr => ?_, fun k t s ha hm hr hd ht => ?_, fun s ha hm hup hs => ?_⟩
  · obtain ⟨hst, hop, hbegan, hquiet⟩ := hr
    have hrun : running s.mod n 3 := ⟨hst, hop, hbegan, hquiet⟩
    dsimp only
    refine ⟨fun h => ends_of (modeChangeCmd n) rfl ha hrun (modeChange_invalid h), fun h hb => ends_of (modeChangeCmd n) rfl ha hrun (modeChange_busy h hb),
      fun h hi hb => ⟨fun hm hw => ?_, fun hm hw ht => ?_, fun hm hw => ?_, fun hm hw => ?_, fun hm =>
        ends_of (modeChangeCmd n) rfl ha hrun (modeChange_wrong h hi hb hm)⟩⟩
    · exact answersBuf_onCommand (modeChangeCmd n) rfl ha hrun (modeChange_drains h hi hb hm hw) ⟨rfl, rfl, rfl, rfl, rfl⟩
    · exact answersBuf_onCommand (modeChangeCmd n) rfl ha hrun (modeChange_standalone h hi hb hm hw ht) (standalone_effect hquiet s.mem)
    · obtain ⟨hrep, hmode⟩ := changeMode_effect hquiet .diagnostic s.mem
      exact answersBuf_onCommand (modeChangeCmd n) rfl ha hrun (modeChange_diagnostic h hi hb hm hw)
        ⟨hrep, by rw [hmode], by rw [hmode], by rw [hmode]⟩
    · obtain ⟨hrep, hmode⟩ := changeMode_effect hquiet .quiesced s.mem
      exact answersBuf_onCommand (modeChangeCmd n) rfl ha hrun (modeChange_back h hi hb hm hw) ⟨hrep, by rw [hmode], by rw [hmode]⟩
  · dsimp only
    refine ⟨fun hup h => answersBuf_of drainOver rfl ha ?_, fun h => answersBuf_of drainOver rfl ha ?_⟩
    · rw [drainOver_ends s.mem ht hup h]
      exact ⟨rfl, rfl, rfl, rfl, rfl⟩
    · rw [drainOver_waits s.mem ht h]
      exact ⟨rfl, rfl⟩
  · exact answers_of sessionEnds rfl ha (sessionEnds_mode hm ht)
  · exact answers_of sessionEnds rfl ha (sessionEnds_other hm)
  · exact answers_of discoveryEnds rfl ha (discoveryEnds_early h)
  · exact answers_of discoveryEnds rfl ha (discoveryEnds_verifies hm hs hw hrun hh)
  · exact answers_of discoveryEnds rfl ha (discoveryEnds_quiesced hm hs hw)
  · exact answersBuf_of firmwareFails rfl ha (firmwareFails_effect s.mem hup)
  · refine answersBuf_of firmwareServes rfl ha ?_
    rw [firmwareServes_effect s.mem hr hd]
    exact ⟨rfl, rfl⟩
  · exact resetAsserted_clause ha hp hr
  · exact answers_of resetReleased rfl ha (resetReleased_due hp hr)
  · exact answers_of (settledNow 424) rfl ha (settledNow_boots h hm hp hi hb hg hh hs hr)
  · obtain ⟨hmode, hup, hact, -⟩ := coldMod_effect s.mod.mode.resetCause (abortAll s.mod)
    exact ⟨_, _, scheduledResets_exec ha hr ht, by rw [hmode], by rw [hmode], by rw [hmode], hup, hact⟩
  · exact answers_of resetGlitches rfl ha (resetGlitches_effect hp hr)
  · by_cases hok : fwCheck s.mod s.mem k = secOk
    · exact answersBuf_of checkImage rfl ha ⟨fun _ => checkImage_passes s.mem hm hr hd ht hok, fun h => absurd hok h, fun h => absurd hok h⟩
    · by_cases hrest : t = []
      · subst hrest
        have hfails := failedBoot_effect (abortAll (imageFailed s.mem k [] s.mod))
        exact ⟨_, _, lastImage_exec ha hm hr hd ht hok, fun h => absurd h hok, fun _ h => absurd rfl h, fun _ _ => hfails⟩
      · exact answersBuf_of checkImage rfl ha
          ⟨fun h => absurd h hok, fun _ _ => checkImage_fails s.mem hm hr hd ht hok hrest, fun _ h => absurd h hrest⟩
  · exact answersBuf_of (fun y => (patchVerifyNow y.2 y.1, y.2)) rfl ha ⟨rfl, patchVerify_effect s.mem hm hup hs⟩

end Sys2Proof.Machine
end

section
/-! Proofs about the admission to the Loft (06 R193, R194; 01 R23). -/

namespace Sys2Proof.Machine

-- One theorem at a time: each thread that elaborates another reserves a stack, and their sum has a limit.
set_option Elab.async false

/-! ### What capturing leaves -/

/-- The module without captures, frames, events and errors of words. -/
def uncaptured (x : Mod) : Mod := { raised x {} with
  cap := {}
  frames := .const none
  ecc := [] }

/-- Whether a frame was admitted or refused. -/
def fate (x : Mod) (f : Nat) : Option (Bool × Bool) := (frame? x f).map (fun r => (r.admitted, r.refused))

/-- From `x` to `y` nothing changes but captures, events, errors of words, and what frames show of them. -/
structure Captures (x y : Mod) : Prop where
  part : uncaptured y = uncaptured x
  fate : ∀ f, fate y f = fate x f

namespace Captures

variable {x y z : Mod}

theorem refl (x : Mod) : Captures x x := ⟨rfl, fun _ => rfl⟩

theorem trans (h : Captures x y) (k : Captures y z) : Captures x z := ⟨k.part.trans h.part, fun f => (k.fate f).trans (h.fate f)⟩

/-- An update of what is not a frame. -/
theorem same (h : Captures x y) (e : uncaptured z = uncaptured y := by rfl) (k : z.frames = y.frames := by rfl) : Captures x z :=
  h.trans ⟨e, fun f => by simp only [Machine.fate, frame?, k]⟩

theorem ite {c : Prop} [Decidable c] (h : Captures x y) (k : Captures x z) : Captures x (if c then y else z) := by
  split
  · exact h
  · exact k

theorem foldl {β : Type} {f : Mod → β → Mod} {l : List β} (step : ∀ a e, Captures x a → Captures x (f a e)) (h : Captures x y) :
    Captures x (l.foldl f y) := List.foldlRecOn l f h fun a ha e _ => step a e ha

theorem raise {l : Level} {e : Evt} (h : Captures x y) : Captures x (raise l e y) :=
  h.same (by rw [raise_raised]; rfl) (by rw [raise_raised]; rfl)

theorem setFrame {f : Nat} {g : Frame → Frame} (h : Captures x y)
    (hg : ∀ r, (g r).admitted = r.admitted ∧ (g r).refused = r.refused := by exact fun _ => ⟨rfl, rfl⟩) : Captures x (setFrame f g y) :=
  h.trans ⟨rfl, fun k => by
    unfold Machine.fate frame? Machine.setFrame
    by_cases hk : k = f
    · subst hk
      rw [Map.get_upd_same]
      cases y.frames.get k with
      | none => rfl
      | some r => simp [hg r]
    · rw [Map.get_upd_other _ hk]⟩

theorem setCap {s : Nat} {g : ShedCap → ShedCap} (h : Captures x y) : Captures x (setCap s g y) := h.same

theorem setCapRing {r : Nat} {g : CapRing → CapRing} (h : Captures x y) : Captures x (setCapRing r g y) := h.same

theorem buffer {r : Nat} {l : List Byte} (h : Captures x y) : Captures x (buffer r l y) := h.same

theorem writeMarker {r : Nat} (h : Captures x y) : Captures x (writeMarker r y) := .ite h (.buffer h.setCapRing)

theorem offerRecord {r : Nat} {hdr data : List Byte} (h : Captures x y) : Captures x (offerRecord r hdr data y) :=
  .ite h (.ite (.buffer (.setCapRing h.writeMarker)) (.raise (.setCapRing (.setCapRing h.writeMarker))))

theorem preciseRecord {f : Nat} {fr : Frame} {c : Option Copy} {cause n : Nat} {txLast : Option Nat} (h : Captures x y) :
    Captures x (preciseRecord f fr c cause n txLast y) :=
  .ite h (.setCap (.ite h h.offerRecord))

theorem pcAdd {s n k : Nat} (h : Captures x y) : Captures x (pcAdd s n k y) := .ite (.raise (h.setCap)) h.setCap

theorem pcPort {p code k : Nat} (h : Captures x y) : Captures x (pcPort p code k y) :=
  .ite (.foldl (fun _ _ ha => .ite ha.pcAdd ha) h) h

theorem preciseCount {s f : Nat} (h : Captures x y) : Captures x (preciseCount s f y) :=
  .ite h (.ite h.setCap (.ite (.raise (.setCap h.setCap)) (.setFrame (.setCap h.setCap))))

theorem preciseSelect {f : Nat} {fr : Frame} (h : Captures x y) : Captures x (preciseSelect f fr y) := by
  unfold Machine.preciseSelect
  dsimp only
  refine .ite h (.foldl (fun a e ha => .setFrame ha.preciseCount) ?_)
  split
  · exact h.setCap
  · exact h

theorem loft (h : Captures x y) : y.loft = x.loft := (congrArg Mod.loft h.part :)

theorem ctrs (h : Captures x y) : y.ctrs = x.ctrs := (congrArg Mod.ctrs h.part :)

theorem now (h : Captures x y) : y.now = x.now := (congrArg Mod.now h.part :)

theorem tt (h : Captures x y) : y.tt = x.tt := (congrArg Mod.tt h.part :)

theorem pwr (h : Captures x y) : y.pwr = x.pwr := (congrArg Mod.pwr h.part :)

theorem frameCfg (h : Captures x y) (fr : Frame) : frameCfg y fr = frameCfg x fr := by
  unfold Machine.frameCfg bankCfg
  rw [h.tt]

theorem byteAt (h : Captures x y) (fr : Frame) (n : Nat) : byteAt y fr n = byteAt x fr n := by
  unfold Machine.byteAt inGbps
  rw [h.frameCfg]

theorem arrivedBytes (h : Captures x y) (fr : Frame) : arrivedBytes y fr = arrivedBytes x fr := by
  unfold Machine.arrivedBytes lastIn lastByte inGbps
  rw [h.byteAt, h.frameCfg, h.now]

theorem decideAdmit (h : Captures x y) (c : TtContent) (s p cls n : Nat) : decideAdmit y c s p cls n = decideAdmit x c s p cls n := by
  unfold Machine.decideAdmit sharedFree
  rw [h.loft]

theorem allocFrom (h : Captures x y) (s : Nat) : allocFrom y s = allocFrom x s := by
  funext b
  unfold Machine.allocFrom domRuns domSt
  rw [h.loft, h.pwr]

theorem allocFree (h : Captures x y) (s : Nat) : allocFree y s = allocFree x s := by
  unfold Machine.allocFree heldIn
  rw [h.allocFrom, h.loft]

theorem takeCells (h : Captures x y) (s n : Nat) : takeCells y s n = takeCells x s n := by
  unfold Machine.takeCells
  rw [h.allocFrom, h.loft]

end Captures

/-! ### What follows a change of use leaves the cells -/

/-- The frames, and the cells of a shed with the frames they hold. -/
def cellChains (s : Nat) (x : Mod) : Map Nat (Option Frame) × Map Nat (Option Held) × Map Nat CellSt :=
  (x.frames, (x.loft.get s).held, (x.loft.get s).cells)

theorem cellChains_of_same {s : Nat} {x y : Mod} (hf : y.frames = x.frames) (hl : y.loft = x.loft) : cellChains s y = cellChains s x := by
  simp only [cellChains, hf, hl]

theorem cellChains_raise (s : Nat) (l : Level) (e : Evt) (x : Mod) : cellChains s (raise l e x) = cellChains s x :=
  cellChains_of_same (by rw [raise_raised]; rfl) (by rw [raise_raised]; rfl)

theorem cellChains_setLoft {s : Nat} {g : Loft → Loft} (x : Mod)
    (h : ∀ l, (g l).held = l.held ∧ (g l).cells = l.cells := by exact fun _ => ⟨rfl, rfl⟩) : cellChains s (setLoft s g x) = cellChains s x := by
  simp only [cellChains, setLoft, Map.get_upd_same, (h _).1, (h _).2]

theorem cellChains_loftBankWake (s : Nat) (x : Mod) : cellChains s (loftBankWake s x) = cellChains s x := by
  have h0 : cellChains s (setLoft s (fun l => { l with noAlloc := none }) x) = cellChains s x := cellChains_setLoft x
  unfold loftBankWake
  dsimp only
  split
  · split
    · exact h0
    · split
      · exact (congrArg (cellChains s) (askWake_offPower _ _ _) :).trans h0
      · exact h0
  · rfl

theorem cellChains_loftWatch (s : Nat) (x : Mod) : cellChains s (loftWatch s x) = cellChains s x := by
  have hr : ∀ (c : Bool) (e : Evt) (y : Mod), cellChains s (if c then raise (.shed s) e y else y) = cellChains s y := fun c e y => by
    split
    · exact cellChains_raise _ _ _ _
    · rfl
  unfold loftWatch
  dsimp only
  rw [cellChains_loftBankWake, hr, hr]
  exact cellChains_setLoft x

theorem cellChains_pauseUpdate (s p cls before : Nat) (x : Mod) : cellChains s (pauseUpdate s p cls before x) = cellChains s x := by
  have hask : ∀ (c : Option Nat) (b : Bool) (y : Mod), cellChains s (askPause p c b y) = cellChains s y := fun _ _ _ => rfl
  have htally : ∀ (c : CtrId) (y : Mod), cellChains s (tally c y) = cellChains s y := fun _ _ => rfl
  unfold pauseUpdate
  dsimp only
  split
  · rfl
  split
  · rw [hask, htally, cellChains_setLoft x]
  split
  · split
    · rw [hask, cellChains_setLoft x]
    · split
      · rw [hask, cellChains_setLoft x]
      · exact cellChains_setLoft x
  · rfl

theorem cellChains_setUse (s p cls pool : Nat) (f : Nat → Nat) (x : Mod) : cellChains s (setUse s p cls pool f x) = cellChains s x := by
  unfold setUse
  dsimp only
  split
  · rw [cellChains_pauseUpdate]
    exact cellChains_setLoft x
  · exact cellChains_setLoft x

/-! ### A frame takes its cells -/

theorem get_setAll (k : CellSt) (l : List Nat) (m : Map Nat CellSt) (a : Nat) (h : a ∈ l ∨ m.get a = k) :
    (l.foldl (fun m c => m.set c k) m).get a = k := by
  induction l generalizing m with
  | nil => exact h.resolve_left (by simp)
  | cons c t ih =>
    refine ih _ ?_
    by_cases hc : a = c
    · subst hc
      exact .inr (Map.get_set_same _ _ _)
    · rw [Map.get_set_other _ hc]
      exact h.imp_left fun h => (List.mem_cons.mp h).resolve_left hc

/-- A frame that is stored holds the cells it takes, each with one reference and its descriptor as owner. -/
theorem storeFrame_effect (s f pool p cls src reserve len : Nat) (x : Mod) :
    (storeFrame s f pool p cls src reserve len x).frames = x.frames ∧
      ∃ h, held? (storeFrame s f pool p cls src reserve len x) s f = some h ∧ h.cells = takeCells x s (cellsFor len) ∧
        h.unwritten = reserve - cellsFor len ∧ h.pool = pool ∧ h.port = p ∧ h.cls = cls ∧
        ∀ a ∈ h.cells, ((storeFrame s f pool p cls src reserve len x).loft.get s).cells.get a = { count := 1, owner := h.desc } := by
  unfold storeFrame
  dsimp only
  generalize takeCells x s (cellsFor len) = cells
  generalize freeDesc _ _ 0 = d
  have hchains := fun g y => (cellChains_loftWatch s (setUse s p cls pool g y)).trans (cellChains_setUse s p cls pool g y)
  generalize hy : setLoft s _ (eccWrite (cellWords s cells) x) = y
  have hframes : y.frames = x.frames := by rw [← hy]; rfl
  have hheld : (y.loft.get s).held.get f = some { desc := d, cells := cells, unwritten := reserve - cellsFor len, pool := pool, port := p,
                                                  cls := cls, src := src } := by
    rw [← hy, setLoft, Map.get_upd_same, Map.get_set_same]
  have hcells : ∀ a ∈ cells, (y.loft.get s).cells.get a = { count := 1, owner := d } := fun a ha => by
    rw [← hy, setLoft, Map.get_upd_same]
    exact get_setAll _ _ _ _ (.inl ha)
  have hy' := hchains (· + max reserve (cellsFor len)) y
  generalize loftWatch s (setUse s p cls pool (· + max reserve (cellsFor len)) y) = z at hy' ⊢
  simp only [cellChains, Prod.mk.injEq] at hy'
  obtain ⟨kframes, kheld, kcells⟩ := hy'
  refine ⟨kframes.trans hframes, { desc := d, cells := cells, unwritten := reserve - cellsFor len, pool := pool, port := p, cls := cls, src := src },
    ?_, rfl, rfl, rfl, rfl, rfl, fun a ha => ?_⟩
  · unfold held?
    rw [kheld, hheld]
  · rw [kcells]
    exact hcells a ha

/-! ### Admission (06 R193, R194) -/

/-- A frame that no pool takes is refused. -/
def refuseFrame (f : Nat) (fr : Frame) (x : Mod) : Mod :=
  preciseRecord f fr none 7 64 none (setFrame f (fun r => { r with refused := true }) x)

theorem refuseFrame_effect {f : Nat} {fr : Frame} {x y : Mod} (h : Captures x y) (hf : frame? x f = some fr) (ha : fr.admitted = false) (z : Mod)
    (hz : z.frames = y.frames) : (frame? (refuseFrame f fr z) f).any (fun r => r.refused && !r.admitted) = true ∧
      Captures (setFrame f (fun r => { r with refused := true }) z) (refuseFrame f fr z) := by
  have hcap : Captures (setFrame f (fun r => { r with refused := true }) z) (refuseFrame f fr z) := .preciseRecord (.refl _)
  refine ⟨?_, hcap⟩
  have hy : fate z f = some (false, fr.refused) := by
    have hxy := h.fate f
    unfold fate frame? at hxy ⊢
    rw [hz, hxy, show x.frames.get f = some fr from hf]
    simp [ha]
  obtain ⟨r, hr, hadm⟩ : ∃ r, z.frames.get f = some r ∧ r.admitted = false := by
    unfold fate frame? at hy
    cases hg : z.frames.get f with
    | none => simp [hg] at hy
    | some r =>
      rw [hg] at hy
      simp only [Option.map_some, Option.some.injEq, Prod.mk.injEq] at hy
      exact ⟨r, rfl, hy.1⟩
  have hset : fate (setFrame f (fun r => { r with refused := true }) z) f = some (false, true) := by
    unfold fate frame? setFrame
    rw [Map.get_upd_same, hr]
    simp [hadm]
  have hout := (hcap.fate f).trans hset
  unfold fate at hout
  cases hg : frame? (refuseFrame f fr z) f with
  | none => simp [hg] at hout
  | some q =>
    rw [hg] at hout
    simp only [Option.map_some, Option.some.injEq, Prod.mk.injEq] at hout
    simp [hout.1, hout.2]

section Admission
variable {f : Nat} {fr : Frame} {x : Mod}

/-- The cells that a frame reserves. -/
def reserveOf (x : Mod) (fr : Frame) : Nat :=
  cellsFor ((declaredBy (vectorOf (frameCfg x fr) fr false) 64).getD (vectorOf (frameCfg x fr) fr false).pcfg.maxLen)

/-- The cells that its admission needs. -/
def needOf (x : Mod) (fr : Frame) : Nat := max (reserveOf x fr) (cellsFor (arrivedBytes x fr))

/-- What decides on a frame's admission. -/
def admission (x : Mod) (fr : Frame) : Admit :=
  decideAdmit x (frameCfg x fr) (shedOfPort fr.port) fr.port (portClass (vectorOf (frameCfg x fr) fr false)) (needOf x fr)

/-- The module at the decision, with what captures and performance counters make of the frame's 64th byte. -/
def atByte64 (f : Nat) (fr : Frame) (x : Mod) : Mod := preciseSelect f fr (pcPort fr.port 0x01 1 x)

theorem atByte64_captures (f : Nat) (fr : Frame) (x : Mod) : Captures x (atByte64 f fr x) := .preciseSelect (.pcPort (.refl x))

theorem needOf_captures {y : Mod} (h : Captures x y) : needOf y fr = needOf x fr ∧ reserveOf y fr = reserveOf x fr := by
  unfold needOf reserveOf
  rw [h.frameCfg, h.arrivedBytes]
  exact ⟨rfl, rfl⟩

theorem loftAdmit_eq (hf : frame? x f = some fr) (ha : fr.admitted = false) (hr : fr.refused = false) (hl : 64 ≤ fr.bytes.length)
    (hb : fr.bad = false) (ht : byteAt x fr 64 ≤ x.now) : loftAdmit f x = admitFrame f fr (pcPort fr.port 0x01 1 x) := by
  unfold loftAdmit
  simp only [hf]
  exact if_neg (by simp [ha, hr, hb, Nat.not_lt.mpr hl, Nat.not_lt.mpr ht])

/-- What a decision makes of a frame. -/
def admitBy (a : Admit) (f : Nat) (fr : Frame) (x : Mod) : Mod :=
  match a with
  | .pool k =>
    if needOf x fr ≤ allocFree x (shedOfPort fr.port) then
      storeFrame (shedOfPort fr.port) f k fr.port (portClass (vectorOf (frameCfg x fr) fr false)) (shedOfPort fr.port) (reserveOf x fr)
        (arrivedBytes x fr) (setFrame f (fun r => { r with admitted := true, admAt := r.admAt.or (some (atByte64 f fr x).now) }) (atByte64 f fr x))
    else refuseFrame f fr (tally (.lft (shedOfPort fr.port) 0) (atByte64 f fr x))
  | .lossy => refuseFrame f fr (tally (.lft (shedOfPort fr.port) 0) (atByte64 f fr x))
  | .headroom => refuseFrame f fr (raise (.shed (shedOfPort fr.port)) evHeadroomDrop (tally (.lft (shedOfPort fr.port) 1) (atByte64 f fr x)))

/-- A frame refused after a count keeps the Loft, and is counted. -/
theorem refused_effect {c : CtrId} {z : Mod} (hf : frame? x f = some fr) (ha : fr.admitted = false) (hz : z.frames = (atByte64 f fr x).frames)
    (hloft : z.loft = (atByte64 f fr x).loft) (hc : z.ctrs = (tally c (atByte64 f fr x)).ctrs) :
    (frame? (refuseFrame f fr z) f).any (fun r => r.refused && !r.admitted) = true ∧ counted x c 1 (refuseFrame f fr z) ∧
      (refuseFrame f fr z).loft = x.loft := by
  have h0 := atByte64_captures f fr x
  obtain ⟨hany, hcap⟩ := refuseFrame_effect h0 hf ha z hz
  refine ⟨hany, ?_, hcap.loft.trans (hloft.trans h0.loft)⟩
  have hcyc : (atByte64 f fr x).cyc = x.cyc := by unfold Mod.cyc; rw [h0.now]
  unfold counted
  rw [hcap.ctrs, show (setFrame f (fun r => { r with refused := true }) z).ctrs = z.ctrs from rfl, hc, tally_same, h0.ctrs, hcyc]

/-- A frame that is admitted holds its cells. -/
theorem admitBy_pool {k : Nat} (hf : frame? x f = some fr) (hfit : needOf x fr ≤ allocFree x (shedOfPort fr.port)) :
    (frame? (admitBy (.pool k) f fr x) f).any (·.admitted) = true ∧ ∃ d, held? (admitBy (.pool k) f fr x) (shedOfPort fr.port) f = some d ∧
      d.cells = takeCells x (shedOfPort fr.port) (cellsFor (arrivedBytes x fr)) ∧
      d.unwritten = reserveOf x fr - cellsFor (arrivedBytes x fr) ∧ d.pool = k ∧ d.port = fr.port ∧
      d.cls = portClass (vectorOf (frameCfg x fr) fr false) ∧
      ∀ a ∈ d.cells, ((admitBy (.pool k) f fr x).loft.get (shedOfPort fr.port)).cells.get a = { count := 1, owner := d.desc } := by
  have h0 := atByte64_captures f fr x
  unfold admitBy
  dsimp only
  rw [if_pos hfit]
  generalize atByte64 f fr x = y at h0 ⊢
  generalize hz : setFrame f (fun r => { r with admitted := true, admAt := r.admAt.or (some y.now) }) y = z
  have htake : ∀ n, takeCells z (shedOfPort fr.port) n = takeCells x (shedOfPort fr.port) n := fun n => by
    rw [← h0.takeCells, ← hz]
    rfl
  obtain ⟨hframes, d, hd, hcells, hrest⟩ := storeFrame_effect (shedOfPort fr.port) f k fr.port (portClass (vectorOf (frameCfg x fr) fr false))
    (shedOfPort fr.port) (reserveOf x fr) (arrivedBytes x fr) z
  refine ⟨?_, d, hd, hcells.trans (htake _), hrest⟩
  have hfate : (fate y f).isSome = true := by
    rw [h0.fate f]
    unfold fate
    rw [hf]
    rfl
  unfold fate frame? at hfate
  unfold frame?
  rw [hframes, ← hz, setFrame, Map.get_upd_same]
  cases hg : y.frames.get f with
  | none => simp [hg] at hfate
  | some r => rfl

variable (hf : frame? x f = some fr) (ha : fr.admitted = false) (hr : fr.refused = false) (hl : 64 ≤ fr.bytes.length)
  (hb : fr.bad = false) (ht : byteAt x fr 64 ≤ x.now)
include hf ha hr hl hb ht

/-- The admission decides on what stood before the captures of its byte. -/
theorem loftAdmit_decides : loftAdmit f x = admitBy (admission x fr) f fr x := by
  have hy : Captures x (pcPort fr.port 0x01 1 x) := .pcPort (.refl x)
  have h0 := atByte64_captures f fr x
  rw [loftAdmit_eq hf ha hr hl hb ht]
  unfold admitFrame
  rw [hy.frameCfg, hy.arrivedBytes, show preciseSelect f fr (pcPort fr.port 0x01 1 x) = atByte64 f fr x from rfl]
  simp only [h0.decideAdmit, h0.allocFree]
  unfold admission needOf reserveOf
  cases decideAdmit x (frameCfg x fr) (shedOfPort fr.port) fr.port (portClass (vectorOf (frameCfg x fr) fr false)) _
  · rfl
  · rfl
  · rfl

end Admission

/-- Settles O8: the decision reads what captures of the byte leave alone, and what follows a change of use leaves the cells. -/
theorem loftAdmits : Obligations.LoftAdmits := by
  unfold Obligations.LoftAdmits
  intro f fr s ha hf hadm href hlen hbad ht
  dsimp only
  have hdecides := loftAdmit_decides hf hadm href hlen hbad ht
  refine ⟨fun k h hfit => answers_of (loftAdmit f) rfl ha ?_, fun h => answers_of (loftAdmit f) rfl ha ?_,
    fun h => answers_of (loftAdmit f) rfl ha ?_⟩
  · rw [hdecides, show admission s.mod fr = .pool k from h]
    exact admitBy_pool hf hfit
  · have heq : loftAdmit f s.mod = refuseFrame f fr (tally (.lft (shedOfPort fr.port) 0) (atByte64 f fr s.mod)) := by
      rcases h with h | ⟨⟨k, h⟩, hfit⟩
      · rw [hdecides, show admission s.mod fr = .lossy from h]
        rfl
      · rw [hdecides, show admission s.mod fr = .pool k from h]
        exact if_neg (Nat.not_le.mpr hfit)
    rw [heq]
    exact refused_effect hf hadm rfl rfl rfl
  · have heq : loftAdmit f s.mod = refuseFrame f fr
        (raise (.shed (shedOfPort fr.port)) evHeadroomDrop (tally (.lft (shedOfPort fr.port) 1) (atByte64 f fr s.mod))) := by
      rw [hdecides, show admission s.mod fr = .headroom from h]
      rfl
    rw [heq]
    obtain ⟨h1, h2, h3⟩ := refused_effect (c := .lft (shedOfPort fr.port) 1) (z := raise (.shed (shedOfPort fr.port)) evHeadroomDrop
      (tally (.lft (shedOfPort fr.port) 1) (atByte64 f fr s.mod))) hf hadm (by rw [raise_raised]; rfl) (by rw [raise_raised]; rfl)
      (by rw [raise_raised]; rfl)
    exact ⟨h1, h2, (evtSet_robust _ _).handles.preciseRecord ((evtSet_robust _ _).handles.setFrame (raise_evtSet _ _ _ (by decide))), h3⟩

end Sys2Proof.Machine
end
